-- ==== Sys2Proof/Word.lean ====
section
/-! DEFINITION. The byte, the sparse table and the plainest arithmetic on them. -/

namespace Sys2Proof

/-- One byte of a message, a frame or memory. -/
abbrev Byte := BitVec 8

/-- A sparse table: keys strictly rising, entries equal to the table's default left out (see
`Machine.Tab.wf`). -/
abbrev Tab (α : Type) := List (Nat × α)

end Sys2Proof
end

