-- ==== Sys2Proof/Machine/Types.lean ====
section
/-! DEFINITION. The parts of the state as plain data: one structure for each part of the device that holds more than its
dictionary entries. `State.lean` puts them together. -/

namespace Sys2Proof

/-- The data set of an Announce message that the best master clock algorithm compares (R113). -/
structure Announce where
  priority1 : BitVec 8
  clockClass : BitVec 8
  accuracy : BitVec 8
  variance : BitVec 16
  priority2 : BitVec 8
  grandmaster : BitVec 64
  steps : BitVec 16
  source : BitVec 80
deriving DecidableEq, Repr

end Sys2Proof

namespace Sys2Proof.Machine

/-- Where a message, a frame or a level leaves the device. -/
inductive Path where
  /-- Field-network port p, with the frame's destination address, empty where the manual does not state it (R90, R116). -/
  | port (p : Nat) (dest : List Byte)
  /-- Serial lane l (R336). -/
  | lane (l : Nat)
  /-- The head command record of head n as its latch assembles it (R187), in its frame at A - 200. -/
  | head (n : Nat)
  /-- The debug port's answer pin (R508). -/
  | debug
  /-- A permit, lamp, matrix, clock or pass-through pin, by number of its entry in the pins chapter. -/
  | pin (name : String) (i : Nat)
deriving DecidableEq, Repr

/-- One message, frame or level that left the device: the tick, where, and its bytes. -/
structure Sent where
  tick : Nat
  path : Path
  bytes : List Byte
deriving DecidableEq, Repr

/-- The time island (R35 to R45): the count, TIME64 with its 32-bit fraction, the advance of one tick in 2^-32 units,
the last segments for late stamps, a decided step, the steering parts, and lattice time (R253). -/
structure Time where
  tick : Nat
  time64 : Nat
  frac : Nat
  /-- Advance per tick in 2^-32 units of 1/16 ns: 160 units plus the steering term. -/
  inc : Int
  /-- Offset-correction part of the steering term, in 2^-32 units per tick. -/
  corr : Int
  /-- Newest first: tick, TIME64 * 2^32 + fraction on it, advance from it on. -/
  segs : List (Nat × Nat × Int)
  /-- A step decided and waiting for a multiple of 400: the domain stepped to (R41). -/
  stepDue : Option Nat
  /-- Offset still to be slewed out, in 2^-32 units. -/
  residual : Int
  /-- Rate of the selected domain in parts per 10^9, as last estimated. -/
  rate : Int
  /-- TIME64 has been steered since PORN release. -/
  steered : Bool
  lt : Nat
deriving DecidableEq, Repr

/-- A Sync message that waits for its Follow_Up (R112): port, sequenceId, the tick and the TIME64 value of its receipt, the
TIME_GEN in force then, and its correction in TIME64 units. -/
structure PendingSync where
  port : Nat
  seq : Nat
  tick : Nat
  stamp : Nat
  gen : Nat
  corr : Int
deriving DecidableEq, Repr

/-- The estimate of one PTP domain (R41, R42). -/
structure Domain where
  /-- Accepted syncs since UNLOCKED, saturating at 8. -/
  accepted : Nat
  /-- Tick of the last accepted sync. -/
  lastTick : Nat
  /-- Tick and domain time (in 2^-32 units since the epoch, R35) of the last accepted sync. -/
  refTick : Nat
  refTime : Nat
  /-- Rate in parts per 10^9 from the last two syncs, and from the ones before. -/
  rate : Int
  ratePrev : Int
  haveRef : Bool
  /-- Sync interval of the master in ticks. -/
  interval : Nat
  /-- The selected master: its port, its identity and its announce data. -/
  master : Option Announce
  masterPort : Nat
  /-- Best announce heard on each host port. -/
  heard : List (Nat × Announce)
  /-- Sync messages that wait for their Follow_Up, newest first. -/
  pendingSync : List PendingSync
deriving DecidableEq, Repr

/-- A PTP delay exchange in progress on a port. -/
structure PtpPort where
  /-- Egress stamp and sequenceId of the Delay_Req or Pdelay_Req sent last. -/
  reqSeq : Nat
  reqStamp : Nat
  reqDomain : Nat
  /-- PTP_DELAY_MECH as it was when the measurement began (R115). -/
  reqMech : Nat
  reqOpen : Bool
  /-- Receipt stamp and remote receipt time of the Pdelay_Resp held for its Follow_Up. -/
  respStamp : Nat
  respRemote : Nat
  respSeq : Nat
  respOpen : Bool
  /-- Sync stamps of the selected master for the delay request-response arithmetic. -/
  t1 : Nat
  t2 : Nat
  syncSeq : Nat
  announceSeq : Nat
  /-- Transmit time-stamp queue, oldest first: identifier and stamp (R114). -/
  txts : List (Nat × Nat)
deriving DecidableEq, Repr

/-- An armed time trigger's progress beside its entries (R53 to R55). -/
structure Trigger where
  /-- Tick of the next firing when it has a tick; none while it waits for its instant. -/
  nextTick : Option Nat
  /-- The one-shot was armed late (R54). -/
  late : Bool
deriving DecidableEq, Repr

/-- An event as the registry holds it (R47, R58). -/
structure EvRec where
  /-- The event's own number, by which its notice is known while it is open. -/
  id : Nat
  tick : Nat
  stamp : Nat
  source : Nat
  code : Nat
  cls : Nat
  inst : Nat
  data : Nat
  ext : List (List Byte)
  series : Bool
  merged : Bool
  gen : Nat
  epoch : Nat
  layer : Nat
  /-- 0 none, 1 queued, 2 counted into the summary (R528, R105). -/
  noticed : Nat
  /-- SEQ of its header block, 0xFFFFFFFF until it has one (R102). -/
  seq : Nat
deriving DecidableEq, Repr

/-- One entry of the notice queue (R104): its event's bytes, the sessions it is addressed to, and for each
session it was sent to the notice number and the tick of the last sending. -/
structure Notice where
  /-- The number of an event that is still open (R558); none once it is closed. -/
  openOf : Option Nat
  ev : Option EvRec
  /-- The body of a NOTICE_SUMMARY. -/
  summary : List Byte
  addr : List Nat
  sent : List (Nat × Nat × Nat)
deriving DecidableEq, Repr

/-- The events and the notice queue. -/
structure Events where
  /-- Events whose condition may still be joined by another of the same stamp (R558), in R47 order. -/
  opened : List EvRec
  /-- Notice queue, oldest first. -/
  queue : List Notice
  /-- Coalesced counts per source, ascending (R105), and the number of events in them. -/
  counts : List (Nat × Nat)
  total : Nat
  firstStamp : Nat
  lastStamp : Nat
  /-- Conditions raised by the command in hand, for WAIT_EVENT and repetitive slots: source, code, tick (R523). -/
  hits : List (Nat × Nat × Nat)
  /-- Conditions already raised on the present tick, for a WAIT_EVENT that begins on it (R173). -/
  recent : List (Nat × Nat × Nat)
  /-- Number of the next event. -/
  nextId : Nat
  /-- TIME_GEN, role epoch and LAYER_NUMBER from the end of a tick on, newest first: what a late stamp is given (R58). -/
  past : List (Nat × Nat × Nat × Nat)
deriving DecidableEq, Repr

/-- The journal writer (R57 to R64). -/
structure Journal where
  /-- Closed records in the buffer, oldest first: level (0 EVENT, 1 CHORD, 2 SAMPLE) and record. -/
  buf : List (Nat × EvRec)
  /-- A seal has been asked for. -/
  sealDue : Bool
  /-- SEQ of the next block to be given one. -/
  nextSeq : Nat
  /-- CRC register and block count of the span being written, and blocks since the last periodic seal. -/
  spanCrc : Nat
  spanBlocks : Nat
  wraps : Nat
  /-- Blocks written since the PORN release. -/
  total : Nat
  /-- The last written block overwrote an unread one (R59). -/
  inRun : Bool
  /-- The 75 % notice is outstanding. -/
  above75 : Bool
  /-- Seal record held in the always-on island. -/
  aonSeal : Nat
  /-- The pages of TC57 pinned while the unit runs (R132): the first one and how many. -/
  held : Option (Nat × Nat)
deriving DecidableEq, Repr

/-- An open session (R99 to R103). -/
structure Session where
  num : Nat
  hostId : Nat
  nonce : Nat
  next : Nat
  credit : Nat
  ackSeq : Nat
  sentSeq : Nat
  lastTick : Nat
  lastPort : Nat
  /-- Answers of the last 64 sequence numbers, newest first. -/
  cache : List (Nat × List Byte)
deriving DecidableEq, Repr

/-- A staged guarded change (R437, R449). -/
structure Staged where
  key : Nat
  proposal : Nat
  party : Nat
  session : Nat
  tick : Nat
  stamp : Nat
  value : List Byte
deriving DecidableEq, Repr

/-- A stream endpoint beside its entries (R107 to R111). -/
structure Stream where
  /-- Byte ranges written above MARK: start and end, ascending. -/
  ranges : List (Nat × Nat)
  /-- CRC register over bytes 0 to MARK - 1. -/
  crc : Nat
  /-- Tick of a received frame that no acknowledgement has covered. -/
  ackSince : Option Nat
  /-- Port of the most recent frame. -/
  port : Nat
deriving DecidableEq, Repr

/-- A host command, or a mirrored one, that waits for its EFFECT tick (R416). -/
structure Mirror where
  effect : Nat
  /-- Received from the partner (no answer is sent) rather than from a host. -/
  remote : Bool
  kind : Nat
  port : Nat
  session : Nat
  hostId : Nat
  seq : Nat
  key : Nat
  party : Nat
  proposal : Nat
  bytes : List Byte
  /-- Ports on which a duplicate arrived while the command waited (R100). -/
  dups : List Nat
deriving DecidableEq, Repr

/-- The axis cycle (R116, R117). -/
structure Cyclic where
  /-- Tick of the next application, while enabled. -/
  nextTick : Nat
  cycle : Nat
  /-- Slots whose reply of the running cycle has been taken. -/
  replied : List Nat
  /-- Consecutive cycles without an on-time reply, for slots that have some. -/
  silent : List (Nat × Nat)
deriving DecidableEq, Repr

/-- The device as a whole: held in reset, starting up, running, or stopped at T3 (R484, R502, R539). -/
inductive DevPhase where
  | held | starting | running
deriving DecidableEq, Repr

/-- One stored entry of a keeping-store image: key, type code, length, value (R79). -/
structure Stored where
  key : Nat
  ty : Nat
  len : Nat
  value : Nat
deriving DecidableEq, Repr

/-- A dictionary image with its generation (R76). -/
structure Image where
  gen : Nat
  entries : List Stored
deriving DecidableEq, Repr

/-- The keeping store's dictionary image and the node digest (R75 to R85). -/
structure Keep where
  imgA : Option Image
  imgB : Option Image
  /-- A store in progress: its image. -/
  storing : Option Image
  /-- A KEEP value has changed since the store in progress took its image. -/
  changed : Bool
  /-- A concurred change asked for a store while one was running (R78). -/
  again : Bool
  /-- Tick of the last change to a digest input (R84, R85). -/
  digestTick : Nat
deriving DecidableEq, Repr

/-- An installed calibration record (R454 to R457, R81): type, generation, payload, check word, stamp. -/
structure CalRec where
  gen : Nat
  payload : List Byte
  check : Nat
  stamp : Nat
deriving DecidableEq, Repr

/-- One job page of a translation context (the level-2 entry of R121). -/
structure Page where
  phys : Nat
  write : Bool
  /-- Pins held on the page by windows and pinned-whole units. -/
  pins : Nat
  unmap : Bool
deriving DecidableEq, Repr

/-- What a parked or running transfer of a context is for (R128, R130). -/
inductive Job where
  | none
  /-- A stream frame's bytes: endpoint, job address of the next beat, bytes left. -/
  | stream (e : Nat) (addr : Nat) (data : List Byte)
  /-- A read that stopped at a job address. -/
  | read (addr : Nat)
  /-- A write that stopped at a job address, with its bytes. -/
  | write (addr : Nat) (data : List Byte)
deriving DecidableEq, Repr

/-- A translation context beside its entries. -/
structure Tc where
  /-- The transfer in hand, and those behind it. -/
  job : Job
  more : List Job
  /-- A unit's own write that has parked: where it begins, and the beat it stands at, what lies before being complete (R130). -/
  part : Option (Nat × Nat)
  /-- Beats issued in the present accounting window (R127). -/
  used : Nat
  /-- The beat that faulted needs write access. -/
  faultWrite : Bool
  /-- Tick from which an automatic resume takes effect. -/
  resumeAt : Option Nat
  /-- Chord window: job pages pinned, ascending, and the job pages at which WINDOW_SHORT was raised. -/
  window : List Nat
  shortAt : List Nat
deriving DecidableEq, Repr

/-- Memory: bytes by physical address, pages by context * 2^24 + job page, beats in error. -/
structure Mem where
  bytes : Tab Byte
  pages : Tab (Option Page)
  /-- The level-1 tables, by context * 4096 + span: the pool table of a span that has a level-2 table (R121). -/
  l1 : Tab (Option Nat)
  tcs : Tab Tc
  /-- Physical beat numbers with an uncorrectable error (R120). -/
  bad : List Nat
  /-- Beats moved by all contexts in the present accounting window. -/
  beats : Nat
deriving DecidableEq, Repr

/-- The channel parameters in force for a chord (R161). -/
structure Params where
  markSpeed : Nat
  jumpSpeed : Nat
  focus : Int
  scale : Nat
  dwellLimit : Nat
  dwellTimeout : Nat
deriving DecidableEq, Repr

/-- A decoded chord with resolved coordinates (R147 to R150). -/
inductive Shape where
  | mark (x y : Int)
  | arc (cx cy sweep : Int)
  | jump (x y : Int)
  | facet (slot : Nat) (passes : Nat) (x y : Int) (angle : Nat)
  /-- The move to the park point after ARM (R195). -/
  | park (x y : Int)
deriving DecidableEq, Repr

/-- A chord as its command gives it. -/
structure Chord where
  shape : Shape
  speed : Nat
  power : Nat
  noFF : Bool
  noLoop : Bool
  reorder : Bool
  /-- Job address of its command. -/
  addr : Nat
  par : Params
  /-- Non-chord commands between it and the chord before it in its run. -/
  before : Nat := 0
deriving DecidableEq, Repr

/-- A floating item in a lune queue (R152, R211): chords, poster, where it was posted, its entries. -/
structure Item where
  chords : List Chord
  entries : Nat
  poster : Nat
  addr : Nat
  order : Nat
  /-- Channels that have passed it over for their scan region, by bit (R212). -/
  barred : Nat
  /-- The nominal point its first chord begins at, when that is no JUMP. -/
  sx : Int
  sy : Int
deriving DecidableEq, Repr

/-- A frame of the CALL and REPEAT stack (R162, R164). -/
inductive SFrame where
  | call (ret : Nat) (ox oy : Int)
  | rep (start length count iter : Nat) (ox oy dx dy : Int)
deriving DecidableEq, Repr

/-- What a sequencer waits for outside a chord (R153 to R159, R166). -/
inductive Wait where
  | none
  | posting
  | claiming (any : Bool) (lune limit done : Nat)
  | time (t : Nat) (at' trig serve : Bool)
  | event (source code since timeout : Nat) (serve : Bool)
  | barrier (id mask : Nat) (serve : Bool)
  | closing
  | closed
  /-- A barrier met with another mask while an item was being served (R159): HOLD follows at its end. -/
  | mismatch
deriving DecidableEq, Repr

/-- A piece of a planned path (R176, R177, R179, R236). Velocities are in nm per tick as numerators over `vd`. -/
inductive Seg where
  /-- `n` blanked samples at a point. -/
  | stay (n : Nat) (x y : Int)
  /-- A blanked trapezoidal move of `n` samples. -/
  | move (n : Nat) (x0 y0 x1 y1 : Int) (accel : Nat)
  /-- A lead-in of `n` samples ending at (x, y), with a shift (qx, qy) spread linearly over it. -/
  | leadIn (n : Nat) (x y vx vy : Int) (vd : Nat) (qx qy : Int)
  /-- A lead-out of `n` samples from (x, y). -/
  | leadOut (n : Nat) (x y vx vy : Int) (vd : Nat) (qx qy : Int)
  /-- `n` samples at constant speed along a line; `line` is the facet line swept. -/
  | line (n : Nat) (x0 y0 x1 y1 : Int) (line : Option Nat)
  /-- `n` samples along an arc about (cx, cy). -/
  | arc (n : Nat) (x0 y0 cx cy sweep : Int)
deriving DecidableEq, Repr

/-- A frame of the stack as the window walker follows it (R133): the return of a CALL, or a body, with the address up to which it is
taken, where the program goes on after it, and the stretch of it that an iteration under way has still to repeat. -/
inductive WFrame where
  | call (ret : Nat)
  | body (upto next : Nat) (again : Option (Nat × Nat))
deriving DecidableEq, Repr

/-- A position in a chord program: command address, coordinate offset, stack. -/
structure Cursor where
  pc : Nat
  ox : Int
  oy : Int
  stack : List SFrame
deriving DecidableEq, Repr

/-- A lock region or envelope: the vertices of a convex polygon, counter-clockwise, in nm (R207, R208). -/
abbrev Poly := List (Int × Int)

/-- The regions one chord holds (R209). -/
structure Held where
  lock : Poly
  env : Poly
deriving DecidableEq, Repr

/-- A planned chord of a granted run (R175 to R180). -/
structure Planned where
  chord : Chord
  /-- Application tick of its first sample, of the first marked sample, of the marked end, and its boundary. -/
  first : Nat
  t0 : Nat
  tEnd : Nat
  boundary : Nat
  /-- Start and nominal end of its path, and where the beam rests at its boundary. -/
  sx : Int
  sy : Int
  ex : Int
  ey : Int
  rx : Int
  ry : Int
  segs : List Seg
  held : Held
  /-- It belongs to a run beyond its 64th chord: its regions are held in the tail. -/
  inTail : Bool
  /-- Cursor after the chord, for a chord of the fixed program. -/
  after : Option Cursor
  /-- Its region check has been made (R191). -/
  checked : Bool
  /-- The floating item it belongs to, with its lune. -/
  item : Option (Nat × Item)
deriving DecidableEq, Repr

/-- One gate-on interval with its span (R184). -/
structure Gate where
  on : Nat
  off : Nat
  /-- The nominal instants that the placed edges come from, and the job address it is reported with. -/
  nomOn : Nat
  nomOff : Nat
  addr : Nat
  spanFirst : Nat
  spanLast : Nat
deriving DecidableEq, Repr

/-- A chord run or item that waits for its decision (R210). -/
structure Cand where
  chords : List (Chord × Option Cursor)
  /-- Earliest application instant of its first sample. -/
  earliest : Nat
  /-- Tick of the first failed test. -/
  age : Option Nat
  failing : Nat
  /-- Tick from which the dwell hold runs (R168). -/
  dwellSince : Option Nat
  /-- The floating item offered, with its lune; the index of a reorder item. -/
  item : Option (Nat × Item)
  reorder : Option Nat
  /-- A repair entry (R246), or the remainder of a FACET in pin wait (R242). -/
  repair : Option Nat
  pinWait : Bool
  /-- A claiming or serving channel: the item is chosen afresh at each decision (R212). -/
  claim : Bool
  /-- DWELL_TIMEOUT has elapsed for it (R168). -/
  forced : Bool
  held : List Held
deriving DecidableEq, Repr

/-- The pass in progress of a FACET (R234 to R243). -/
structure Pass where
  slot : Nat
  commit : Nat
  passNo : Nat
  /-- Passes after this one. -/
  left : Nat
  x : Int
  y : Int
  angle : Nat
  noFF : Bool
  noLoop : Bool
  /-- Lines swept, with the tick of their line start. -/
  lines : List (Nat × Nat)
  /-- Line and pixel at which a repair entry begins. -/
  fromAt : Option (Nat × Nat)
  firstLead : Nat
  boundary : Nat
  /-- The pins of the pass have been found (R242). -/
  pinned : Bool
  /-- Line and pixel of the underrun, when the pass has met one. -/
  under : Option (Nat × Nat)
  repair : Option Nat
  /-- Tile rows whose empty blocks have been counted (R251). -/
  rows : Nat
deriving DecidableEq, Repr

/-- What a sample commanded (R185, R258): application instant, position, p1 and p2 of its last power, its modulation, and
whether it had a deposit. -/
structure Shot where
  inst : Nat
  x : Int
  y : Int
  p1 : Nat
  mod : Nat
  lit : Bool
  /-- A marked chord was in progress. -/
  marked : Bool
deriving DecidableEq, Repr

/-- The walk of R225 in progress: its cursor, the tracked position, and the reports made. -/
structure Walk where
  cur : Cursor
  x : Int
  y : Int
  reports : Nat
  /-- Remaining items of a reorder group that come first. -/
  pre : List (List Chord)
deriving DecidableEq, Repr

/-- A recorded repair entry (R245). -/
structure Repair where
  slot : Nat
  commit : Nat
  x : Int
  y : Int
  angle : Nat
  noFF : Bool
  noLoop : Bool
  passNo : Nat
  line : Nat
  pixel : Nat
  /-- Pages held for it. -/
  pages : List Nat
deriving DecidableEq, Repr

/-- A facet commit (R239, R240, R249). -/
structure Commit where
  num : Nat
  tick : Nat
  bases : List Nat
  maps : List Nat
  planes : Nat
  /-- Job pages pinned for it as window or repair hold: one entry for each pin it holds. -/
  pinned : List Nat
  /-- 0 PENDING, 1 IN_FORCE, 2 SUPERSEDED, 3 HELD, 4 RETIRED. -/
  state : Nat
  effectLayer : Nat
  effectPass : Nat
deriving DecidableEq, Repr

/-- A beam channel with its sequencer, beside its entries. -/
structure Chan where
  stack : List SFrame
  /-- Coordinate offset in full; the entries show its low 32 bits. -/
  ox : Int
  oy : Int
  wait : Wait
  /-- The wait's condition has been met while an item was being served (R155), on this tick. -/
  released : Option Nat
  cand : Option Cand
  /-- Planned chords; the head is the one in progress, or the next. -/
  run : List Planned
  gates : List Gate
  /-- The held tails of runs beyond 64 chords (R209), each with the first sample of its run's last chord. -/
  tails : List (Nat × Held)
  /-- Where the beam rests, the nominal position a path begins at, and the tick of the last boundary. -/
  px : Int
  py : Int
  nx : Int
  ny : Int
  boundary : Nat
  /-- Non-chord commands decoded since the last chord (R145); the last chord was a marked one of the program, which the next one
  continues (R168). -/
  decodes : Nat
  inRun : Bool
  /-- Earliest first sample after a released wait (R156). -/
  notBefore : Nat
  /-- Remaining items of a reorder group, and the cursor after the group (R169). -/
  group : List (List Chord)
  groupEnd : Option Cursor
  groupOn : Bool
  /-- Items at the front of the group that have been passed over. -/
  groupPassed : Nat
  /-- A granted floating FACET whose slot holds no committed pass (R150): from when, its lune and its item. -/
  refused : Option (Nat × Nat × Item)
  pass : Option Pass
  /-- The pass before it, whose last pixels may still be moved beyond its boundary (R235). -/
  oldPass : Option Pass
  repairs : List Repair
  /-- Repair entries ended this layer. -/
  repairNext : Nat
  commits : Tab (List Commit)
  /-- The channel takes part in the layer, and has reached its layer-close command. -/
  member : Bool
  reached : Bool
  /-- A stop asked for by OFF, with its stamp tick; the check of R191 that failed, with its boundary. -/
  offAt : Option Nat
  regionAt : Option Nat
  /-- The next record carries REARM (R188, R195). -/
  rearm : Bool
  /-- Set-points of the last record. -/
  hx : Int
  hy : Int
  hz : Int
  /-- The newest set-points that lay within the head's range at their latch (R193). -/
  safe : Int × Int × Int
  /-- SAMPLE of the newest servo-sample frame, and its status (R347). -/
  fbSample : Option Nat
  headStatus : Nat
  /-- Program walk of R225 in progress. -/
  walk : Option Walk
  /-- End of a head table hold (R467). -/
  tableHold : Option Nat
  /-- A debug HALT that has still to take effect, by its stamp tick (R515); the chord in hand ends a STEP (R516); the
  centre cell of the last deposit (R517). -/
  haltAt : Option Nat
  /-- The command an ADDRESS breakpoint has been hit on, until the sequencer has left it (R517). -/
  brokeAt : Option Nat
  stepping : Bool
  /-- The last samples, newest first. -/
  shots : List Shot
  lastCell : Option Nat
  /-- The latest feed-forward answer: its instant and the gain (R264). -/
  gain : Nat × Nat
  /-- The payload of the next HEAD_COMMAND frame (R346). -/
  frame : List Byte
deriving DecidableEq, Repr

/-- A lune queue with its orphans (R153, R222). -/
structure Lune where
  items : List Item
  orphans : List Item
deriving DecidableEq, Repr
/-- A layer descriptor as the device keeps it (R140). -/
structure Desc where
  layer : Nat
  channels : Nat
  preLoop : Nat
  recoatLoop : Nat
  preTarget : Int
  recoatTarget : Int
  tau : Nat
  expose : Bool
  entries : List Nat
deriving DecidableEq, Repr

/-- The layer in execution and the one committed, the recoat and the blade line (R22 to R29, R216 to R219). -/
structure Layer where
  cur : Option Desc
  pend : Option Desc
  /-- Move of RECOAT: 0 none, 1 PRE_LOOP, 2 RECOAT_LOOP (R140). -/
  stage : Nat
  /-- Tick from which the pending layer may start (R26). -/
  startAt : Nat
  /-- Position latched at the last accepted RCSYNC, in nm along the travel axis; one has been accepted. -/
  ps : Int
  aligned : Bool
  /-- The first RCSYNC of the recoat has been taken. -/
  rcSeen : Bool
  /-- Blade state before a stall; the point and tick from which an advance counts (R219). -/
  before : Nat
  stallPos : Int
  stallTick : Nat
  /-- Tick of the latest loss of an eligible channel, by lune bit (R223). -/
  lastLoss : Option Nat
  /-- Items posted since reset, which number them. -/
  posted : Nat
  /-- Action of CLOSE in progress (R29), and the tick before which the next may not begin. -/
  closeStep : Nat
  closeAt : Nat
  /-- Number of the event of the layer-close record that action 1 waits for (R29). -/
  closeSeal : Option Nat
  /-- An idle close is running, or due on the tick given (R466). -/
  idleClose : Bool
  idleDue : Option Nat
  /-- Layer and phase as they changed, newest first, with the TIME64 up to which each stood (R300). -/
  past : List (Nat × Nat × Nat)
deriving DecidableEq, Repr

/-- A loop channel beside its entries (R315, R316, R319, R325 to R328). -/
structure Loop where
  /-- Shaper position and velocity, LSB 2^-16 unit. -/
  sp : Int
  sv : Int
  iacc : Int
  enPrev : Int
  rPrev : Int
  /-- A feedback value has been present; one has arrived since the previous sample; its sequence. -/
  haveFb : Bool
  newFb : Bool
  seq : Nat
  missRun : Nat
  /-- Output at the trip, and output instants since. -/
  ut : Int
  ramp : Nat
  /-- A set-point change whose MOVE_DONE has still to come; the set-point of the last computed sample. -/
  moving : Bool
  rawPrev : Option Int
  /-- Frozen feedback: value and last sequence of the run, and the commands of its last 64 samples, newest first. -/
  fzY : Int
  fzSeq : Nat
  fzCmds : List Int
  /-- Oscillation: sign of the last sample at or above the floor, and samples since each recorded reversal, newest first. -/
  oscSign : Int
  oscAges : List Nat
  feRun : Nat
  /-- A mark that waits for its sample (R289): 0 VALUE, 1 HOLD, 2 MISSING; its value and the beam sample's instant. -/
  mark : Option (Nat × Int × Nat)
  /-- Instant of the last sample started (R311), the speed feed-forward it left (R319), and samples started since reset. -/
  lastAt : Option Nat
  ff : Int
  count : Nat
deriving DecidableEq, Repr

/-- A repetitive slot beside its entries (R321, R322): its table, and whether a sweep keeps it running (R250). -/
structure Rep where
  table : Tab Int
  /-- In FACET mode: within line pairs joined by regular turnarounds; suspended for the whole FACET. -/
  paired : Bool
  suspended : Bool
deriving DecidableEq, Repr


/-- One lattice cell (R256). LOCK_OWNER is formed at each reading and has no place here (R207). -/
structure Cell where
  heat : Nat
  stamp : Nat
  dose : Nat
  peak : Nat
  lastCh : Nat
  missed : Bool
  repaired : Bool
  overheat : Bool
  claimed : Bool
  exposed : Bool
  old : Bool
  tag : Nat
deriving DecidableEq, Repr

/-- A deposit or mark that waits for its tick (R258, R260). -/
inductive LatWrite where
  | deposit (ch inst energy : Nat) (x y : Int) (floating : Bool)
  | missed (ch inst : Nat) (cells : List Nat)
  /-- The remainder of a cut FACET (R247). -/
  | cut (inst : Nat) (cells : List Nat)
  | repaired (ch inst : Nat) (cells : List Nat)
deriving DecidableEq, Repr

/-- A single cell write held because its tile is absent (R268). -/
structure CellWrite where
  inst : Nat
  cell : Nat
  /-- 0 deposit, 1 MISSED, 2 REPAIRED, 3 refresh, 4 PEAK. -/
  kind : Nat
  ch : Nat
  dh : Nat
  centre : Bool
  floating : Bool
  value : Nat
deriving DecidableEq, Repr

/-- The lattice (R253 to R271). -/
structure Lattice where
  /-- Cells by their place in memory, in units of 16 bytes (R255); the physical pages whose content stands as cells, by bit. -/
  cells : Tab Cell
  pages : Nat
  waiting : List LatWrite
  /-- Cell writes held for absent tiles, oldest first. -/
  queue : List CellWrite
  /-- Tiles in the cache, most recently used first, and the dirty ones. -/
  cache : List Nat
  dirty : List Nat
  /-- Tick of the last write-back of each dirty tile, and of the last refresh visit of each tile. -/
  backAt : Tab Nat
  visitAt : Tab Nat
  visitLayer : Tab Nat
  /-- Latest application instant whose deposits have been applied, and tick of the last marking of a cut FACET (R28). -/
  applied : Nat
  cutDone : Option Nat
  /-- The deposits of each channel by channel: instant and centre cell, newest first. -/
  recent : Tab (List (Nat × Nat))
  /-- Snapshot: tiles still to write; the first one has been captured, and its writing has parked. -/
  snap : List Nat
  snapHeld : Bool
  disabledAt : Option Nat
  layersOff : Nat
deriving DecidableEq, Repr

/-- The settings of a committed tag (R285). -/
structure Settings where
  tag : Nat
  exposure : Nat
  gain : Nat
  x : Nat
  y : Nat
  w : Nat
  h : Nat
  period : Nat
deriving DecidableEq, Repr

/-- A pool frame or a camera image on its way (R282, R298, R350). -/
structure PFrame where
  number : Nat
  /-- EXPOSE_START. -/
  start : Nat
  set : Settings
  /-- Next pixel expected; pixels received, newest first (a camera's are in memory instead); tick of the last slice. -/
  next : Nat
  pixels : List Nat
  lastTick : Nat
  /-- Discarded: its further slices are ignored. -/
  dead : Bool
  /-- The firing that expected it (R284). -/
  slot : Option Nat
  /-- Processing parameters and tables taken at its first slice (R278, R467). -/
  par : List Nat
  tables : List (Option CalRec)
  /-- It is to be stored as received (R296). -/
  raw : Bool
  shadow : Bool
  long : Bool
  /-- Once it has ended: the tick, TIME64 and layer of its end. -/
  endTick : Nat
  endStamp : Nat
  layer : Nat
  /-- A camera image: its buffer, stripes processed, and its blocks in row order: clear, red, green, blue, near-infrared. -/
  buf : Nat
  stripes : Nat
  blocks : List (List Nat)
deriving DecidableEq, Repr

/-- A pipeline context beside its entries (R277 to R300). -/
structure Pipe where
  /-- The last 8 committed sets, newest first. -/
  sets : List Settings
  frame : Option PFrame
  /-- Frames that have ended and wait for their statistics, or images for the bed engine, oldest first. -/
  closing : List PFrame
  /-- Firings that expect a frame; in free-run mode the tick of the last first slice or missing frame. -/
  expected : List Nat
  lastFirst : Nat
  /-- EXPOSE_START of the previous frame (R279). -/
  lastStart : Option Nat
  /-- Records held while the output context is parked (R280). -/
  held : List (List Byte)
  /-- Next image buffer. -/
  buf : Nat
deriving DecidableEq, Repr

/-- A serial lane beside its entries (R337 to R357). -/
structure Lane where
  /-- SEQ of the next down frame, and of the last up frame accepted. -/
  seq : Nat
  last : Option Nat
  /-- Consecutive tokens at frame spacing; consecutive frames discarded; ticks of the latest frames discarded; one was discarded
  since the last down frame. -/
  tokens : Nat
  badRun : Nat
  bad : List Nat
  errSeen : Bool
  /-- Tick of entry to the present state, of the last IDENT_REQUEST, and of entry to UP once DELAY is sent. -/
  since : Nat
  askedAt : Nat
  upAt : Option Nat
  /-- Control messages to send, oldest first; firings announced by EXPOSE. -/
  queue : List (List Byte)
  exposed : List Nat
  /-- The states of the two directions in force, L0 to L2 (R355), the tick from which the transmitter is idle, and whether the lane is
  coming back from L2, without IDENT. -/
  txNow : Nat
  rxNow : Nat
  idleFrom : Nat
  back : Bool
  /-- Tick of a DIGEST_REQUEST that waits for its answer. -/
  digestAt : Option Nat
deriving DecidableEq, Repr


/-- The outcome of one candidate's decision (R410): 0 grant, 1 wait, 2 dwell, 3 pin wait, with the test, the blocker, and the lune
and queue position of the item chosen. -/
structure Verdict where
  channel : Nat
  outcome : Nat
  test : Nat
  blocker : Nat
  lune : Nat
  item : Nat
deriving DecidableEq, Repr

/-- What a standby's own decision changed, as it stood before it (R411). -/
structure Frozen where
  tick : Nat
  chans : Tab Chan
  lunes : Tab Lune
  od : Tab Nat
deriving DecidableEq, Repr

/-- The twin pair (R405 to R424). -/
structure Twin where
  /-- MIRROR_SEQ of the last mirror message sent, and of the last one taken. -/
  mirrorSeq : Nat
  seenSeq : Nat
  /-- Tick on which the dictionary became ready; arrival of the partner's last valid heartbeat; highest epoch seen from it. -/
  readyTick : Nat
  heardAt : Option Nat
  seenEpoch : Nat
  /-- Ticks on which a takeover and a handover take effect. -/
  takeoverAt : Option Nat
  handoverAt : Option Nat
  /-- The state block has been taken and the digests agree. -/
  agreed : Bool
  /-- The copy to the partner (R417): the tick at which it began, its bytes in all, the physical pages still to send, and how much of
  the first of them has gone. -/
  copyFrom : Nat
  copyTotal : Nat
  copy : List Nat
  copyOff : Nat
  /-- Partner messages that wait for a group, oldest first (R351). -/
  out : List (List Byte)
  /-- The pair count is still to be set from a heartbeat (R408); a partner message has come since the dictionary became ready (R406); the
  active part's digest that the part's own is still to be compared with (R418). -/
  align : Bool
  heard : Bool
  wanted : Option Nat
  /-- Samples with the check word of the part's own records, newest first (R411). -/
  checks : List (Nat × Nat)
  /-- Outcomes of the decision in hand, to be sent; outcomes received that replace the part's own; what its own changed. -/
  made : List Verdict
  verdicts : List Verdict
  before : Option Frozen
  /-- Last DIGEST received from the partner: node digest and node states. -/
  partnerDigest : Option (Nat × List Nat)
deriving DecidableEq, Repr

/-- The safety island's inputs (R441, R443): by pair the tick from which the inputs have disagreed, plus 1 (0 when they agree);
by permit the pins in disagreement (0 when right) and the tick from which they have read back right. -/
structure Island where
  disagree : Tab Nat
  bad : Tab Nat
  good : Tab Nat
  /-- The tick, plus 1, on which permits were withdrawn last, and the channels that lost theirs on it (R442). -/
  cutAt : Nat
  cut : Nat
deriving DecidableEq, Repr

/-- A measurement in progress (R462 to R464). -/
structure Measure where
  kind : Nat
  inst : Nat
  /-- Registration: the channel that exposes, the head set-points and the nominal points of its crosses, the tick of the capture
  to come, TIME64 of the capture made, the camera contexts whose image is still to come, and the fiducials found. -/
  chan : Nat
  aims : List (Int × Int)
  points : List (Int × Int)
  capture : Option Nat
  shot : Nat
  waits : List Nat
  found : List (Nat × Int × Int)
  /-- Payloads of run 1 and run 2 by instance, and the instances a run has failed for. -/
  first : Tab (List Byte)
  second : Tab (List Byte)
  lost : List Nat
  /-- Pool dark: frames taken in the present run, and sums by pixel. -/
  frames : Nat
  sums : List Nat
  /-- Axis trim: the count at which the present run began. -/
  start : Int
deriving DecidableEq, Repr

/-- A trim record that is being applied unit by unit (R468): slot, type, record, units that have it. -/
structure TrimDue where
  slot : Nat
  type : Nat
  new : CalRec
  done : List Nat
deriving DecidableEq, Repr

/-- Calibration (R454 to R469). -/
structure Cal where
  /-- Copies A and B of each type in the keeping store. -/
  store : Tab (Option CalRec × Option CalRec)
  /-- Trim records of the factory area, where valid: set at manufacture and never written (R454, R459). -/
  factory : Tab (Option CalRec)
  /-- Types that a start-up has defaulted. -/
  defaulted : List Nat
  /-- Types whose store write is queued. -/
  writes : List Nat
  /-- Slots of the due installation with type and record, ascending by type, and the tick of its concurrence. -/
  due : List (Nat × Nat × CalRec)
  dueTick : Nat
  trims : List TrimDue
  /-- Head table switches still to make in the close, the first of them in progress up to the tick. -/
  switches : List (Nat × Nat × CalRec)
  switchEnd : Nat
  /-- Axis trims that wait for their axis to be at rest. -/
  deferred : List (Nat × Nat × CalRec)
  /-- A load stopped by a fault. -/
  load : Option Nat
  meas : Measure
deriving DecidableEq, Repr

/-- A machine axis beside its entries (R363 to R378). -/
structure Axis where
  /-- Counts, newest first, each with the tick from which it stood: as far back as they lie within the idle band (R368),
  and never less than a filter's delay. -/
  hist : List (Nat × Int)
  /-- The reference of R371. -/
  ref : Option Int
  /-- Presets and corrections of the last filter delay, newest first: tick, change of the count, the reference before it, and
  whether it was a preset. An index stamped before them is latched and checked as things stood on its stamp (R370, R386). -/
  jumps : List (Nat × Int × Option Int × Bool)
  /-- Phase within the sine/cosine period, once taken; the next sample sets it without motion in between (R367). -/
  phase : Option Nat
  resync : Bool
  enabledAt : Nat
  /-- While OFF, the tick since which the signals have been free of faults; and the ticks on which the last FAULT began and ended
  (R367). -/
  cleanAt : Nat
  brokeAt : Option Nat
  mendedAt : Nat
  /-- All fault bits of the fault that stands. -/
  worst : Nat
  /-- Compare units that are ahead, by bit (R374), and those whose COMPARE_BEHIND falls due, with its tick (R375). -/
  ahead : Nat
  behind : List (Nat × Nat)
  /-- Pass-through: motion since enabling, position reached, edges emitted, tick of the last edge, an overspeed raised, and the
  output count at which Z is repeated (R377). -/
  moved : Int
  out : Int
  edges : Int
  outTick : Nat
  overspeed : Bool
  zAt : Option Int
deriving DecidableEq, Repr

/-- A flash in progress (R391): its set, what was set at its firing, the rows still to come, and cycles after this one. -/
structure Flash where
  set : Nat
  mask : Nat
  on : Nat
  rows : List Nat
deriving DecidableEq, Repr

/-- A warning lamp beside its entries (R396): tick of its last diagnosis or start of drive, and of an acknowledgement. -/
structure Lamp where
  since : Nat
  ack : Option Nat
deriving DecidableEq, Repr

/-- The illumination matrix and the lamps (R387 to R397). -/
structure Light where
  /-- Row of the next steady slot, the tick at which the next slot begins, and the slots of each row since enable. -/
  row : Nat
  nextSlot : Nat
  counts : Tab Nat
  flash : Option Flash
  /-- Start of the on-window of the slot begun last. -/
  lit : Nat
  /-- By segment: end of an on-period still to be diagnosed (0 none), the last failing result in a row (0 none), and slots
  of its row since its last diagnosis. -/
  due : Tab Nat
  failed : Tab Nat
  quiet : Tab Nat
  lamps : Tab Lamp
deriving DecidableEq, Repr

/-- A temperature sensor beside its entries (R479 to R481). -/
structure Sensor where
  raw : Nat
  /-- Samples for which the raw value has not changed, and samples for which it has been implausible. -/
  same : Nat
  odd : Nat
  /-- Tick since which an acknowledged sensor has passed every check. -/
  goodSince : Option Nat
deriving DecidableEq, Repr

/-- Die temperature (R477 to R486). -/
structure Die where
  sensors : Tab Sensor
  /-- Readings of the last 256 samples, newest first; tick and apex of the last 64. -/
  past : List (List Int)
  apexes : List (Nat × Int)
  /-- For T1, T2, T3 and the cutoff: consecutive samples at or above the set value, at or below the clear value, and whether
  the threshold is crossed. -/
  up : List Nat
  down : List Nat
  crossed : List Bool
deriving DecidableEq, Repr

/-- Supplies, the always-on island and start-up (R490 to R502). -/
structure Supply where
  /-- The always-on island: content valid, time keeper with its era, role epoch, rail order, power-fail stamp and mask, and
  what the next start will give as its cause (0 power-on). -/
  valid : Bool
  keeper : Nat
  era : Nat
  epoch : Nat
  order : List Nat
  failStamp : Nat
  failRails : Nat
  nextCause : Nat
  /-- Tick at which the present start-up began; it is that of a warm reset; memory training has failed in it. -/
  startTick : Nat
  warm : Bool
  trainFailed : Bool
  /-- The device holds itself in reset for the reference clock. -/
  clockLost : Bool
  /-- Pool and bed records have been loaded since the start. -/
  poolLoaded : Bool
deriving DecidableEq, Repr

/-- The debug port (R507 to R513): tag and response of the last request completed, and the tick at which an unlock ends. -/
structure Debug where
  last : Option (Nat × List Byte)
  unlockEnd : Option Nat
deriving DecidableEq, Repr

end Sys2Proof.Machine
end

