-- ==== Sys2Proof/Syntax.lean ====
section
/-! DEFINITION. The commands the block takes: the headers a frame arrives with, and one constructor of
`Instr` for each row of the command table, with the row's operands. -/

namespace Sys2Proof

/-- An Ethernet frame as it reaches a port (R92): whether its check sequence is valid, whether its destination
is the port's address (or the PTP group address), its VLAN tag's VID if tagged, its EtherType, its length, and the destination
port of the message over UDP that it carries, 0 where it carries none. -/
structure Frame where
  fcsOk : Bool
  toPort : Bool
  vid : Option (BitVec 12)
  ethertype : BitVec 16
  length : BitVec 16
  udp : BitVec 16
deriving DecidableEq, Repr

/-- The header of a Zynbeuri message (R93) with the frame it came in. `resv` collects the values of the reserved
fields of header and body, zero in a well-formed message (R10). -/
structure Msg where
  port : Fin 4
  frame : Frame
  version : BitVec 8
  flags : BitVec 8
  role : BitVec 8
  session : BitVec 16
  length : BitVec 16
  seq : BitVec 32
  epoch : BitVec 32
  resv : BitVec 32
deriving DecidableEq, Repr

/-- An IEEE 1588 message of R112 with the frame it came in: domainNumber, sequenceId, sender's port identity, the
port identity it answers, correctionField (LSB 2^-16 ns), its timestamp and its logMessageInterval. -/
structure Ptp where
  port : Fin 4
  frame : Frame
  domain : BitVec 8
  seqId : BitVec 16
  source : BitVec 80
  requester : BitVec 80
  correction : BitVec 64
  seconds : BitVec 48
  nanos : BitVec 32
  twoStep : Bool
  logInterval : BitVec 8
deriving DecidableEq, Repr

/-- What an axis input brings (R362): the net count of quadrature edges, or a sine/cosine sample pair in units of 2^-15 of
the nominal peak. -/
inductive AxisInput where
  | edges (delta : BitVec 32)
  | pair (s c : BitVec 20)
deriving DecidableEq, Repr

/-- What a diagnosis is of (R393). -/
inductive Lit where
  | segment (s : Fin 192)
  | lamp (w : Fin 4)
deriving DecidableEq, Repr

/-- What the part finds at the release of PORN (R491, R492, R499, R539): the level of TWIN_ID, the order in which the rails
became good, whether the always-on island has lost its contents, the time its keeper has counted on since the last load, in
1/32768 s, the rails good now, and whether memory training succeeds. -/
structure PowerOn where
  twinId : Bool
  order : List (BitVec 4)
  aonLost : Bool
  keeper : BitVec 64
  rails : BitVec 10
  trained : Bool
deriving DecidableEq, Repr

/-- The frame of a debug transaction (R507): its tag, LENGTH field, whether its CRC matches, and the values of its reserved
fields together. -/
structure DbgReq where
  tag : BitVec 4
  length : BitVec 16
  crcOk : Bool
  resv : BitVec 32
deriving DecidableEq, Repr


/-- A partner message as it arrives (R351, R409): its partner link, and the sender's role epoch. -/
structure PMsg where
  link : Fin 2
  epoch : BitVec 32
deriving DecidableEq, Repr

/-- The body of a HEARTBEAT (R410). -/
structure Beat where
  role : BitVec 8
  failing : Bool
  pairTick : BitVec 64
  time : BitVec 64
  frac : BitVec 32
  inc : BitVec 64
  lt : BitVec 64
  mirrorSeq : BitVec 32
  layer : BitVec 32
deriving DecidableEq, Repr

/-- The host command inside a HOST_COMMAND message (R410): its kind (0x11 WRITE, 0x12 STAGE, 0x13 CONCUR) and what its body
names. -/
structure Mirrored where
  host : BitVec 64
  session : BitVec 16
  seq : BitVec 32
  kind : BitVec 8
  index : BitVec 16
  sub : BitVec 8
  party : BitVec 8
  proposal : BitVec 32
  value : List Byte
deriving DecidableEq, Repr

/-- A loop's part of a LOOP_STATE message (R410): loop, state, u, en_prev, r_prev, Iacc, S, V, and the indexes of its
repetitive slots, as slot and index. -/
structure LoopImage where
  loop : Fin 96
  state : BitVec 8
  u : BitVec 32
  enPrev : BitVec 32
  rPrev : BitVec 32
  iacc : BitVec 64
  sp : BitVec 64
  sv : BitVec 64
  reps : List (Fin 32 × BitVec 16)
deriving DecidableEq, Repr

/-- A candidate's part of a DECISION message (R410). -/
structure Decided where
  channel : Fin 16
  outcome : BitVec 8
  test : BitVec 8
  blocker : BitVec 8
  lune : BitVec 8
  item : BitVec 32
deriving DecidableEq, Repr

/-- What a SYNC_PAGE message brings (R417). The manual gives the message the form of a physical page; which page stands for a
dictionary value, a record, a mapping or a cell it does not say. -/
inductive SyncItem where
  | entry (index : BitVec 16) (sub : BitVec 8) (value : List Byte)
  | record (type : BitVec 16) (gen : BitVec 32) (stamp : BitVec 64) (payload : List Byte)
  | mapping (tc : Fin 192) (jobPage physPage : BitVec 24) (write : Bool)
  | page (physPage offset : BitVec 32) (data : List Byte)
  | cell (cell : BitVec 32) (image : BitVec 128)
deriving DecidableEq, Repr

/-- The state block of SYNC_STATE (R418): the sequencers and channels with their facets and repairs, the lunes, loops,
repetitive slots, triggers and axes, and the entries that show them. -/
structure SyncBlock where
  chans : Tab Machine.Chan
  lunes : Tab Machine.Lune
  loops : Tab Machine.Loop
  reps : Tab Machine.Rep
  trig : Tab Machine.Trigger
  axes : Tab Machine.Axis
  od : Tab Nat
deriving DecidableEq, Repr

/-- A received frame of class IDLE, or one of any class that is discarded, as the line brings it (R342, R343): its lane, whether
its token stands where it is expected, whether its CRC is right, and its header word. -/
structure UpFrame where
  lane : Fin 44
  token : Bool
  crcOk : Bool
  header : BitVec 32
deriving DecidableEq, Repr

/-- The body of an IDENT message (R348, R349), with the round trip half d the device measures from its ECHO, in UI (R352). -/
structure Ident where
  kind : BitVec 8
  echo : BitVec 16
  vendor : BitVec 16
  model : BitVec 32
  serial : BitVec 64
  fields : List Byte
  delay : BitVec 32
deriving DecidableEq, Repr

/-- The commands: one constructor for each row of the command table. -/
inductive Instr where
  /-- TICK R38: Each tick TIME64 advances by 160 units plus the steering term, and the steering term changes only on ticks that are multiples of 400. -/
  | tick
  /-- TIME_STEP R41: In IDLE with a LOCKED domain whose offset exceeds the threshold, TIME64 is set to domain time on the next multiple of 400 and TIME_GEN is raised. -/
  | timeStep
  /-- TIME_SEL R43: A write of TIME_SEL selects the other domain; steering moves to it at the next multiple of 400 and the offset becomes the residual to slew. -/
  | timeSel (m : Msg) (v : BitVec 8)
  /-- DOM_NUMBER R42: A write of DOM_NUMBER changes the tracked domainNumber and returns the domain to UNLOCKED. -/
  | domNumber (m : Msg) (d : Fin 2) (v : BitVec 8)
  /-- DOMAIN_LOST R45: DOM_LOSS_INTERVALS sync intervals pass without an accepted sync, so the domain becomes LOST and the device switches domain or enters HOLDOVER. -/
  | domainLost (d : Fin 2)
  /-- SYNC R112: A PTP Sync message is received and timestamped for the domain estimate. -/
  | sync (p : Ptp)
  /-- FOLLOW_UP R112: A PTP Follow_Up message completes a two-step sync and updates the domain offset and rate estimate. -/
  | followUp (p : Ptp)
  /-- DELAY_REQ R113: A PTP Delay_Req is handled on a drive port where the device is master. -/
  | delayReq (p : Ptp)
  /-- DELAY_RESP R113: A PTP Delay_Resp completes a request-response path delay measurement on a host port. -/
  | delayResp (p : Ptp)
  /-- ANNOUNCE R113: A PTP Announce message enters the best master clock selection for its domain, setting SLAVE and PASSIVE port states. -/
  | announce (p : Ptp) (a : Announce)
  /-- PDELAY_REQ R112: A PTP Pdelay_Req is received and answered for peer delay measurement. -/
  | pdelayReq (p : Ptp)
  /-- PDELAY_RESP R112: A PTP Pdelay_Resp is received for peer delay measurement. -/
  | pdelayResp (p : Ptp)
  /-- PDELAY_RESP_FOLLOW_UP R112: A PTP Pdelay_Resp_Follow_Up completes a peer delay measurement. -/
  | pdelayRespFollowUp (p : Ptp)
  /-- TT_ARM R55: A write of 0x01 to TT_ARM arms a time trigger, clearing its counts, or skips past firings if it is armed late. -/
  | ttArm (m : Msg) (n : Fin 64)
  /-- TT_DISARM R55: A write of 0x00 to TT_ARM disarms a trigger, or is answered ALREADY_COMPLETE when the firing on that tick disarms it. -/
  | ttDisarm (m : Msg) (n : Fin 64)
  /-- TRIGGER_FIRED R53: An armed trigger reaches its TT_TIME or its next period and delivers its action to its target. -/
  | triggerFired (n : Fin 64)
  /-- JOURNAL_WRITE R60: Buffered journal records are written through TC57 into the ring within 50 us of their stamp, shedding fine records when the buffer is full. -/
  | journalWrite
  /-- SEAL R61: After JOURNAL_SEAL_EVERY blocks, at layer close, orderly stop or warm reset, the journal seals its span with a CRC record copied to the always-on island. -/
  | sealSpan
  /-- READ R70: A Zynbeuri READ returns an entry's value or its descriptor as held on the stamp tick. -/
  | read (m : Msg) (index : BitVec 16) (sub : BitVec 8) (form : BitVec 8)
  /-- WRITE R72: A Zynbeuri WRITE to an entry that has no row of its own is checked in order and takes effect on its stamp tick. -/
  | write (m : Msg) (index : BitVec 16) (sub : BitVec 8) (value : List Byte)
  /-- KEEP_STORE R76: A write of the store code takes every KEEP value as an image and starts writing it to the older keeping-store copy. -/
  | keepStore (m : Msg)
  /-- KEEP_STORE_DONE R76: The store's read-back check completes and sets SAVED, UNSAVED or FAILED. -/
  | keepStoreDone (ok : Bool)
  /-- KEEP_RESTORE R77: In IDLE, a write of the restore code sets every non-guarded, non-factory KEEP entry to its default. -/
  | keepRestore (m : Msg)
  /-- DIGEST_CURRENT R85: A node digest recomputation completes; the digest entries update together and a notice is raised. -/
  | digestCurrent
  /-- OPEN R99: An OPEN opens a session with a fresh nonce and credit, first closing a session with the same HOST_ID. -/
  | openSession (m : Msg) (hostId : BitVec 64) (credit : BitVec 16)
  /-- CLOSE R101: An accepted CLOSE is answered OK and the session is closed, its streams aborted and its notices readdressed. -/
  | closeSession (m : Msg)
  /-- PING R101: A PING is answered and counts as a valid frame keeping the session open. -/
  | ping (m : Msg)
  /-- NOTICE_ACK R103: A NOTICE_ACK records the highest notice received and the credit granted, freeing queue entries. -/
  | noticeAck (m : Msg) (ackSeq : BitVec 32) (credit : BitVec 16)
  /-- NOTICE_RESEND R103: A notice unacknowledged for NOTICE_RESEND is sent again with RETRY set and the same number. -/
  | noticeResend (session : BitVec 16) (number : BitVec 32)
  /-- SESSION_TIMEOUT R101: SESSION_TIMEOUT elapses without a valid frame and the session is closed with cause 0x03. -/
  | sessionTimeout (session : BitVec 16)
  /-- BAD_KIND R91: A host-port frame of an unlisted kind is answered BAD_KIND with SESSION 0. -/
  | badKind (m : Msg) (kind : BitVec 8)
  /-- STAGE R437: An authenticated STAGE of a guarded entry occupies a staging slot, supersedes any older proposal for the entry and is answered STAGED. -/
  | stage (m : Msg) (index : BitVec 16) (sub : BitVec 8) (party : BitVec 8) (proposal : BitVec 32) (value : List Byte) (auth : List Byte)
  /-- CONCUR R439: A matching CONCUR from the other party puts the staged guarded change into force and starts a keeping-store write. -/
  | concur (m : Msg) (index : BitVec 16) (sub : BitVec 8) (party : BitVec 8) (proposal : BitVec 32) (value : List Byte) (auth : List Byte)
  /-- GUARD_EXPIRED R438: A proposal reaches 120 s after its STAGE and expires, freeing its slot. -/
  | guardExpired (slot : Fin 8)
  /-- STREAM_OPEN R108: A write of 0x01 to STREAM_CONTROL opens a stream endpoint and clears its mark and counts. -/
  | streamOpen (m : Msg) (e : Fin 64)
  /-- STREAM_ABORT R108: A write of 0x02 to STREAM_CONTROL aborts an open stream, abandoning a transfer parked on it. -/
  | streamAbort (m : Msg) (e : Fin 64)
  /-- STREAM_DATA R109: A STREAM_DATA frame writes its bytes through the endpoint's context within the 1 MiB window, or is dropped and counted. -/
  | streamData (m : Msg) (endpoint : BitVec 8) (offset : BitVec 32) (data : List Byte)
  /-- STREAM_END R110: The stream's last byte is written and the CRC decides COMPLETE or FAULT. -/
  | streamEnd (e : Fin 64)
  /-- STREAM_ACK_TIMEOUT R111: 200 us after an unacknowledged frame, a STREAM_ACK is sent. -/
  | streamAckTimeout (e : Fin 64)
  /-- TXTS_RELEASE R115: A write of TXTS_RELEASE removes that many oldest transmit time-stamp entries. -/
  | txtsRelease (m : Msg) (p : Fin 4) (count : BitVec 8)
  /-- CYCLIC_ENABLE R118: A write of CYCLIC_ENABLE starts or stops the axis cycle on the drive ports. -/
  | cyclicEnable (m : Msg) (v : BitVec 8)
  /-- CYCLIC_SEND R116: 2,500 ticks before each cycle tick, the CYCLIC frame with the privileged loop outputs is sent on both drive ports. -/
  | cyclicSend
  /-- CYCLIC_REPLY R117: A drive's CYCLIC_REPLY is taken if on time and delivers ACTUAL, status and digest for its slot. -/
  | cyclicReply (m : Msg) (cycle : BitVec 32) (node : BitVec 8) (status : BitVec 8) (error : BitVec 16) (actual : BitVec 32) (digest : BitVec 64)
  /-- DRIVE_SILENT R117: A slot's reply window closes with no on-time reply for the second consecutive cycle, raising DRIVE_SILENT. -/
  | driveSilent (slot : Fin 8)
  /-- TC_MAP R124: A TC_MAP request maps a range of job pages to physical pages whole or not at all, resuming a context parked on them. -/
  | tcMap (m : Msg) (tc : Fin 192) (request : BitVec 128)
  /-- TC_UNMAP R125: A TC_UNMAP request unmaps unpinned pages at once and defers pinned ones. -/
  | tcUnmap (m : Msg) (tc : Fin 192) (request : BitVec 64)
  /-- TC_RESUME R131: A write of 0x01 to TC_RESUME resumes a parked context from its faulting beat. -/
  | tcResume (m : Msg) (tc : Fin 192)
  /-- TC_ABORT R131: A write of 0x02 to TC_RESUME abandons a parked transfer and sets the context IDLE. -/
  | tcAbort (m : Msg) (tc : Fin 192)
  /-- DMA_BEAT R128: The arbiter grants one 64-byte beat to the winning context, pre-empting at beat boundaries. -/
  | dmaBeat (waiting : List (Fin 192))
  /-- ACCOUNTING_WINDOW R127: A new 64 us accounting window starts and every reserve is renewed. -/
  | accountingWindow
  /-- WINDOW_PIN R133: The translation walker pins the next page ahead of chord or facet fetch. -/
  | windowPin (tc : Fin 32)
  /-- MEM_LOAD_PEAK_READ R139: A read of MEM_LOAD_PEAK returns the peak bandwidth share and clears it. -/
  | memLoadPeakRead (m : Msg)
  /-- LAYER_COMMIT R24: A write of the successor layer number reads and checks the descriptor and makes that layer pending. -/
  | layerCommit (m : Msg) (n : BitVec 32)
  /-- LAYER_RESUME R25: In IDLE with nothing pending, a write sets LAYER_NUMBER as the last closed layer. -/
  | layerResume (m : Msg) (n : BitVec 32)
  /-- LAYER_START R26: The pending layer starts in IDLE after commit or after layer close, entering RECOAT and starting the pre-move and recoat move. -/
  | layerStart
  /-- REPAIR_START R28: The last live channel reaches its layer-close command, or cut-facet marking ends, and the phase becomes REPAIR. -/
  | repairStart
  /-- LAYER_CLOSE_PHASE R29: Every repair list has finished; the CLOSE actions run in order and the next layer starts, holds or the phase becomes IDLE. -/
  | layerClosePhase
  /-- HEAD_TABLE_SWITCH R467: A 120 us head table hold ends and the new head table values take effect. -/
  | headTableSwitch (n : Fin 16)
  /-- SHARE_DECISION R210: On tick A-320 each candidate chord or floating item is tested for blade, lock, sector, yield and dwell and granted or made to wait. -/
  | shareDecision
  /-- DWELL_FORCED R168: DWELL_TIMEOUT elapses during a dwell hold and the chord starts anyway. -/
  | dwellForced (n : Fin 16)
  /-- LATCH R30: At A-240 the head command for a sample is assembled, its power composed and the record sent at A-200. -/
  | latch (n : Fin 16)
  /-- SERVO_SAMPLE R347: A head's servo-sample frame delivers mirror positions, status and auxiliary inputs. -/
  | servoSample (n : Fin 16) (x : BitVec 32) (y : BitVec 32) (z : BitVec 32) (sample : BitVec 32) (status : BitVec 16) (fault : BitVec 16) (aux : List (BitVec 32))
  /-- SERVO_SAMPLE_MISSING R31: No servo-sample frame has arrived by A-360 and the sample's feedback counts as missing. -/
  | servoSampleMissing (n : Fin 16)
  /-- LATTICE_DEPOSIT R260: At A+380 the deposits of all channels for instant A are applied to their 3x3 neighbourhoods, then missed and repaired marks. -/
  | latticeDeposit
  /-- CHORD_COMPLETE R145: A chord's last sample ends and the non-chord commands up to the next chord take effect on its boundary. -/
  | chordComplete (n : Fin 16)
  /-- MARK R147: MARK exposes a straight vector to (X, Y) at the given or parameter speed and power. -/
  | mark (n : Fin 16)
  /-- ARC R148: ARC exposes a circular arc about a centre through a given sweep. -/
  | arc (n : Fin 16)
  /-- JUMP R149: JUMP moves the beam blanked to (X, Y) with a trapezoidal profile and settle samples. -/
  | jump (n : Fin 16)
  /-- FACET R150: FACET exposes a number of raster passes of a slot's planes at an origin and angle. -/
  | facet (n : Fin 16)
  /-- FLOAT R152: FLOAT posts the following body items into a lune queue as floating chords, or waits for pool space. -/
  | floatBody (n : Fin 16)
  /-- POSTING_RELEASE R153: Pool entries become free and a waiting FLOAT posts its whole body. -/
  | postingRelease (n : Fin 16)
  /-- CLAIM R154: CLAIM takes floating items from one or all eligible lunes and executes them until the limit or the queues are exhausted. -/
  | claim (n : Fin 16)
  /-- WAIT_TIME R157: WAIT_TIME waits for an instant, a trigger release, or the earlier of the two. -/
  | waitTime (n : Fin 16)
  /-- WAIT_TIME_RELEASE R157: The waited TIME64 instant is reached and the wait is released. -/
  | waitTimeRelease (n : Fin 16)
  /-- WAIT_EVENT R158: WAIT_EVENT waits for an event of a source and code stamped at or after the wait began. -/
  | waitEvent (n : Fin 16)
  /-- EVENT_TIMEOUT R158: A WAIT_EVENT's TIMEOUT passes without a match and the channel enters HOLD. -/
  | eventTimeout (n : Fin 16)
  /-- BARRIER R159: BARRIER waits until every non-OFF channel of its mask reaches the same ID and mask, then releases all together. -/
  | barrier (n : Fin 16)
  /-- SET R160: SET changes one or two channel parameters on its boundary. -/
  | setParam (n : Fin 16)
  /-- CALL R162: CALL pushes a frame and continues at the target with a shifted coordinate offset. -/
  | callProgram (n : Fin 16)
  /-- RETURN R163: RETURN pops a CALL frame and restores the caller's offset. -/
  | returnCall (n : Fin 16)
  /-- REPEAT R164: REPEAT executes its body COUNT times with a stepped offset. -/
  | repeatBody (n : Fin 16)
  /-- MARKER R165: MARKER raises a class 4 event carrying a host tag. -/
  | marker (n : Fin 16)
  /-- LAYER_CLOSE R166: LAYER_CLOSE makes the channel serve its lunes until empty and then reach its layer-close command. -/
  | layerClose (n : Fin 16)
  /-- HALT R167: HALT places the channel in HOLD with cause HALTED on its boundary. -/
  | halt (n : Fin 16)
  /-- BAD_OPCODE R144: An unlisted opcode is malformed; the channel holds with cause PROGRAM after the chord in progress. -/
  | badOpcode (n : Fin 16)
  /-- CS_RESUME R171: A CS_CONTROL RESUME continues a sequencer hold at the command where it stopped. -/
  | csResume (m : Msg) (n : Fin 16)
  /-- CS_SKIP R171: A CS_CONTROL SKIP continues a sequencer hold after the stopping command. -/
  | csSkip (m : Msg) (n : Fin 16)
  /-- ARM R195: A BC_CONTROL ARM, if every condition holds, closes the galvo loops, sends REARM and parks the beam. -/
  | arm (m : Msg) (n : Fin 16)
  /-- OFF R196: A BC_CONTROL OFF stops the channel at the next boundary or at once, blanks it and idles its loops. -/
  | off (m : Msg) (n : Fin 16)
  /-- UNCOVERED_WALK R225: After a channel stops during a layer, the device walks its remaining program and reports each run or item as UNCOVERED. -/
  | uncoveredWalk (n : Fin 16)
  /-- SHARE_REISSUE_WAIT R223: SHARE_REISSUE_WAIT elapses after the latest loss and serving channels reach their layer-close commands. -/
  | shareReissueWait
  /-- LUNE_ENABLE R204: A write of 0x01 to LUNE_ENABLE checks the polygon and eligibility and enables the lune. -/
  | luneEnable (m : Msg) (l : Fin 128)
  /-- LUNE_POST R224: A write of LUNE_POST posts a host body from memory into a lune queue. -/
  | lunePost (m : Msg) (l : Fin 128)
  /-- RCSYNC R218: An RCSYNC input latches the blade axis and aligns the blade line, or is rejected. -/
  | rcsync (delay : Nat)
  /-- RECOAT_STALL R219: The blade line advances too little within BED_STALL_TIME, or the recoater loop holds or trips, and the blade state becomes STALLED. -/
  | recoatStall
  /-- RECOAT_COMMAND R219: A write of RESTART restarts the recoat move and returns the blade state. -/
  | recoatCommand (m : Msg)
  /-- FX_COMMIT R239: A write of FX_COMMIT checks and copies the plane bases as the slot's next commit. -/
  | fxCommit (m : Msg) (n : Fin 16) (slot : Fin 8)
  /-- FX_CLEAR R231: A write of FX_CLEAR on a READY slot ends its commit's role and empties the slot. -/
  | fxClear (m : Msg) (n : Fin 16) (slot : Fin 8)
  /-- PASS_BOUNDARY R240: A pass's boundary begins; the next pass's commit is fixed and facet window pages are released. -/
  | passBoundary (n : Fin 16)
  /-- PIN_WAIT_RELEASE R242: Every needed page of a waiting pass becomes pinned and the pass is retested as a run start. -/
  | pinWaitRelease (n : Fin 16)
  /-- REPAIR_DONE R246: A repair entry completes its remainder, marking REPAIRED, and its repair hold ends. -/
  | repairDone (n : Fin 16)
  /-- LAT_CLEAR R269: A write of LAT_CLEAR in IDLE starts writing every cell to reset values with OLD set. -/
  | latClear (m : Msg)
  /-- LAT_CLEAR_DONE R269: The clear completes and the lattice becomes READY or ACTIVE. -/
  | latClearDone
  /-- LAT_ENABLE R269: A write of 0x01 to LAT_ENABLE activates a READY lattice and pins its range. -/
  | latEnable (m : Msg)
  /-- LAT_DISABLE R269: A write of 0x00 to LAT_ENABLE in IDLE disables the lattice. -/
  | latDisable (m : Msg)
  /-- SNAPSHOT_START R271: A write of 0x01 to LAT_SNAP_CONTROL starts a snapshot of a tile rectangle. -/
  | snapshotStart (m : Msg)
  /-- SNAPSHOT_ABORT R271: A write of 0x02 to LAT_SNAP_CONTROL aborts the running snapshot. -/
  | snapshotAbort (m : Msg)
  /-- SNAPSHOT_TILE R271: One tile is captured whole at a sample boundary and written with its header, ending the snapshot after the last tile. -/
  | snapshotTile
  /-- REFRESH_VISIT R266: The refresh pass visits a tile, decaying hot cells and marking old layer tags. -/
  | refreshVisit (tile : Fin 4096)
  /-- TILE_FILL R268: A tile arrives in the cache and its queued writes are applied in order of instant. -/
  | tileFill (tile : Fin 4096)
  /-- TILE_WRITE_BACK R267: A dirty tile is written back on eviction or at least every 50 ms. -/
  | tileWriteBack (tile : Fin 4096)
  /-- PC_ENABLE R285: A write of 0x01 to PC_ENABLE enables a pipeline context and commits its pending settings. -/
  | pcEnable (m : Msg) (k : Fin 24)
  /-- PC_DISABLE R309: A write of 0x00 to PC_ENABLE disables the context and discards a frame in progress. -/
  | pcDisable (m : Msg) (k : Fin 24)
  /-- SET_APPLY R285: A write of SET_APPLY commits the pending sensor settings as the next tag. -/
  | setApply (m : Msg) (k : Fin 24)
  /-- SENSOR_SLICE_START R350: A pool sensor START slice opens a frame, judging its tag. -/
  | sensorSliceStart (n : Fin 16) (frame : BitVec 32) (start : BitVec 64) (tag : BitVec 16) (w : BitVec 16) (h : BitVec 16)
  /-- SENSOR_SLICE_PIXELS R350: A PIXELS slice adds pixels to the open pool frame at the next offset. -/
  | sensorSlicePixels (n : Fin 16) (frame : BitVec 32) (offset : BitVec 32) (pixels : List (BitVec 16))
  /-- SENSOR_SLICE_END R350: An END slice closes the pool frame, marking it SHORT or LONG as its lines require. -/
  | sensorSliceEnd (n : Fin 16) (frame : BitVec 32) (sent : BitVec 32)
  /-- CAMERA_SLICE_START R350: A camera START slice opens an image into the next ring buffer. -/
  | cameraSliceStart (c : Fin 4) (frame : BitVec 32) (start : BitVec 64) (tag : BitVec 16) (w : BitVec 16) (h : BitVec 16)
  /-- CAMERA_SLICE_PIXELS R350: A camera PIXELS slice adds pixels to the open image. -/
  | cameraSlicePixels (c : Fin 4) (frame : BitVec 32) (offset : BitVec 32) (pixels : List (BitVec 16))
  /-- CAMERA_SLICE_END R350: A camera END slice closes the image. -/
  | cameraSliceEnd (c : Fin 4) (frame : BitVec 32) (sent : BitVec 32)
  /-- FRAME_TIMEOUT R282: No end mark arrives within PC_FRAME_TIMEOUT after the last slice and the frame is closed. -/
  | frameTimeout (k : Fin 24)
  /-- FRAME_MISSING R284: No first slice arrives in time after a firing or free-run period and the frame is missing, passing MISSING to the loop. -/
  | frameMissing (k : Fin 24)
  /-- STATS_CLOSE R289: A pool frame's statistics close, one mark passes to the power loop, the lattice peak is recorded and the record is written. -/
  | statsClose (k : Fin 24)
  /-- BED_STRIPE R298: The bed engine processes a 64-line stripe of an image in memory. -/
  | bedStripe (k : Fin 24)
  /-- BED_FRAME_DONE R300: The last stripe of an image is processed, defects classified and the output written. -/
  | bedFrameDone (k : Fin 24)
  /-- LOOP_CLOSE R314: A LOOP_CONTROL CLOSE closes a general or privileged loop from IDLE or an allowed HOLD. -/
  | loopClose (m : Msg) (l : Fin 96)
  /-- LOOP_HOLD R314: A LOOP_CONTROL HOLD places a general or privileged loop in HOLD with cause HOST. -/
  | loopHold (m : Msg) (l : Fin 96)
  /-- LOOP_OPEN R314: A LOOP_CONTROL OPEN returns a general or privileged loop to IDLE. -/
  | loopOpen (m : Msg) (l : Fin 96)
  /-- LOOP_RESET R327: A LOOP_CONTROL RESET returns a TRIPPED loop to IDLE once its ramp has ended. -/
  | loopReset (m : Msg) (l : Fin 96)
  /-- LOOP_TRIP R327: A LOOP_CONTROL TRIP trips the loop and starts its output ramp. -/
  | loopTrip (m : Msg) (l : Fin 96)
  /-- LOOP_SAMPLE R316: A loop channel computes one sample of its control law at its sample instant from set-point and feedback. -/
  | loopSample (l : Fin 96)
  /-- LOOP_DEADLINE R324: A loop output is not at its consumer by its deadline and the previous output stays. -/
  | loopDeadline (l : Fin 96) (overrun : Bool)
  /-- RC_CLEAR R323: A write of RC_CLEAR sets every repetitive table entry to 0. -/
  | rcClear (m : Msg) (i : Fin 32)
  /-- FRAME_SLOT R337: A down frame is sent in each 16-tick slot of a Dardayn lane, with a time record in slot 0. -/
  | frameSlot
  /-- IDLE_FRAME R343: A received frame of class IDLE is checked for token, CRC and sequence. -/
  | idleFrame (f : UpFrame)
  /-- LANE_ENABLE R352: A write of LANE_ENABLE enables or disables a lane. -/
  | laneEnable (m : Msg) (l : Fin 48) (v : BitVec 8)
  /-- PHASE_LOCK R352: Up clock recovery locks and the lane moves from ACQUIRE to ALIGN. -/
  | phaseLock (l : Fin 44)
  /-- IDENT_REQUEST R352: Every 10 us in IDENT the device sends IDENT_REQUEST. -/
  | identRequest (l : Fin 44)
  /-- IDENT R348: A far end's IDENT message reports its kind and range and fixes the measured delay. -/
  | ident (l : Fin 44) (i : Ident)
  /-- LANE_UP R352: On the tick after DELAY is sent the lane enters UP. -/
  | laneUp (l : Fin 44)
  /-- IDENT_FAIL R352: No IDENT arrives within 100 us, or a head delay is too long, and the lane returns to ACQUIRE. -/
  | identFail (l : Fin 44)
  /-- LINK_LOSS R354: Tokens fail in three slots or eight frames are discarded and the lane returns to ACQUIRE, faulting a head channel. -/
  | linkLoss (l : Fin 44) (detail : BitVec 8)
  /-- DIGEST R422: A head, sensor or camera DIGEST message records that node's configuration digest. -/
  | digest (l : Fin 36) (digest : BitVec 64)
  /-- NODE_EVENT R348: A far end EVENT message is journalled as NODE_EVENT. -/
  | nodeEvent (l : Fin 36) (code : BitVec 16) (data : BitVec 64)
  /-- LANE_TX_STATE R355: A write of LANE_TX_STATE moves the device's transmitter between L0, L1 and L2. -/
  | laneTxState (m : Msg) (l : Fin 48) (v : BitVec 8)
  /-- LANE_RX_STATE R355: A write of LANE_RX_STATE requests the far end's transmitter state with LINK_STATE. -/
  | laneRxState (m : Msg) (l : Fin 48) (v : BitVec 8)
  /-- EYE_START R357: A write of 0x01 to EYE_CONTROL starts an eye scan on an UP lane. -/
  | eyeStart (m : Msg) (l : Fin 48)
  /-- EYE_ABORT R357: A write of 0x02 to EYE_CONTROL aborts the eye scan. -/
  | eyeAbort (m : Msg) (l : Fin 48)
  /-- EYE_POINT R357: One eye-scan point's dwell ends and its error count is written. -/
  | eyePoint (l : Fin 48) (count : BitVec 32)
  /-- AX_ENABLE R367: A write of AX_ENABLE enables an axis, zeroing its count. -/
  | axEnable (m : Msg) (k : Fin 4) (v : BitVec 8)
  /-- SIGNAL_FAULT R367: An axis signal fault bit is set, the status becomes FAULT and the count holds. -/
  | signalFault (k : Fin 4) (bits : BitVec 4)
  /-- SIGNAL_RECOVERED R367: The fault bits clear and the axis status becomes VALID or UNCERTAIN. -/
  | signalRecovered (k : Fin 4)
  /-- AX_FAULT_ACK R367: A write of AX_FAULT_ACK returns an UNCERTAIN axis to VALID. -/
  | axFaultAck (m : Msg) (k : Fin 4)
  /-- AX_COUNT_PRESET R369: A write of AX_COUNT_PRESET sets the count of an axis at rest and clears its reference. -/
  | axCountPreset (m : Msg) (k : Fin 4) (v : BitVec 64)
  /-- INDEX R370: An index pulse latches the axis count and is checked against the reference. -/
  | index (k : Fin 4) (delay : BitVec 8)
  /-- AX_CORRECTED R372: The axis comes to rest with a pending correction, which is added to count and reference. -/
  | axCorrected (k : Fin 4)
  /-- CMP_ARM R375: A write of 0x01 to CMP_ARM arms a compare unit and judges whether it is ahead or behind. -/
  | cmpArm (m : Msg) (k : Fin 4) (c : Fin 8)
  /-- CMP_DISARM R386: A write of 0x00 to CMP_ARM disarms a compare unit. -/
  | cmpDisarm (m : Msg) (k : Fin 4) (c : Fin 8)
  /-- COMPARE R376: The count reaches or passes an ahead unit's position; it fires its action and steps or disarms. -/
  | compare (k : Fin 4) (c : Fin 8)
  /-- AO_ENABLE R377: A write of AO_ENABLE starts or stops the quadrature pass-through output. -/
  | aoEnable (m : Msg) (k : Fin 4) (v : BitVec 8)
  /-- AO_OVERSPEED R377: The pass-through lag exceeds 16 counts and AO_OVERSPEED is raised once. -/
  | aoOverspeed (k : Fin 4)
  /-- LM_ENABLE R387: A write of LM_ENABLE starts or stops the matrix scan from row 0. -/
  | lmEnable (m : Msg) (v : BitVec 8)
  /-- ROW_SLOT R387: A matrix row slot begins, with blanking then on-window and stretching where due. -/
  | rowSlot
  /-- FLASH_DONE R391: The last flash row slot ends and the steady scan resumes. -/
  | flashDone
  /-- DIAGNOSIS R393: A diagnosable on-period of a segment, flash row or lamp ends and is judged OPEN, SHORT or passing. -/
  | diagnosis (what : Lit) (result : BitVec 2)
  /-- LAMP_OVERDUE R396: WL_DIAG_MAX passes without a diagnosis and the lamp becomes OVERDUE. -/
  | lampOverdue (w : Fin 4)
  /-- WL_ACK R396: A write of WL_ACK acknowledges a failed lamp so a later passing diagnosis sets HEALTHY. -/
  | wlAck (m : Msg) (w : Fin 4)
  /-- WL_MODE R397: A write of WL_MODE sets a lamp's drive, and setting a group lamp OFF under the policy is a lamp failure. -/
  | wlMode (m : Msg) (w : Fin 4) (v : BitVec 8)
  /-- TWIN_ACTIVATE R406: A TWIN_COMMAND ACTIVATE makes a DETACHED part ACTIVE when no ACTIVE partner is heard. -/
  | twinActivate (m : Msg)
  /-- TWIN_DETACH R406: A TWIN_COMMAND DETACH makes the part DETACHED. -/
  | twinDetach (m : Msg)
  /-- TWIN_JOIN R406: A TWIN_COMMAND JOIN makes a DETACHED part SYNCING with an ACTIVE partner. -/
  | twinJoin (m : Msg)
  /-- TWIN_START_TIMEOUT R406: An automatic primary hears no partner within 10 ms of dictionary ready and becomes ACTIVE. -/
  | twinStartTimeout
  /-- HEARTBEAT_SEND R409: Every 100 ticks a heartbeat is sent on both partner links. -/
  | heartbeatSend
  /-- HEARTBEAT R410: A partner heartbeat delivers role, pair tick, time, lattice time and mirror sequence. -/
  | heartbeat (p : PMsg) (h : Beat)
  /-- PARTNER_FAILED R412: 300 ticks pass without a valid heartbeat, or a FAILING heartbeat arrives, and partner failure is declared. -/
  | partnerFailed
  /-- TAKEOVER R412: On the tick after the declaration the standby enters ACTIVE with a raised epoch. -/
  | takeover
  /-- SAMPLE_CHECK R411: A SAMPLE_CHECK is compared with the standby's own head command records. -/
  | sampleCheck (p : PMsg) (sample : BitVec 32) (crc : BitVec 32)
  /-- STALE R410: A STALE message tells an ACTIVE part that a partner holds a higher epoch, so it leaves ACTIVE. -/
  | stale (p : PMsg) (role : BitVec 8) (rejected : BitVec 16)
  /-- HOST_COMMAND R416: A mirrored host command arrives for application on its EFFECT tick. -/
  | hostCommand (p : PMsg) (q : BitVec 32) (effect : BitVec 64) (c : Mirrored)
  /-- MIRROR_EFFECT R416: 64 ticks after decoding, both parts apply a mirrored command and the answer is stamped. -/
  | mirrorEffect
  /-- MEMORY_WRITE R410: A mirrored stream or debug memory write is applied on the standby. -/
  | memoryWrite (p : PMsg) (q : BitVec 32) (tc : Fin 192) (addr : BitVec 64) (data : List Byte)
  /-- MAP R410: A mirrored map or unmap request is applied on its EFFECT tick. -/
  | mapMirror (p : PMsg) (q : BitVec 32) (effect : BitVec 64) (tc : Fin 192) (unmap : Bool) (request : BitVec 128)
  /-- DECISION R411: A mirrored share decision replaces the standby's own grants and waits. -/
  | decision (p : PMsg) (q : BitVec 32) (decided : BitVec 64) (l : List Decided)
  /-- LATTICE_DELTA R411: Mirrored cell images replace the standby's own lattice writes. -/
  | latticeDelta (p : PMsg) (q : BitVec 32) (apply : BitVec 64) (cells : List (BitVec 32 × BitVec 128))
  /-- LOOP_STATE R411: Mirrored loop states replace the standby's own sample results. -/
  | loopState (p : PMsg) (q : BitVec 32) (sample : BitVec 64) (l : List LoopImage)
  /-- SYNC_PAGE R417: A syncing part receives a copied page of dictionary, calibration, memory or lattice. -/
  | syncPage (p : PMsg) (i : SyncItem)
  /-- SYNC_COPY_DONE R418: The sync copy ends and the pair awaits the next layer close. -/
  | syncCopyDone
  /-- SYNC_STATE R418: At a close the syncing part receives every unit state and compares digests. -/
  | syncState (p : PMsg) (digest : BitVec 64) (b : SyncBlock)
  /-- PARTNER_DIGEST R423: A partner DIGEST message delivers its node digest, fleet view and node states. -/
  | partnerDigest (p : PMsg) (digest : BitVec 64) (view : BitVec 64) (nodes : List (BitVec 8))
  /-- HANDOVER R420: A HANDOVER message schedules reversion 64 ticks later. -/
  | handover (p : PMsg) (effect : BitVec 64)
  /-- HANDOVER_EFFECT R420: On the EFFECT tick the secondary enters STANDBY and the primary ACTIVE. -/
  | handoverEffect
  /-- HOLD R424: A mirrored HOLD message sets the standby's digest-hold decision. -/
  | holdMirror (p : PMsg) (v : BitVec 8)
  /-- DIGEST_REQUEST_TIMEOUT R422: A digest request goes unanswered for 100 us and the node becomes SILENT. -/
  | digestRequestTimeout (l : Fin 36)
  /-- DIGEST_HOLD_RELEASE R424: A write of DIGEST_HOLD_RELEASE releases the digest hold for one layer start. -/
  | digestHoldRelease (m : Msg)
  /-- INTERLOCK_CHANGE R443: An interlock input changes after its filter and the pair state changes, withdrawing covered permits on opening. -/
  | interlockChange (i : Fin 8) (closed : Bool)
  /-- DISCREPANCY R443: The inputs of a pair disagree for 10 ms and the pair becomes DISCREPANT. -/
  | discrepancy (p : Fin 4)
  /-- READBACK_FAULT R441: A permit pin disagrees with its driven level for 1 us, so the permit is withdrawn and the fault latched. -/
  | readbackFault (n : Fin 16) (t : Bool) (c : Bool)
  /-- BP_READBACK_CLEAR R441: A host write clears latched readback faults after 10 ms of correct withdrawn read-back. -/
  | bpReadbackClear (m : Msg) (v : BitVec 16)
  /-- PERMIT_RESTART R444: A host write raises the requested permits when every permit condition holds. -/
  | permitRestart (m : Msg) (v : BitVec 16)
  /-- CAL_LOAD R460: A write of CAL_LOAD reads and checks a record from job memory as run 1 or run 2 of a candidate. -/
  | calLoad (m : Msg)
  /-- CAL_MEASURE_REGISTRATION R463: A REGISTRATION measurement exposes fiducial crosses on the masked channels in two runs. -/
  | calMeasureRegistration (m : Msg) (mask : BitVec 16)
  /-- FIDUCIAL_CAPTURE R463: 1 ms after a channel's last mark the flash and camera exposures fire and the fiducials are located. -/
  | fiducialCapture
  /-- CAL_MEASURE_POOL_DARK R462: A POOL_DARK measurement averages 64 frames per run. -/
  | calMeasurePoolDark (m : Msg) (inst : BitVec 16)
  /-- CAL_MEASURE_AXIS_TRIM R462: An AXIS_TRIM measurement fits an ellipse over 4,096 signal periods per run. -/
  | calMeasureAxisTrim (m : Msg) (inst : BitVec 16)
  /-- CAL_MEASURE_LANE_TRIM R462: A LANE_TRIM measurement adapts the equaliser to minimum eye errors twice. -/
  | calMeasureLaneTrim (m : Msg) (inst : BitVec 16)
  /-- CAL_MEASURED R462: A measurement completes and its runs are compared under the repeat rule. -/
  | calMeasured (runs : List (List Byte))
  /-- CAL_MEAS_ABORT R462: A write of CAL_MEAS_ABORT stops a running measurement. -/
  | calMeasAbort (m : Msg)
  /-- CAND_DISCARD R473: A write of CAND_DISCARD frees a candidate slot. -/
  | candDiscard (m : Msg) (i : Fin 64)
  /-- IDLE_CLOSE R466: An installation concurred in IDLE runs an idle close on the next tick. -/
  | idleClose
  /-- TRIM_APPLY R468: A due trim record is applied when its unit meets its idle condition. -/
  | trimApply
  /-- CAL_STORED R469: An installed record's keeping-store write completes and is read back. -/
  | calStored (ok : Bool)
  /-- THERMAL_SAMPLE R478: The supervisor samples all 14 sensors, forms the apex and updates thresholds and the throttle level. -/
  | thermalSample (raw : List (BitVec 16))
  /-- STOP_DONE R484: Every channel is OFF, the journal is sealed and the engines stop. -/
  | stopDone
  /-- DT_SENSOR_ACK R481: A write of DT_SENSOR_ACK acknowledges failed sensors and may return the floor to T0. -/
  | dtSensorAck (m : Msg) (v : BitVec 16)
  /-- DT_PEAK_READ R488: A read of DT_PEAK returns the highest apex and clears it. -/
  | dtPeakRead (m : Msg)
  /-- POWER_ON_RESET R502: PORN is released and the device starts up through its stages. -/
  | powerOnReset (p : PowerOn)
  /-- START_DONE R502: The last start-up stage ends and FN0 and FN1 open to sessions. -/
  | startDone
  /-- POOL_RECORDS_LOADED R459: Pool and bed calibration records finish loading within 1 s of start-up. -/
  | poolRecordsLoaded
  /-- POWER_FAIL R493: A rail stays under voltage for 2 us, permits are withdrawn, the fail stamp stored and the device held in reset. -/
  | powerFail (rails : BitVec 10)
  /-- REFCLK_LOSS R495: No REFCLK edge arrives for 200 ns, permits are withdrawn and the device held in reset. -/
  | refclkLoss
  /-- REFCLK_RESTART R495: REFCLK has run for 1 ms and the device restarts as on a PORN release. -/
  | refclkRestart
  /-- WARM_RESET R501: A write of the reset code with every channel OFF seals, writes back tiles and resets all but the time, always-on and permit state. -/
  | warmReset (m : Msg)
  /-- PWR_ORDER_FAULT R492: A write of 0x00 to PWR_ORDER_FAULT clears the rail order fault and allows layer commits. -/
  | pwrOrderFault (m : Msg)
  /-- VBAT_LOW R499: VBAT falls below 1.6 V while the device runs. -/
  | vbatLow (low : Bool)
  /-- DEBUG_IDENT R508: A debug IDENT returns identity, debug state and twin role. -/
  | debugIdent (r : DbgReq)
  /-- DEBUG_READ R508: A debug READ returns an entry's value or descriptor. -/
  | debugRead (r : DbgReq) (index : BitVec 16) (sub : BitVec 8) (form : BitVec 8)
  /-- DEBUG_WRITE R508: A debug WRITE writes an entry under the dictionary checks. -/
  | debugWrite (r : DbgReq) (index : BitVec 16) (sub : BitVec 8) (value : List Byte)
  /-- MEM_READ R511: A debug MEM_READ reads job memory through a context without parking it. -/
  | memRead (r : DbgReq) (tc : BitVec 8) (addr : BitVec 64) (count : BitVec 16)
  /-- MEM_WRITE R511: A debug MEM_WRITE writes job memory through a context, refused on locked pages. -/
  | memWrite (r : DbgReq) (tc : BitVec 8) (addr : BitVec 64) (data : List Byte)
  /-- JOURNAL_PEEK R512: A debug JOURNAL_PEEK returns journal blocks without moving the read mark. -/
  | journalPeek (r : DbgReq) (seqNo : BitVec 32) (blocks : BitVec 8)
  /-- DEBUG_BAD_OP R510: A debug transaction with an unknown OP, bad CRC or locked port is answered FAULT. -/
  | debugBadOp (r : DbgReq) (op : BitVec 4)
  /-- DBG_LOCK R513: A host write of DBG_LOCK locks the debug port at once. -/
  | dbgLock (m : Msg)
  /-- DEBUG_LOCKED R513: The unlock time expires and the debug port locks, disarming breakpoints. -/
  | debugLocked
  /-- DEBUG_HALT R515: A debug HALT holds the channel at the next boundary or sample, or at the next layer start. -/
  | debugHalt (r : DbgReq) (n : Fin 16)
  /-- DEBUG_STEP R516: A debug STEP executes up to and including the next chord and halts again. -/
  | debugStep (r : DbgReq) (n : Fin 16)
  /-- DEBUG_RESUME R516: A debug RESUME returns a debug-held channel to RUN. -/
  | debugResume (r : DbgReq) (n : Fin 16)
  /-- EV_CLEAR R527: A write of EV_CLEAR resets an event source's counters and last-event fields. -/
  | evClear (m : Msg) (src : BitVec 8)
  /-- SIGNAL_PRESENT R352: A signal appears on an enabled Dardayn lane's receiver, moving it from DOWN to ACQUIRE, or returning in L2 so that it reacquires. -/
  | signalPresent (l : Fin 44)
  /-- PORT_LINK R88: The 10GBASE-R link of a field-network port goes up or down, changing LINK_STATE and raising PORT_LINK. -/
  | portLink (p : Fin 4) (up : Bool)
  /-- PORN_LOW R539: PORN is driven low for at least 1 us, so the device enters and holds reset with every permit pin at its withdrawn level. -/
  | pornLow
  /-- AXIS_MOTION R365: Encoder edges or sine/cosine phase changes on an axis input change AX_COUNT, the scaled position, the blade line and the pass-through target. -/
  | axisMotion (k : Fin 4) (i : AxisInput)
  /-- MASTER_SYNC_INTERVAL R113: On FN2 and FN3 the device, as master, sends Sync, Follow_Up and Announce every logSyncInterval of PTP_LOG_SYNC. -/
  | masterSyncInterval
deriving DecidableEq, Repr

end Sys2Proof
end

