-- ==== Sys2Proof/Decode.lean ====
section
/-! DEFINITION. Decoding a table word. The command table gives no row any bits: a command is not a word of a program but a message,
a pin event or a report of a unit, so no word spells one. -/

namespace Sys2Proof

/-- The command that a word spells by the table's bits: none, since no row of the table has bits. -/
def decodeTableWord (_nbits _w : Nat) : Option Instr := none

end Sys2Proof
end

