-- ==== Sys2Proof/Config.lean ====
section
/-! DEFINITION. What an implementation fixes and the manual does not: free values. Each is an opaque constant, so
nothing is known of its values; it is applied to a counter of the state, so that each use draws afresh. -/

namespace Sys2Proof.Config

/-- A session nonce: drawn fresh from the device's random source (R99). -/
opaque nonce : Nat → BitVec 128

/-- The side to which a path point is rounded where the manual gives only a bound (R176, R177). -/
opaque pathRound : Nat → BitVec 1

/-- Which free table of the pool a new level-2 table takes (R121). -/
opaque poolTable : Nat → BitVec 11

/-- A value the manual does not state, for a result of 64 bits. -/
opaque unstated : Nat → BitVec 64

/-- The sourcePortIdentity of the PTP messages a port sends: the manual gives the device no clockIdentity (R113). -/
opaque portIdentity : Nat → BitVec 80

/-- A die temperature corrected by a trim that is not neutral (R477, R457): raw value, offset and gain. -/
opaque trimmed : Int → Int → Nat → BitVec 16

/-- The ratio of a band B signal to a band A signal of 0 (R290): the manual divides by it and states no result. -/
opaque ratioOverZero : Nat → BitVec 16

/-- The value of a void pixel after the flat stage, by its place in the array (R290, R298): the manual gives it none. -/
opaque voidPixel : Nat → Nat → BitVec 16

/-- ANGLE of a pool of so many cells whose moments have no direction (R292). -/
opaque undirected : Nat → BitVec 15

end Sys2Proof.Config
end

