-- ==== Sys2Proof/Machine/Codec.lean ====
section
/-! DEFINITION. Byte order, two's complement, check sums and hashes: CRC-32C and CRC-32, SHA-256
(FIPS 180-4) and HMAC-SHA-256 (FIPS 198-1), on lists of bytes. -/

namespace Sys2Proof.Machine

/-- A little-endian number (R9). -/
def leNat : List Byte → Nat
  | [] => 0
  | b :: bs => b.toNat + 256 * leNat bs

/-- A number as `n` little-endian bytes. -/
def toLE : Nat → Nat → List Byte
  | 0, _ => []
  | n + 1, v => BitVec.ofNat 8 v :: toLE n (v / 256)

/-- A number as `n` big-endian bytes. -/
def toBE (n v : Nat) : List Byte := (toLE n v).reverse

/-- A big-endian number. -/
def beNat (bs : List Byte) : Nat := leNat bs.reverse

/-- The signed reading of a `w`-bit number. -/
def sgn (w v : Nat) : Int :=
  let u := v % 2 ^ w
  if u < 2 ^ (w - 1) then (u : Int) else (u : Int) - (2 ^ w : Nat)

/-- The `w`-bit two's-complement form of an integer. -/
def uns (w : Nat) (i : Int) : Nat := (i % ((2 ^ w : Nat) : Int)).toNat

/-- Bit `i` of a number. -/
def bit (v i : Nat) : Bool := v.testBit i

/-- The number `v` with bit `i` set to `b`. -/
def setBit (v i : Nat) (b : Bool) : Nat :=
  let cleared := if v.testBit i then v - 2 ^ i else v
  if b then cleared + 2 ^ i else cleared

/-- Bits `hi` down to `lo` (R8). -/
def bits (v hi lo : Nat) : Nat := v / 2 ^ lo % 2 ^ (hi + 1 - lo)

/-- Byte `i` of an octet value (byte 0 least significant). -/
def octByte (v i : Nat) : Nat := v / 2 ^ (8 * i) % 256

/-- An octet value with byte `i` replaced. -/
def octSet (v i b : Nat) : Nat := v - octByte v i * 2 ^ (8 * i) + b % 256 * 2 ^ (8 * i)

/-- A field of `w` bytes at byte offset `i` of an octet value. -/
def octField (w v i : Nat) : Nat := v / 2 ^ (8 * i) % 2 ^ (8 * w)

/-- An integer limited to a range. -/
def clampInt (lo hi v : Int) : Int := if v < lo then lo else if hi < v then hi else v

/-- A quotient rounded to nearest, half up, for a positive divisor. -/
def divHalfUp (a : Int) (b : Nat) : Int := (2 * a + b) / (2 * (b : Int))

/-- A quotient rounded to nearest, half away from zero, for a positive divisor. -/
def divHalfAway (a : Int) (b : Nat) : Int :=
  if 0 ≤ a then (2 * a + b) / (2 * (b : Int)) else -((2 * (-a) + b) / (2 * (b : Int)))

/-- A quotient rounded to nearest, half to even, for a positive divisor. -/
def divHalfEven (a : Int) (b : Nat) : Int :=
  let q := a / (b : Int)
  let r := a % (b : Int)
  if 2 * r < b then q else if 2 * r > b then q + 1 else if q % 2 = 0 then q else q + 1

/-- One bit of a reflected CRC. -/
def crcBit (poly c : Nat) : Nat := if c % 2 = 1 then (c / 2) ^^^ poly else c / 2

/-- One byte of a reflected CRC. -/
def crcByte (poly c : Nat) (b : Byte) : Nat :=
  let f := crcBit poly
  f (f (f (f (f (f (f (f (c ^^^ b.toNat))))))))

/-- The register of a running CRC-32C after more bytes. -/
def crc32cRun (c : Nat) (bs : List Byte) : Nat := bs.foldl (crcByte 0x82F63B78) c

/-- CRC-32C. -/
def crc32c (bs : List Byte) : Nat := crc32cRun 0xFFFFFFFF bs ^^^ 0xFFFFFFFF

/-- A 32-bit right rotation. -/
def rotr (n x : Nat) : Nat := x / 2 ^ n ||| (x * 2 ^ (32 - n) % 2 ^ 32)

/-- The primes up to the 64th. -/
def shaPrimes : List Nat :=
  (List.range 312).filter fun p => decide (1 < p) && (List.range 16).all fun i => decide (p ≤ i + 2) || p % (i + 2) != 0

/-- One step of a bitwise integer root of degree `n`: the root so far, and the bit to try. -/
def rootStep (n x : Nat) : Nat → Nat → Nat
  | 0, r => r
  | k + 1, r => rootStep n x k (if (r + 2 ^ k) ^ n ≤ x then r + 2 ^ k else r)

/-- The first 32 bits behind the point of the root of degree `n` of a small number. -/
def rootBits (n p : Nat) : Nat := rootStep n (p * 2 ^ (32 * n)) 37 0 % 2 ^ 32

/-- The round constants of SHA-256: from the cube roots of the first 64 primes. -/
def shaK : List Nat := shaPrimes.map (rootBits 3)

/-- The eight words of a SHA-256 state. -/
structure Sha where
  a : Nat
  b : Nat
  c : Nat
  d : Nat
  e : Nat
  f : Nat
  g : Nat
  h : Nat
deriving DecidableEq, Repr

/-- The initial hash value of SHA-256: from the square roots of the first eight primes. -/
def shaInit : Sha :=
  match (shaPrimes.take 8).map (rootBits 2) with
  | [a, b, c, d, e, f, g, h] => ⟨a, b, c, d, e, f, g, h⟩
  | _ => ⟨0, 0, 0, 0, 0, 0, 0, 0⟩

/-- The next message-schedule word from the last sixteen, newest first. -/
def shaNextW (w : List Nat) : Nat :=
  let w15 := w.getD 14 0
  let w2 := w.getD 1 0
  let s0 := rotr 7 w15 ^^^ rotr 18 w15 ^^^ (w15 / 8)
  let s1 := rotr 17 w2 ^^^ rotr 19 w2 ^^^ (w2 / 1024)
  (w.getD 15 0 + s0 + w.getD 6 0 + s1) % 2 ^ 32

/-- One round. -/
def shaRound (s : Sha) (k w : Nat) : Sha :=
  let s1 := rotr 6 s.e ^^^ rotr 11 s.e ^^^ rotr 25 s.e
  let ch := (s.e &&& s.f) ^^^ ((2 ^ 32 - 1 - s.e) &&& s.g)
  let t1 := s.h + s1 + ch + k + w
  let s0 := rotr 2 s.a ^^^ rotr 13 s.a ^^^ rotr 22 s.a
  let mj := (s.a &&& s.b) ^^^ (s.a &&& s.c) ^^^ (s.b &&& s.c)
  ⟨(t1 + s0 + mj) % 2 ^ 32, s.a, s.b, s.c, (s.d + t1) % 2 ^ 32, s.e, s.f, s.g⟩

/-- The rounds of one block: the words still given, then the words of the schedule. -/
def shaRounds : List Nat → List Nat → List Nat → Sha → Sha
  | [], _, _, s => s
  | k :: ks, w :: ws, past, s => shaRounds ks ws ((w :: past).take 16) (shaRound s k w)
  | k :: ks, [], past, s =>
    let w := shaNextW past
    shaRounds ks [] ((w :: past).take 16) (shaRound s k w)

/-- The first `n` big-endian words of a byte list. -/
def beWords : Nat → List Byte → List Nat
  | 0, _ => []
  | n + 1, bs => beNat (bs.take 4) :: beWords n (bs.drop 4)

/-- One block of SHA-256. -/
def shaBlock (s : Sha) (blk : List Byte) : Sha :=
  let r := shaRounds shaK (beWords 16 blk) [] s
  ⟨(s.a + r.a) % 2 ^ 32, (s.b + r.b) % 2 ^ 32, (s.c + r.c) % 2 ^ 32, (s.d + r.d) % 2 ^ 32,
   (s.e + r.e) % 2 ^ 32, (s.f + r.f) % 2 ^ 32, (s.g + r.g) % 2 ^ 32, (s.h + r.h) % 2 ^ 32⟩

/-- The blocks of a padded message. -/
def shaBlocks : Nat → List Byte → Sha → Sha
  | 0, _, s => s
  | n + 1, bs, s => shaBlocks n (bs.drop 64) (shaBlock s (bs.take 64))

/-- SHA-256. -/
def sha256 (m : List Byte) : List Byte :=
  let n := m.length
  let zeros := (119 - n % 64) % 64
  let p := m ++ [(0x80 : Byte)] ++ List.replicate zeros 0 ++ toBE 8 (8 * n)
  let s := shaBlocks (p.length / 64) p shaInit
  [s.a, s.b, s.c, s.d, s.e, s.f, s.g, s.h].flatMap (toBE 4)

/-- HMAC-SHA-256 with a key of at most 64 bytes. -/
def hmacSha256 (key m : List Byte) : List Byte :=
  let k := key ++ List.replicate (64 - key.length) 0
  sha256 (k.map (· ^^^ 0x5C) ++ sha256 (k.map (· ^^^ 0x36) ++ m))

/-- `a` put into an ascending list, in front of entries that are not less. -/
def insertBy {α : Type} (le : α → α → Bool) (a : α) : List α → List α
  | [] => [a]
  | b :: l => if le a b then a :: b :: l else b :: insertBy le a l

/-- A list in ascending order; entries that compare equal keep their order. -/
def sortBy {α : Type} (le : α → α → Bool) : List α → List α
  | [] => []
  | a :: l => insertBy le a (sortBy le l)

/-- Numbers in ascending order. -/
def ascending (l : List Nat) : List Nat := sortBy (fun a b => decide (a ≤ b)) l

end Sys2Proof.Machine
end

