-- ==== Sys2Proof/Machine/DictTypes.lean ====
section
/-! DEFINITION. The types of the object dictionary: type codes, access codes and descriptor rows. -/

namespace Sys2Proof.Machine.Dict

/-- Entry types (R11, R68). -/
inductive Ty where
  | bool | u8 | u16 | u32 | u64 | i16 | i32 | i64 | q | time64 | digest64 | octets
deriving DecidableEq, Repr

/-- Access codes (R12). -/
inductive Acc where
  | ro | rw | rwi | wo | rwg
deriving DecidableEq, Repr

/-- One line of an entry table, standing for every instance of its group. `base` is the first index,
`n1`/`s1` and `n2`/`s2` count and stride of up to two instance numbers, `sub`/`nsub` the sub-indices;
`sparse` lists the only accepted codes when not empty, `mask` the bits that are not reserved. -/
structure Row where
  base : Nat
  n1 : Nat
  s1 : Nat
  n2 : Nat
  s2 : Nat
  sub : Nat
  nsub : Nat
  ty : Ty
  len : Nat
  acc : Acc
  keep : Bool
  partOwn : Bool
  factory : Bool
  lo : Int
  hi : Int
  step : Nat
  sparse : List Nat
  mask : Option Nat
  dflt : Nat
deriving DecidableEq, Repr

/-- An octet value made of `n` little-endian fields of `w` bytes. -/
def octRep (w : Nat) : Nat → (Nat → Nat) → Nat
  | 0, _ => 0
  | n + 1, f => octRep w n f + f n * 2 ^ (8 * w * n)

end Sys2Proof.Machine.Dict
end

