-- ==== Sys2Proof/Machine/DictRows.lean ====
section
/-! DEFINITION. The descriptor rows of the object dictionary (R67), one row for each entry line of the spec's
tables, a line with instances standing for all of them; and the defaults that differ between instances. -/

namespace Sys2Proof.Machine.Dict

/-- Rows of the indices 0x1000 to 0x1FFF, part 1. -/
def rows1_0 : List Row :=
  [⟨0x1000, 1, 0x1, 1, 0x0, 0x1, 1, .u16, 2, .ro, false, false, false, 0, 65535, 1, [], none, 784⟩,
   ⟨0x1000, 1, 0x1, 1, 0x0, 0x2, 1, .u16, 2, .ro, false, false, false, 0, 65535, 1, [], none, 258⟩,
   ⟨0x1000, 1, 0x1, 1, 0x0, 0x3, 1, .octets, 16, .ro, true, true, true, 0, 0, 1, [], none, 0x5832412D3631482D565046⟩,
   ⟨0x1000, 1, 0x1, 1, 0x0, 0x4, 1, .u64, 8, .ro, true, true, true, 1, 18446744073709551615, 1, [], none, 1⟩,
   ⟨0x1000, 1, 0x1, 1, 0x0, 0x5, 1, .u16, 2, .ro, false, false, false, 0, 65535, 1, [], none, 256⟩,
   ⟨0x1000, 1, 0x1, 1, 0x0, 0x6, 1, .u32, 4, .ro, false, false, false, 0, 4294967295, 1, [], none, 15⟩,
   ⟨0x1000, 1, 0x1, 1, 0x0, 0x7, 1, .octets, 16, .ro, false, false, false, 0, 0, 1, [], none, 0x73617461646C614D⟩,
   ⟨0x1000, 1, 0x1, 1, 0x0, 0x8, 1, .u8, 1, .ro, false, false, false, 0, 1, 1, [], none, 0⟩,
   ⟨0x1010, 1, 0x1, 1, 0x0, 0x1, 1, .u32, 4, .wo, false, false, false, 1702257011, 1702257011, 1, [], none, 0⟩,
   ⟨0x1010, 1, 0x1, 1, 0x0, 0x2, 1, .u32, 4, .wo, false, false, false, 1953261156, 1953261156, 1, [], none, 0⟩,
   ⟨0x1010, 1, 0x1, 1, 0x0, 0x3, 1, .u8, 1, .ro, false, false, false, 0, 4, 1, [], none, 0⟩,
   ⟨0x1010, 1, 0x1, 1, 0x0, 0x4, 1, .u32, 4, .ro, false, false, false, 0, 4294967295, 1, [], none, 0⟩,
   ⟨0x1010, 1, 0x1, 1, 0x0, 0x5, 1, .u16, 2, .ro, false, false, false, 0, 65535, 1, [], none, 0⟩,
   ⟨0x1010, 1, 0x1, 1, 0x0, 0x6, 1, .u32, 4, .ro, false, false, false, 0, 16777215, 1, [], none, 0⟩,
   ⟨0x1010, 1, 0x1, 1, 0x0, 0x7, 1, .u16, 2, .ro, false, false, false, 0, 65535, 1, [], none, 0⟩,
   ⟨0x1010, 1, 0x1, 1, 0x0, 0x8, 1, .time64, 8, .ro, false, false, false, 0, 18446744073709551615, 1, [], none, 0⟩,
   ⟨0x1100, 4, 0x1, 1, 0x0, 0x1, 1, .u8, 1, .ro, false, false, false, 0, 1, 1, [], none, 0⟩,
   ⟨0x1100, 4, 0x1, 1, 0x0, 0x2, 1, .octets, 6, .ro, true, true, true, 0, 0, 1, [], none, 0⟩,
   ⟨0x1100, 4, 0x1, 1, 0x0, 0x3, 1, .u16, 2, .rwi, true, false, false, 1536, 65535, 1, [], none, 34997⟩,
   ⟨0x1100, 4, 0x1, 1, 0x0, 0x4, 1, .u16, 2, .rwi, true, false, false, 0, 4094, 1, [], none, 0⟩,
   ⟨0x1100, 4, 0x1, 1, 0x0, 0x5, 1, .u8, 1, .rw, true, false, false, 0, 7, 1, [], none, 5⟩,
   ⟨0x1100, 4, 0x1, 1, 0x0, 0x6, 1, .u8, 1, .rw, true, false, false, 0, 7, 1, [], none, 3⟩,
   ⟨0x1100, 4, 0x1, 1, 0x0, 0x7, 1, .u8, 1, .rw, true, false, false, 0, 7, 1, [], none, 6⟩,
   ⟨0x1100, 4, 0x1, 1, 0x0, 0x8, 1, .bool, 1, .rw, true, false, false, 0, 1, 1, [], none, 1⟩,
   ⟨0x1100, 4, 0x1, 1, 0x0, 0x9, 1, .u8, 1, .ro, false, false, false, 0, 1, 1, [], none, 0⟩,
   ⟨0x1100, 4, 0x1, 1, 0x0, 0xA, 1, .u32, 4, .ro, false, false, false, 0, 4294967295, 1, [], none, 0⟩,
   ⟨0x1100, 4, 0x1, 1, 0x0, 0xB, 1, .u32, 4, .ro, false, false, false, 0, 4294967295, 1, [], none, 0⟩,
   ⟨0x1100, 4, 0x1, 1, 0x0, 0xC, 1, .u32, 4, .ro, false, false, false, 0, 4294967295, 1, [], none, 0⟩,
   ⟨0x1100, 4, 0x1, 1, 0x0, 0xD, 1, .u16, 2, .ro, false, false, false, 0, 65535, 1, [], none, 34997⟩,
   ⟨0x1100, 4, 0x1, 1, 0x0, 0xE, 1, .u16, 2, .ro, false, false, false, 0, 4094, 1, [], none, 0⟩,
   ⟨0x1200, 1, 0x1, 1, 0x0, 0x1, 1, .u8, 1, .ro, false, false, false, 0, 255, 1, [], none, 4⟩,
   ⟨0x1200, 1, 0x1, 1, 0x0, 0x2, 1, .u8, 1, .ro, false, false, false, 0, 4, 1, [], none, 0⟩,
   ⟨0x1200, 1, 0x1, 1, 0x0, 0x3, 1, .u32, 4, .rw, true, false, false, 10, 60000, 1, [], none, 1000⟩,
   ⟨0x1200, 1, 0x1, 1, 0x0, 0x4, 1, .u16, 2, .rw, true, false, false, 1, 4096, 1, [], none, 256⟩,
   ⟨0x1200, 1, 0x1, 1, 0x0, 0x5, 1, .octets, 32, .rw, true, true, false, 0, 0, 1, [], none, 0⟩,
   ⟨0x1210, 1, 0x1, 1, 0x0, 0x1, 1, .u16, 2, .ro, false, false, false, 0, 4096, 1, [], none, 0⟩,
   ⟨0x1210, 1, 0x1, 1, 0x0, 0x2, 1, .u16, 2, .ro, false, false, false, 0, 65535, 1, [], none, 0⟩,
   ⟨0x1210, 1, 0x1, 1, 0x0, 0x3, 1, .u32, 4, .ro, false, false, false, 0, 4294967295, 1, [], none, 0⟩,
   ⟨0x1210, 1, 0x1, 1, 0x0, 0x4, 1, .u32, 4, .ro, false, false, false, 0, 4294967295, 1, [], none, 0⟩,
   ⟨0x1210, 1, 0x1, 1, 0x0, 0x5, 1, .u16, 2, .rw, true, false, false, 5, 1000, 1, [], none, 50⟩]

/-- Rows of the indices 0x1000 to 0x1FFF, part 2. -/
def rows1_1 : List Row :=
  [⟨0x1210, 1, 0x1, 1, 0x0, 0x6, 1, .u16, 2, .ro, false, false, false, 0, 65535, 1, [], none, 4096⟩,
   ⟨0x1300, 64, 0x1, 1, 0x0, 0x1, 1, .u8, 1, .rwi, false, false, false, 64, 191, 1, [], none, 64⟩,
   ⟨0x1300, 64, 0x1, 1, 0x0, 0x2, 1, .u64, 8, .rwi, false, false, false, 0, 1099511627768, 8, [], none, 0⟩,
   ⟨0x1300, 64, 0x1, 1, 0x0, 0x3, 1, .u32, 4, .rwi, false, false, false, 1, 4294967295, 1, [], none, 0⟩,
   ⟨0x1300, 64, 0x1, 1, 0x0, 0x4, 1, .u32, 4, .rwi, false, false, false, 0, 4294967295, 1, [], none, 0⟩,
   ⟨0x1300, 64, 0x1, 1, 0x0, 0x5, 1, .u8, 1, .wo, false, false, false, 1, 2, 1, [], none, 0⟩,
   ⟨0x1300, 64, 0x1, 1, 0x0, 0x6, 1, .u8, 1, .ro, false, false, false, 0, 4, 1, [], none, 0⟩,
   ⟨0x1300, 64, 0x1, 1, 0x0, 0x7, 1, .u32, 4, .ro, false, false, false, 0, 4294967295, 1, [], none, 0⟩,
   ⟨0x1300, 64, 0x1, 1, 0x0, 0x8, 1, .u32, 4, .ro, false, false, false, 0, 4294967295, 1, [], none, 0⟩,
   ⟨0x1300, 64, 0x1, 1, 0x0, 0x9, 1, .u16, 2, .ro, false, false, false, 0, 65535, 1, [], none, 0⟩,
   ⟨0x1300, 64, 0x1, 1, 0x0, 0xA, 1, .u8, 1, .ro, false, false, false, 0, 4, 1, [], none, 0⟩,
   ⟨0x1300, 64, 0x1, 1, 0x0, 0xB, 1, .time64, 8, .ro, false, false, false, 0, 18446744073709551615, 1, [], none, 0⟩,
   ⟨0x1400, 1, 0x1, 1, 0x0, 0x1, 1, .bool, 1, .rw, false, false, false, 0, 1, 1, [], none, 0⟩,
   ⟨0x1400, 1, 0x1, 1, 0x0, 0x2, 1, .u32, 4, .ro, false, false, false, 0, 4294967295, 1, [], none, 5000⟩,
   ⟨0x1400, 1, 0x1, 1, 0x0, 0x3, 1, .u32, 4, .ro, false, false, false, 0, 4294967295, 1, [], none, 2500⟩,
   ⟨0x1400, 1, 0x1, 1, 0x0, 0x4, 1, .octets, 6, .rwi, true, false, false, 0, 0, 1, [], none, 0x100004C4D03⟩,
   ⟨0x1400, 1, 0x1, 1, 0x0, 0x5, 1, .u32, 4, .ro, false, false, false, 0, 4294967295, 1, [], none, 0⟩,
   ⟨0x1400, 1, 0x1, 1, 0x0, 0x6, 1, .u32, 4, .rwi, true, false, false, 500, 2400, 1, [], none, 2000⟩,
   ⟨0x1400, 1, 0x1, 1, 0x0, 0x10, 8, .u8, 1, .rwi, true, false, false, 0, 254, 1, [], none, 0⟩,
   ⟨0x1400, 1, 0x1, 1, 0x0, 0x18, 8, .u8, 1, .rwi, true, false, false, 0, 3, 1, [], none, 0⟩,
   ⟨0x1400, 1, 0x1, 1, 0x0, 0x20, 8, .u8, 1, .rwi, true, false, false, 88, 95, 1, [], none, 88⟩,
   ⟨0x1400, 1, 0x1, 1, 0x0, 0x28, 8, .u32, 4, .ro, false, false, false, 0, 4294967295, 1, [], none, 0⟩,
   ⟨0x1400, 1, 0x1, 1, 0x0, 0x30, 8, .u8, 1, .ro, false, false, false, 0, 240, 1, [], none, 0⟩,
   ⟨0x1500, 4, 0x1, 1, 0x0, 0x1, 1, .u8, 1, .rw, true, false, false, 1, 2, 1, [], none, 1⟩,
   ⟨0x1500, 4, 0x1, 1, 0x0, 0x2, 1, .u8, 1, .ro, false, false, false, 0, 4, 1, [], none, 0⟩,
   ⟨0x1500, 4, 0x1, 1, 0x0, 0x3, 1, .u8, 1, .ro, false, false, false, 0, 4, 1, [], none, 0⟩,
   ⟨0x1500, 4, 0x1, 1, 0x0, 0x4, 1, .i16, 2, .rw, true, false, false, (-7), 0, 1, [], none, 65532⟩,
   ⟨0x1500, 4, 0x1, 1, 0x0, 0x5, 1, .i32, 4, .rw, true, false, false, (-16000000), 16000000, 1, [], none, 0⟩,
   ⟨0x1500, 4, 0x1, 1, 0x0, 0x6, 1, .i64, 8, .ro, false, false, false, (-9223372036854775808), 9223372036854775807, 1, [], none, 0⟩,
   ⟨0x1500, 4, 0x1, 1, 0x0, 0x7, 1, .u8, 1, .rw, true, false, false, 0, 3, 1, [], some 0x3, 1⟩,
   ⟨0x1500, 4, 0x1, 1, 0x0, 0x8, 1, .u8, 1, .ro, false, false, false, 0, 32, 1, [], none, 0⟩,
   ⟨0x1500, 4, 0x1, 1, 0x0, 0x9, 1, .octets, 10, .ro, false, false, false, 0, 0, 1, [], none, 0⟩,
   ⟨0x1500, 4, 0x1, 1, 0x0, 0xA, 1, .u8, 1, .wo, false, false, false, 1, 32, 1, [], none, 0⟩,
   ⟨0x1500, 4, 0x1, 1, 0x0, 0xB, 1, .bool, 1, .rw, false, false, false, 0, 1, 1, [], none, 0⟩,
   ⟨0x1500, 4, 0x1, 1, 0x0, 0xC, 1, .u32, 4, .ro, false, false, false, 0, 4294967295, 1, [], none, 0⟩,
   ⟨0x1500, 4, 0x1, 1, 0x0, 0xD, 1, .u32, 4, .ro, false, false, false, 0, 4294967295, 1, [], none, 0⟩,
   ⟨0x1F00, 1, 0x1, 1, 0x0, 0x1, 1, .digest64, 8, .ro, false, false, false, 0, 18446744073709551615, 1, [], none, 0⟩,
   ⟨0x1F00, 1, 0x1, 1, 0x0, 0x2, 1, .time64, 8, .ro, false, false, false, 0, 18446744073709551615, 1, [], none, 0⟩,
   ⟨0x1F00, 1, 0x1, 1, 0x0, 0x3, 1, .u8, 1, .ro, false, false, false, 0, 1, 1, [], none, 1⟩,
   ⟨0x1F00, 1, 0x1, 1, 0x0, 0x4, 1, .u32, 4, .ro, false, false, false, 0, 4294967295, 1, [], none, 0⟩]

/-- Rows of the indices 0x1000 to 0x1FFF, part 3. -/
def rows1_2 : List Row :=
  [⟨0x1F00, 1, 0x1, 1, 0x0, 0x5, 1, .u16, 2, .ro, false, false, false, 0, 65535, 1, [], none, 0⟩,
   ⟨0x1F10, 1, 0x1, 1, 0x0, 0x1, 1, .digest64, 8, .ro, false, true, false, 0, 18446744073709551615, 1, [], none, 0⟩,
   ⟨0x1F10, 1, 0x1, 1, 0x0, 0x2, 1, .time64, 8, .ro, false, true, false, 0, 18446744073709551615, 1, [], none, 0⟩,
   ⟨0x1F10, 1, 0x1, 1, 0x0, 0x3, 1, .digest64, 8, .ro, false, true, false, 0, 18446744073709551615, 1, [], none, 0⟩,
   ⟨0x1F10, 1, 0x1, 1, 0x0, 0x4, 1, .digest64, 8, .rw, true, true, false, 0, 18446744073709551615, 1, [], none, 0⟩,
   ⟨0x1F10, 1, 0x1, 1, 0x0, 0x5, 1, .u8, 1, .ro, false, true, false, 0, 2, 1, [], none, 2⟩,
   ⟨0x1F10, 1, 0x1, 1, 0x0, 0x6, 1, .u8, 1, .ro, false, true, false, 0, 15, 1, [], none, 0⟩,
   ⟨0x1F10, 1, 0x1, 1, 0x0, 0x7, 1, .u8, 1, .ro, false, true, false, 0, 255, 1, [0, 1, 2, 3, 4, 5, 6, 7, 8, 9, 10, 11, 12, 13, 14, 15, 16, 17, 18, 19, 20, 21, 22, 23, 24, 25, 26, 27, 28, 29, 30, 31, 32, 33, 34, 35, 36, 37, 38, 39, 40, 41, 42, 43, 44, 45, 255], none, 255⟩,
   ⟨0x1F10, 1, 0x1, 1, 0x0, 0x8, 1, .u8, 1, .ro, false, true, false, 0, 46, 1, [], none, 0⟩,
   ⟨0x1F11, 46, 0x1, 1, 0x0, 0x1, 1, .u8, 1, .ro, false, true, false, 0, 4, 1, [], none, 0⟩,
   ⟨0x1F11, 46, 0x1, 1, 0x0, 0x2, 1, .bool, 1, .rw, true, false, false, 0, 1, 1, [], none, 1⟩,
   ⟨0x1F11, 46, 0x1, 1, 0x0, 0x3, 1, .digest64, 8, .ro, false, true, false, 0, 18446744073709551615, 1, [], none, 0⟩,
   ⟨0x1F11, 46, 0x1, 1, 0x0, 0x4, 1, .time64, 8, .ro, false, true, false, 0, 18446744073709551615, 1, [], none, 0⟩,
   ⟨0x1F11, 46, 0x1, 1, 0x0, 0x5, 1, .u8, 1, .ro, false, true, false, 0, 2, 1, [], none, 0⟩]

/-- The rows of the indices 0x1000 to 0x1FFF. -/
def rows1 : List Row := rows1_0 ++ rows1_1 ++ rows1_2

/-- Rows of the indices 0x2000 to 0x2FFF, part 1. -/
def rows2_0 : List Row :=
  [⟨0x2000, 1, 0x1, 1, 0x0, 0x1, 1, .u16, 2, .rwi, true, false, false, 0, 65535, 1, [], none, 0⟩,
   ⟨0x2000, 1, 0x1, 1, 0x0, 0x2, 1, .u32, 4, .rwi, true, false, false, 0, 20000, 1, [], none, 1000⟩,
   ⟨0x2000, 1, 0x1, 1, 0x0, 0x3, 1, .u8, 1, .rwi, true, false, false, 0, 3, 1, [], none, 0⟩,
   ⟨0x2000, 1, 0x1, 1, 0x0, 0x4, 1, .u16, 2, .rwi, true, false, false, 0, 65535, 1, [], none, 0⟩,
   ⟨0x2000, 1, 0x1, 1, 0x0, 0x5, 1, .bool, 1, .rwi, true, false, false, 0, 1, 1, [], none, 0⟩,
   ⟨0x2000, 1, 0x1, 1, 0x0, 0x6, 1, .i32, 4, .rwi, true, false, false, (-2147483648), 2147483647, 1, [], none, 0⟩,
   ⟨0x2000, 1, 0x1, 1, 0x0, 0x7, 1, .u32, 4, .rwi, true, false, false, 1000, 500000, 1, [], none, 20000⟩,
   ⟨0x2000, 1, 0x1, 1, 0x0, 0x8, 1, .bool, 1, .rwi, true, false, false, 0, 1, 1, [], none, 1⟩,
   ⟨0x2000, 1, 0x1, 1, 0x0, 0x9, 1, .u32, 4, .rwi, true, false, false, 10, 50000, 1, [], none, 2000⟩,
   ⟨0x2000, 1, 0x1, 1, 0x0, 0xA, 1, .u32, 4, .rwi, true, false, false, 10, 10000, 1, [], none, 200⟩,
   ⟨0x2000, 1, 0x1, 1, 0x0, 0xB, 1, .u32, 4, .rwi, true, false, false, 10, 100000, 1, [], none, 1000⟩,
   ⟨0x2000, 1, 0x1, 1, 0x0, 0xC, 1, .i32, 4, .ro, false, false, false, (-2147483648), 2147483647, 1, [], none, 0⟩,
   ⟨0x2000, 1, 0x1, 1, 0x0, 0xD, 1, .u8, 1, .ro, false, false, false, 0, 4, 1, [], none, 0⟩,
   ⟨0x2000, 1, 0x1, 1, 0x0, 0xE, 1, .i32, 4, .ro, false, false, false, (-2147483648), 2147483647, 1, [], none, 0⟩,
   ⟨0x2000, 1, 0x1, 1, 0x0, 0xF, 1, .u8, 1, .wo, false, false, false, 1, 1, 1, [], none, 0⟩,
   ⟨0x2000, 1, 0x1, 1, 0x0, 0x10, 1, .u32, 4, .rw, true, false, false, 0, 60000, 1, [], none, 0⟩,
   ⟨0x2000, 1, 0x1, 1, 0x0, 0x11, 1, .u16, 2, .rw, true, false, false, 0, 65535, 1, [], none, 4096⟩,
   ⟨0x2100, 1, 0x1, 1, 0x0, 0x1, 1, .u64, 8, .rw, false, false, false, 0, 1099511627520, 256, [], none, 0⟩,
   ⟨0x2100, 1, 0x1, 1, 0x0, 0x2, 1, .u8, 1, .rw, false, false, false, 64, 191, 1, [], none, 64⟩,
   ⟨0x2100, 1, 0x1, 1, 0x0, 0x3, 1, .u32, 4, .wo, false, false, false, 1, 4294967295, 1, [], none, 0⟩,
   ⟨0x2100, 1, 0x1, 1, 0x0, 0x4, 1, .u32, 4, .ro, false, false, false, 0, 4294967295, 1, [], none, 0⟩,
   ⟨0x2100, 1, 0x1, 1, 0x0, 0x5, 1, .u8, 1, .ro, false, false, false, 0, 5, 1, [], none, 0⟩,
   ⟨0x2100, 1, 0x1, 1, 0x0, 0x6, 1, .u32, 4, .ro, false, false, false, 0, 4294967295, 1, [], none, 0⟩,
   ⟨0x2100, 1, 0x1, 1, 0x0, 0x7, 1, .u32, 4, .wo, false, false, false, 0, 4294967295, 1, [], none, 0⟩,
   ⟨0x2200, 1, 0x1, 1, 0x0, 0x1, 1, .bool, 1, .rw, true, false, false, 0, 1, 1, [], none, 0⟩,
   ⟨0x2200, 1, 0x1, 1, 0x0, 0x2, 1, .bool, 1, .ro, false, false, false, 0, 1, 1, [], none, 0⟩,
   ⟨0x2200, 1, 0x1, 1, 0x0, 0x3, 1, .u8, 1, .wo, false, false, false, 1, 1, 1, [], none, 0⟩]

/-- The rows of the indices 0x2000 to 0x2FFF. -/
def rows2 : List Row := rows2_0

/-- Rows of the indices 0x3000 to 0x3FFF, part 1. -/
def rows3_0 : List Row :=
  [⟨0x3000, 16, 0x10, 1, 0x0, 0x1, 1, .u8, 1, .ro, false, false, false, 0, 9, 1, [], none, 0⟩,
   ⟨0x3000, 16, 0x10, 1, 0x0, 0x2, 1, .u64, 8, .ro, false, false, false, 0, 18446744073709551615, 1, [], none, 0⟩,
   ⟨0x3000, 16, 0x10, 1, 0x0, 0x3, 1, .i32, 4, .ro, false, false, false, (-2147483648), 2147483647, 1, [], none, 0⟩,
   ⟨0x3000, 16, 0x10, 1, 0x0, 0x4, 1, .i32, 4, .ro, false, false, false, (-2147483648), 2147483647, 1, [], none, 0⟩,
   ⟨0x3000, 16, 0x10, 1, 0x0, 0x5, 1, .u8, 1, .ro, false, false, false, 0, 8, 1, [], none, 0⟩,
   ⟨0x3000, 16, 0x10, 1, 0x0, 0x6, 1, .u8, 1, .ro, false, false, false, 0, 6, 1, [], none, 0⟩,
   ⟨0x3000, 16, 0x10, 1, 0x0, 0x7, 1, .u8, 1, .ro, false, false, false, 0, 12, 1, [], none, 0⟩,
   ⟨0x3000, 16, 0x10, 1, 0x0, 0x8, 1, .u64, 8, .ro, false, false, false, 0, 18446744073709551615, 1, [], none, 0⟩,
   ⟨0x3000, 16, 0x10, 1, 0x0, 0x9, 1, .u8, 1, .wo, false, false, false, 1, 2, 1, [], none, 0⟩,
   ⟨0x3000, 16, 0x10, 1, 0x0, 0xA, 1, .u32, 4, .ro, false, false, false, 0, 4294967295, 1, [], none, 0⟩,
   ⟨0x3000, 16, 0x10, 1, 0x0, 0xB, 1, .u32, 4, .ro, false, false, false, 0, 4294967295, 1, [], none, 0⟩,
   ⟨0x3000, 16, 0x10, 1, 0x0, 0xC, 1, .u32, 4, .ro, false, false, false, 0, 4294967295, 1, [], none, 0⟩,
   ⟨0x3000, 16, 0x10, 1, 0x0, 0xD, 1, .u32, 4, .ro, false, false, false, 0, 4294967295, 1, [], none, 0⟩,
   ⟨0x3000, 16, 0x10, 1, 0x0, 0xE, 1, .u32, 4, .ro, false, false, false, 0, 4294967295, 1, [], none, 0⟩,
   ⟨0x3000, 16, 0x10, 1, 0x0, 0xF, 1, .u32, 4, .ro, false, false, false, 0, 4294967295, 1, [], none, 0⟩,
   ⟨0x3000, 16, 0x10, 1, 0x0, 0x10, 1, .u32, 4, .ro, false, false, false, 0, 4294967295, 1, [], none, 0⟩,
   ⟨0x3001, 16, 0x10, 1, 0x0, 0x1, 1, .u32, 4, .rw, true, false, false, 1, 20000000, 1, [], none, 500000⟩,
   ⟨0x3001, 16, 0x10, 1, 0x0, 0x2, 1, .u32, 4, .rw, true, false, false, 1, 40000000, 1, [], none, 0x4C4B40⟩,
   ⟨0x3001, 16, 0x10, 1, 0x0, 0x3, 1, .i32, 4, .rw, true, false, false, (-10000000), 10000000, 1, [], none, 0⟩,
   ⟨0x3001, 16, 0x10, 1, 0x0, 0x4, 1, .u32, 4, .rw, true, false, false, 0, 65536, 1, [], none, 65536⟩,
   ⟨0x3001, 16, 0x10, 1, 0x0, 0x5, 1, .u16, 2, .rw, true, false, false, 0, 65535, 1, [], none, 65535⟩,
   ⟨0x3001, 16, 0x10, 1, 0x0, 0x6, 1, .u32, 4, .rw, true, false, false, 400, 400000000, 1, [], none, 0x3D0900⟩,
   ⟨0x3001, 16, 0x10, 1, 0x0, 0x7, 1, .u32, 4, .rw, true, false, false, 0, 4294967295, 1, [], none, 0⟩,
   ⟨0x3002, 16, 0x10, 1, 0x0, 0x1, 1, .u32, 4, .ro, false, false, false, 0, 4294967295, 1, [], none, 500000⟩,
   ⟨0x3002, 16, 0x10, 1, 0x0, 0x2, 1, .u32, 4, .ro, false, false, false, 0, 4294967295, 1, [], none, 0x4C4B40⟩,
   ⟨0x3002, 16, 0x10, 1, 0x0, 0x3, 1, .i32, 4, .ro, false, false, false, (-2147483648), 2147483647, 1, [], none, 0⟩,
   ⟨0x3002, 16, 0x10, 1, 0x0, 0x4, 1, .u32, 4, .ro, false, false, false, 0, 4294967295, 1, [], none, 65536⟩,
   ⟨0x3002, 16, 0x10, 1, 0x0, 0x5, 1, .u16, 2, .ro, false, false, false, 0, 65535, 1, [], none, 65535⟩,
   ⟨0x3002, 16, 0x10, 1, 0x0, 0x6, 1, .u32, 4, .ro, false, false, false, 0, 4294967295, 1, [], none, 0x3D0900⟩,
   ⟨0x3002, 16, 0x10, 1, 0x0, 0x7, 1, .u32, 4, .ro, false, false, false, 0, 4294967295, 1, [], none, 0⟩,
   ⟨0x3100, 16, 0x10, 1, 0x0, 0x1, 1, .u8, 1, .wo, false, false, false, 1, 3, 1, [], none, 0⟩,
   ⟨0x3100, 16, 0x10, 1, 0x0, 0x2, 1, .u8, 1, .ro, false, false, false, 0, 3, 1, [], none, 0⟩,
   ⟨0x3100, 16, 0x10, 1, 0x0, 0x3, 1, .u32, 4, .ro, false, false, false, 0, 4294967295, 1, [], none, 0⟩,
   ⟨0x3100, 16, 0x10, 1, 0x0, 0x4, 1, .time64, 8, .ro, false, false, false, 0, 18446744073709551615, 1, [], none, 0⟩,
   ⟨0x3100, 16, 0x10, 1, 0x0, 0x5, 1, .u8, 1, .ro, false, false, false, 0, 255, 1, [0, 1, 2, 3, 4, 5, 6, 7, 255], none, 255⟩,
   ⟨0x3101, 16, 0x10, 8, 0x1, 0x1, 1, .u8, 1, .rw, false, false, false, 0, 3, 1, [], none, 0⟩,
   ⟨0x3101, 16, 0x10, 8, 0x1, 0x2, 1, .u64, 8, .rw, false, false, false, 0, 18446744073709551615, 1, [], none, 0⟩,
   ⟨0x3101, 16, 0x10, 8, 0x1, 0x3, 1, .u32, 4, .ro, false, false, false, 0, 4294967295, 1, [], none, 0⟩,
   ⟨0x3101, 16, 0x10, 8, 0x1, 0x4, 1, .time64, 8, .ro, false, false, false, 0, 18446744073709551615, 1, [], none, 0⟩,
   ⟨0x3200, 16, 0x1, 1, 0x0, 0x1, 1, .bool, 1, .rw, true, false, false, 0, 1, 1, [], none, 1⟩]

/-- Rows of the indices 0x3000 to 0x3FFF, part 2. -/
def rows3_1 : List Row :=
  [⟨0x3200, 16, 0x1, 1, 0x0, 0x2, 1, .u8, 1, .rw, true, false, false, 1, 64, 1, [], none, 64⟩,
   ⟨0x3200, 16, 0x1, 1, 0x0, 0x3, 1, .u8, 1, .ro, false, false, false, 0, 255, 1, [], none, 0⟩,
   ⟨0x3200, 16, 0x1, 1, 0x0, 0x4, 1, .u8, 1, .ro, false, false, false, 0, 255, 1, [], none, 0⟩,
   ⟨0x3200, 16, 0x1, 1, 0x0, 0x5, 1, .u8, 1, .ro, false, false, false, 0, 255, 1, [], none, 0⟩,
   ⟨0x3200, 16, 0x1, 1, 0x0, 0x6, 1, .u8, 1, .ro, false, false, false, 0, 255, 1, [], none, 0⟩,
   ⟨0x3200, 16, 0x1, 1, 0x0, 0x7, 1, .u8, 1, .ro, false, false, false, 0, 3, 1, [], none, 0⟩]

/-- The rows of the indices 0x3000 to 0x3FFF. -/
def rows3 : List Row := rows3_0 ++ rows3_1

/-- Rows of the indices 0x4000 to 0x4FFF, part 1. -/
def rows4_0 : List Row :=
  [⟨0x4000, 16, 0x100, 1, 0x0, 0x1, 1, .u8, 1, .ro, false, false, false, 0, 4, 1, [], none, 0⟩,
   ⟨0x4000, 16, 0x100, 1, 0x0, 0x2, 1, .u8, 1, .wo, false, false, false, 1, 2, 1, [], none, 0⟩,
   ⟨0x4000, 16, 0x100, 1, 0x0, 0x3, 1, .u8, 1, .ro, false, false, false, 0, 22, 1, [0, 1, 16, 17, 18, 19, 20, 21, 22], none, 0⟩,
   ⟨0x4000, 16, 0x100, 1, 0x0, 0x4, 1, .i32, 4, .rw, true, false, false, (-2147483648), 2147483647, 1, [], none, 0⟩,
   ⟨0x4000, 16, 0x100, 1, 0x0, 0x5, 1, .i32, 4, .rw, true, false, false, (-2147483648), 2147483647, 1, [], none, 0⟩,
   ⟨0x4000, 16, 0x100, 1, 0x0, 0x6, 1, .time64, 8, .ro, false, false, false, 0, 18446744073709551615, 1, [], none, 0⟩,
   ⟨0x4001, 16, 0x100, 1, 0x0, 0x1, 1, .u8, 1, .rwi, true, false, false, 0, 64, 1, [], none, 8⟩,
   ⟨0x4001, 16, 0x100, 1, 0x0, 0x2, 1, .u8, 1, .rwi, true, false, false, 0, 64, 1, [], none, 8⟩,
   ⟨0x4001, 16, 0x100, 1, 0x0, 0x3, 1, .u16, 2, .rwi, true, false, false, 0, 32768, 1, [], none, 5461⟩,
   ⟨0x4001, 16, 0x100, 1, 0x0, 0x4, 1, .u32, 4, .rwi, true, false, false, 1000, 400000000, 1, [], none, 0x1312D00⟩,
   ⟨0x4001, 16, 0x100, 1, 0x0, 0x5, 1, .u32, 4, .rwi, true, false, false, 1000, 400000000, 1, [], none, 0x1312D00⟩,
   ⟨0x4001, 16, 0x100, 1, 0x0, 0x6, 1, .u8, 1, .rwi, true, false, false, 0, 64, 1, [], none, 2⟩,
   ⟨0x4001, 16, 0x100, 1, 0x0, 0x7, 1, .i16, 2, .rwi, true, false, false, (-4000), 4000, 1, [], none, 0⟩,
   ⟨0x4001, 16, 0x100, 1, 0x0, 0x8, 1, .i16, 2, .rwi, true, false, false, (-4000), 4000, 1, [], none, 0⟩,
   ⟨0x4002, 16, 0x100, 1, 0x0, 0x1, 1, .u32, 4, .rwg, true, false, false, 0, 4000000, 1, [], none, 0⟩,
   ⟨0x4002, 16, 0x100, 1, 0x0, 0x2, 1, .octets, 16, .rwg, true, false, false, 0, 0, 1, [], none, 0⟩,
   ⟨0x4002, 16, 0x100, 1, 0x0, 0x3, 1, .octets, 16, .rwg, true, false, false, 0, 0, 1, [], none, 0⟩,
   ⟨0x4002, 16, 0x100, 1, 0x0, 0x4, 1, .octets, 16, .rwg, true, false, false, 0, 0, 1, [], none, 0⟩,
   ⟨0x4002, 16, 0x100, 1, 0x0, 0x5, 1, .octets, 16, .rwg, true, false, false, 0, 0, 1, [], none, 0⟩,
   ⟨0x4002, 16, 0x100, 1, 0x0, 0x6, 1, .i32, 4, .ro, false, false, false, (-2147483648), 2147483647, 1, [], none, 0⟩,
   ⟨0x4002, 16, 0x100, 1, 0x0, 0x7, 1, .i32, 4, .ro, false, false, false, (-2147483648), 2147483647, 1, [], none, 0⟩,
   ⟨0x4002, 16, 0x100, 1, 0x0, 0x8, 1, .u8, 1, .ro, false, false, false, 0, 24, 1, [0, 16, 17, 18, 19, 20, 21, 22, 23, 24], none, 0⟩,
   ⟨0x4002, 16, 0x100, 1, 0x0, 0x9, 1, .q, 4, .ro, false, false, false, (-2147483648), 2147483647, 1, [], none, 0x40000000⟩,
   ⟨0x4002, 16, 0x100, 1, 0x0, 0xA, 1, .q, 4, .ro, false, false, false, (-2147483648), 2147483647, 1, [], none, 0⟩,
   ⟨0x4002, 16, 0x100, 1, 0x0, 0xB, 1, .q, 4, .ro, false, false, false, (-2147483648), 2147483647, 1, [], none, 0⟩,
   ⟨0x4002, 16, 0x100, 1, 0x0, 0xC, 1, .q, 4, .ro, false, false, false, (-2147483648), 2147483647, 1, [], none, 0x40000000⟩,
   ⟨0x4002, 16, 0x100, 1, 0x0, 0xD, 1, .i32, 4, .ro, false, false, false, (-2147483648), 2147483647, 1, [], none, 0⟩,
   ⟨0x4002, 16, 0x100, 1, 0x0, 0xE, 1, .i32, 4, .ro, false, false, false, (-2147483648), 2147483647, 1, [], none, 0⟩,
   ⟨0x4002, 16, 0x100, 1, 0x0, 0xF, 1, .i16, 2, .ro, false, false, false, (-4000), 4000, 1, [], none, 0⟩,
   ⟨0x4002, 16, 0x100, 1, 0x0, 0x10, 1, .u16, 2, .ro, false, false, false, 0, 65535, 1, [], none, 0⟩,
   ⟨0x4002, 16, 0x100, 1, 0x0, 0x11, 1, .u32, 4, .ro, false, false, false, 0, 4294967295, 1, [], none, 0⟩,
   ⟨0x4002, 16, 0x100, 1, 0x0, 0x12, 1, .u32, 4, .ro, false, false, false, 0, 4294967295, 1, [], none, 0⟩,
   ⟨0x4002, 16, 0x100, 1, 0x0, 0x13, 1, .u32, 4, .ro, false, false, false, 0, 4294967295, 1, [], none, 0⟩,
   ⟨0x4003, 16, 0x100, 1, 0x0, 0x1, 1, .i32, 4, .ro, false, false, false, (-2147483648), 2147483647, 1, [], none, 0⟩,
   ⟨0x4003, 16, 0x100, 1, 0x0, 0x2, 1, .i32, 4, .ro, false, false, false, (-2147483648), 2147483647, 1, [], none, 0⟩,
   ⟨0x4003, 16, 0x100, 1, 0x0, 0x3, 1, .i32, 4, .ro, false, false, false, (-2147483648), 2147483647, 1, [], none, 0⟩,
   ⟨0x4003, 16, 0x100, 1, 0x0, 0x4, 1, .u32, 4, .ro, false, false, false, 0, 4294967295, 1, [], none, 0⟩,
   ⟨0x4003, 16, 0x100, 1, 0x0, 0x5, 1, .u32, 4, .ro, false, false, false, 0, 4294967295, 1, [], none, 0⟩,
   ⟨0x4003, 16, 0x100, 1, 0x0, 0x6, 1, .u32, 4, .ro, false, false, false, 0, 4294967295, 1, [], none, 0⟩,
   ⟨0x4003, 16, 0x100, 1, 0x0, 0x7, 1, .u32, 4, .ro, false, false, false, 0, 4294967295, 1, [], none, 0⟩]

/-- Rows of the indices 0x4000 to 0x4FFF, part 2. -/
def rows4_1 : List Row :=
  [⟨0x4003, 16, 0x100, 1, 0x0, 0x8, 1, .u32, 4, .ro, false, false, false, 0, 4294967295, 1, [], none, 0⟩,
   ⟨0x4040, 16, 0x100, 1, 0x0, 0x1, 1, .u32, 4, .ro, false, false, false, 0, 4294967295, 1, [], none, 0⟩,
   ⟨0x4040, 16, 0x100, 1, 0x0, 0x2, 1, .u8, 1, .ro, false, false, false, 0, 255, 1, [0, 1, 2, 3, 4, 5, 6, 7, 255], none, 255⟩,
   ⟨0x4040, 16, 0x100, 1, 0x0, 0x3, 1, .u16, 2, .ro, false, false, false, 0, 65535, 1, [], none, 0⟩,
   ⟨0x4040, 16, 0x100, 1, 0x0, 0x4, 1, .u32, 4, .ro, false, false, false, 0, 4294967295, 1, [], none, 0⟩,
   ⟨0x4040, 16, 0x100, 1, 0x0, 0x5, 1, .u32, 4, .ro, false, false, false, 0, 4294967295, 1, [], none, 0⟩,
   ⟨0x4040, 16, 0x100, 1, 0x0, 0x6, 1, .u32, 4, .ro, false, false, false, 0, 4294967295, 1, [], none, 0⟩,
   ⟨0x4040, 16, 0x100, 1, 0x0, 0x7, 1, .u16, 2, .ro, false, false, false, 0, 65535, 1, [], none, 0⟩,
   ⟨0x4048, 16, 0x100, 8, 0x1, 0x1, 1, .u8, 1, .ro, false, false, false, 0, 2, 1, [], none, 0⟩,
   ⟨0x4048, 16, 0x100, 8, 0x1, 0x2, 1, .u16, 2, .rwi, false, false, false, 1, 16384, 1, [], none, 1⟩,
   ⟨0x4048, 16, 0x100, 8, 0x1, 0x3, 1, .u16, 2, .rwi, false, false, false, 1, 16384, 1, [], none, 1⟩,
   ⟨0x4048, 16, 0x100, 8, 0x1, 0x4, 1, .u32, 4, .rwi, false, false, false, 1000, 1000000, 1, [], none, 20000⟩,
   ⟨0x4048, 16, 0x100, 8, 0x1, 0x5, 1, .u32, 4, .rwi, false, false, false, 1000, 1000000, 1, [], none, 100000⟩,
   ⟨0x4048, 16, 0x100, 8, 0x1, 0x6, 1, .u16, 2, .rwi, false, false, false, 10, 4000, 1, [], none, 100⟩,
   ⟨0x4048, 16, 0x100, 8, 0x1, 0x7, 1, .u8, 1, .rwi, false, false, false, 0, 15, 1, [], some 0xF, 0⟩,
   ⟨0x4048, 16, 0x100, 8, 0x1, 0x8, 1, .u8, 1, .rwi, false, false, false, 0, 255, 1, [], none, 136⟩,
   ⟨0x4048, 16, 0x100, 8, 0x1, 0x9, 4, .u16, 2, .rwi, false, false, false, 0, 1024, 1, [], none, 256⟩,
   ⟨0x4048, 16, 0x100, 8, 0x1, 0xD, 1, .u8, 1, .wo, false, false, false, 1, 1, 1, [], none, 0⟩,
   ⟨0x4050, 16, 0x100, 8, 0x1, 0x1, 4, .u64, 8, .rw, false, false, false, 0, 1099511623680, 4096, [], none, 0⟩,
   ⟨0x4050, 16, 0x100, 8, 0x1, 0x5, 4, .u64, 8, .rw, false, false, false, 0, 1099511627768, 8, [], none, 0⟩,
   ⟨0x4050, 16, 0x100, 8, 0x1, 0x9, 1, .u8, 1, .wo, false, false, false, 1, 1, 1, [], none, 0⟩,
   ⟨0x4050, 16, 0x100, 8, 0x1, 0xA, 1, .u32, 4, .ro, false, false, false, 0, 4294967295, 1, [], none, 0⟩,
   ⟨0x4050, 16, 0x100, 8, 0x1, 0xB, 1, .u32, 4, .ro, false, false, false, 0, 4294967295, 1, [], none, 0⟩,
   ⟨0x4058, 16, 0x100, 8, 0x1, 0x1, 8, .octets, 16, .ro, false, false, false, 0, 0, 1, [], none, 0⟩,
   ⟨0x4080, 16, 0x100, 1, 0x0, 0x1, 1, .u16, 2, .rw, true, false, false, 0, 10923, 1, [], none, 5461⟩,
   ⟨0x4080, 16, 0x100, 1, 0x0, 0x2, 1, .u32, 4, .rw, true, false, false, 0, 200000, 1, [], none, 20000⟩,
   ⟨0x4080, 16, 0x100, 1, 0x0, 0x3, 1, .u16, 2, .rwg, true, false, false, 0, 10923, 1, [], none, 10923⟩,
   ⟨0x4080, 16, 0x100, 1, 0x0, 0x4, 1, .u32, 4, .rwg, true, false, false, 0, 200000, 1, [], none, 200000⟩,
   ⟨0x4080, 16, 0x100, 1, 0x0, 0x5, 1, .u16, 2, .ro, false, false, false, 0, 10923, 1, [], none, 10923⟩,
   ⟨0x4080, 16, 0x100, 1, 0x0, 0x6, 1, .u32, 4, .ro, false, false, false, 0, 200000, 1, [], none, 200000⟩,
   ⟨0x4081, 16, 0x100, 1, 0x0, 0x1, 1, .u8, 1, .ro, false, false, false, 0, 5, 1, [], none, 0⟩,
   ⟨0x4081, 16, 0x100, 1, 0x0, 0x2, 1, .time64, 8, .ro, false, false, false, 0, 18446744073709551615, 1, [], none, 0⟩,
   ⟨0x4081, 16, 0x100, 1, 0x0, 0x3, 1, .u8, 1, .ro, false, false, false, 0, 255, 1, [0, 1, 2, 3, 4, 5, 6, 7, 8, 9, 10, 11, 12, 13, 14, 15, 255], none, 255⟩,
   ⟨0x4081, 16, 0x100, 1, 0x0, 0x4, 1, .u32, 4, .ro, false, false, false, 0, 4294967295, 1, [], none, 0⟩,
   ⟨0x4081, 16, 0x100, 1, 0x0, 0x5, 1, .u32, 4, .ro, false, false, false, 0, 4294967295, 1, [], none, 0⟩,
   ⟨0x4081, 16, 0x100, 1, 0x0, 0x6, 1, .u8, 1, .rwi, true, false, false, 1, 32, 1, [], none, 8⟩,
   ⟨0x4081, 16, 0x100, 1, 0x0, 0x7, 1, .u32, 4, .ro, false, false, false, 0, 4294967295, 1, [], none, 0⟩,
   ⟨0x4081, 16, 0x100, 1, 0x0, 0x8, 1, .octets, 16, .ro, false, false, false, 0, 0, 1, [], none, 0⟩,
   ⟨0x4081, 16, 0x100, 1, 0x0, 0x9, 1, .u8, 1, .ro, false, false, false, 0, 65, 1, [], none, 0⟩,
   ⟨0x40C0, 16, 0x100, 1, 0x0, 0x1, 1, .bool, 1, .rw, true, false, false, 0, 1, 1, [], none, 1⟩]

/-- Rows of the indices 0x4000 to 0x4FFF, part 3. -/
def rows4_2 : List Row :=
  [⟨0x40C0, 16, 0x100, 1, 0x0, 0x2, 1, .octets, 130, .rw, true, false, false, 0, 0, 1, [], none, (octRep 2 65 (fun _ => 16384))⟩,
   ⟨0x40C0, 16, 0x100, 1, 0x0, 0x3, 1, .u16, 2, .ro, false, false, false, 0, 65535, 1, [], none, 0⟩,
   ⟨0x40C0, 16, 0x100, 1, 0x0, 0x4, 1, .u16, 2, .ro, false, false, false, 0, 65535, 1, [], none, 16384⟩,
   ⟨0x40C0, 16, 0x100, 1, 0x0, 0x5, 1, .u16, 2, .ro, false, false, false, 0, 65535, 1, [], none, 16384⟩,
   ⟨0x40C0, 16, 0x100, 1, 0x0, 0x6, 1, .u16, 2, .ro, false, false, false, 0, 65535, 1, [], none, 0⟩]

/-- The rows of the indices 0x4000 to 0x4FFF. -/
def rows4 : List Row := rows4_0 ++ rows4_1 ++ rows4_2

/-- Rows of the indices 0x5000 to 0x5FFF, part 1. -/
def rows5_0 : List Row :=
  [⟨0x5000, 96, 0x20, 1, 0x0, 0x1, 1, .u8, 1, .ro, false, false, false, 0, 3, 1, [], none, 0⟩,
   ⟨0x5000, 96, 0x20, 1, 0x0, 0x2, 1, .u8, 1, .wo, false, false, false, 1, 5, 1, [], none, 0⟩,
   ⟨0x5000, 96, 0x20, 1, 0x0, 0x3, 1, .u8, 1, .ro, false, false, false, 0, 19, 1, [0, 1, 2, 3, 4, 5, 16, 17, 18, 19], none, 0⟩,
   ⟨0x5000, 96, 0x20, 1, 0x0, 0x4, 1, .u8, 1, .rwi, true, false, false, 0, 129, 1, [0, 1, 128, 129], none, 0⟩,
   ⟨0x5000, 96, 0x20, 1, 0x0, 0x5, 1, .u16, 2, .rwi, true, false, false, 0, 65535, 1, [], none, 0⟩,
   ⟨0x5000, 96, 0x20, 1, 0x0, 0x6, 1, .u16, 2, .rwi, true, false, false, 0, 65535, 1, [], none, 0⟩,
   ⟨0x5000, 96, 0x20, 1, 0x0, 0x7, 1, .time64, 8, .ro, false, false, false, 0, 18446744073709551615, 1, [], none, 0⟩,
   ⟨0x5001, 96, 0x20, 1, 0x0, 0x1, 1, .i32, 4, .rw, true, false, false, (-2147483648), 2147483647, 1, [], none, 0⟩,
   ⟨0x5001, 96, 0x20, 1, 0x0, 0x2, 1, .u8, 1, .rw, true, false, false, 0, 31, 1, [], none, 0⟩,
   ⟨0x5001, 96, 0x20, 1, 0x0, 0x3, 1, .i32, 4, .rw, true, false, false, (-2147483648), 2147483647, 1, [], none, 0⟩,
   ⟨0x5001, 96, 0x20, 1, 0x0, 0x4, 1, .u8, 1, .rw, true, false, false, 0, 31, 1, [], none, 0⟩,
   ⟨0x5001, 96, 0x20, 1, 0x0, 0x5, 1, .i32, 4, .rw, true, false, false, (-2147483648), 2147483647, 1, [], none, 0⟩,
   ⟨0x5001, 96, 0x20, 1, 0x0, 0x6, 1, .u8, 1, .rw, true, false, false, 0, 31, 1, [], none, 0⟩,
   ⟨0x5001, 96, 0x20, 1, 0x0, 0x7, 1, .i32, 4, .rw, true, false, false, (-2147483648), 2147483647, 1, [], none, 0⟩,
   ⟨0x5001, 96, 0x20, 1, 0x0, 0x8, 1, .u8, 1, .rw, true, false, false, 0, 31, 1, [], none, 0⟩,
   ⟨0x5001, 96, 0x20, 1, 0x0, 0x9, 1, .i32, 4, .rw, true, false, false, (-2147483648), 2147483647, 1, [], none, 0⟩,
   ⟨0x5001, 96, 0x20, 1, 0x0, 0xA, 1, .u8, 1, .rwi, true, false, false, 0, 1, 1, [], none, 0⟩,
   ⟨0x5002, 96, 0x20, 1, 0x0, 0x1, 1, .i32, 4, .rw, false, false, false, (-2147483648), 2147483647, 1, [], none, 0⟩,
   ⟨0x5002, 96, 0x20, 1, 0x0, 0x2, 1, .i32, 4, .rwi, true, false, false, (-2147483648), 2147483647, 1, [], none, 0⟩,
   ⟨0x5002, 96, 0x20, 1, 0x0, 0x3, 1, .i32, 4, .rwi, true, false, false, (-2147483648), 2147483647, 1, [], none, 0⟩,
   ⟨0x5002, 96, 0x20, 1, 0x0, 0x4, 1, .bool, 1, .rwi, true, false, false, 0, 1, 1, [], none, 0⟩,
   ⟨0x5002, 96, 0x20, 1, 0x0, 0x5, 1, .u32, 4, .rwi, true, false, false, 0, 4294967295, 1, [], none, 0xFFFFFFFF⟩,
   ⟨0x5002, 96, 0x20, 1, 0x0, 0x6, 1, .u32, 4, .rwi, true, false, false, 1, 4294967295, 1, [], none, 0xFFFFFFFF⟩,
   ⟨0x5002, 96, 0x20, 1, 0x0, 0x7, 1, .octets, 512, .rwi, true, false, false, 0, 0, 1, [], none, (octRep 8 64 (fun i => i + 65536 * 4294967296))⟩,
   ⟨0x5002, 96, 0x20, 1, 0x0, 0x8, 1, .u32, 4, .rw, true, false, false, 0, 250000, 1, [], none, 250⟩,
   ⟨0x5003, 96, 0x20, 1, 0x0, 0x1, 1, .u32, 4, .rw, true, false, false, 0, 4294967295, 1, [], none, 1000⟩,
   ⟨0x5003, 96, 0x20, 1, 0x0, 0x2, 1, .u32, 4, .rw, true, false, false, 0, 4294967295, 1, [], none, 0xFFFFFFFF⟩,
   ⟨0x5003, 96, 0x20, 1, 0x0, 0x3, 1, .u8, 1, .rw, true, false, false, 2, 32, 1, [], none, 8⟩,
   ⟨0x5003, 96, 0x20, 1, 0x0, 0x4, 1, .u16, 2, .rw, true, false, false, 2, 4096, 1, [], none, 64⟩,
   ⟨0x5003, 96, 0x20, 1, 0x0, 0x5, 1, .u8, 1, .rw, true, false, false, 0, 2, 1, [], none, 0⟩,
   ⟨0x5003, 96, 0x20, 1, 0x0, 0x6, 1, .u32, 4, .rw, true, false, false, 0, 4294967295, 1, [], none, 0xFFFFFFFF⟩,
   ⟨0x5003, 96, 0x20, 1, 0x0, 0x7, 1, .u16, 2, .rw, true, false, false, 1, 65535, 1, [], none, 20⟩,
   ⟨0x5003, 96, 0x20, 1, 0x0, 0x8, 1, .i32, 4, .rw, false, false, false, (-2147483648), 2147483647, 1, [], none, 0⟩,
   ⟨0x5004, 96, 0x20, 1, 0x0, 0x1, 1, .i32, 4, .ro, false, false, false, (-2147483648), 2147483647, 1, [], none, 0⟩,
   ⟨0x5004, 96, 0x20, 1, 0x0, 0x2, 1, .i32, 4, .ro, false, false, false, (-2147483648), 2147483647, 1, [], none, 0⟩,
   ⟨0x5004, 96, 0x20, 1, 0x0, 0x3, 1, .i32, 4, .ro, false, false, false, (-2147483648), 2147483647, 1, [], none, 0⟩,
   ⟨0x5004, 96, 0x20, 1, 0x0, 0x4, 1, .i32, 4, .ro, false, false, false, (-2147483648), 2147483647, 1, [], none, 0⟩,
   ⟨0x5004, 96, 0x20, 1, 0x0, 0x5, 1, .i64, 8, .ro, false, false, false, (-9223372036854775808), 9223372036854775807, 1, [], none, 0⟩,
   ⟨0x5004, 96, 0x20, 1, 0x0, 0x6, 1, .u8, 1, .rw, false, false, false, 0, 0, 1, [], none, 0⟩,
   ⟨0x5004, 96, 0x20, 1, 0x0, 0x7, 1, .u32, 4, .ro, false, false, false, 0, 4294967295, 1, [], none, 0⟩]

/-- Rows of the indices 0x5000 to 0x5FFF, part 2. -/
def rows5_1 : List Row :=
  [⟨0x5004, 96, 0x20, 1, 0x0, 0x8, 1, .u32, 4, .ro, false, false, false, 0, 4294967295, 1, [], none, 0⟩,
   ⟨0x5004, 96, 0x20, 1, 0x0, 0x9, 1, .u32, 4, .ro, false, false, false, 0, 4294967295, 1, [], none, 0⟩,
   ⟨0x5004, 96, 0x20, 1, 0x0, 0xA, 1, .u32, 4, .ro, false, false, false, 0, 4294967295, 1, [], none, 0⟩,
   ⟨0x5004, 96, 0x20, 1, 0x0, 0xB, 1, .u32, 4, .ro, false, false, false, 0, 4294967295, 1, [], none, 0⟩,
   ⟨0x5004, 96, 0x20, 1, 0x0, 0xC, 1, .u8, 1, .ro, false, false, false, 0, 2, 1, [], none, 0⟩,
   ⟨0x5C00, 32, 0x10, 1, 0x0, 0x1, 1, .u8, 1, .rwi, true, false, false, 0, 255, 1, [0, 1, 2, 3, 4, 5, 6, 7, 8, 9, 10, 11, 12, 13, 14, 15, 16, 17, 18, 19, 20, 21, 22, 23, 24, 25, 26, 27, 28, 29, 30, 31, 32, 33, 34, 35, 36, 37, 38, 39, 40, 41, 42, 43, 44, 45, 46, 47, 48, 49, 50, 51, 52, 53, 54, 55, 56, 57, 58, 59, 60, 61, 62, 63, 64, 65, 66, 67, 68, 69, 70, 71, 72, 73, 74, 75, 76, 77, 78, 79, 80, 81, 82, 83, 84, 85, 86, 87, 88, 89, 90, 91, 92, 93, 94, 95, 255], none, 255⟩,
   ⟨0x5C00, 32, 0x10, 1, 0x0, 0x2, 1, .u8, 1, .rw, true, false, false, 0, 2, 1, [], none, 0⟩,
   ⟨0x5C00, 32, 0x10, 1, 0x0, 0x3, 1, .u8, 1, .rwi, true, false, false, 0, 2, 1, [], none, 0⟩,
   ⟨0x5C00, 32, 0x10, 1, 0x0, 0x4, 1, .u16, 2, .rwi, true, false, false, 1, 4096, 1, [], none, 4096⟩,
   ⟨0x5C00, 32, 0x10, 1, 0x0, 0x5, 1, .u16, 2, .rwi, true, false, false, 0, 4095, 1, [], none, 0⟩,
   ⟨0x5C00, 32, 0x10, 1, 0x0, 0x6, 1, .i32, 4, .rw, true, false, false, (-2147483648), 2147483647, 1, [], none, 0⟩,
   ⟨0x5C00, 32, 0x10, 1, 0x0, 0x7, 1, .u8, 1, .rw, true, false, false, 0, 31, 1, [], none, 16⟩,
   ⟨0x5C00, 32, 0x10, 1, 0x0, 0x8, 1, .u32, 4, .rw, true, false, false, 0, 65536, 1, [], none, 65536⟩,
   ⟨0x5C00, 32, 0x10, 1, 0x0, 0x9, 1, .u32, 4, .rwi, true, false, false, 0, 16777215, 1, [], some 0xFFFFFF, 0⟩,
   ⟨0x5C00, 32, 0x10, 1, 0x0, 0xA, 1, .u8, 1, .ro, false, false, false, 0, 2, 1, [], none, 0⟩,
   ⟨0x5C00, 32, 0x10, 1, 0x0, 0xB, 1, .u16, 2, .ro, false, false, false, 0, 4095, 1, [], none, 0⟩,
   ⟨0x5C00, 32, 0x10, 1, 0x0, 0xC, 1, .u16, 2, .rw, false, false, false, 0, 4095, 1, [], none, 0⟩,
   ⟨0x5C00, 32, 0x10, 1, 0x0, 0xD, 1, .i32, 4, .rwi, false, false, false, (-2147483648), 2147483647, 1, [], none, 0⟩,
   ⟨0x5C00, 32, 0x10, 1, 0x0, 0xE, 1, .u8, 1, .wo, false, false, false, 1, 1, 1, [], none, 0⟩]

/-- The rows of the indices 0x5000 to 0x5FFF. -/
def rows5 : List Row := rows5_0 ++ rows5_1

/-- Rows of the indices 0x6000 to 0x6FFF, part 1. -/
def rows6_0 : List Row :=
  [⟨0x6000, 24, 0x40, 1, 0x0, 0x1, 1, .u8, 1, .rwi, true, false, false, 0, 35, 1, [0, 16, 17, 18, 19, 20, 21, 22, 23, 24, 25, 26, 27, 28, 29, 30, 31, 32, 33, 34, 35], none, 0⟩,
   ⟨0x6000, 24, 0x40, 1, 0x0, 0x2, 1, .bool, 1, .rw, true, false, false, 0, 1, 1, [], none, 0⟩,
   ⟨0x6000, 24, 0x40, 1, 0x0, 0x3, 1, .u8, 1, .ro, false, false, false, 0, 2, 1, [], none, 0⟩,
   ⟨0x6000, 24, 0x40, 1, 0x0, 0x4, 1, .u8, 1, .rwi, true, false, false, 0, 1, 1, [], none, 0⟩,
   ⟨0x6000, 24, 0x40, 1, 0x0, 0x5, 1, .u32, 4, .rwi, true, false, false, 2000, 100000000, 1, [], none, 2000⟩,
   ⟨0x6000, 24, 0x40, 1, 0x0, 0x6, 1, .u32, 4, .rw, true, false, false, 400, 1000000, 1, [], none, 5000⟩,
   ⟨0x6000, 24, 0x40, 1, 0x0, 0x7, 1, .bool, 1, .rwi, true, false, false, 0, 1, 1, [], none, 0⟩,
   ⟨0x6000, 24, 0x40, 1, 0x0, 0x8, 1, .u32, 4, .ro, false, false, false, 0, 4294967295, 1, [], none, 0⟩,
   ⟨0x6001, 24, 0x40, 1, 0x0, 0x1, 1, .u32, 4, .rw, true, false, false, 10, 1000000, 1, [], none, 1000⟩,
   ⟨0x6001, 24, 0x40, 1, 0x0, 0x2, 1, .u8, 1, .rw, true, false, false, 0, 3, 1, [], none, 0⟩,
   ⟨0x6001, 24, 0x40, 1, 0x0, 0x3, 1, .u16, 2, .rw, true, false, false, 0, 65535, 1, [], none, 0⟩,
   ⟨0x6001, 24, 0x40, 1, 0x0, 0x4, 1, .u16, 2, .rw, true, false, false, 0, 65535, 1, [], none, 0⟩,
   ⟨0x6001, 24, 0x40, 1, 0x0, 0x5, 1, .u16, 2, .rw, true, false, false, 8, 8192, 1, [], none, 64⟩,
   ⟨0x6001, 24, 0x40, 1, 0x0, 0x6, 1, .u16, 2, .rw, true, false, false, 8, 8192, 1, [], none, 64⟩,
   ⟨0x6001, 24, 0x40, 1, 0x0, 0x7, 1, .u32, 4, .rw, true, false, false, 2000, 100000000, 1, [], none, 2000⟩,
   ⟨0x6001, 24, 0x40, 1, 0x0, 0x8, 1, .u8, 1, .wo, false, false, false, 1, 1, 1, [], none, 0⟩,
   ⟨0x6001, 24, 0x40, 1, 0x0, 0x9, 1, .u16, 2, .ro, false, false, false, 0, 65535, 1, [], none, 0⟩,
   ⟨0x6001, 24, 0x40, 1, 0x0, 0xA, 1, .u16, 2, .ro, false, false, false, 0, 65535, 1, [], none, 0⟩,
   ⟨0x6001, 24, 0x40, 1, 0x0, 0xB, 1, .time64, 8, .ro, false, false, false, 0, 18446744073709551615, 1, [], none, 0⟩,
   ⟨0x6002, 24, 0x40, 1, 0x0, 0x1, 1, .u8, 1, .ro, false, false, false, 1, 15, 1, [], none, 0⟩,
   ⟨0x6002, 24, 0x40, 1, 0x0, 0x2, 1, .bool, 1, .ro, false, false, false, 0, 1, 1, [], none, 0⟩,
   ⟨0x6002, 24, 0x40, 1, 0x0, 0x3, 1, .u16, 2, .ro, false, false, false, 0, 65535, 1, [], none, 0⟩,
   ⟨0x6002, 24, 0x40, 1, 0x0, 0x4, 1, .u16, 2, .ro, false, false, false, 0, 65535, 1, [], none, 0⟩,
   ⟨0x6002, 24, 0x40, 1, 0x0, 0x5, 1, .u16, 2, .ro, false, false, false, 0, 65535, 1, [], none, 0⟩,
   ⟨0x6002, 24, 0x40, 1, 0x0, 0x6, 1, .u32, 4, .ro, false, false, false, 0, 4294967295, 1, [], none, 0⟩,
   ⟨0x6003, 24, 0x40, 1, 0x0, 0x1, 1, .u16, 2, .rw, true, false, false, 0, 65535, 1, [], none, 64⟩,
   ⟨0x6003, 24, 0x40, 1, 0x0, 0x2, 1, .u16, 2, .rw, true, false, false, 0, 65535, 1, [], none, 17000⟩,
   ⟨0x6003, 24, 0x40, 1, 0x0, 0x3, 1, .u16, 2, .rw, true, false, false, 0, 65535, 1, [], none, 2000⟩,
   ⟨0x6003, 24, 0x40, 1, 0x0, 0x4, 1, .u16, 2, .rw, true, false, false, 1, 16384, 1, [], none, 1⟩,
   ⟨0x6003, 24, 0x40, 1, 0x0, 0x5, 1, .u16, 2, .rw, true, false, false, 1, 16384, 1, [], none, 64⟩,
   ⟨0x6003, 24, 0x40, 1, 0x0, 0x6, 1, .u16, 2, .rw, true, false, false, 0, 65535, 1, [], none, 10000⟩,
   ⟨0x6003, 24, 0x40, 1, 0x0, 0x7, 1, .u8, 1, .rw, true, false, false, 0, 10, 1, [], none, 8⟩,
   ⟨0x6003, 24, 0x40, 1, 0x0, 0x8, 1, .u8, 1, .rw, true, false, false, 0, 4, 1, [], none, 0⟩,
   ⟨0x6003, 24, 0x40, 1, 0x0, 0x9, 1, .bool, 1, .rw, true, false, false, 0, 1, 1, [], none, 1⟩,
   ⟨0x6003, 24, 0x40, 1, 0x0, 0xA, 1, .bool, 1, .rw, true, false, false, 0, 1, 1, [], none, 1⟩,
   ⟨0x6004, 24, 0x40, 1, 0x0, 0x1, 1, .u64, 8, .rwi, true, false, false, 0, 1099511627520, 256, [], none, 0⟩,
   ⟨0x6004, 24, 0x40, 1, 0x0, 0x2, 1, .u32, 4, .rwi, true, false, false, 0, 4294901760, 65536, [], none, 0x100000⟩,
   ⟨0x6004, 24, 0x40, 1, 0x0, 0x3, 1, .u32, 4, .ro, false, false, false, 0, 4294967295, 1, [], none, 0⟩,
   ⟨0x6004, 24, 0x40, 1, 0x0, 0x4, 1, .u32, 4, .rw, false, false, false, 0, 4294967295, 1, [], none, 0⟩,
   ⟨0x6004, 24, 0x40, 1, 0x0, 0x5, 1, .u32, 4, .ro, false, false, false, 0, 4294967295, 1, [], none, 0⟩]

/-- Rows of the indices 0x6000 to 0x6FFF, part 2. -/
def rows6_1 : List Row :=
  [⟨0x6004, 24, 0x40, 1, 0x0, 0x6, 1, .u32, 4, .ro, false, false, false, 0, 4294967295, 1, [], none, 0⟩,
   ⟨0x6004, 24, 0x40, 1, 0x0, 0x7, 1, .u32, 4, .ro, false, false, false, 0, 4294967295, 1, [], none, 0⟩,
   ⟨0x6004, 24, 0x40, 1, 0x0, 0x8, 1, .u32, 4, .ro, false, false, false, 0, 4294967295, 1, [], none, 0⟩,
   ⟨0x6004, 24, 0x40, 1, 0x0, 0x9, 1, .u32, 4, .ro, false, false, false, 0, 4294967295, 1, [], none, 0⟩,
   ⟨0x6004, 24, 0x40, 1, 0x0, 0xA, 1, .u32, 4, .ro, false, false, false, 0, 4294967295, 1, [], none, 0⟩,
   ⟨0x6004, 24, 0x40, 1, 0x0, 0xB, 1, .u32, 4, .ro, false, false, false, 0, 4294967295, 1, [], none, 0⟩,
   ⟨0x6004, 24, 0x40, 1, 0x0, 0xC, 1, .u32, 4, .ro, false, false, false, 0, 4294967295, 1, [], none, 0⟩,
   ⟨0x6005, 24, 0x40, 1, 0x0, 0x1, 1, .bool, 1, .rw, true, false, false, 0, 1, 1, [], none, 0⟩,
   ⟨0x6005, 24, 0x40, 1, 0x0, 0x2, 1, .u64, 8, .rwi, true, false, false, 0, 1099511627520, 256, [], none, 0⟩,
   ⟨0x6005, 24, 0x40, 1, 0x0, 0x3, 1, .u32, 4, .rwi, true, false, false, 256, 131328, 256, [], none, 8448⟩,
   ⟨0x6005, 24, 0x40, 1, 0x0, 0x4, 1, .u32, 4, .rwi, true, false, false, 1, 1048576, 1, [], none, 4096⟩,
   ⟨0x6005, 24, 0x40, 1, 0x0, 0x5, 1, .u32, 4, .ro, false, false, false, 0, 4294967295, 1, [], none, 0⟩,
   ⟨0x6005, 24, 0x40, 1, 0x0, 0x6, 1, .u32, 4, .ro, false, false, false, 0, 4294967295, 1, [], none, 0⟩,
   ⟨0x6008, 24, 0x40, 1, 0x0, 0x1, 1, .octets, 16, .rwi, true, false, false, 0, 0, 1, [], none, 0x30004010002000004000302000100⟩,
   ⟨0x6008, 24, 0x40, 1, 0x0, 0x2, 1, .u64, 8, .rwi, true, false, false, 0, 1099511562240, 65536, [], none, 0⟩,
   ⟨0x6008, 24, 0x40, 1, 0x0, 0x3, 1, .u8, 1, .rwi, true, false, false, 1, 4, 1, [], none, 2⟩,
   ⟨0x6008, 24, 0x40, 1, 0x0, 0x4, 1, .u64, 8, .rw, false, false, false, 0, 1099511627712, 64, [], none, 0⟩,
   ⟨0x6008, 24, 0x40, 1, 0x0, 0x5, 1, .u16, 2, .rw, true, false, false, 0, 65535, 1, [], none, 4000⟩,
   ⟨0x6008, 24, 0x40, 1, 0x0, 0x6, 1, .u8, 1, .rw, true, false, false, 0, 1, 1, [], none, 0⟩,
   ⟨0x6008, 24, 0x40, 1, 0x0, 0x7, 1, .u16, 2, .rw, true, false, false, 2, 2048, 1, [], none, 16⟩,
   ⟨0x6008, 24, 0x40, 1, 0x0, 0x8, 1, .u8, 1, .rw, true, false, false, 1, 255, 1, [], none, 128⟩,
   ⟨0x6008, 24, 0x40, 1, 0x0, 0x9, 1, .u16, 2, .rw, true, false, false, 1, 65535, 1, [], none, 4⟩,
   ⟨0x6008, 24, 0x40, 1, 0x0, 0xA, 1, .u64, 8, .rwi, true, false, false, 0, 1099511562240, 65536, [], none, 0⟩,
   ⟨0x6008, 24, 0x40, 1, 0x0, 0xB, 1, .u32, 4, .rwi, true, false, false, 65536, 268435456, 1, [], none, 0x2000000⟩,
   ⟨0x6008, 24, 0x40, 1, 0x0, 0xC, 1, .bool, 1, .rw, true, false, false, 0, 1, 1, [], none, 0⟩,
   ⟨0x6008, 24, 0x40, 1, 0x0, 0xD, 1, .u32, 4, .ro, false, false, false, 0, 4294967295, 1, [], none, 0⟩,
   ⟨0x6008, 24, 0x40, 1, 0x0, 0xE, 1, .u32, 4, .ro, false, false, false, 0, 4294967295, 1, [], none, 0⟩,
   ⟨0x6008, 24, 0x40, 1, 0x0, 0xF, 1, .u32, 4, .rwi, true, false, false, 65536, 268435456, 65536, [], none, 0x2FB0000⟩,
   ⟨0x6800, 1, 0x1, 1, 0x0, 0x1, 1, .bool, 1, .rw, false, false, false, 0, 1, 1, [], none, 0⟩,
   ⟨0x6800, 1, 0x1, 1, 0x0, 0x2, 1, .u8, 1, .ro, false, false, false, 0, 4, 1, [], none, 0⟩,
   ⟨0x6800, 1, 0x1, 1, 0x0, 0x3, 1, .u16, 2, .rwi, true, false, false, 25, 400, 1, [], none, 150⟩,
   ⟨0x6800, 1, 0x1, 1, 0x0, 0x4, 1, .i32, 4, .rwi, true, false, false, (-2147483648), 2147483647, 1, [], none, 0⟩,
   ⟨0x6800, 1, 0x1, 1, 0x0, 0x5, 1, .i32, 4, .rwi, true, false, false, (-2147483648), 2147483647, 1, [], none, 0⟩,
   ⟨0x6800, 1, 0x1, 1, 0x0, 0x6, 1, .u64, 8, .rwi, true, false, false, 0, 1099511562240, 65536, [], none, 0⟩,
   ⟨0x6800, 1, 0x1, 1, 0x0, 0x7, 1, .u16, 2, .rw, true, false, false, 0, 65535, 1, [], none, 839⟩,
   ⟨0x6800, 1, 0x1, 1, 0x0, 0x8, 1, .octets, 18, .rw, true, false, false, 0, 0, 1, [], none, 0x100020001000200040002000100020001000⟩,
   ⟨0x6800, 1, 0x1, 1, 0x0, 0x9, 1, .u16, 2, .rw, true, false, false, 0, 65535, 1, [], none, 60000⟩,
   ⟨0x6800, 1, 0x1, 1, 0x0, 0xA, 1, .u8, 1, .wo, false, false, false, 1, 1, 1, [], none, 0⟩,
   ⟨0x6800, 1, 0x1, 1, 0x0, 0xB, 1, .time64, 8, .ro, false, false, false, 0, 18446744073709551615, 1, [], none, 0⟩,
   ⟨0x6800, 1, 0x1, 1, 0x0, 0xC, 1, .u32, 4, .ro, false, false, false, 0, 4294967295, 1, [], none, 0xF4240⟩]

/-- Rows of the indices 0x6000 to 0x6FFF, part 3. -/
def rows6_2 : List Row :=
  [⟨0x6800, 1, 0x1, 1, 0x0, 0xD, 1, .u16, 2, .rw, false, false, false, 0, 464, 1, [], none, 0⟩,
   ⟨0x6800, 1, 0x1, 1, 0x0, 0xE, 1, .u32, 4, .ro, false, false, false, 0, 4294967295, 1, [], none, 65536⟩,
   ⟨0x6810, 1, 0x1, 1, 0x0, 0x1, 1, .u32, 4, .rw, false, false, false, 0, 268374015, 1, [], some 0xFFF0FFF, 0⟩,
   ⟨0x6810, 1, 0x1, 1, 0x0, 0x2, 1, .octets, 16, .ro, false, false, false, 0, 0, 1, [], none, 0⟩,
   ⟨0x6810, 1, 0x1, 1, 0x0, 0x3, 1, .u64, 8, .ro, false, false, false, 0, 18446744073709551615, 1, [], none, 0⟩,
   ⟨0x6810, 1, 0x1, 1, 0x0, 0x4, 1, .u32, 4, .ro, false, false, false, 0, 4294967295, 1, [], none, 0⟩,
   ⟨0x6810, 1, 0x1, 1, 0x0, 0x5, 1, .u32, 4, .ro, false, false, false, 0, 4294967295, 1, [], none, 0⟩,
   ⟨0x6810, 1, 0x1, 1, 0x0, 0x6, 1, .u32, 4, .ro, false, false, false, 0, 4294967295, 1, [], none, 0⟩,
   ⟨0x6810, 1, 0x1, 1, 0x0, 0x7, 1, .u32, 4, .ro, false, false, false, 0, 4294967295, 1, [], none, 0⟩,
   ⟨0x6810, 1, 0x1, 1, 0x0, 0x8, 1, .u32, 4, .ro, false, false, false, 0, 4294967295, 1, [], none, 0⟩,
   ⟨0x6810, 1, 0x1, 1, 0x0, 0x9, 1, .u32, 4, .ro, false, false, false, 0, 4294967295, 1, [], none, 0⟩,
   ⟨0x6810, 1, 0x1, 1, 0x0, 0xA, 1, .u32, 4, .ro, false, false, false, 0, 4294967295, 1, [], none, 0⟩,
   ⟨0x6820, 1, 0x1, 1, 0x0, 0x1, 1, .u8, 1, .rwi, false, false, false, 64, 191, 1, [], none, 64⟩,
   ⟨0x6820, 1, 0x1, 1, 0x0, 0x2, 1, .u64, 8, .rwi, false, false, false, 0, 1099511627712, 64, [], none, 0⟩,
   ⟨0x6820, 1, 0x1, 1, 0x0, 0x3, 1, .u32, 4, .rwi, false, false, false, 0, 1061109567, 1, [], some 0x3F3F3F3F, 0⟩,
   ⟨0x6820, 1, 0x1, 1, 0x0, 0x4, 1, .u8, 1, .wo, false, false, false, 1, 2, 1, [], none, 0⟩,
   ⟨0x6820, 1, 0x1, 1, 0x0, 0x5, 1, .u8, 1, .ro, false, false, false, 0, 3, 1, [], none, 0⟩,
   ⟨0x6820, 1, 0x1, 1, 0x0, 0x6, 1, .u16, 2, .ro, false, false, false, 0, 65535, 1, [], none, 0⟩,
   ⟨0x6820, 1, 0x1, 1, 0x0, 0x7, 1, .time64, 8, .ro, false, false, false, 0, 18446744073709551615, 1, [], none, 0⟩]

/-- The rows of the indices 0x6000 to 0x6FFF. -/
def rows6 : List Row := rows6_0 ++ rows6_1 ++ rows6_2

/-- Rows of the indices 0x7000 to 0x7FFF, part 1. -/
def rows7_0 : List Row :=
  [⟨0x7000, 1, 0x1, 1, 0x0, 0x1, 1, .time64, 8, .ro, false, false, false, 0, 18446744073709551615, 1, [], none, 0⟩,
   ⟨0x7000, 1, 0x1, 1, 0x0, 0x2, 1, .u64, 8, .ro, false, false, false, 0, 18446744073709551615, 1, [], none, 0⟩,
   ⟨0x7000, 1, 0x1, 1, 0x0, 0x3, 1, .u16, 2, .ro, false, false, false, 0, 65535, 1, [], none, 0⟩,
   ⟨0x7000, 1, 0x1, 1, 0x0, 0x4, 1, .u16, 2, .ro, false, false, false, 0, 65535, 1, [], none, 0⟩,
   ⟨0x7000, 1, 0x1, 1, 0x0, 0x5, 1, .u8, 1, .rw, true, false, false, 0, 1, 1, [], none, 0⟩,
   ⟨0x7000, 1, 0x1, 1, 0x0, 0x6, 1, .bool, 1, .rw, true, false, false, 0, 1, 1, [], none, 1⟩,
   ⟨0x7000, 1, 0x1, 1, 0x0, 0x7, 1, .u32, 4, .rw, true, false, false, 1000, 1000000000, 1, [], none, 0xF4240⟩,
   ⟨0x7000, 1, 0x1, 1, 0x0, 0x8, 1, .u8, 1, .ro, false, false, false, 0, 3, 1, [], none, 0⟩,
   ⟨0x7000, 1, 0x1, 1, 0x0, 0x9, 1, .i64, 8, .ro, false, false, false, (-9223372036854775808), 9223372036854775807, 1, [], none, 0⟩,
   ⟨0x7010, 2, 0x10, 1, 0x0, 0x1, 1, .u8, 1, .rw, true, false, false, 0, 127, 1, [], none, 0⟩,
   ⟨0x7010, 2, 0x10, 1, 0x0, 0x2, 1, .u8, 1, .ro, false, false, false, 0, 3, 1, [], none, 0⟩,
   ⟨0x7010, 2, 0x10, 1, 0x0, 0x3, 1, .i64, 8, .ro, false, false, false, (-9223372036854775808), 9223372036854775807, 1, [], none, 0⟩,
   ⟨0x7010, 2, 0x10, 1, 0x0, 0x4, 1, .i32, 4, .ro, false, false, false, (-2147483648), 2147483647, 1, [], none, 0⟩,
   ⟨0x7010, 2, 0x10, 1, 0x0, 0x5, 1, .time64, 8, .ro, false, false, false, 0, 18446744073709551615, 1, [], none, 0⟩,
   ⟨0x7010, 2, 0x10, 1, 0x0, 0x6, 1, .u8, 1, .rw, true, false, false, 2, 16, 1, [], none, 4⟩,
   ⟨0x7100, 64, 0x1, 1, 0x0, 0x1, 1, .time64, 8, .rwi, false, false, false, 0, 18446744073709551615, 1, [], none, 0⟩,
   ⟨0x7100, 64, 0x1, 1, 0x0, 0x2, 1, .u32, 4, .rwi, false, false, false, 0, 4294967295, 1, [], none, 0⟩,
   ⟨0x7100, 64, 0x1, 1, 0x0, 0x3, 1, .u32, 4, .rwi, false, false, false, 0, 4294967295, 1, [], none, 0⟩,
   ⟨0x7100, 64, 0x1, 1, 0x0, 0x4, 1, .u8, 1, .rwi, false, false, false, 0, 6, 1, [], none, 0⟩,
   ⟨0x7100, 64, 0x1, 1, 0x0, 0x5, 1, .u8, 1, .rwi, false, false, false, 0, 255, 1, [], none, 0⟩,
   ⟨0x7100, 64, 0x1, 1, 0x0, 0x6, 1, .u8, 1, .rw, false, false, false, 0, 1, 1, [], none, 0⟩,
   ⟨0x7100, 64, 0x1, 1, 0x0, 0x7, 1, .u32, 4, .ro, false, false, false, 0, 4294967295, 1, [], none, 0⟩,
   ⟨0x7100, 64, 0x1, 1, 0x0, 0x8, 1, .time64, 8, .ro, false, false, false, 0, 18446744073709551615, 1, [], none, 0⟩,
   ⟨0x7100, 64, 0x1, 1, 0x0, 0x9, 1, .u32, 4, .ro, false, false, false, 0, 4294967295, 1, [], none, 0⟩,
   ⟨0x7200, 1, 0x1, 1, 0x0, 0x1, 1, .u64, 8, .rwi, true, false, false, 0, 1099511562240, 65536, [], none, 0⟩,
   ⟨0x7200, 1, 0x1, 1, 0x0, 0x2, 1, .u64, 8, .rwi, true, false, false, 16777216, 4294967296, 1, [16777216, 33554432, 67108864, 134217728, 268435456, 536870912, 1073741824, 2147483648, 4294967296], none, 0x10000000⟩,
   ⟨0x7200, 1, 0x1, 1, 0x0, 0x3, 1, .bool, 1, .rw, true, false, false, 0, 1, 1, [], none, 1⟩,
   ⟨0x7200, 1, 0x1, 1, 0x0, 0x4, 1, .u32, 4, .ro, false, false, false, 0, 4294967295, 1, [], none, 0⟩,
   ⟨0x7200, 1, 0x1, 1, 0x0, 0x5, 1, .u32, 4, .rw, false, false, false, 0, 4294967295, 1, [], none, 0⟩,
   ⟨0x7200, 1, 0x1, 1, 0x0, 0x6, 1, .u8, 1, .rw, true, false, false, 0, 2, 1, [], none, 2⟩,
   ⟨0x7200, 1, 0x1, 1, 0x0, 0x7, 1, .u32, 4, .ro, false, false, false, 0, 4294967295, 1, [], none, 0⟩,
   ⟨0x7200, 1, 0x1, 1, 0x0, 0x8, 1, .u32, 4, .ro, false, false, false, 0, 4294967295, 1, [], none, 0⟩,
   ⟨0x7200, 1, 0x1, 1, 0x0, 0x9, 1, .octets, 64, .ro, false, false, false, 0, 0, 1, [], none, 0⟩,
   ⟨0x7200, 1, 0x1, 1, 0x0, 0xA, 1, .octets, 64, .ro, false, false, false, 0, 0, 1, [], none, 0⟩,
   ⟨0x7200, 1, 0x1, 1, 0x0, 0xB, 1, .u32, 4, .rw, true, false, false, 4096, 16777216, 1, [], none, 65536⟩,
   ⟨0x7400, 48, 0x10, 1, 0x0, 0x1, 1, .u8, 1, .ro, false, false, false, 0, 4, 1, [], none, 0⟩,
   ⟨0x7400, 48, 0x10, 1, 0x0, 0x2, 1, .bool, 1, .rw, true, false, false, 0, 1, 1, [], none, 1⟩,
   ⟨0x7400, 48, 0x10, 1, 0x0, 0x3, 1, .u8, 1, .ro, false, false, false, 0, 4, 1, [], none, 0⟩,
   ⟨0x7400, 48, 0x10, 1, 0x0, 0x4, 1, .u8, 1, .rw, false, false, false, 0, 2, 1, [], none, 0⟩,
   ⟨0x7400, 48, 0x10, 1, 0x0, 0x5, 1, .u8, 1, .rw, false, false, false, 0, 2, 1, [], none, 0⟩]

/-- Rows of the indices 0x7000 to 0x7FFF, part 2. -/
def rows7_1 : List Row :=
  [⟨0x7400, 48, 0x10, 1, 0x0, 0x6, 1, .u32, 4, .ro, false, false, false, 0, 4294967295, 1, [], none, 0⟩,
   ⟨0x7400, 48, 0x10, 1, 0x0, 0x7, 1, .u32, 4, .ro, false, false, false, 0, 4294967295, 1, [], none, 0⟩,
   ⟨0x7400, 48, 0x10, 1, 0x0, 0x8, 1, .u32, 4, .ro, false, false, false, 0, 4294967295, 1, [], none, 0⟩,
   ⟨0x7400, 48, 0x10, 1, 0x0, 0x9, 1, .u32, 4, .ro, false, false, false, 0, 4294967295, 1, [], none, 0⟩,
   ⟨0x7400, 48, 0x10, 1, 0x0, 0xA, 1, .u32, 4, .ro, false, false, false, 0, 4294967295, 1, [], none, 0⟩,
   ⟨0x7400, 48, 0x10, 1, 0x0, 0xB, 1, .octets, 4, .ro, false, false, false, 0, 0, 1, [], none, 0⟩,
   ⟨0x7400, 48, 0x10, 1, 0x0, 0xC, 1, .u8, 1, .ro, false, false, false, 0, 3, 1, [], none, 0⟩,
   ⟨0x7400, 48, 0x10, 1, 0x0, 0xD, 1, .u64, 8, .ro, false, false, false, 0, 18446744073709551615, 1, [], none, 0⟩,
   ⟨0x7400, 48, 0x10, 1, 0x0, 0xE, 1, .time64, 8, .ro, false, false, false, 0, 18446744073709551615, 1, [], none, 0⟩,
   ⟨0x7800, 4, 0x80, 1, 0x0, 0x1, 1, .bool, 1, .rw, true, false, false, 0, 1, 1, [], none, 0⟩,
   ⟨0x7800, 4, 0x80, 1, 0x0, 0x2, 1, .u8, 1, .rwi, true, false, false, 0, 1, 1, [], none, 0⟩,
   ⟨0x7800, 4, 0x80, 1, 0x0, 0x3, 1, .u8, 1, .rwi, true, false, false, 0, 4, 1, [], none, 2⟩,
   ⟨0x7800, 4, 0x80, 1, 0x0, 0x4, 1, .u32, 4, .rwi, true, false, false, 1, 4294967295, 1, [], none, 65536⟩,
   ⟨0x7800, 4, 0x80, 1, 0x0, 0x5, 1, .bool, 1, .rwi, true, false, false, 0, 1, 1, [], none, 0⟩,
   ⟨0x7800, 4, 0x80, 1, 0x0, 0x6, 1, .i32, 4, .rwi, true, false, false, (-2147483648), 2147483647, 1, [], none, 0⟩,
   ⟨0x7800, 4, 0x80, 1, 0x0, 0x7, 1, .u8, 1, .ro, false, false, false, 0, 3, 1, [], none, 0⟩,
   ⟨0x7800, 4, 0x80, 1, 0x0, 0x8, 1, .u8, 1, .ro, false, false, false, 0, 31, 1, [], none, 0⟩,
   ⟨0x7800, 4, 0x80, 1, 0x0, 0x9, 1, .u8, 1, .wo, false, false, false, 1, 1, 1, [], none, 0⟩,
   ⟨0x7800, 4, 0x80, 1, 0x0, 0xA, 1, .octets, 8, .ro, false, false, false, 0, 0, 1, [], none, 0x400000000000⟩,
   ⟨0x7800, 4, 0x80, 1, 0x0, 0xB, 1, .u16, 2, .ro, false, false, false, 0, 65535, 1, [], none, 0⟩,
   ⟨0x7800, 4, 0x80, 1, 0x0, 0xC, 1, .u16, 2, .rw, true, false, false, 0, 65535, 1, [], none, 4⟩,
   ⟨0x7800, 4, 0x80, 1, 0x0, 0xD, 1, .u32, 4, .rw, true, false, false, 400, 100000000, 1, [], none, 100000⟩,
   ⟨0x7801, 4, 0x80, 1, 0x0, 0x1, 1, .i64, 8, .ro, false, false, false, (-9223372036854775808), 9223372036854775807, 1, [], none, 0⟩,
   ⟨0x7801, 4, 0x80, 1, 0x0, 0x2, 1, .i32, 4, .ro, false, false, false, (-2147483648), 2147483647, 1, [], none, 0⟩,
   ⟨0x7801, 4, 0x80, 1, 0x0, 0x3, 1, .i64, 8, .wo, false, false, false, (-9223372036854775808), 9223372036854775807, 1, [], none, 0⟩,
   ⟨0x7801, 4, 0x80, 1, 0x0, 0x4, 1, .i64, 8, .ro, false, false, false, (-9223372036854775808), 9223372036854775807, 1, [], none, 0⟩,
   ⟨0x7801, 4, 0x80, 1, 0x0, 0x5, 1, .time64, 8, .ro, false, false, false, 0, 18446744073709551615, 1, [], none, 0⟩,
   ⟨0x7801, 4, 0x80, 1, 0x0, 0x6, 1, .u32, 4, .rw, true, false, false, 0, 4294967295, 1, [], none, 0⟩,
   ⟨0x7801, 4, 0x80, 1, 0x0, 0x7, 1, .u32, 4, .rw, true, false, false, 0, 4294967295, 1, [], none, 16⟩,
   ⟨0x7801, 4, 0x80, 1, 0x0, 0x8, 1, .i32, 4, .ro, false, false, false, (-2147483648), 2147483647, 1, [], none, 0⟩,
   ⟨0x7801, 4, 0x80, 1, 0x0, 0x9, 1, .bool, 1, .rw, true, false, false, 0, 1, 1, [], none, 0⟩,
   ⟨0x7801, 4, 0x80, 1, 0x0, 0xA, 1, .i32, 4, .ro, false, false, false, (-2147483648), 2147483647, 1, [], none, 0⟩,
   ⟨0x7801, 4, 0x80, 1, 0x0, 0xB, 1, .u32, 4, .ro, false, false, false, 0, 4294967295, 1, [], none, 0⟩,
   ⟨0x7801, 4, 0x80, 1, 0x0, 0xC, 1, .i64, 8, .ro, false, false, false, (-9223372036854775808), 9223372036854775807, 1, [], none, 0⟩,
   ⟨0x7801, 4, 0x80, 1, 0x0, 0xD, 1, .time64, 8, .ro, false, false, false, 0, 18446744073709551615, 1, [], none, 0⟩,
   ⟨0x7801, 4, 0x80, 1, 0x0, 0xE, 1, .i64, 8, .ro, false, false, false, (-9223372036854775808), 9223372036854775807, 1, [], none, 0⟩,
   ⟨0x7802, 4, 0x80, 1, 0x0, 0x1, 1, .bool, 1, .rw, true, false, false, 0, 1, 1, [], none, 0⟩,
   ⟨0x7802, 4, 0x80, 1, 0x0, 0x2, 1, .u16, 2, .rwi, true, false, false, 1, 65535, 1, [], none, 1⟩,
   ⟨0x7802, 4, 0x80, 1, 0x0, 0x3, 1, .u16, 2, .rwi, true, false, false, 1, 65535, 1, [], none, 1⟩,
   ⟨0x7802, 4, 0x80, 1, 0x0, 0x4, 1, .u8, 1, .rwi, true, false, false, 0, 1, 1, [], none, 0⟩]

/-- Rows of the indices 0x7000 to 0x7FFF, part 3. -/
def rows7_2 : List Row :=
  [⟨0x7802, 4, 0x80, 1, 0x0, 0x5, 1, .u32, 4, .ro, false, false, false, 0, 4294967295, 1, [], none, 0⟩,
   ⟨0x7802, 4, 0x80, 1, 0x0, 0x6, 1, .u32, 4, .ro, false, false, false, 0, 4294967295, 1, [], none, 0⟩,
   ⟨0x7808, 4, 0x80, 8, 0x1, 0x1, 1, .i64, 8, .rw, false, false, false, (-9223372036854775808), 9223372036854775807, 1, [], none, 0⟩,
   ⟨0x7808, 4, 0x80, 8, 0x1, 0x2, 1, .u8, 1, .rwi, false, false, false, 0, 1, 1, [], none, 0⟩,
   ⟨0x7808, 4, 0x80, 8, 0x1, 0x3, 1, .u32, 4, .rwi, false, false, false, 0, 4294967295, 1, [], none, 0⟩,
   ⟨0x7808, 4, 0x80, 8, 0x1, 0x4, 1, .u32, 4, .rwi, false, false, false, 0, 4294967295, 1, [], none, 0⟩,
   ⟨0x7808, 4, 0x80, 8, 0x1, 0x5, 1, .u8, 1, .rwi, false, false, false, 0, 6, 1, [], none, 0⟩,
   ⟨0x7808, 4, 0x80, 8, 0x1, 0x6, 1, .u8, 1, .rwi, false, false, false, 0, 255, 1, [], none, 0⟩,
   ⟨0x7808, 4, 0x80, 8, 0x1, 0x7, 1, .u8, 1, .rw, false, false, false, 0, 1, 1, [], none, 0⟩,
   ⟨0x7808, 4, 0x80, 8, 0x1, 0x8, 1, .u32, 4, .ro, false, false, false, 0, 4294967295, 1, [], none, 0⟩,
   ⟨0x7808, 4, 0x80, 8, 0x1, 0x9, 1, .time64, 8, .ro, false, false, false, 0, 18446744073709551615, 1, [], none, 0⟩,
   ⟨0x7808, 4, 0x80, 8, 0x1, 0xA, 1, .u32, 4, .ro, false, false, false, 0, 4294967295, 1, [], none, 0⟩,
   ⟨0x7A00, 1, 0x1, 1, 0x0, 0x1, 1, .bool, 1, .rw, true, false, false, 0, 1, 1, [], none, 0⟩,
   ⟨0x7A00, 1, 0x1, 1, 0x0, 0x2, 1, .u8, 1, .rwi, true, false, false, 8, 16, 1, [], none, 10⟩,
   ⟨0x7A00, 1, 0x1, 1, 0x0, 0x3, 1, .u8, 1, .rwi, true, false, false, 1, 64, 1, [], none, 1⟩,
   ⟨0x7A00, 1, 0x1, 1, 0x0, 0x4, 1, .u16, 2, .rwi, true, false, false, 10, 4000, 1, [], none, 100⟩,
   ⟨0x7A00, 1, 0x1, 1, 0x0, 0x5, 1, .u8, 1, .rw, true, false, false, 0, 255, 1, [], none, 0⟩,
   ⟨0x7A00, 1, 0x1, 1, 0x0, 0x6, 1, .bool, 1, .rw, true, false, false, 0, 1, 1, [], none, 1⟩,
   ⟨0x7A00, 1, 0x1, 1, 0x0, 0x7, 1, .u32, 4, .ro, false, false, false, 0, 4294967295, 1, [], none, 8992⟩,
   ⟨0x7A00, 1, 0x1, 1, 0x0, 0x8, 1, .u8, 1, .ro, false, false, false, 0, 2, 1, [], none, 0⟩,
   ⟨0x7A01, 1, 0x1, 1, 0x0, 0x1, 1, .octets, 24, .rw, true, false, false, 0, 0, 1, [], none, 0⟩,
   ⟨0x7A01, 1, 0x1, 1, 0x0, 0x2, 1, .octets, 384, .rw, true, false, false, 0, 0, 1, [], none, 0⟩,
   ⟨0x7A01, 1, 0x1, 1, 0x0, 0x3, 1, .octets, 48, .ro, false, false, false, 0, 0, 1, [], none, 0⟩,
   ⟨0x7A01, 1, 0x1, 1, 0x0, 0x4, 1, .u32, 4, .ro, false, false, false, 0, 4294967295, 1, [], none, 0⟩,
   ⟨0x7A10, 8, 0x1, 1, 0x0, 0x1, 1, .octets, 24, .rw, true, false, false, 0, 0, 1, [], none, 0⟩,
   ⟨0x7A10, 8, 0x1, 1, 0x0, 0x2, 1, .u32, 4, .rw, true, false, false, 10, 1000000, 1, [], none, 1000⟩,
   ⟨0x7A10, 8, 0x1, 1, 0x0, 0x3, 1, .u8, 1, .rw, true, false, false, 1, 255, 1, [], none, 1⟩,
   ⟨0x7A10, 8, 0x1, 1, 0x0, 0x4, 1, .u32, 4, .ro, false, false, false, 0, 4294967295, 1, [], none, 0⟩,
   ⟨0x7A10, 8, 0x1, 1, 0x0, 0x5, 1, .time64, 8, .ro, false, false, false, 0, 18446744073709551615, 1, [], none, 0⟩,
   ⟨0x7A10, 8, 0x1, 1, 0x0, 0x6, 1, .u32, 4, .ro, false, false, false, 0, 4294967295, 1, [], none, 0⟩,
   ⟨0x7A20, 4, 0x1, 1, 0x0, 0x1, 1, .u8, 1, .rw, true, false, false, 0, 2, 1, [], none, 0⟩,
   ⟨0x7A20, 4, 0x1, 1, 0x0, 0x2, 1, .u16, 2, .rw, true, false, false, 0, 350, 1, [], none, 0⟩,
   ⟨0x7A20, 4, 0x1, 1, 0x0, 0x3, 1, .u32, 4, .rw, true, false, false, 200, 4000000, 1, [], none, 4000⟩,
   ⟨0x7A20, 4, 0x1, 1, 0x0, 0x4, 1, .u32, 4, .rw, true, false, false, 200, 4000000, 1, [], none, 4000⟩,
   ⟨0x7A20, 4, 0x1, 1, 0x0, 0x5, 1, .u16, 2, .rw, true, false, false, 10, 10000, 1, [], none, 500⟩,
   ⟨0x7A20, 4, 0x1, 1, 0x0, 0x6, 1, .u16, 2, .rw, true, false, false, 10, 10000, 1, [], none, 500⟩,
   ⟨0x7A20, 4, 0x1, 1, 0x0, 0x7, 1, .u8, 1, .ro, false, false, false, 0, 4, 1, [], none, 0⟩,
   ⟨0x7A20, 4, 0x1, 1, 0x0, 0x8, 1, .u8, 1, .wo, false, false, false, 1, 1, 1, [], none, 0⟩,
   ⟨0x7A20, 4, 0x1, 1, 0x0, 0x9, 1, .time64, 8, .ro, false, false, false, 0, 18446744073709551615, 1, [], none, 0⟩,
   ⟨0x7A20, 4, 0x1, 1, 0x0, 0xA, 1, .u32, 4, .ro, false, false, false, 0, 4294967295, 1, [], none, 0⟩]

/-- Rows of the indices 0x7000 to 0x7FFF, part 4. -/
def rows7_3 : List Row :=
  [⟨0x7A30, 1, 0x1, 1, 0x0, 0x1, 1, .u8, 1, .rwg, true, false, false, 0, 241, 1, [], some 0xF1, 241⟩,
   ⟨0x7A30, 1, 0x1, 1, 0x0, 0x2, 1, .u16, 2, .rw, true, false, false, 20, 2000, 1, [], none, 1000⟩,
   ⟨0x7A30, 1, 0x1, 1, 0x0, 0x3, 1, .bool, 1, .ro, false, false, false, 0, 1, 1, [], none, 1⟩,
   ⟨0x7C00, 1, 0x1, 1, 0x0, 0x1, 1, .i16, 2, .ro, false, false, false, (-32768), 32767, 1, [], none, 0⟩,
   ⟨0x7C00, 1, 0x1, 1, 0x0, 0x2, 1, .u8, 1, .ro, false, false, false, 0, 3, 1, [], none, 0⟩,
   ⟨0x7C00, 1, 0x1, 1, 0x0, 0x3, 1, .u8, 1, .ro, false, false, false, 0, 3, 1, [], none, 0⟩,
   ⟨0x7C00, 1, 0x1, 1, 0x0, 0x4, 1, .u8, 1, .ro, false, false, false, 0, 3, 1, [], none, 0⟩,
   ⟨0x7C00, 1, 0x1, 1, 0x0, 0x5, 1, .bool, 1, .ro, false, false, false, 0, 1, 1, [], none, 0⟩,
   ⟨0x7C00, 1, 0x1, 1, 0x0, 0x6, 1, .bool, 1, .ro, false, false, false, 0, 1, 1, [], none, 0⟩,
   ⟨0x7C00, 1, 0x1, 1, 0x0, 0x7, 1, .i32, 4, .ro, false, false, false, (-2147483648), 2147483647, 1, [], none, 0⟩,
   ⟨0x7C00, 1, 0x1, 1, 0x0, 0x8, 1, .u8, 1, .ro, false, false, false, 0, 2, 1, [], none, 0⟩,
   ⟨0x7C00, 1, 0x1, 1, 0x0, 0x9, 1, .octets, 28, .ro, false, false, false, 0, 0, 1, [], none, 0⟩,
   ⟨0x7C00, 1, 0x1, 1, 0x0, 0xA, 1, .octets, 14, .ro, false, false, false, 0, 0, 1, [], none, 0⟩,
   ⟨0x7C00, 1, 0x1, 1, 0x0, 0xB, 1, .octets, 14, .ro, false, false, false, 0, 0, 1, [], none, 0⟩,
   ⟨0x7C00, 1, 0x1, 1, 0x0, 0xC, 1, .u16, 2, .wo, false, false, false, 1, 16383, 1, [], none, 0⟩,
   ⟨0x7C00, 1, 0x1, 1, 0x0, 0xD, 1, .u16, 2, .ro, false, false, false, 0, 16383, 1, [], none, 0⟩,
   ⟨0x7C00, 1, 0x1, 1, 0x0, 0xE, 1, .u16, 2, .rw, true, false, false, 500, 5000, 1, [], none, 2500⟩,
   ⟨0x7C00, 1, 0x1, 1, 0x0, 0xF, 1, .u32, 4, .rw, true, false, false, 10, 10000, 1, [], none, 50⟩,
   ⟨0x7C00, 1, 0x1, 1, 0x0, 0x10, 1, .time64, 8, .ro, false, false, false, 0, 18446744073709551615, 1, [], none, 0⟩,
   ⟨0x7C00, 1, 0x1, 1, 0x0, 0x11, 1, .i16, 2, .ro, false, false, false, (-32768), 32767, 1, [], none, 0⟩,
   ⟨0x7D00, 1, 0x1, 1, 0x0, 0x1, 1, .u8, 1, .ro, false, false, false, 1, 5, 1, [], none, 0⟩,
   ⟨0x7D00, 1, 0x1, 1, 0x0, 0x2, 1, .u32, 4, .wo, false, false, false, 1836212599, 1836212599, 1, [], none, 0⟩,
   ⟨0x7D00, 1, 0x1, 1, 0x0, 0x3, 1, .time64, 8, .ro, false, false, false, 0, 18446744073709551615, 1, [], none, 0⟩,
   ⟨0x7D00, 1, 0x1, 1, 0x0, 0x4, 1, .time64, 8, .ro, false, false, false, 0, 18446744073709551615, 1, [], none, 0⟩,
   ⟨0x7D00, 1, 0x1, 1, 0x0, 0x5, 1, .u16, 2, .ro, false, false, false, 0, 33279, 1, [], none, 0⟩,
   ⟨0x7D00, 1, 0x1, 1, 0x0, 0x6, 1, .u16, 2, .ro, false, false, false, 0, 1023, 1, [], none, 0⟩,
   ⟨0x7D00, 1, 0x1, 1, 0x0, 0x7, 1, .bool, 1, .rw, false, false, false, 0, 0, 1, [], none, 0⟩,
   ⟨0x7D00, 1, 0x1, 1, 0x0, 0x8, 1, .octets, 9, .ro, false, false, false, 0, 0, 1, [], none, 0⟩,
   ⟨0x7D00, 1, 0x1, 1, 0x0, 0x9, 1, .bool, 1, .ro, false, false, false, 0, 1, 1, [], none, 0⟩,
   ⟨0x7D00, 1, 0x1, 1, 0x0, 0xA, 1, .bool, 1, .ro, false, false, false, 0, 1, 1, [], none, 0⟩,
   ⟨0x7D00, 1, 0x1, 1, 0x0, 0xB, 1, .u8, 1, .rw, true, false, false, 0, 10, 1, [], none, 5⟩,
   ⟨0x7D00, 1, 0x1, 1, 0x0, 0xC, 1, .u8, 1, .ro, false, false, false, 0, 10, 1, [], none, 0⟩,
   ⟨0x7D00, 1, 0x1, 1, 0x0, 0xD, 1, .u8, 1, .rw, true, false, false, 0, 2, 1, [], none, 1⟩,
   ⟨0x7D00, 1, 0x1, 1, 0x0, 0xE, 1, .u8, 1, .rw, true, false, false, 0, 2, 1, [], none, 1⟩,
   ⟨0x7D10, 1, 0x1, 1, 0x0, 0x1, 1, .u8, 1, .rw, true, false, false, 0, 50, 1, [], none, 10⟩,
   ⟨0x7D10, 1, 0x1, 1, 0x0, 0x2, 1, .u8, 1, .rw, true, false, false, 0, 255, 1, [], none, 10⟩,
   ⟨0x7D10, 1, 0x1, 1, 0x0, 0x3, 1, .u8, 1, .rw, true, false, false, 0, 15, 1, [], none, 2⟩,
   ⟨0x7E00, 1, 0x1, 1, 0x0, 0x1, 1, .u64, 8, .rw, false, false, false, 0, 1099511627712, 64, [], none, 0⟩,
   ⟨0x7E00, 1, 0x1, 1, 0x0, 0x2, 1, .u8, 1, .wo, false, false, false, 1, 1, 1, [], none, 0⟩,
   ⟨0x7E00, 1, 0x1, 1, 0x0, 0x3, 1, .u64, 8, .rwi, true, false, false, 0, 1099511562240, 65536, [], none, 0⟩]

/-- Rows of the indices 0x7000 to 0x7FFF, part 5. -/
def rows7_4 : List Row :=
  [⟨0x7E00, 1, 0x1, 1, 0x0, 0x4, 1, .u32, 4, .wo, false, false, false, 0, 4278255615, 1, [], some 0xFF00FFFF, 0⟩,
   ⟨0x7E00, 1, 0x1, 1, 0x0, 0x5, 1, .u8, 1, .wo, false, false, false, 1, 1, 1, [], none, 0⟩,
   ⟨0x7E00, 1, 0x1, 1, 0x0, 0x6, 1, .u8, 1, .ro, false, false, false, 0, 3, 1, [], none, 0⟩,
   ⟨0x7E00, 1, 0x1, 1, 0x0, 0x7, 1, .octets, 256, .rwg, false, false, false, 0, 0, 1, [], none, 0⟩,
   ⟨0x7E00, 1, 0x1, 1, 0x0, 0x8, 1, .u8, 1, .ro, false, false, false, 0, 2, 1, [], none, 0⟩,
   ⟨0x7E00, 1, 0x1, 1, 0x0, 0x9, 1, .u8, 1, .ro, false, false, false, 0, 2, 1, [], none, 0⟩,
   ⟨0x7E00, 1, 0x1, 1, 0x0, 0xA, 1, .u8, 1, .ro, false, false, false, 0, 7, 1, [], none, 0⟩,
   ⟨0x7E00, 1, 0x1, 1, 0x0, 0xB, 1, .u32, 4, .ro, false, false, false, 0, 4294967295, 1, [], none, 0⟩,
   ⟨0x7E00, 1, 0x1, 1, 0x0, 0xC, 1, .time64, 8, .ro, false, false, false, 0, 18446744073709551615, 1, [], none, 0⟩,
   ⟨0x7E01, 1, 0x1, 1, 0x0, 0x10, 1, .u32, 4, .rw, true, false, false, 0, 4294967295, 1, [], none, 2000⟩,
   ⟨0x7E01, 1, 0x1, 1, 0x0, 0x11, 1, .u32, 4, .rw, true, false, false, 0, 4294967295, 1, [], none, 64⟩,
   ⟨0x7E01, 1, 0x1, 1, 0x0, 0x12, 1, .u32, 4, .rw, true, false, false, 0, 4294967295, 1, [], none, 0x1388D1B7⟩,
   ⟨0x7E01, 1, 0x1, 1, 0x0, 0x20, 1, .u32, 4, .rw, true, false, false, 0, 4294967295, 1, [], none, 32⟩,
   ⟨0x7E01, 1, 0x1, 1, 0x0, 0x21, 1, .u32, 4, .rw, true, false, false, 0, 4294967295, 1, [], none, 164⟩,
   ⟨0x7E01, 1, 0x1, 1, 0x0, 0x22, 1, .u32, 4, .rw, true, false, false, 0, 4294967295, 1, [], none, 16⟩,
   ⟨0x7E01, 1, 0x1, 1, 0x0, 0x23, 1, .u32, 4, .rw, true, false, false, 0, 4294967295, 1, [], none, 20⟩,
   ⟨0x7E01, 1, 0x1, 1, 0x0, 0x28, 1, .u32, 4, .rw, true, false, false, 0, 4294967295, 1, [], none, 0xA40020⟩,
   ⟨0x7E01, 1, 0x1, 1, 0x0, 0x29, 1, .u32, 4, .rw, true, false, false, 0, 4294967295, 1, [], none, 20⟩,
   ⟨0x7E01, 1, 0x1, 1, 0x0, 0x2A, 1, .u32, 4, .rw, true, false, false, 0, 4294967295, 1, [], none, 50000⟩,
   ⟨0x7E01, 1, 0x1, 1, 0x0, 0x30, 1, .u32, 4, .rw, true, false, false, 0, 4294967295, 1, [], none, 82⟩,
   ⟨0x7E01, 1, 0x1, 1, 0x0, 0x31, 1, .u32, 4, .rw, true, false, false, 0, 4294967295, 1, [], none, 2⟩,
   ⟨0x7E01, 1, 0x1, 1, 0x0, 0x32, 1, .u32, 4, .rw, true, false, false, 0, 4294967295, 1, [], none, 0x210032⟩,
   ⟨0x7E01, 1, 0x1, 1, 0x0, 0x33, 1, .u32, 4, .rw, true, false, false, 0, 4294967295, 1, [], none, 0x5B00A4⟩,
   ⟨0x7E02, 1, 0x1, 1, 0x0, 0x1, 1, .u8, 1, .rw, true, false, false, 3, 16, 1, [], none, 4⟩,
   ⟨0x7E02, 1, 0x1, 1, 0x0, 0x2, 1, .octets, 128, .rw, true, false, false, 0, 0, 1, [], none, 0⟩,
   ⟨0x7E02, 1, 0x1, 1, 0x0, 0x3, 1, .octets, 8, .rw, true, false, false, 0, 0, 1, [], none, 0⟩,
   ⟨0x7E02, 1, 0x1, 1, 0x0, 0x4, 1, .octets, 8, .rw, true, false, false, 0, 0, 1, [], none, 0⟩,
   ⟨0x7E02, 1, 0x1, 1, 0x0, 0x5, 1, .u32, 4, .rw, true, false, false, 50, 5000, 1, [], none, 500⟩,
   ⟨0x7E02, 1, 0x1, 1, 0x0, 0x6, 1, .u16, 2, .rw, true, false, false, 0, 65535, 1, [], none, 16384⟩,
   ⟨0x7E02, 1, 0x1, 1, 0x0, 0x7, 1, .u32, 4, .rw, true, false, false, 1, 20000000, 1, [], none, 200000⟩,
   ⟨0x7E02, 1, 0x1, 1, 0x0, 0x8, 1, .u8, 1, .rw, true, false, false, 0, 7, 1, [], none, 0⟩,
   ⟨0x7E02, 1, 0x1, 1, 0x0, 0x9, 1, .u16, 2, .rw, true, false, false, 16, 256, 1, [], none, 64⟩,
   ⟨0x7E02, 1, 0x1, 1, 0x0, 0xA, 1, .u16, 2, .rw, true, false, false, 0, 65535, 1, [], none, 2000⟩,
   ⟨0x7E03, 1, 0x1, 1, 0x0, 0x1, 1, .u16, 2, .rw, false, false, false, 0, 65535, 1, [], none, 4096⟩,
   ⟨0x7E03, 1, 0x1, 1, 0x0, 0x2, 1, .u8, 1, .ro, false, false, false, 0, 2, 1, [], none, 0⟩,
   ⟨0x7E03, 1, 0x1, 1, 0x0, 0x3, 1, .u32, 4, .ro, false, false, false, 0, 4294967295, 1, [], none, 0⟩,
   ⟨0x7E03, 1, 0x1, 1, 0x0, 0x4, 1, .u32, 4, .ro, false, false, false, 0, 4294967295, 1, [], none, 0⟩,
   ⟨0x7E03, 1, 0x1, 1, 0x0, 0x5, 1, .time64, 8, .ro, false, false, false, 0, 18446744073709551615, 1, [], none, 0⟩,
   ⟨0x7E40, 64, 0x1, 1, 0x0, 0x1, 1, .u8, 1, .ro, false, false, false, 0, 2, 1, [], none, 0⟩,
   ⟨0x7E40, 64, 0x1, 1, 0x0, 0x2, 1, .u16, 2, .ro, false, false, false, 0, 65535, 1, [], none, 0⟩]

/-- Rows of the indices 0x7000 to 0x7FFF, part 6. -/
def rows7_5 : List Row :=
  [⟨0x7E40, 64, 0x1, 1, 0x0, 0x3, 1, .u32, 4, .ro, false, false, false, 0, 4294967295, 1, [], none, 0⟩,
   ⟨0x7E40, 64, 0x1, 1, 0x0, 0x4, 1, .time64, 8, .ro, false, false, false, 0, 18446744073709551615, 1, [], none, 0⟩,
   ⟨0x7E40, 64, 0x1, 1, 0x0, 0x5, 1, .u8, 1, .wo, false, false, false, 1, 1, 1, [], none, 0⟩]

/-- The rows of the indices 0x7000 to 0x7FFF. -/
def rows7 : List Row := rows7_0 ++ rows7_1 ++ rows7_2 ++ rows7_3 ++ rows7_4 ++ rows7_5

/-- Rows of the indices 0x8000 to 0x8FFF, part 1. -/
def rows8_0 : List Row :=
  [⟨0x8000, 192, 0x10, 1, 0x0, 0x1, 1, .u8, 1, .ro, false, false, false, 0, 7, 1, [], none, 0⟩,
   ⟨0x8000, 192, 0x10, 1, 0x0, 0x2, 1, .u8, 1, .ro, false, false, false, 0, 2, 1, [], none, 0⟩,
   ⟨0x8000, 192, 0x10, 1, 0x0, 0x3, 1, .u8, 1, .rwi, true, false, false, 0, 7, 1, [], none, 0⟩,
   ⟨0x8000, 192, 0x10, 1, 0x0, 0x4, 1, .u32, 4, .rwi, true, false, false, 0, 25600, 1, [], none, 0⟩,
   ⟨0x8000, 192, 0x10, 1, 0x0, 0x5, 1, .octets, 16, .wo, false, false, false, 0, 0, 1, [], some 0x1FFFFFFFFFFFFFFFF00FFFFFF, 0⟩,
   ⟨0x8000, 192, 0x10, 1, 0x0, 0x6, 1, .octets, 8, .wo, false, false, false, 0, 0, 1, [], some 0xFFFFFFFF00FFFFFF, 0⟩,
   ⟨0x8000, 192, 0x10, 1, 0x0, 0x7, 1, .u32, 4, .ro, false, false, false, 0, 4294967295, 1, [], none, 0⟩,
   ⟨0x8000, 192, 0x10, 1, 0x0, 0x8, 1, .u16, 2, .ro, false, false, false, 0, 65535, 1, [], none, 0⟩,
   ⟨0x8000, 192, 0x10, 1, 0x0, 0x9, 1, .u32, 4, .ro, false, false, false, 0, 4294967295, 1, [], none, 0⟩,
   ⟨0x8000, 192, 0x10, 1, 0x0, 0xA, 1, .u8, 1, .ro, false, false, false, 0, 3, 1, [], none, 0⟩,
   ⟨0x8000, 192, 0x10, 1, 0x0, 0xB, 1, .u64, 8, .ro, false, false, false, 0, 18446744073709551615, 1, [], none, 0⟩,
   ⟨0x8000, 192, 0x10, 1, 0x0, 0xC, 1, .time64, 8, .ro, false, false, false, 0, 18446744073709551615, 1, [], none, 0⟩,
   ⟨0x8000, 192, 0x10, 1, 0x0, 0xD, 1, .u8, 1, .wo, false, false, false, 1, 2, 1, [], none, 0⟩,
   ⟨0x8000, 192, 0x10, 1, 0x0, 0xE, 1, .bool, 1, .rw, true, false, false, 0, 1, 1, [], none, 1⟩,
   ⟨0x8000, 192, 0x10, 1, 0x0, 0xF, 1, .u64, 8, .rw, false, false, false, 0, 1099511627775, 1, [], none, 0⟩,
   ⟨0x8000, 192, 0x10, 1, 0x0, 0x10, 1, .u64, 8, .ro, false, false, false, 0, 18446744073709551615, 1, [], none, 0⟩,
   ⟨0x8000, 192, 0x10, 1, 0x0, 0x11, 1, .u64, 8, .ro, false, false, false, 0, 18446744073709551615, 1, [], none, 0⟩]

/-- The rows of the indices 0x8000 to 0x8FFF. -/
def rows8 : List Row := rows8_0

/-- Rows of the indices 0x9000 to 0x9FFF, part 1. -/
def rows9_0 : List Row :=
  [⟨0x9000, 256, 0x1, 1, 0x0, 0x1, 1, .u8, 1, .rw, true, false, false, 6, 126, 1, [], some 0x7E, 0⟩,
   ⟨0x9000, 256, 0x1, 1, 0x0, 0x2, 1, .u32, 4, .ro, false, false, false, 0, 4294967295, 1, [], none, 0⟩,
   ⟨0x9000, 256, 0x1, 1, 0x0, 0x3, 1, .time64, 8, .ro, false, false, false, 0, 18446744073709551615, 1, [], none, 0⟩,
   ⟨0x9000, 256, 0x1, 1, 0x0, 0x4, 1, .u16, 2, .ro, false, false, false, 0, 65535, 1, [], none, 0⟩,
   ⟨0x9000, 256, 0x1, 1, 0x0, 0x5, 1, .octets, 8, .ro, false, false, false, 0, 0, 1, [], none, 0⟩,
   ⟨0x9000, 256, 0x1, 1, 0x0, 0x6, 1, .u32, 4, .ro, false, false, false, 0, 4294967295, 1, [], none, 0⟩,
   ⟨0x9000, 256, 0x1, 1, 0x0, 0x7, 1, .u32, 4, .ro, false, false, false, 0, 4294967295, 1, [], none, 0⟩,
   ⟨0x9000, 256, 0x1, 1, 0x0, 0x8, 1, .u32, 4, .ro, false, false, false, 0, 4294967295, 1, [], none, 0⟩,
   ⟨0x9000, 256, 0x1, 1, 0x0, 0x9, 1, .u8, 1, .wo, false, false, false, 1, 1, 1, [], none, 0⟩]

/-- The rows of the indices 0x9000 to 0x9FFF. -/
def rows9 : List Row := rows9_0

/-- Rows of the indices 0xA000 to 0xAFFF, part 1. -/
def rowsA_0 : List Row :=
  [⟨0xA000, 1, 0x1, 1, 0x0, 0x1, 1, .u8, 1, .ro, false, true, false, 1, 4, 1, [], none, 4⟩,
   ⟨0xA000, 1, 0x1, 1, 0x0, 0x2, 1, .u32, 4, .ro, false, true, false, 0, 4294967295, 1, [], none, 0⟩,
   ⟨0xA000, 1, 0x1, 1, 0x0, 0x3, 1, .u8, 1, .ro, false, true, false, 0, 4, 1, [], none, 0⟩,
   ⟨0xA000, 1, 0x1, 1, 0x0, 0x4, 1, .u32, 4, .ro, false, true, false, 0, 4294967295, 1, [], none, 0⟩,
   ⟨0xA000, 1, 0x1, 1, 0x0, 0x5, 1, .u64, 8, .ro, false, true, false, 0, 18446744073709551615, 1, [], none, 0⟩,
   ⟨0xA000, 1, 0x1, 1, 0x0, 0x6, 1, .u8, 1, .rw, true, true, false, 0, 1, 1, [], none, 1⟩,
   ⟨0xA000, 1, 0x1, 1, 0x0, 0x7, 1, .u8, 1, .wo, false, true, false, 1, 3, 1, [], none, 0⟩,
   ⟨0xA000, 1, 0x1, 1, 0x0, 0x8, 1, .bool, 1, .rw, true, true, false, 0, 1, 1, [], none, 0⟩,
   ⟨0xA000, 1, 0x1, 1, 0x0, 0x9, 1, .u16, 2, .rw, true, true, false, 0, 65535, 1, [], none, 1⟩,
   ⟨0xA000, 1, 0x1, 1, 0x0, 0xA, 1, .u16, 2, .ro, false, true, false, 0, 65535, 1, [], none, 0⟩,
   ⟨0xA000, 1, 0x1, 1, 0x0, 0xB, 1, .u8, 1, .ro, false, true, false, 0, 3, 1, [], none, 0⟩,
   ⟨0xA000, 1, 0x1, 1, 0x0, 0xC, 1, .u64, 8, .ro, false, true, false, 0, 18446744073709551615, 1, [], none, 0⟩,
   ⟨0xA000, 1, 0x1, 1, 0x0, 0xD, 1, .u32, 4, .rw, true, true, false, 64, 4800, 1, [], none, 1024⟩,
   ⟨0xA000, 1, 0x1, 1, 0x0, 0xE, 1, .i64, 8, .ro, false, true, false, (-9223372036854775808), 9223372036854775807, 1, [], none, 0⟩,
   ⟨0xA000, 1, 0x1, 1, 0x0, 0xF, 1, .u8, 1, .ro, false, true, false, 0, 3, 1, [], none, 0⟩,
   ⟨0xA000, 1, 0x1, 1, 0x0, 0x10, 1, .u32, 4, .ro, false, true, false, 0, 4294967295, 1, [], none, 0⟩,
   ⟨0xA000, 1, 0x1, 1, 0x0, 0x11, 1, .u32, 4, .ro, false, true, false, 0, 4294967295, 1, [], none, 0⟩,
   ⟨0xA000, 1, 0x1, 1, 0x0, 0x12, 1, .time64, 8, .ro, false, true, false, 0, 18446744073709551615, 1, [], none, 0⟩,
   ⟨0xA000, 1, 0x1, 1, 0x0, 0x13, 1, .octets, 12, .ro, false, true, false, 0, 0, 1, [], none, 0⟩,
   ⟨0xA400, 1, 0x1, 1, 0x0, 0x1, 1, .u32, 4, .rwg, true, false, false, 0, 262143, 1, [], none, 87381⟩,
   ⟨0xA400, 1, 0x1, 1, 0x0, 0x2, 1, .u8, 1, .ro, false, false, false, 0, 2, 1, [], none, 0⟩,
   ⟨0xA400, 1, 0x1, 1, 0x0, 0x3, 1, .u32, 4, .ro, false, false, false, 0, 4294967295, 1, [], none, 0⟩,
   ⟨0xA400, 1, 0x1, 1, 0x0, 0x4, 1, .u8, 1, .ro, false, false, false, 0, 8, 1, [], none, 0⟩,
   ⟨0xA410, 1, 0x1, 1, 0x0, 0x1, 1, .octets, 32, .rwg, true, true, false, 0, 0, 1, [], none, 0⟩,
   ⟨0xA410, 1, 0x1, 1, 0x0, 0x2, 1, .octets, 32, .rwg, true, true, false, 0, 0, 1, [], none, 0⟩,
   ⟨0xA410, 1, 0x1, 1, 0x0, 0x3, 1, .octets, 8, .ro, false, false, false, 0, 0, 1, [], none, 0⟩,
   ⟨0xA410, 1, 0x1, 1, 0x0, 0x4, 1, .octets, 8, .ro, false, false, false, 0, 0, 1, [], none, 0⟩,
   ⟨0xA420, 8, 0x1, 1, 0x0, 0x1, 1, .u8, 1, .ro, false, false, false, 0, 1, 1, [], none, 0⟩,
   ⟨0xA420, 8, 0x1, 1, 0x0, 0x2, 1, .u32, 4, .ro, false, false, false, 0, 4294967295, 1, [], none, 0⟩,
   ⟨0xA420, 8, 0x1, 1, 0x0, 0x3, 1, .u32, 4, .ro, false, false, false, 0, 16777215, 1, [], none, 0⟩,
   ⟨0xA420, 8, 0x1, 1, 0x0, 0x4, 1, .u8, 1, .ro, false, false, false, 0, 1, 1, [], none, 0⟩,
   ⟨0xA420, 8, 0x1, 1, 0x0, 0x5, 1, .u16, 2, .ro, false, false, false, 0, 65535, 1, [], none, 0⟩,
   ⟨0xA420, 8, 0x1, 1, 0x0, 0x6, 1, .time64, 8, .ro, false, false, false, 0, 18446744073709551615, 1, [], none, 0⟩,
   ⟨0xA420, 8, 0x1, 1, 0x0, 0x7, 1, .octets, 1024, .ro, false, false, false, 0, 0, 1, [], none, 0⟩,
   ⟨0xA420, 8, 0x1, 1, 0x0, 0x8, 1, .u16, 2, .ro, false, false, false, 0, 65535, 1, [], none, 0⟩,
   ⟨0xA440, 1, 0x1, 1, 0x0, 0x1, 1, .u16, 2, .ro, false, false, false, 0, 65535, 1, [], none, 0⟩,
   ⟨0xA440, 1, 0x1, 1, 0x0, 0x2, 1, .u16, 2, .wo, false, false, false, 1, 65535, 1, [], none, 0⟩,
   ⟨0xA440, 1, 0x1, 1, 0x0, 0x3, 1, .octets, 16, .ro, false, false, false, 0, 0, 1, [], none, (octRep 1 16 (fun _ => 7))⟩,
   ⟨0xA440, 1, 0x1, 1, 0x0, 0x4, 1, .u32, 4, .ro, false, false, false, 0, 4294967295, 1, [], none, 0⟩,
   ⟨0xA440, 1, 0x1, 1, 0x0, 0x5, 1, .u16, 2, .ro, false, false, false, 0, 65535, 1, [], none, 0⟩]

/-- Rows of the indices 0xA000 to 0xAFFF, part 2. -/
def rowsA_1 : List Row :=
  [⟨0xA440, 1, 0x1, 1, 0x0, 0x6, 1, .time64, 8, .ro, false, false, false, 0, 18446744073709551615, 1, [], none, 0⟩,
   ⟨0xA440, 1, 0x1, 1, 0x0, 0x7, 1, .u16, 2, .wo, false, false, false, 1, 65535, 1, [], none, 0⟩,
   ⟨0xA450, 1, 0x1, 1, 0x0, 0x1, 1, .u8, 1, .ro, false, false, false, 0, 255, 1, [], none, 0⟩,
   ⟨0xA450, 1, 0x1, 1, 0x0, 0x2, 1, .u8, 1, .ro, false, false, false, 0, 170, 1, [], none, 85⟩,
   ⟨0xA450, 1, 0x1, 1, 0x0, 0x3, 1, .octets, 8, .rwg, true, false, false, 0, 0, 1, [], none, 0xFFFFFFFFFFFFFFFF⟩,
   ⟨0xA450, 1, 0x1, 1, 0x0, 0x4, 1, .u32, 4, .ro, false, false, false, 0, 4294967295, 1, [], none, 0⟩,
   ⟨0xA450, 1, 0x1, 1, 0x0, 0x5, 1, .time64, 8, .ro, false, false, false, 0, 18446744073709551615, 1, [], none, 0⟩]

/-- The rows of the indices 0xA000 to 0xAFFF. -/
def rowsA : List Row := rowsA_0 ++ rowsA_1

/-- Rows of the indices 0xB000 to 0xBFFF, part 1. -/
def rowsB_0 : List Row :=
  [⟨0xB000, 128, 0x10, 1, 0x0, 0x1, 1, .bool, 1, .rwi, true, false, false, 0, 1, 1, [], none, 0⟩,
   ⟨0xB000, 128, 0x10, 1, 0x0, 0x2, 1, .u8, 1, .rwi, true, false, false, 0, 16, 1, [0, 3, 4, 5, 6, 7, 8, 9, 10, 11, 12, 13, 14, 15, 16], none, 0⟩,
   ⟨0xB000, 128, 0x10, 1, 0x0, 0x3, 1, .octets, 128, .rwi, true, false, false, 0, 0, 1, [], none, 0⟩,
   ⟨0xB000, 128, 0x10, 1, 0x0, 0x4, 1, .u16, 2, .rwi, true, false, false, 0, 65535, 1, [], none, 0⟩,
   ⟨0xB000, 128, 0x10, 1, 0x0, 0x5, 1, .u16, 2, .ro, false, false, false, 0, 65535, 1, [], none, 0⟩,
   ⟨0xB000, 128, 0x10, 1, 0x0, 0x6, 1, .u16, 2, .ro, false, false, false, 0, 65535, 1, [], none, 0⟩,
   ⟨0xB000, 128, 0x10, 1, 0x0, 0x7, 1, .u16, 2, .ro, false, false, false, 0, 16384, 1, [], none, 0⟩,
   ⟨0xB000, 128, 0x10, 1, 0x0, 0x8, 1, .u32, 4, .ro, false, false, false, 0, 4294967295, 1, [], none, 0⟩,
   ⟨0xB000, 128, 0x10, 1, 0x0, 0x9, 1, .u16, 2, .ro, false, false, false, 0, 65535, 1, [], none, 0⟩,
   ⟨0xB000, 128, 0x10, 1, 0x0, 0xA, 1, .u8, 1, .rw, false, false, false, 64, 191, 1, [], none, 64⟩,
   ⟨0xB000, 128, 0x10, 1, 0x0, 0xB, 1, .u64, 8, .rw, false, false, false, 0, 1099511627760, 16, [], none, 0⟩,
   ⟨0xB000, 128, 0x10, 1, 0x0, 0xC, 1, .u16, 2, .rw, false, false, false, 0, 1024, 1, [], none, 0⟩,
   ⟨0xB000, 128, 0x10, 1, 0x0, 0xD, 1, .u8, 1, .wo, false, false, false, 1, 1, 1, [], none, 0⟩]

/-- The rows of the indices 0xB000 to 0xBFFF. -/
def rowsB : List Row := rowsB_0

/-- Rows of the indices 0xC000 to 0xCFFF, part 1. -/
def rowsC_0 : List Row :=
  [⟨0xC000, 1, 0x1, 1, 0x0, 0x1, 1, .u32, 4, .rwg, false, false, false, 0, 86400, 1, [], none, 0⟩,
   ⟨0xC000, 1, 0x1, 1, 0x0, 0x2, 1, .u8, 1, .wo, false, false, false, 1, 1, 1, [], none, 0⟩,
   ⟨0xC000, 1, 0x1, 1, 0x0, 0x3, 1, .u8, 1, .ro, false, false, false, 0, 1, 1, [], none, 0⟩,
   ⟨0xC000, 1, 0x1, 1, 0x0, 0x4, 1, .u32, 4, .ro, false, false, false, 0, 4294967295, 1, [], none, 0⟩,
   ⟨0xC000, 1, 0x1, 1, 0x0, 0x5, 1, .u32, 4, .ro, false, false, false, 0, 4294967295, 1, [], none, 0⟩,
   ⟨0xC000, 1, 0x1, 1, 0x0, 0x6, 1, .u32, 4, .ro, false, false, false, 0, 4294967295, 1, [], none, 0⟩]

/-- The rows of the indices 0xC000 to 0xCFFF. -/
def rowsC : List Row := rowsC_0

/-- Rows of the indices 0xD000 to 0xDFFF, part 1. -/
def rowsD_0 : List Row :=
  [⟨0xD000, 48, 0x40, 1, 0x0, 0x1, 1, .u8, 1, .wo, false, false, false, 1, 2, 1, [], none, 0⟩,
   ⟨0xD000, 48, 0x40, 1, 0x0, 0x2, 1, .u8, 1, .ro, false, false, false, 0, 3, 1, [], none, 0⟩,
   ⟨0xD000, 48, 0x40, 1, 0x0, 0x3, 1, .u8, 1, .rwi, true, false, false, 16, 40, 1, [], none, 24⟩,
   ⟨0xD000, 48, 0x40, 1, 0x0, 0x4, 1, .i16, 2, .rwi, false, false, false, (-32), 32, 1, [], none, 65504⟩,
   ⟨0xD000, 48, 0x40, 1, 0x0, 0x5, 1, .i16, 2, .rwi, false, false, false, (-32), 32, 1, [], none, 32⟩,
   ⟨0xD000, 48, 0x40, 1, 0x0, 0x6, 1, .i16, 2, .rwi, false, false, false, (-50), 50, 1, [], none, 65486⟩,
   ⟨0xD000, 48, 0x40, 1, 0x0, 0x7, 1, .i16, 2, .rwi, false, false, false, (-50), 50, 1, [], none, 50⟩,
   ⟨0xD000, 48, 0x40, 1, 0x0, 0x8, 1, .u8, 1, .rwi, false, false, false, 64, 191, 1, [], none, 64⟩,
   ⟨0xD000, 48, 0x40, 1, 0x0, 0x9, 1, .u64, 8, .rwi, false, false, false, 0, 1099511627772, 4, [], none, 0⟩,
   ⟨0xD000, 48, 0x40, 1, 0x0, 0xA, 1, .u16, 2, .ro, false, false, false, 0, 65535, 1, [], none, 0⟩,
   ⟨0xD000, 48, 0x40, 1, 0x0, 0xB, 1, .time64, 8, .ro, false, false, false, 0, 18446744073709551615, 1, [], none, 0⟩,
   ⟨0xDC00, 1, 0x1, 1, 0x0, 0x1, 1, .u32, 4, .ro, false, false, false, 0, 4294967295, 1, [], none, 0⟩,
   ⟨0xDC00, 1, 0x1, 1, 0x0, 0x2, 1, .u32, 4, .ro, false, false, false, 0, 4294967295, 1, [], none, 0⟩,
   ⟨0xDC00, 1, 0x1, 1, 0x0, 0x3, 1, .u32, 4, .ro, false, false, false, 0, 4294967295, 1, [], none, 5728⟩,
   ⟨0xDC00, 1, 0x1, 1, 0x0, 0x4, 1, .u8, 1, .ro, false, false, false, 0, 100, 1, [], none, 0⟩,
   ⟨0xDC00, 1, 0x1, 1, 0x0, 0x5, 1, .u16, 2, .ro, false, false, false, 0, 65535, 1, [], none, 1792⟩]

/-- The rows of the indices 0xD000 to 0xDFFF. -/
def rowsD : List Row := rowsD_0

/-- The rows whose index lies in the 4,096 indices of the given one. -/
def rowsAt (index : Nat) : List Row :=
  match index / 0x1000 with
  | 0x1 => rows1
  | 0x2 => rows2
  | 0x3 => rows3
  | 0x4 => rows4
  | 0x5 => rows5
  | 0x6 => rows6
  | 0x7 => rows7
  | 0x8 => rows8
  | 0x9 => rows9
  | 0xA => rowsA
  | 0xB => rowsB
  | 0xC => rowsC
  | 0xD => rowsD
  | _ => []

/-- Every row, in index order. -/
def rows : List Row := rows1 ++ rows2 ++ rows3 ++ rows4 ++ rows5 ++ rows6 ++ rows7 ++ rows8 ++ rows9 ++ rowsA ++ rowsB ++ rowsC ++ rowsD

end Sys2Proof.Machine.Dict
end

