-- ==== Sys2Proof/Machine/Dict.lean ====
section
/-! DEFINITION. The object dictionary as descriptors: finding the line of an entry, the defaults that differ
between instances, the checks of a value, and the 40-byte descriptor a host reads. -/

namespace Sys2Proof.Machine.Dict

/-- The instance numbers of an index in a line's group, when it belongs to it. -/
def Row.inst (r : Row) (index : Nat) : Option (Nat × Nat) :=
  if index < r.base then none
  else
    let d := index - r.base
    let i := d / r.s1
    let q := d % r.s1
    let j := q / r.s2
    if i < r.n1 ∧ q % r.s2 = 0 ∧ j < r.n2 then some (i, j) else none

/-- The line covers an entry. -/
def Row.covers (r : Row) (index sub : Nat) : Bool :=
  (r.inst index).isSome && decide (r.sub ≤ sub) && decide (sub < r.sub + r.nsub)

/-- The line of an entry. -/
def find (key : Nat) : Option Row :=
  (rowsAt (key / 256)).find? (fun r => r.covers (key / 256) (key % 256))

/-- The index exists (R69). -/
def indexExists (index : Nat) : Bool := (rowsAt index).any (fun r => (r.inst index).isSome)

/-- Highest sub-index under an index: what sub-index 0x00 reads (R66). -/
def topSub (index : Nat) : Nat :=
  (rowsAt index).foldl (fun m r => if (r.inst index).isSome then max m (r.sub + r.nsub - 1) else m) 0

/-- Default notice masks by source (R525). -/
def noticeMask (src : Nat) : Nat :=
  if 0x20 ≤ src ∧ src < 0x80 then (if (src - 0x20) % 6 = 1 then 0x1E else if (src - 0x20) % 6 < 4 then 0x0E else 0x06)
  else if 0x80 ≤ src ∧ src < 0xA0 then 0x0E
  else if 0xA0 ≤ src ∧ src < 0xB8 then 0x4E
  else if 0xC0 ≤ src ∧ src < 0xCC then 0x0E
  else match src with
  | 0x00 => 0x1E | 0x01 => 0x0E | 0x02 => 0x5E | 0x03 => 0x1E | 0x10 => 0x5E | 0x11 => 0x4E | 0x12 => 0x4E
  | 0x18 => 0x0E | 0x19 => 0x0E | 0x1A => 0x0E | 0x1B => 0x0E | 0x1F => 0x0E
  | 0xB8 => 0x4E | 0xB9 => 0x1E
  | 0xD0 => 0x0E | 0xD1 => 0x0E | 0xD2 => 0x0E | 0xD3 => 0x0E | 0xD8 => 0x0E
  | 0xDC => 0x0E | 0xDD => 0x0E | 0xDE => 0x0E | 0xDF => 0x0E
  | 0xE0 => 0x0E | 0xE1 => 0x4E | 0xE2 => 0x4E | 0xE3 => 0x4E | 0xE4 => 0x4E | 0xE5 => 0x4E
  | 0xE6 => 0x4E | 0xE7 => 0x4E | 0xE8 => 0x4E | 0xE9 => 0x4E | 0xEF => 0x5E
  | 0xF0 => 0x4E | 0xF1 => 0x0E | 0xF2 => 0x1E | 0xF3 => 0x4E | 0xF4 => 0x1E | 0xF5 => 0x0E
  | 0xF8 => 0x4E | 0xF9 => 0x4E | 0xFA => 0x1E | 0xFB => 0x4E | 0xFC => 0x1E
  | _ => 0x06

/-- A reserved event source (R525, R526). -/
def reservedSource (src : Nat) : Bool :=
  (0x04 ≤ src && src ≤ 0x0F) || (0x13 ≤ src && src ≤ 0x17) || (0x1C ≤ src && src ≤ 0x1E) ||
  (0x20 ≤ src && src < 0x80 && decide (4 ≤ (src - 0x20) % 6)) ||
  (0xBA ≤ src && src ≤ 0xBF) || (0xCC ≤ src && src ≤ 0xCF) || (0xD4 ≤ src && src ≤ 0xD7) ||
  (0xD9 ≤ src && src ≤ 0xDB) || (0xEA ≤ src && src ≤ 0xEE) || src == 0xF6 || src == 0xF7 || (0xFD ≤ src && src ≤ 0xFF)

/-- User, priority and reserve of a translation context (R122). -/
def tcUser (n : Nat) : Nat × Nat × Nat :=
  if n < 16 then (0, 7, 8) else if n < 32 then (1, 7, 80) else if n < 56 then (2, 4, 16)
  else if n < 57 then (3, 6, 2400) else if n < 58 then (4, 6, 512) else if n < 62 then (5, 6, 256)
  else if n < 64 then (6, 1, 0) else (7, 3, 0)

/-- Use of a serial lane (R336). -/
def laneUse (l : Nat) : Nat := if l < 16 then 0 else if l < 32 then 1 else if l < 36 then 2 else if l < 44 then 3 else 4

/-- Kind of a fleet node position (R422, R423). -/
def nodeKind (k : Nat) : Nat := if k < 2 then 0 else if k < 18 then 1 else if k < 34 then 2 else if k < 38 then 3 else 4

/-- The default of an entry that differs from one instance to another, or from the one its line shows. -/
def dfltInst (r : Row) (i off : Nat) : Nat :=
  match r.base, r.sub with
  | 0x1100, 1 => if i < 2 then 0 else 1
  | 0x1100, 2 => 0x0100004C4D00 + i * 2 ^ 40
  | 0x1400, 0x20 => 88 + off
  | 0x7010, 1 => i
  | 0x8000, 1 => (tcUser i).1
  | 0x8000, 3 => (tcUser i).2.1
  | 0x8000, 4 => (tcUser i).2.2
  | 0x9000, 1 => noticeMask i
  | 0x5000, 4 => if i < 48 then 0x80 else if i < 64 then 0x81 else 0
  | 0x5000, 5 => if i < 48 then 0x8000 else if i < 64 then 0x8100 else 0
  | 0x5000, 6 => if i < 48 then 0x8000 else if i < 64 then 0x8100 else 0
  | 0x5002, 2 => if 48 ≤ i ∧ i < 64 then uns 32 (-6554) else uns 32 (-2147483648)
  | 0x5002, 3 => if 48 ≤ i ∧ i < 64 then 6554 else 2147483647
  | 0x5002, 4 => if 88 ≤ i then 1 else 0
  | 0x6000, 1 => if i < 16 then 0x10 + i else if i < 20 then 0x10 + i else 0
  | 0x7400, 1 => laneUse i
  | 0x1F11, 1 => nodeKind i
  | _, _ => r.dflt

/-- The default of an entry; zero where no entry exists. -/
def dflt (key : Nat) : Nat :=
  match find key with
  | none => 0
  | some r =>
    match r.inst (key / 256) with
    | none => 0
    | some (i, _) => dfltInst r i (key % 256 - r.sub)

/-- A signed type. -/
def Ty.signed : Ty → Bool
  | .i16 => true | .i32 => true | .i64 => true | .q => true
  | .bool => false | .u8 => false | .u16 => false | .u32 => false | .u64 => false
  | .time64 => false | .digest64 => false | .octets => false

/-- Type codes (R68). -/
def Ty.code : Ty → Nat
  | .bool => 1 | .u8 => 2 | .u16 => 3 | .u32 => 4 | .u64 => 5 | .i16 => 6 | .i32 => 7 | .i64 => 8
  | .q => 9 | .time64 => 10 | .digest64 => 11 | .octets => 12

/-- Access codes of a descriptor (R67). -/
def Acc.code : Acc → Nat
  | .ro => 0 | .rw => 1 | .rwi => 2 | .wo => 3 | .rwg => 4

/-- The value as a number of its type. -/
def Row.num (r : Row) (v : Nat) : Int := if r.ty.signed then sgn (8 * r.len) v else (v : Int)

/-- Step 6 of R72: no reserved bit is set, a BOOL is 0 or 1. -/
def Row.bitsOk (r : Row) (v : Nat) : Bool :=
  (match r.mask with | none => true | some m => (v &&& m) == v) && (r.ty != .bool || v ≤ 1)

/-- The OCTETS entries whose table line gives a range: CYCLIC_DEST is a group address (R118), each byte of BD_PATTERN is 0 to 4 (R304). -/
def Row.octetsOk (r : Row) (v : Nat) : Bool :=
  if r.base = 0x1400 ∧ r.sub = 4 then v.testBit 0
  else if r.base = 0x6008 ∧ r.sub = 1 then (toLE 16 v).all (fun b => decide (b.toNat ≤ 4))
  else true

/-- Step 7 of R72: within MIN and MAX, on STEP, and listed when SPARSE. -/
def Row.rangeOk (r : Row) (v : Nat) : Bool :=
  (r.ty == .octets && r.octetsOk v) || (r.ty != .octets &&
  (decide (r.lo ≤ r.num v) && decide (r.num v ≤ r.hi) && decide ((r.num v - r.lo) % (r.step : Int) = 0) &&
    (r.sparse.isEmpty || r.sparse.contains v)))

/-- The value of an entry as its bytes. -/
def Row.bytes (r : Row) (v : Nat) : List Byte := toLE r.len v

/-- Every entry with persistence KEEP, in index order, as index and line; instances expanded. -/
def keysOf (r : Row) : List Nat :=
  (List.range r.n1).flatMap fun i => (List.range r.n2).flatMap fun j => (List.range r.nsub).map fun o =>
    (r.base + i * r.s1 + j * r.s2) * 256 + r.sub + o

/-- The keys of the lines that satisfy a test, ascending. -/
def keysWhere (p : Row → Bool) : List Nat :=
  ascending ((rows.filter p).flatMap keysOf)

/-- The keys of all KEEP entries. -/
def keepKeys : List Nat := keysWhere (fun r => r.keep)

/-- The 40-byte descriptor of an entry (R67). -/
def descriptor (key : Nat) : List Byte :=
  if key % 256 = 0 then
    [Ty.u8.code, Acc.ro.code, 0, 0].flatMap (toLE 1) ++ toLE 2 1 ++ toLE 1 0 ++ toLE 1 0 ++ toLE 8 0 ++
      toLE 8 0xFE ++ toLE 8 (topSub (key / 256)) ++ toLE 4 1 ++ toLE 4 0
  else
    match find key with
    | none => []
    | some r =>
      let oct := r.ty == .octets
      let lo := if oct then 0 else r.lo
      let hi := if oct then 0 else r.hi
      let d := if oct || r.factory then 0 else r.num (dflt key)
      let fl := (if r.factory then 8 else 0) + (if r.sparse.isEmpty then 0 else 4) +
        (if r.ty.signed then 2 else 0) + (if r.partOwn then 1 else 0)
      toLE 1 r.ty.code ++ toLE 1 r.acc.code ++ toLE 1 (if r.keep then 1 else 0) ++ toLE 1 fl ++ toLE 2 r.len ++
        toLE 1 (if r.ty == .q then 30 else 0) ++ toLE 1 0 ++ toLE 8 (uns 64 lo) ++ toLE 8 (uns 64 hi) ++
        toLE 8 (uns 64 d) ++ toLE 4 (if oct then 1 else r.step) ++ toLE 4 0

end Sys2Proof.Machine.Dict
end

