-- ==== Sys2Proof/Machine/Entries.lean ====
section
/-! DEFINITION. The keys of the object dictionary: one name for each entry of the spec's tables, valued
index * 256 + sub-index (R65); an entry of a group with instances takes the instance number (R69). -/

namespace Sys2Proof.Machine.K

/-- R1 1000:01 (RO VOL). -/
abbrev FAMILY_MEMBER : Nat := 0x100001
/-- R1 1000:02 (RO VOL). -/
abbrev STEPPING : Nat := 0x100002
/-- R1 1000:03 (RO KEEP). -/
abbrev ORDERING_CODE : Nat := 0x100003
/-- R22 2100:01 (RW VOL). -/
abbrev LAYER_DESC_ADDR : Nat := 0x210001
/-- R22 2100:02 (RW VOL). -/
abbrev LAYER_DESC_TC : Nat := 0x210002
/-- R22 2100:03 (WO VOL). -/
abbrev LAYER_COMMIT : Nat := 0x210003
/-- R22 2100:04 (RO VOL). -/
abbrev LAYER_NUMBER : Nat := 0x210004
/-- R22 2100:05 (RO VOL). -/
abbrev LAYER_PHASE : Nat := 0x210005
/-- R22 2100:06 (RO VOL). -/
abbrev LAYER_PENDING : Nat := 0x210006
/-- R22 2100:07 (WO VOL). -/
abbrev LAYER_RESUME : Nat := 0x210007
/-- R39 7000:01 (RO VOL). -/
abbrev TIME_NOW : Nat := 0x700001
/-- R39 7000:02 (RO VOL). -/
abbrev TICK_COUNT : Nat := 0x700002
/-- R39 7000:03 (RO VOL). -/
abbrev TIME_ERA : Nat := 0x700003
/-- R39 7000:04 (RO VOL). -/
abbrev TIME_GEN : Nat := 0x700004
/-- R39 7000:05 (RW KEEP). -/
abbrev TIME_SEL : Nat := 0x700005
/-- R39 7000:06 (RW KEEP). -/
abbrev TIME_AUTO_SWITCH : Nat := 0x700006
/-- R39 7000:07 (RW KEEP). -/
abbrev TIME_STEP_THRESHOLD : Nat := 0x700007
/-- R39 7000:08 (RO VOL). -/
abbrev TIME_STATE : Nat := 0x700008
/-- R39 7000:09 (RO VOL). -/
abbrev TIME_RESIDUAL : Nat := 0x700009
/-- R42 7010:01 (RW KEEP). -/
abbrev DOM_NUMBER (n : Nat) : Nat := 0x701001 + n * 0x1000
/-- R42 7010:02 (RO VOL). -/
abbrev DOM_STATE (n : Nat) : Nat := 0x701002 + n * 0x1000
/-- R42 7010:03 (RO VOL). -/
abbrev DOM_OFFSET (n : Nat) : Nat := 0x701003 + n * 0x1000
/-- R42 7010:04 (RO VOL). -/
abbrev DOM_RATE (n : Nat) : Nat := 0x701004 + n * 0x1000
/-- R42 7010:05 (RO VOL). -/
abbrev DOM_LAST_SYNC (n : Nat) : Nat := 0x701005 + n * 0x1000
/-- R42 7010:06 (RW KEEP). -/
abbrev DOM_LOSS_INTERVALS (n : Nat) : Nat := 0x701006 + n * 0x1000
/-- R55 7100:01 (RWI VOL). -/
abbrev TT_TIME (n : Nat) : Nat := 0x710001 + n * 0x100
/-- R55 7100:02 (RWI VOL). -/
abbrev TT_PERIOD (n : Nat) : Nat := 0x710002 + n * 0x100
/-- R55 7100:03 (RWI VOL). -/
abbrev TT_COUNT (n : Nat) : Nat := 0x710003 + n * 0x100
/-- R55 7100:04 (RWI VOL). -/
abbrev TT_ACTION (n : Nat) : Nat := 0x710004 + n * 0x100
/-- R55 7100:05 (RWI VOL). -/
abbrev TT_TARGET (n : Nat) : Nat := 0x710005 + n * 0x100
/-- R55 7100:06 (RW VOL). -/
abbrev TT_ARM (n : Nat) : Nat := 0x710006 + n * 0x100
/-- R55 7100:07 (RO VOL). -/
abbrev TT_FIRED (n : Nat) : Nat := 0x710007 + n * 0x100
/-- R55 7100:08 (RO VOL). -/
abbrev TT_LAST (n : Nat) : Nat := 0x710008 + n * 0x100
/-- R55 7100:09 (RO VOL). -/
abbrev TT_SKIPPED (n : Nat) : Nat := 0x710009 + n * 0x100
/-- R57 7200:01 (RWI KEEP). -/
abbrev JOURNAL_BASE : Nat := 0x720001
/-- R57 7200:02 (RWI KEEP). -/
abbrev JOURNAL_SIZE : Nat := 0x720002
/-- R57 7200:03 (RW KEEP). -/
abbrev JOURNAL_ENABLE : Nat := 0x720003
/-- R57 7200:04 (RO VOL). -/
abbrev JOURNAL_WRITE_SEQ : Nat := 0x720004
/-- R57 7200:05 (RW VOL). -/
abbrev JOURNAL_READ_SEQ : Nat := 0x720005
/-- R57 7200:06 (RW KEEP). -/
abbrev JOURNAL_DETAIL : Nat := 0x720006
/-- R57 7200:07 (RO VOL). -/
abbrev JOURNAL_OVERRUN : Nat := 0x720007
/-- R57 7200:08 (RO VOL). -/
abbrev JOURNAL_SHED : Nat := 0x720008
/-- R57 7200:09 (RO VOL). -/
abbrev JOURNAL_SEAL : Nat := 0x720009
/-- R57 7200:0A (RO VOL). -/
abbrev JOURNAL_SEAL_PRIOR : Nat := 0x72000A
/-- R57 7200:0B (RW KEEP). -/
abbrev JOURNAL_SEAL_EVERY : Nat := 0x72000B
/-- R75 1010:01 (WO VOL). -/
abbrev KEEP_STORE : Nat := 0x101001
/-- R75 1010:02 (WO VOL). -/
abbrev KEEP_RESTORE : Nat := 0x101002
/-- R75 1010:03 (RO VOL). -/
abbrev KEEP_STATE : Nat := 0x101003
/-- R75 1010:04 (RO VOL). -/
abbrev KEEP_GENERATION : Nat := 0x101004
/-- R75 1010:05 (RO VOL). -/
abbrev KEEP_DEFAULTED : Nat := 0x101005
/-- R75 1010:06 (RO VOL). -/
abbrev KEEP_DEFAULTED_FIRST : Nat := 0x101006
/-- R75 1010:07 (RO VOL). -/
abbrev KEEP_UNKNOWN : Nat := 0x101007
/-- R75 1010:08 (RO VOL). -/
abbrev KEEP_SAVE_TIME : Nat := 0x101008
/-- R84 1F00:01 (RO VOL). -/
abbrev NODE_DIGEST : Nat := 0x1F0001
/-- R84 1F00:02 (RO VOL). -/
abbrev NODE_DIGEST_STAMP : Nat := 0x1F0002
/-- R84 1F00:03 (RO VOL). -/
abbrev NODE_DIGEST_STATE : Nat := 0x1F0003
/-- R84 1F00:04 (RO VOL). -/
abbrev NODE_DIGEST_ENTRIES : Nat := 0x1F0004
/-- R84 1F00:05 (RO VOL). -/
abbrev NODE_DIGEST_CAL : Nat := 0x1F0005
/-- R86 1000:04 (RO KEEP). -/
abbrev SERIAL_NUMBER : Nat := 0x100004
/-- R86 1000:05 (RO VOL). -/
abbrev DICT_VERSION : Nat := 0x100005
/-- R86 1000:06 (RO VOL). -/
abbrev CAPABILITIES : Nat := 0x100006
/-- R86 1000:07 (RO VOL). -/
abbrev VENDOR_NAME : Nat := 0x100007
/-- R86 1000:08 (RO VOL). -/
abbrev TWIN_STRAP : Nat := 0x100008
/-- R88 1100:01 (RO VOL). -/
abbrev PORT_ROLE (n : Nat) : Nat := 0x110001 + n * 0x100
/-- R88 1100:02 (RO KEEP). -/
abbrev MAC_ADDRESS (n : Nat) : Nat := 0x110002 + n * 0x100
/-- R88 1100:03 (RWI KEEP). -/
abbrev ETHERTYPE (n : Nat) : Nat := 0x110003 + n * 0x100
/-- R88 1100:04 (RWI KEEP). -/
abbrev VLAN_ID (n : Nat) : Nat := 0x110004 + n * 0x100
/-- R88 1100:05 (RW KEEP). -/
abbrev PCP_COMMAND (n : Nat) : Nat := 0x110005 + n * 0x100
/-- R88 1100:06 (RW KEEP). -/
abbrev PCP_STREAM (n : Nat) : Nat := 0x110006 + n * 0x100
/-- R88 1100:07 (RW KEEP). -/
abbrev PCP_CYCLIC (n : Nat) : Nat := 0x110007 + n * 0x100
/-- R88 1100:08 (RW KEEP). -/
abbrev PTP_ENABLE (n : Nat) : Nat := 0x110008 + n * 0x100
/-- R88 1100:09 (RO VOL). -/
abbrev LINK_STATE (n : Nat) : Nat := 0x110009 + n * 0x100
/-- R88 1100:0A (RO VOL). -/
abbrev RX_FRAMES (n : Nat) : Nat := 0x11000A + n * 0x100
/-- R88 1100:0B (RO VOL). -/
abbrev RX_DROPPED (n : Nat) : Nat := 0x11000B + n * 0x100
/-- R88 1100:0C (RO VOL). -/
abbrev TX_FRAMES (n : Nat) : Nat := 0x11000C + n * 0x100
/-- R88 1100:0D (RO VOL). -/
abbrev ETHERTYPE_IN_FORCE (n : Nat) : Nat := 0x11000D + n * 0x100
/-- R88 1100:0E (RO VOL). -/
abbrev VLAN_ID_IN_FORCE (n : Nat) : Nat := 0x11000E + n * 0x100
/-- R89 1200:01 (RO VOL). -/
abbrev SESSION_LIMIT : Nat := 0x120001
/-- R89 1200:02 (RO VOL). -/
abbrev SESSIONS_OPEN : Nat := 0x120002
/-- R89 1200:03 (RW KEEP). -/
abbrev SESSION_TIMEOUT : Nat := 0x120003
/-- R89 1200:04 (RW KEEP). -/
abbrev NOTICE_CREDIT_MAX : Nat := 0x120004
/-- R89 1200:05 (RW KEEP). -/
abbrev DEVICE_LABEL : Nat := 0x120005
/-- R106 1210:01 (RO VOL). -/
abbrev NOTICE_QUEUED : Nat := 0x121001
/-- R106 1210:02 (RO VOL). -/
abbrev NOTICE_QUEUE_PEAK : Nat := 0x121002
/-- R106 1210:03 (RO VOL). -/
abbrev NOTICE_COALESCED : Nat := 0x121003
/-- R106 1210:04 (RO VOL). -/
abbrev NOTICE_SUMMARIES : Nat := 0x121004
/-- R106 1210:05 (RW KEEP). -/
abbrev NOTICE_RESEND : Nat := 0x121005
/-- R106 1210:06 (RO VOL). -/
abbrev NOTICE_QUEUE_SIZE : Nat := 0x121006
/-- R107 1300:01 (RWI VOL). -/
abbrev STREAM_TC (n : Nat) : Nat := 0x130001 + n * 0x100
/-- R107 1300:02 (RWI VOL). -/
abbrev STREAM_BASE (n : Nat) : Nat := 0x130002 + n * 0x100
/-- R107 1300:03 (RWI VOL). -/
abbrev STREAM_LENGTH (n : Nat) : Nat := 0x130003 + n * 0x100
/-- R107 1300:04 (RWI VOL). -/
abbrev STREAM_CRC (n : Nat) : Nat := 0x130004 + n * 0x100
/-- R107 1300:05 (WO VOL). -/
abbrev STREAM_CONTROL (n : Nat) : Nat := 0x130005 + n * 0x100
/-- R107 1300:06 (RO VOL). -/
abbrev STREAM_STATE (n : Nat) : Nat := 0x130006 + n * 0x100
/-- R107 1300:07 (RO VOL). -/
abbrev STREAM_MARK (n : Nat) : Nat := 0x130007 + n * 0x100
/-- R107 1300:08 (RO VOL). -/
abbrev STREAM_DROPPED (n : Nat) : Nat := 0x130008 + n * 0x100
/-- R107 1300:09 (RO VOL). -/
abbrev STREAM_SESSION (n : Nat) : Nat := 0x130009 + n * 0x100
/-- R107 1300:0A (RO VOL). -/
abbrev STREAM_CAUSE (n : Nat) : Nat := 0x13000A + n * 0x100
/-- R107 1300:0B (RO VOL). -/
abbrev STREAM_END_STAMP (n : Nat) : Nat := 0x13000B + n * 0x100
/-- R115 1500:01 (RW KEEP). -/
abbrev PTP_DELAY_MECH (n : Nat) : Nat := 0x150001 + n * 0x100
/-- R115 1500:02 (RO VOL). -/
abbrev PTP_STATE_A (n : Nat) : Nat := 0x150002 + n * 0x100
/-- R115 1500:03 (RO VOL). -/
abbrev PTP_STATE_B (n : Nat) : Nat := 0x150003 + n * 0x100
/-- R115 1500:04 (RW KEEP). -/
abbrev PTP_LOG_SYNC (n : Nat) : Nat := 0x150004 + n * 0x100
/-- R115 1500:05 (RW KEEP). -/
abbrev PTP_ASYMMETRY (n : Nat) : Nat := 0x150005 + n * 0x100
/-- R115 1500:06 (RO VOL). -/
abbrev PTP_MEAN_DELAY (n : Nat) : Nat := 0x150006 + n * 0x100
/-- R115 1500:07 (RW KEEP). -/
abbrev TXTS_SELECT (n : Nat) : Nat := 0x150007 + n * 0x100
/-- R115 1500:08 (RO VOL). -/
abbrev TXTS_COUNT (n : Nat) : Nat := 0x150008 + n * 0x100
/-- R115 1500:09 (RO VOL). -/
abbrev TXTS_OLDEST (n : Nat) : Nat := 0x150009 + n * 0x100
/-- R115 1500:0A (WO VOL). -/
abbrev TXTS_RELEASE (n : Nat) : Nat := 0x15000A + n * 0x100
/-- R115 1500:0B (RW VOL). -/
abbrev TXTS_OVERFLOW (n : Nat) : Nat := 0x15000B + n * 0x100
/-- R115 1500:0C (RO VOL). -/
abbrev TXTS_DROPPED (n : Nat) : Nat := 0x15000C + n * 0x100
/-- R115 1500:0D (RO VOL). -/
abbrev PTP_RX_IGNORED (n : Nat) : Nat := 0x15000D + n * 0x100
/-- R118 1400:01 (RW VOL). -/
abbrev CYCLIC_ENABLE : Nat := 0x140001
/-- R118 1400:02 (RO VOL). -/
abbrev CYCLIC_PERIOD : Nat := 0x140002
/-- R118 1400:03 (RO VOL). -/
abbrev CYCLIC_LEAD : Nat := 0x140003
/-- R118 1400:04 (RWI KEEP). -/
abbrev CYCLIC_DEST : Nat := 0x140004
/-- R118 1400:05 (RO VOL). -/
abbrev CYCLIC_COUNT : Nat := 0x140005
/-- R118 1400:06 (RWI KEEP). -/
abbrev CYCLIC_REPLY_WINDOW : Nat := 0x140006
/-- R118 1400:10 (RWI KEEP). -/
abbrev SLOT_NODE (i : Nat) : Nat := 0x140010 + i
/-- R118 1400:18 (RWI KEEP). -/
abbrev SLOT_MODE (i : Nat) : Nat := 0x140018 + i
/-- R118 1400:20 (RWI KEEP). -/
abbrev SLOT_LOOP (i : Nat) : Nat := 0x140020 + i
/-- R118 1400:28 (RO VOL). -/
abbrev SLOT_MISSED (i : Nat) : Nat := 0x140028 + i
/-- R118 1400:30 (RO VOL). -/
abbrev SLOT_STATUS (i : Nat) : Nat := 0x140030 + i
/-- R123 8000:01 (RO VOL). -/
abbrev TC_USER (n : Nat) : Nat := 0x800001 + n * 0x1000
/-- R123 8000:02 (RO VOL). -/
abbrev TC_STATE (n : Nat) : Nat := 0x800002 + n * 0x1000
/-- R123 8000:03 (RWI KEEP). -/
abbrev TC_PRIORITY (n : Nat) : Nat := 0x800003 + n * 0x1000
/-- R123 8000:04 (RWI KEEP). -/
abbrev TC_RESERVE (n : Nat) : Nat := 0x800004 + n * 0x1000
/-- R123 8000:05 (WO VOL). -/
abbrev TC_MAP (n : Nat) : Nat := 0x800005 + n * 0x1000
/-- R123 8000:06 (WO VOL). -/
abbrev TC_UNMAP (n : Nat) : Nat := 0x800006 + n * 0x1000
/-- R123 8000:07 (RO VOL). -/
abbrev TC_MAPPED_PAGES (n : Nat) : Nat := 0x800007 + n * 0x1000
/-- R123 8000:08 (RO VOL). -/
abbrev TC_PINNED_PAGES (n : Nat) : Nat := 0x800008 + n * 0x1000
/-- R123 8000:09 (RO VOL). -/
abbrev TC_UNMAP_PENDING (n : Nat) : Nat := 0x800009 + n * 0x1000
/-- R123 8000:0A (RO VOL). -/
abbrev TC_FAULT_KIND (n : Nat) : Nat := 0x80000A + n * 0x1000
/-- R123 8000:0B (RO VOL). -/
abbrev TC_FAULT_ADDR (n : Nat) : Nat := 0x80000B + n * 0x1000
/-- R123 8000:0C (RO VOL). -/
abbrev TC_FAULT_STAMP (n : Nat) : Nat := 0x80000C + n * 0x1000
/-- R123 8000:0D (WO VOL). -/
abbrev TC_RESUME (n : Nat) : Nat := 0x80000D + n * 0x1000
/-- R123 8000:0E (RW KEEP). -/
abbrev TC_AUTO_RESUME (n : Nat) : Nat := 0x80000E + n * 0x1000
/-- R123 8000:0F (RW VOL). -/
abbrev TC_PROBE_ADDR (n : Nat) : Nat := 0x80000F + n * 0x1000
/-- R123 8000:10 (RO VOL). -/
abbrev TC_PROBE_ENTRY (n : Nat) : Nat := 0x800010 + n * 0x1000
/-- R123 8000:11 (RO VOL). -/
abbrev TC_BEATS (n : Nat) : Nat := 0x800011 + n * 0x1000
/-- R139 DC00:01 (RO VOL). -/
abbrev MEM_CORRECTED : Nat := 0xDC0001
/-- R139 DC00:02 (RO VOL). -/
abbrev MEM_UNCORRECTED : Nat := 0xDC0002
/-- R139 DC00:03 (RO VOL). -/
abbrev MEM_RESERVE_SUM : Nat := 0xDC0003
/-- R139 DC00:04 (RO VOL). -/
abbrev MEM_LOAD_PEAK : Nat := 0xDC0004
/-- R139 DC00:05 (RO VOL). -/
abbrev TABLE_FREE : Nat := 0xDC0005
/-- R161 3001:01 (RW KEEP). -/
abbrev CS_START_MARK_SPEED (n : Nat) : Nat := 0x300101 + n * 0x1000
/-- R161 3001:02 (RW KEEP). -/
abbrev CS_START_JUMP_SPEED (n : Nat) : Nat := 0x300102 + n * 0x1000
/-- R161 3001:03 (RW KEEP). -/
abbrev CS_START_FOCUS_OFFSET (n : Nat) : Nat := 0x300103 + n * 0x1000
/-- R161 3001:04 (RW KEEP). -/
abbrev CS_START_POWER_SCALE (n : Nat) : Nat := 0x300104 + n * 0x1000
/-- R161 3001:05 (RW KEEP). -/
abbrev CS_START_DWELL_LIMIT (n : Nat) : Nat := 0x300105 + n * 0x1000
/-- R161 3001:06 (RW KEEP). -/
abbrev CS_START_DWELL_TIMEOUT (n : Nat) : Nat := 0x300106 + n * 0x1000
/-- R161 3001:07 (RW KEEP). -/
abbrev CS_START_POOL_TARGET (n : Nat) : Nat := 0x300107 + n * 0x1000
/-- R172 3000:01 (RO VOL). -/
abbrev CS_ACTIVITY (n : Nat) : Nat := 0x300001 + n * 0x1000
/-- R172 3000:02 (RO VOL). -/
abbrev CS_PC (n : Nat) : Nat := 0x300002 + n * 0x1000
/-- R172 3000:03 (RO VOL). -/
abbrev CS_OFFSET_X (n : Nat) : Nat := 0x300003 + n * 0x1000
/-- R172 3000:04 (RO VOL). -/
abbrev CS_OFFSET_Y (n : Nat) : Nat := 0x300004 + n * 0x1000
/-- R172 3000:05 (RO VOL). -/
abbrev CS_DEPTH (n : Nat) : Nat := 0x300005 + n * 0x1000
/-- R172 3000:06 (RO VOL). -/
abbrev CS_HOLD_CAUSE (n : Nat) : Nat := 0x300006 + n * 0x1000
/-- R172 3000:07 (RO VOL). -/
abbrev CS_ERROR (n : Nat) : Nat := 0x300007 + n * 0x1000
/-- R172 3000:08 (RO VOL). -/
abbrev CS_ERROR_ADDR (n : Nat) : Nat := 0x300008 + n * 0x1000
/-- R172 3000:09 (WO VOL). -/
abbrev CS_CONTROL (n : Nat) : Nat := 0x300009 + n * 0x1000
/-- R172 3000:0A (RO VOL). -/
abbrev CS_CHORDS (n : Nat) : Nat := 0x30000A + n * 0x1000
/-- R172 3000:0B (RO VOL). -/
abbrev CS_CLAIMED (n : Nat) : Nat := 0x30000B + n * 0x1000
/-- R172 3000:0C (RO VOL). -/
abbrev CS_POSTED (n : Nat) : Nat := 0x30000C + n * 0x1000
/-- R172 3000:0D (RO VOL). -/
abbrev CS_DWELL_HOLDS (n : Nat) : Nat := 0x30000D + n * 0x1000
/-- R172 3000:0E (RO VOL). -/
abbrev CS_DWELL_FORCED (n : Nat) : Nat := 0x30000E + n * 0x1000
/-- R172 3000:0F (RO VOL). -/
abbrev CS_REORDERED (n : Nat) : Nat := 0x30000F + n * 0x1000
/-- R172 3000:10 (RO VOL). -/
abbrev CS_WAIT_LATE (n : Nat) : Nat := 0x300010 + n * 0x1000
/-- R199 4000:01 (RO VOL). -/
abbrev BC_STATE (n : Nat) : Nat := 0x400001 + n * 0x10000
/-- R199 4000:02 (WO VOL). -/
abbrev BC_CONTROL (n : Nat) : Nat := 0x400002 + n * 0x10000
/-- R199 4000:03 (RO VOL). -/
abbrev BC_CAUSE (n : Nat) : Nat := 0x400003 + n * 0x10000
/-- R199 4000:04 (RW KEEP). -/
abbrev BC_PARK_X (n : Nat) : Nat := 0x400004 + n * 0x10000
/-- R199 4000:05 (RW KEEP). -/
abbrev BC_PARK_Y (n : Nat) : Nat := 0x400005 + n * 0x10000
/-- R199 4000:06 (RO VOL). -/
abbrev BC_STATE_STAMP (n : Nat) : Nat := 0x400006 + n * 0x10000
/-- R200 4001:01 (RWI KEEP). -/
abbrev BC_SKY_IN (n : Nat) : Nat := 0x400101 + n * 0x10000
/-- R200 4001:02 (RWI KEEP). -/
abbrev BC_SKY_OUT (n : Nat) : Nat := 0x400102 + n * 0x10000
/-- R200 4001:03 (RWI KEEP). -/
abbrev BC_SKY_ANGLE (n : Nat) : Nat := 0x400103 + n * 0x10000
/-- R200 4001:04 (RWI KEEP). -/
abbrev BC_ACCEL_MAX (n : Nat) : Nat := 0x400104 + n * 0x10000
/-- R200 4001:05 (RWI KEEP). -/
abbrev BC_JUMP_ACCEL (n : Nat) : Nat := 0x400105 + n * 0x10000
/-- R200 4001:06 (RWI KEEP). -/
abbrev BC_JUMP_SETTLE (n : Nat) : Nat := 0x400106 + n * 0x10000
/-- R200 4001:07 (RWI KEEP). -/
abbrev BC_GATE_ON_DELAY (n : Nat) : Nat := 0x400107 + n * 0x10000
/-- R200 4001:08 (RWI KEEP). -/
abbrev BC_GATE_OFF_DELAY (n : Nat) : Nat := 0x400108 + n * 0x10000
/-- R201 4002:01 (RWG KEEP). -/
abbrev BC_POWER_CEILING (n : Nat) : Nat := 0x400201 + n * 0x10000
/-- R201 4002:02 (RWG KEEP). -/
abbrev BC_REGION_0 (n : Nat) : Nat := 0x400202 + n * 0x10000
/-- R201 4002:03 (RWG KEEP). -/
abbrev BC_REGION_1 (n : Nat) : Nat := 0x400203 + n * 0x10000
/-- R201 4002:04 (RWG KEEP). -/
abbrev BC_REGION_2 (n : Nat) : Nat := 0x400204 + n * 0x10000
/-- R201 4002:05 (RWG KEEP). -/
abbrev BC_REGION_3 (n : Nat) : Nat := 0x400205 + n * 0x10000
/-- R201 4002:06 (RO VOL). -/
abbrev BC_GRID_X0 (n : Nat) : Nat := 0x400206 + n * 0x10000
/-- R201 4002:07 (RO VOL). -/
abbrev BC_GRID_Y0 (n : Nat) : Nat := 0x400207 + n * 0x10000
/-- R201 4002:08 (RO VOL). -/
abbrev BC_GRID_SHIFT (n : Nat) : Nat := 0x400208 + n * 0x10000
/-- R201 4002:09 (RO VOL). -/
abbrev BC_REG_A11 (n : Nat) : Nat := 0x400209 + n * 0x10000
/-- R201 4002:0A (RO VOL). -/
abbrev BC_REG_A12 (n : Nat) : Nat := 0x40020A + n * 0x10000
/-- R201 4002:0B (RO VOL). -/
abbrev BC_REG_A21 (n : Nat) : Nat := 0x40020B + n * 0x10000
/-- R201 4002:0C (RO VOL). -/
abbrev BC_REG_A22 (n : Nat) : Nat := 0x40020C + n * 0x10000
/-- R201 4002:0D (RO VOL). -/
abbrev BC_REG_TX (n : Nat) : Nat := 0x40020D + n * 0x10000
/-- R201 4002:0E (RO VOL). -/
abbrev BC_REG_TY (n : Nat) : Nat := 0x40020E + n * 0x10000
/-- R201 4002:0F (RO VOL). -/
abbrev BC_CAL_TIME_OFFSET (n : Nat) : Nat := 0x40020F + n * 0x10000
/-- R201 4002:10 (RO VOL). -/
abbrev BC_CEILING_MOD (n : Nat) : Nat := 0x400210 + n * 0x10000
/-- R201 4002:11 (RO VOL). -/
abbrev BC_TABLE_GEN (n : Nat) : Nat := 0x400211 + n * 0x10000
/-- R201 4002:12 (RO VOL). -/
abbrev BC_REGION_BREACH (n : Nat) : Nat := 0x400212 + n * 0x10000
/-- R201 4002:13 (RO VOL). -/
abbrev BC_REACH_BREACH (n : Nat) : Nat := 0x400213 + n * 0x10000
/-- R202 4003:01 (RO VOL). -/
abbrev BC_HEAD_RANGE_X (n : Nat) : Nat := 0x400301 + n * 0x10000
/-- R202 4003:02 (RO VOL). -/
abbrev BC_HEAD_RANGE_Y (n : Nat) : Nat := 0x400302 + n * 0x10000
/-- R202 4003:03 (RO VOL). -/
abbrev BC_HEAD_RANGE_Z (n : Nat) : Nat := 0x400303 + n * 0x10000
/-- R202 4003:04 (RO VOL). -/
abbrev BC_CMD_LATE (n : Nat) : Nat := 0x400304 + n * 0x10000
/-- R202 4003:05 (RO VOL). -/
abbrev BC_CMD_MISSING (n : Nat) : Nat := 0x400305 + n * 0x10000
/-- R202 4003:06 (RO VOL). -/
abbrev BC_CLAMPED (n : Nat) : Nat := 0x400306 + n * 0x10000
/-- R202 4003:07 (RO VOL). -/
abbrev BC_CUT (n : Nat) : Nat := 0x400307 + n * 0x10000
/-- R202 4003:08 (RO VOL). -/
abbrev BC_EDGE_CLAMPED (n : Nat) : Nat := 0x400308 + n * 0x10000
/-- R203 B000:01 (RWI KEEP). -/
abbrev LUNE_ENABLE (n : Nat) : Nat := 0xB00001 + n * 0x1000
/-- R203 B000:02 (RWI KEEP). -/
abbrev LUNE_VERTICES (n : Nat) : Nat := 0xB00002 + n * 0x1000
/-- R203 B000:03 (RWI KEEP). -/
abbrev LUNE_POLYGON (n : Nat) : Nat := 0xB00003 + n * 0x1000
/-- R203 B000:04 (RWI KEEP). -/
abbrev LUNE_ELIGIBLE (n : Nat) : Nat := 0xB00004 + n * 0x1000
/-- R203 B000:05 (RO VOL). -/
abbrev LUNE_LIVE (n : Nat) : Nat := 0xB00005 + n * 0x1000
/-- R203 B000:06 (RO VOL). -/
abbrev LUNE_QUEUED (n : Nat) : Nat := 0xB00006 + n * 0x1000
/-- R203 B000:07 (RO VOL). -/
abbrev LUNE_ENTRIES (n : Nat) : Nat := 0xB00007 + n * 0x1000
/-- R203 B000:08 (RO VOL). -/
abbrev LUNE_GRANTS (n : Nat) : Nat := 0xB00008 + n * 0x1000
/-- R203 B000:09 (RO VOL). -/
abbrev LUNE_ORPHANED (n : Nat) : Nat := 0xB00009 + n * 0x1000
/-- R203 B000:0A (RW VOL). -/
abbrev LUNE_POST_TC (n : Nat) : Nat := 0xB0000A + n * 0x1000
/-- R203 B000:0B (RW VOL). -/
abbrev LUNE_POST_ADDR (n : Nat) : Nat := 0xB0000B + n * 0x1000
/-- R203 B000:0C (RW VOL). -/
abbrev LUNE_POST_COUNT (n : Nat) : Nat := 0xB0000C + n * 0x1000
/-- R203 B000:0D (WO VOL). -/
abbrev LUNE_POST (n : Nat) : Nat := 0xB0000D + n * 0x1000
/-- R226 2000:01 (RWI KEEP). -/
abbrev BED_GAS_DIR : Nat := 0x200001
/-- R226 2000:02 (RWI KEEP). -/
abbrev SHARE_LOCK_RADIUS : Nat := 0x200002
/-- R226 2000:03 (RWI KEEP). -/
abbrev BED_BLADE_AXIS : Nat := 0x200003
/-- R226 2000:04 (RWI KEEP). -/
abbrev BED_BLADE_DIR : Nat := 0x200004
/-- R226 2000:05 (RWI KEEP). -/
abbrev BED_BLADE_ALT : Nat := 0x200005
/-- R226 2000:06 (RWI KEEP). -/
abbrev BED_BLADE_REF : Nat := 0x200006
/-- R226 2000:07 (RWI KEEP). -/
abbrev BED_RECOAT_MARGIN : Nat := 0x200007
/-- R226 2000:08 (RWI KEEP). -/
abbrev BED_RCSYNC_WAIT : Nat := 0x200008
/-- R226 2000:09 (RWI KEEP). -/
abbrev BED_RCSYNC_WINDOW : Nat := 0x200009
/-- R226 2000:0A (RWI KEEP). -/
abbrev BED_STALL_TIME : Nat := 0x20000A
/-- R226 2000:0B (RWI KEEP). -/
abbrev BED_STALL_DIST : Nat := 0x20000B
/-- R226 2000:0C (RO VOL). -/
abbrev BED_BLADE_POS : Nat := 0x20000C
/-- R226 2000:0D (RO VOL). -/
abbrev BED_BLADE_STATE : Nat := 0x20000D
/-- R226 2000:0E (RO VOL). -/
abbrev BED_RCSYNC_CORR : Nat := 0x20000E
/-- R226 2000:0F (WO VOL). -/
abbrev RECOAT_COMMAND : Nat := 0x20000F
/-- R226 2000:10 (RW KEEP). -/
abbrev SHARE_REISSUE_WAIT : Nat := 0x200010
/-- R226 2000:11 (RW KEEP). -/
abbrev SHARE_UNCOVERED_MAX : Nat := 0x200011
/-- R227 4080:01 (RW KEEP). -/
abbrev BC_SECTOR_ANGLE (n : Nat) : Nat := 0x408001 + n * 0x10000
/-- R227 4080:02 (RW KEEP). -/
abbrev BC_SECTOR_LENGTH (n : Nat) : Nat := 0x408002 + n * 0x10000
/-- R227 4080:03 (RWG KEEP). -/
abbrev BC_SECTOR_MIN_ANGLE (n : Nat) : Nat := 0x408003 + n * 0x10000
/-- R227 4080:04 (RWG KEEP). -/
abbrev BC_SECTOR_MIN_LENGTH (n : Nat) : Nat := 0x408004 + n * 0x10000
/-- R227 4080:05 (RO VOL). -/
abbrev BC_SECTOR_EFF_ANGLE (n : Nat) : Nat := 0x408005 + n * 0x10000
/-- R227 4080:06 (RO VOL). -/
abbrev BC_SECTOR_EFF_LENGTH (n : Nat) : Nat := 0x408006 + n * 0x10000
/-- R228 4081:01 (RO VOL). -/
abbrev BC_SHARE_WAIT (n : Nat) : Nat := 0x408101 + n * 0x10000
/-- R228 4081:02 (RO VOL). -/
abbrev BC_SHARE_AGE (n : Nat) : Nat := 0x408102 + n * 0x10000
/-- R228 4081:03 (RO VOL). -/
abbrev BC_SHARE_BLOCKER (n : Nat) : Nat := 0x408103 + n * 0x10000
/-- R228 4081:04 (RO VOL). -/
abbrev BC_SHARE_WAITS (n : Nat) : Nat := 0x408104 + n * 0x10000
/-- R228 4081:05 (RO VOL). -/
abbrev BC_SHARE_WAIT_SAMPLES (n : Nat) : Nat := 0x408105 + n * 0x10000
/-- R228 4081:06 (RWI KEEP). -/
abbrev BC_CLAIM_LOOKAHEAD (n : Nat) : Nat := 0x408106 + n * 0x10000
/-- R228 4081:07 (RO VOL). -/
abbrev BC_SKIPPED_REGION (n : Nat) : Nat := 0x408107 + n * 0x10000
/-- R228 4081:08 (RO VOL). -/
abbrev BC_LUNE_MASK (n : Nat) : Nat := 0x408108 + n * 0x10000
/-- R228 4081:09 (RO VOL). -/
abbrev BC_HELD (n : Nat) : Nat := 0x408109 + n * 0x10000
/-- R230 4048:01 (RO VOL). -/
abbrev FX_STATE (n : Nat) (j : Nat) : Nat := 0x404801 + n * 0x10000 + j * 0x100
/-- R230 4048:02 (RWI VOL). -/
abbrev FX_WIDTH (n : Nat) (j : Nat) : Nat := 0x404802 + n * 0x10000 + j * 0x100
/-- R230 4048:03 (RWI VOL). -/
abbrev FX_HEIGHT (n : Nat) (j : Nat) : Nat := 0x404803 + n * 0x10000 + j * 0x100
/-- R230 4048:04 (RWI VOL). -/
abbrev FX_PIXEL_PITCH (n : Nat) (j : Nat) : Nat := 0x404804 + n * 0x10000 + j * 0x100
/-- R230 4048:05 (RWI VOL). -/
abbrev FX_LINE_PITCH (n : Nat) (j : Nat) : Nat := 0x404805 + n * 0x10000 + j * 0x100
/-- R230 4048:06 (RWI VOL). -/
abbrev FX_PIXEL_PERIOD (n : Nat) (j : Nat) : Nat := 0x404806 + n * 0x10000 + j * 0x100
/-- R230 4048:07 (RWI VOL). -/
abbrev FX_PLANES (n : Nat) (j : Nat) : Nat := 0x404807 + n * 0x10000 + j * 0x100
/-- R230 4048:08 (RWI VOL). -/
abbrev FX_PLANE_MODE (n : Nat) (j : Nat) : Nat := 0x404808 + n * 0x10000 + j * 0x100
/-- R230 4048:09 (RWI VOL). -/
abbrev FX_WEIGHT (n : Nat) (j : Nat) (i : Nat) : Nat := 0x404809 + n * 0x10000 + j * 0x100 + i
/-- R230 4048:0D (WO VOL). -/
abbrev FX_CLEAR (n : Nat) (j : Nat) : Nat := 0x40480D + n * 0x10000 + j * 0x100
/-- R239 4050:01 (RW VOL). -/
abbrev FX_BASE (n : Nat) (j : Nat) (i : Nat) : Nat := 0x405001 + n * 0x10000 + j * 0x100 + i
/-- R239 4050:05 (RW VOL). -/
abbrev FX_MAP (n : Nat) (j : Nat) (i : Nat) : Nat := 0x405005 + n * 0x10000 + j * 0x100 + i
/-- R239 4050:09 (WO VOL). -/
abbrev FX_COMMIT (n : Nat) (j : Nat) : Nat := 0x405009 + n * 0x10000 + j * 0x100
/-- R239 4050:0A (RO VOL). -/
abbrev FX_COMMITS (n : Nat) (j : Nat) : Nat := 0x40500A + n * 0x10000 + j * 0x100
/-- R239 4050:0B (RO VOL). -/
abbrev FX_IN_FORCE (n : Nat) (j : Nat) : Nat := 0x40500B + n * 0x10000 + j * 0x100
/-- R248 3200:01 (RW KEEP). -/
abbrev RP_ENABLE (n : Nat) : Nat := 0x320001 + n * 0x100
/-- R248 3200:02 (RW KEEP). -/
abbrev RP_LIMIT (n : Nat) : Nat := 0x320002 + n * 0x100
/-- R248 3200:03 (RO VOL). -/
abbrev RP_RECORDED (n : Nat) : Nat := 0x320003 + n * 0x100
/-- R248 3200:04 (RO VOL). -/
abbrev RP_DONE (n : Nat) : Nat := 0x320004 + n * 0x100
/-- R248 3200:05 (RO VOL). -/
abbrev RP_FAILED (n : Nat) : Nat := 0x320005 + n * 0x100
/-- R248 3200:06 (RO VOL). -/
abbrev RP_DROPPED (n : Nat) : Nat := 0x320006 + n * 0x100
/-- R248 3200:07 (RO VOL). -/
abbrev RP_STATE (n : Nat) : Nat := 0x320007 + n * 0x100
/-- R251 4040:01 (RO VOL). -/
abbrev FX_PASS (n : Nat) : Nat := 0x404001 + n * 0x10000
/-- R251 4040:02 (RO VOL). -/
abbrev FX_SLOT_ACTIVE (n : Nat) : Nat := 0x404002 + n * 0x10000
/-- R251 4040:03 (RO VOL). -/
abbrev FX_LINE (n : Nat) : Nat := 0x404003 + n * 0x10000
/-- R251 4040:04 (RO VOL). -/
abbrev FX_UNDERRUNS (n : Nat) : Nat := 0x404004 + n * 0x10000
/-- R251 4040:05 (RO VOL). -/
abbrev FX_PIN_WAITS (n : Nat) : Nat := 0x404005 + n * 0x10000
/-- R251 4040:06 (RO VOL). -/
abbrev FX_EMPTY_BLOCKS (n : Nat) : Nat := 0x404006 + n * 0x10000
/-- R251 4040:07 (RO VOL). -/
abbrev FX_HEAD_MIN_PERIOD (n : Nat) : Nat := 0x404007 + n * 0x10000
/-- R272 6800:01 (RW VOL). -/
abbrev LAT_ENABLE : Nat := 0x680001
/-- R272 6800:02 (RO VOL). -/
abbrev LAT_STATE : Nat := 0x680002
/-- R272 6800:03 (RWI KEEP). -/
abbrev LAT_PITCH : Nat := 0x680003
/-- R272 6800:04 (RWI KEEP). -/
abbrev LAT_ORIGIN_X : Nat := 0x680004
/-- R272 6800:05 (RWI KEEP). -/
abbrev LAT_ORIGIN_Y : Nat := 0x680005
/-- R272 6800:06 (RWI KEEP). -/
abbrev LAT_BASE : Nat := 0x680006
/-- R272 6800:07 (RW KEEP). -/
abbrev LAT_HEAT_GAIN : Nat := 0x680007
/-- R272 6800:08 (RW KEEP). -/
abbrev LAT_KERNEL : Nat := 0x680008
/-- R272 6800:09 (RW KEEP). -/
abbrev LAT_OVERHEAT_LEVEL : Nat := 0x680009
/-- R272 6800:0A (WO VOL). -/
abbrev LAT_CLEAR : Nat := 0x68000A
/-- R272 6800:0B (RO VOL). -/
abbrev LAT_TIME : Nat := 0x68000B
/-- R272 6800:0C (RO VOL). -/
abbrev LAT_DECAY_TAU : Nat := 0x68000C
/-- R272 6800:0D (RW VOL). -/
abbrev LAT_DECAY_INDEX : Nat := 0x68000D
/-- R272 6800:0E (RO VOL). -/
abbrev LAT_DECAY_VALUE : Nat := 0x68000E
/-- R273 6810:01 (RW VOL). -/
abbrev LAT_PROBE_CELL : Nat := 0x681001
/-- R273 6810:02 (RO VOL). -/
abbrev LAT_PROBE_VALUE : Nat := 0x681002
/-- R273 6810:03 (RO VOL). -/
abbrev LAT_DEPOSITS : Nat := 0x681003
/-- R273 6810:04 (RO VOL). -/
abbrev LAT_OUTSIDE : Nat := 0x681004
/-- R273 6810:05 (RO VOL). -/
abbrev LAT_FF_MISS : Nat := 0x681005
/-- R273 6810:06 (RO VOL). -/
abbrev LAT_DEPOSIT_DROPPED : Nat := 0x681006
/-- R273 6810:07 (RO VOL). -/
abbrev LAT_OVERHEAT_CELLS : Nat := 0x681007
/-- R273 6810:08 (RO VOL). -/
abbrev LAT_MISSED_CELLS : Nat := 0x681008
/-- R273 6810:09 (RO VOL). -/
abbrev LAT_TILE_FILLS : Nat := 0x681009
/-- R273 6810:0A (RO VOL). -/
abbrev LAT_REFRESH_LAG : Nat := 0x68100A
/-- R274 6820:01 (RWI VOL). -/
abbrev LAT_SNAP_TC : Nat := 0x682001
/-- R274 6820:02 (RWI VOL). -/
abbrev LAT_SNAP_ADDR : Nat := 0x682002
/-- R274 6820:03 (RWI VOL). -/
abbrev LAT_SNAP_AREA : Nat := 0x682003
/-- R274 6820:04 (WO VOL). -/
abbrev LAT_SNAP_CONTROL : Nat := 0x682004
/-- R274 6820:05 (RO VOL). -/
abbrev LAT_SNAP_STATE : Nat := 0x682005
/-- R274 6820:06 (RO VOL). -/
abbrev LAT_SNAP_TILES : Nat := 0x682006
/-- R274 6820:07 (RO VOL). -/
abbrev LAT_SNAP_END_STAMP : Nat := 0x682007
/-- R275 40C0:01 (RW KEEP). -/
abbrev BC_FF_ENABLE (n : Nat) : Nat := 0x40C001 + n * 0x10000
/-- R275 40C0:02 (RW KEEP). -/
abbrev BC_FF_TABLE (n : Nat) : Nat := 0x40C002 + n * 0x10000
/-- R275 40C0:03 (RO VOL). -/
abbrev BC_FF_LAST_H (n : Nat) : Nat := 0x40C003 + n * 0x10000
/-- R275 40C0:04 (RO VOL). -/
abbrev BC_FF_LAST_G (n : Nat) : Nat := 0x40C004 + n * 0x10000
/-- R275 40C0:05 (RO VOL). -/
abbrev BC_FF_MIN_G (n : Nat) : Nat := 0x40C005 + n * 0x10000
/-- R275 40C0:06 (RO VOL). -/
abbrev BC_DWELL_LAST_H (n : Nat) : Nat := 0x40C006 + n * 0x10000
/-- R302 6000:01 (RWI KEEP). -/
abbrev PC_SOURCE (n : Nat) : Nat := 0x600001 + n * 0x4000
/-- R302 6000:02 (RW KEEP). -/
abbrev PC_ENABLE (n : Nat) : Nat := 0x600002 + n * 0x4000
/-- R302 6000:03 (RO VOL). -/
abbrev PC_STATE (n : Nat) : Nat := 0x600003 + n * 0x4000
/-- R302 6000:04 (RWI KEEP). -/
abbrev PC_TRIGGER (n : Nat) : Nat := 0x600004 + n * 0x4000
/-- R302 6000:05 (RWI KEEP). -/
abbrev PC_MIN_PERIOD (n : Nat) : Nat := 0x600005 + n * 0x4000
/-- R302 6000:06 (RW KEEP). -/
abbrev PC_FRAME_TIMEOUT (n : Nat) : Nat := 0x600006 + n * 0x4000
/-- R302 6000:07 (RWI KEEP). -/
abbrev PC_SHADOW (n : Nat) : Nat := 0x600007 + n * 0x4000
/-- R302 6000:08 (RO VOL). -/
abbrev PC_CLAIM (n : Nat) : Nat := 0x600008 + n * 0x4000
/-- R303 6001:01 (RW KEEP). -/
abbrev SET_EXPOSURE (n : Nat) : Nat := 0x600101 + n * 0x4000
/-- R303 6001:02 (RW KEEP). -/
abbrev SET_GAIN (n : Nat) : Nat := 0x600102 + n * 0x4000
/-- R303 6001:03 (RW KEEP). -/
abbrev SET_ROI_X (n : Nat) : Nat := 0x600103 + n * 0x4000
/-- R303 6001:04 (RW KEEP). -/
abbrev SET_ROI_Y (n : Nat) : Nat := 0x600104 + n * 0x4000
/-- R303 6001:05 (RW KEEP). -/
abbrev SET_ROI_W (n : Nat) : Nat := 0x600105 + n * 0x4000
/-- R303 6001:06 (RW KEEP). -/
abbrev SET_ROI_H (n : Nat) : Nat := 0x600106 + n * 0x4000
/-- R303 6001:07 (RW KEEP). -/
abbrev SET_FREE_PERIOD (n : Nat) : Nat := 0x600107 + n * 0x4000
/-- R303 6001:08 (WO VOL). -/
abbrev SET_APPLY (n : Nat) : Nat := 0x600108 + n * 0x4000
/-- R303 6001:09 (RO VOL). -/
abbrev SET_TAG (n : Nat) : Nat := 0x600109 + n * 0x4000
/-- R303 6001:0A (RO VOL). -/
abbrev SET_TAG_SEEN (n : Nat) : Nat := 0x60010A + n * 0x4000
/-- R303 6001:0B (RO VOL). -/
abbrev SET_TAG_SEEN_STAMP (n : Nat) : Nat := 0x60010B + n * 0x4000
/-- R304 6002:01 (RO VOL). -/
abbrev SENS_LATENCY (n : Nat) : Nat := 0x600201 + n * 0x4000
/-- R304 6002:02 (RO VOL). -/
abbrev SENS_START_SETTINGS (n : Nat) : Nat := 0x600202 + n * 0x4000
/-- R304 6002:03 (RO VOL). -/
abbrev SENS_ARRAY_W (n : Nat) : Nat := 0x600203 + n * 0x4000
/-- R304 6002:04 (RO VOL). -/
abbrev SENS_ARRAY_H (n : Nat) : Nat := 0x600204 + n * 0x4000
/-- R304 6002:05 (RO VOL). -/
abbrev SENS_SAT (n : Nat) : Nat := 0x600205 + n * 0x4000
/-- R304 6002:06 (RO VOL). -/
abbrev SENS_MIN_EXPOSURE (n : Nat) : Nat := 0x600206 + n * 0x4000
/-- R305 6003:01 (RW KEEP). -/
abbrev PP_MIN_SIGNAL (n : Nat) : Nat := 0x600301 + n * 0x4000
/-- R305 6003:02 (RW KEEP). -/
abbrev PP_POOL_THRESHOLD (n : Nat) : Nat := 0x600302 + n * 0x4000
/-- R305 6003:03 (RW KEEP). -/
abbrev PP_SPATTER_LEVEL (n : Nat) : Nat := 0x600303 + n * 0x4000
/-- R305 6003:04 (RW KEEP). -/
abbrev PP_SPATTER_MIN (n : Nat) : Nat := 0x600304 + n * 0x4000
/-- R305 6003:05 (RW KEEP). -/
abbrev PP_SPATTER_MAX (n : Nat) : Nat := 0x600305 + n * 0x4000
/-- R305 6003:06 (RW KEEP). -/
abbrev PP_HIST_BASE (n : Nat) : Nat := 0x600306 + n * 0x4000
/-- R305 6003:07 (RW KEEP). -/
abbrev PP_HIST_SHIFT (n : Nat) : Nat := 0x600307 + n * 0x4000
/-- R305 6003:08 (RW KEEP). -/
abbrev PP_LOOP_STAT (n : Nat) : Nat := 0x600308 + n * 0x4000
/-- R305 6003:09 (RW KEEP). -/
abbrev PP_NEWEST_ONLY (n : Nat) : Nat := 0x600309 + n * 0x4000
/-- R305 6003:0A (RW KEEP). -/
abbrev PP_DEFECT_ENABLE (n : Nat) : Nat := 0x60030A + n * 0x4000
/-- R306 6004:01 (RWI KEEP). -/
abbrev OUT_REC_BASE (n : Nat) : Nat := 0x600401 + n * 0x4000
/-- R306 6004:02 (RWI KEEP). -/
abbrev OUT_REC_SIZE (n : Nat) : Nat := 0x600402 + n * 0x4000
/-- R306 6004:03 (RO VOL). -/
abbrev OUT_REC_WRITE (n : Nat) : Nat := 0x600403 + n * 0x4000
/-- R306 6004:04 (RW VOL). -/
abbrev OUT_REC_READ (n : Nat) : Nat := 0x600404 + n * 0x4000
/-- R306 6004:05 (RO VOL). -/
abbrev OUT_REC_OVERRUN (n : Nat) : Nat := 0x600405 + n * 0x4000
/-- R306 6004:06 (RO VOL). -/
abbrev OUT_REC_LOST (n : Nat) : Nat := 0x600406 + n * 0x4000
/-- R306 6004:07 (RO VOL). -/
abbrev OUT_FRAMES (n : Nat) : Nat := 0x600407 + n * 0x4000
/-- R306 6004:08 (RO VOL). -/
abbrev OUT_SHORT (n : Nat) : Nat := 0x600408 + n * 0x4000
/-- R306 6004:09 (RO VOL). -/
abbrev OUT_LONG (n : Nat) : Nat := 0x600409 + n * 0x4000
/-- R306 6004:0A (RO VOL). -/
abbrev OUT_DISCARDED (n : Nat) : Nat := 0x60040A + n * 0x4000
/-- R306 6004:0B (RO VOL). -/
abbrev OUT_MISSING (n : Nat) : Nat := 0x60040B + n * 0x4000
/-- R306 6004:0C (RO VOL). -/
abbrev OUT_WITHHELD (n : Nat) : Nat := 0x60040C + n * 0x4000
/-- R307 6005:01 (RW KEEP). -/
abbrev RAW_ENABLE (n : Nat) : Nat := 0x600501 + n * 0x4000
/-- R307 6005:02 (RWI KEEP). -/
abbrev RAW_BASE (n : Nat) : Nat := 0x600502 + n * 0x4000
/-- R307 6005:03 (RWI KEEP). -/
abbrev RAW_SLOT (n : Nat) : Nat := 0x600503 + n * 0x4000
/-- R307 6005:04 (RWI KEEP). -/
abbrev RAW_COUNT (n : Nat) : Nat := 0x600504 + n * 0x4000
/-- R307 6005:05 (RO VOL). -/
abbrev RAW_WRITE (n : Nat) : Nat := 0x600505 + n * 0x4000
/-- R307 6005:06 (RO VOL). -/
abbrev RAW_SKIPPED (n : Nat) : Nat := 0x600506 + n * 0x4000
/-- R308 6008:01 (RWI KEEP). -/
abbrev BD_PATTERN (n : Nat) : Nat := 0x600801 + n * 0x4000
/-- R308 6008:02 (RWI KEEP). -/
abbrev BD_FRAME_BASE (n : Nat) : Nat := 0x600802 + n * 0x4000
/-- R308 6008:03 (RWI KEEP). -/
abbrev BD_FRAMES (n : Nat) : Nat := 0x600803 + n * 0x4000
/-- R308 6008:04 (RW VOL). -/
abbrev BD_REF_ADDR (n : Nat) : Nat := 0x600804 + n * 0x4000
/-- R308 6008:05 (RW KEEP). -/
abbrev BD_DEFECT_LEVEL (n : Nat) : Nat := 0x600805 + n * 0x4000
/-- R308 6008:06 (RW KEEP). -/
abbrev BD_TRAVEL (n : Nat) : Nat := 0x600806 + n * 0x4000
/-- R308 6008:07 (RW KEEP). -/
abbrev BD_STREAK_RUN (n : Nat) : Nat := 0x600807 + n * 0x4000
/-- R308 6008:08 (RW KEEP). -/
abbrev BD_SHORT_FRACTION (n : Nat) : Nat := 0x600808 + n * 0x4000
/-- R308 6008:09 (RW KEEP). -/
abbrev BD_RAISED_MIN (n : Nat) : Nat := 0x600809 + n * 0x4000
/-- R308 6008:0A (RWI KEEP). -/
abbrev BD_OUT_BASE (n : Nat) : Nat := 0x60080A + n * 0x4000
/-- R308 6008:0B (RWI KEEP). -/
abbrev BD_OUT_SLOT (n : Nat) : Nat := 0x60080B + n * 0x4000
/-- R308 6008:0C (RW KEEP). -/
abbrev BD_BLOCKS_OUT (n : Nat) : Nat := 0x60080C + n * 0x4000
/-- R308 6008:0D (RO VOL). -/
abbrev BD_FRAMES_DONE (n : Nat) : Nat := 0x60080D + n * 0x4000
/-- R308 6008:0E (RO VOL). -/
abbrev BD_FRAMES_DROPPED (n : Nat) : Nat := 0x60080E + n * 0x4000
/-- R308 6008:0F (RWI KEEP). -/
abbrev BD_FRAME_STRIDE (n : Nat) : Nat := 0x60080F + n * 0x4000
/-- R323 5C00:01 (RWI KEEP). -/
abbrev RC_LOOP (n : Nat) : Nat := 0x5C0001 + n * 0x1000
/-- R323 5C00:02 (RW KEEP). -/
abbrev RC_MODE (n : Nat) : Nat := 0x5C0002 + n * 0x1000
/-- R323 5C00:03 (RWI KEEP). -/
abbrev RC_SYNC (n : Nat) : Nat := 0x5C0003 + n * 0x1000
/-- R323 5C00:04 (RWI KEEP). -/
abbrev RC_PERIOD (n : Nat) : Nat := 0x5C0004 + n * 0x1000
/-- R323 5C00:05 (RWI KEEP). -/
abbrev RC_LEAD (n : Nat) : Nat := 0x5C0005 + n * 0x1000
/-- R323 5C00:06 (RW KEEP). -/
abbrev RC_LEARN (n : Nat) : Nat := 0x5C0006 + n * 0x1000
/-- R323 5C00:07 (RW KEEP). -/
abbrev RC_LEARN_SHIFT (n : Nat) : Nat := 0x5C0007 + n * 0x1000
/-- R323 5C00:08 (RW KEEP). -/
abbrev RC_FORGET (n : Nat) : Nat := 0x5C0008 + n * 0x1000
/-- R323 5C00:09 (RWI KEEP). -/
abbrev RC_EVENT (n : Nat) : Nat := 0x5C0009 + n * 0x1000
/-- R323 5C00:0A (RO VOL). -/
abbrev RC_STATE (n : Nat) : Nat := 0x5C000A + n * 0x1000
/-- R323 5C00:0B (RO VOL). -/
abbrev RC_INDEX (n : Nat) : Nat := 0x5C000B + n * 0x1000
/-- R323 5C00:0C (RW VOL). -/
abbrev RC_TABLE_INDEX (n : Nat) : Nat := 0x5C000C + n * 0x1000
/-- R323 5C00:0D (RWI VOL). -/
abbrev RC_TABLE_VALUE (n : Nat) : Nat := 0x5C000D + n * 0x1000
/-- R323 5C00:0E (WO VOL). -/
abbrev RC_CLEAR (n : Nat) : Nat := 0x5C000E + n * 0x1000
/-- R331 5000:01 (RO VOL). -/
abbrev LOOP_STATE (n : Nat) : Nat := 0x500001 + n * 0x2000
/-- R331 5000:02 (WO VOL). -/
abbrev LOOP_CONTROL (n : Nat) : Nat := 0x500002 + n * 0x2000
/-- R331 5000:03 (RO VOL). -/
abbrev LOOP_CAUSE (n : Nat) : Nat := 0x500003 + n * 0x2000
/-- R331 5000:04 (RWI KEEP). -/
abbrev LOOP_TIMING (n : Nat) : Nat := 0x500004 + n * 0x2000
/-- R331 5000:05 (RWI KEEP). -/
abbrev LOOP_FB_SOURCE (n : Nat) : Nat := 0x500005 + n * 0x2000
/-- R331 5000:06 (RWI KEEP). -/
abbrev LOOP_OUT_TARGET (n : Nat) : Nat := 0x500006 + n * 0x2000
/-- R331 5000:07 (RO VOL). -/
abbrev LOOP_STATE_STAMP (n : Nat) : Nat := 0x500007 + n * 0x2000
/-- R332 5001:01 (RW KEEP). -/
abbrev LOOP_KP (n : Nat) : Nat := 0x500101 + n * 0x2000
/-- R332 5001:02 (RW KEEP). -/
abbrev LOOP_SP (n : Nat) : Nat := 0x500102 + n * 0x2000
/-- R332 5001:03 (RW KEEP). -/
abbrev LOOP_KI (n : Nat) : Nat := 0x500103 + n * 0x2000
/-- R332 5001:04 (RW KEEP). -/
abbrev LOOP_SI (n : Nat) : Nat := 0x500104 + n * 0x2000
/-- R332 5001:05 (RW KEEP). -/
abbrev LOOP_KD (n : Nat) : Nat := 0x500105 + n * 0x2000
/-- R332 5001:06 (RW KEEP). -/
abbrev LOOP_SD (n : Nat) : Nat := 0x500106 + n * 0x2000
/-- R332 5001:07 (RW KEEP). -/
abbrev LOOP_KV (n : Nat) : Nat := 0x500107 + n * 0x2000
/-- R332 5001:08 (RW KEEP). -/
abbrev LOOP_SV (n : Nat) : Nat := 0x500108 + n * 0x2000
/-- R332 5001:09 (RW KEEP). -/
abbrev LOOP_OFFSET (n : Nat) : Nat := 0x500109 + n * 0x2000
/-- R332 5001:0A (RWI KEEP). -/
abbrev LOOP_LAW (n : Nat) : Nat := 0x50010A + n * 0x2000
/-- R333 5002:01 (RW VOL). -/
abbrev LOOP_SETPOINT (n : Nat) : Nat := 0x500201 + n * 0x2000
/-- R333 5002:02 (RWI KEEP). -/
abbrev LOOP_OUT_MIN (n : Nat) : Nat := 0x500202 + n * 0x2000
/-- R333 5002:03 (RWI KEEP). -/
abbrev LOOP_OUT_MAX (n : Nat) : Nat := 0x500203 + n * 0x2000
/-- R333 5002:04 (RWI KEEP). -/
abbrev LOOP_SHAPER (n : Nat) : Nat := 0x500204 + n * 0x2000
/-- R333 5002:05 (RWI KEEP). -/
abbrev LOOP_VMAX (n : Nat) : Nat := 0x500205 + n * 0x2000
/-- R333 5002:06 (RWI KEEP). -/
abbrev LOOP_AMAX (n : Nat) : Nat := 0x500206 + n * 0x2000
/-- R333 5002:07 (RWI KEEP). -/
abbrev LOOP_GAIN_TABLE (n : Nat) : Nat := 0x500207 + n * 0x2000
/-- R333 5002:08 (RW KEEP). -/
abbrev LOOP_TRIP_RAMP (n : Nat) : Nat := 0x500208 + n * 0x2000
/-- R334 5003:01 (RW KEEP). -/
abbrev LOOP_FREEZE_DELTA (n : Nat) : Nat := 0x500301 + n * 0x2000
/-- R334 5003:02 (RW KEEP). -/
abbrev LOOP_OSC_FLOOR (n : Nat) : Nat := 0x500302 + n * 0x2000
/-- R334 5003:03 (RW KEEP). -/
abbrev LOOP_OSC_COUNT (n : Nat) : Nat := 0x500303 + n * 0x2000
/-- R334 5003:04 (RW KEEP). -/
abbrev LOOP_OSC_WINDOW (n : Nat) : Nat := 0x500304 + n * 0x2000
/-- R334 5003:05 (RW KEEP). -/
abbrev LOOP_OSC_ACTION (n : Nat) : Nat := 0x500305 + n * 0x2000
/-- R334 5003:06 (RW KEEP). -/
abbrev LOOP_FE_LIMIT (n : Nat) : Nat := 0x500306 + n * 0x2000
/-- R334 5003:07 (RW KEEP). -/
abbrev LOOP_FE_TIME (n : Nat) : Nat := 0x500307 + n * 0x2000
/-- R334 5003:08 (RW VOL). -/
abbrev LOOP_FB_HOST (n : Nat) : Nat := 0x500308 + n * 0x2000
/-- R335 5004:01 (RO VOL). -/
abbrev LOOP_OUTPUT (n : Nat) : Nat := 0x500401 + n * 0x2000
/-- R335 5004:02 (RO VOL). -/
abbrev LOOP_FEEDBACK (n : Nat) : Nat := 0x500402 + n * 0x2000
/-- R335 5004:03 (RO VOL). -/
abbrev LOOP_ERROR (n : Nat) : Nat := 0x500403 + n * 0x2000
/-- R335 5004:04 (RO VOL). -/
abbrev LOOP_SHAPED_SP (n : Nat) : Nat := 0x500404 + n * 0x2000
/-- R335 5004:05 (RO VOL). -/
abbrev LOOP_INTEGRATOR (n : Nat) : Nat := 0x500405 + n * 0x2000
/-- R335 5004:06 (RW VOL). -/
abbrev LOOP_FLAGS (n : Nat) : Nat := 0x500406 + n * 0x2000
/-- R335 5004:07 (RO VOL). -/
abbrev LOOP_SAMPLES (n : Nat) : Nat := 0x500407 + n * 0x2000
/-- R335 5004:08 (RO VOL). -/
abbrev LOOP_DL_MISSED (n : Nat) : Nat := 0x500408 + n * 0x2000
/-- R335 5004:09 (RO VOL). -/
abbrev LOOP_FB_MISSING (n : Nat) : Nat := 0x500409 + n * 0x2000
/-- R335 5004:0A (RO VOL). -/
abbrev LOOP_SHAPED (n : Nat) : Nat := 0x50040A + n * 0x2000
/-- R335 5004:0B (RO VOL). -/
abbrev LOOP_OSC_EVENTS (n : Nat) : Nat := 0x50040B + n * 0x2000
/-- R335 5004:0C (RO VOL). -/
abbrev LOOP_DL_CAUSE (n : Nat) : Nat := 0x50040C + n * 0x2000
/-- R358 7400:01 (RO VOL). -/
abbrev LANE_USE (n : Nat) : Nat := 0x740001 + n * 0x1000
/-- R358 7400:02 (RW KEEP). -/
abbrev LANE_ENABLE (n : Nat) : Nat := 0x740002 + n * 0x1000
/-- R358 7400:03 (RO VOL). -/
abbrev LANE_STATE (n : Nat) : Nat := 0x740003 + n * 0x1000
/-- R358 7400:04 (RW VOL). -/
abbrev LANE_TX_STATE (n : Nat) : Nat := 0x740004 + n * 0x1000
/-- R358 7400:05 (RW VOL). -/
abbrev LANE_RX_STATE (n : Nat) : Nat := 0x740005 + n * 0x1000
/-- R358 7400:06 (RO VOL). -/
abbrev LANE_FRAMES_RX (n : Nat) : Nat := 0x740006 + n * 0x1000
/-- R358 7400:07 (RO VOL). -/
abbrev LANE_CRC_ERRORS (n : Nat) : Nat := 0x740007 + n * 0x1000
/-- R358 7400:08 (RO VOL). -/
abbrev LANE_SEQ_GAPS (n : Nat) : Nat := 0x740008 + n * 0x1000
/-- R358 7400:09 (RO VOL). -/
abbrev LANE_LOSSES (n : Nat) : Nat := 0x740009 + n * 0x1000
/-- R358 7400:0A (RO VOL). -/
abbrev LANE_DELAY (n : Nat) : Nat := 0x74000A + n * 0x1000
/-- R358 7400:0B (RO VOL). -/
abbrev LANE_TRIM (n : Nat) : Nat := 0x74000B + n * 0x1000
/-- R358 7400:0C (RO VOL). -/
abbrev LANE_NODE_KIND (n : Nat) : Nat := 0x74000C + n * 0x1000
/-- R358 7400:0D (RO VOL). -/
abbrev LANE_NODE_SERIAL (n : Nat) : Nat := 0x74000D + n * 0x1000
/-- R358 7400:0E (RO VOL). -/
abbrev LANE_UP_STAMP (n : Nat) : Nat := 0x74000E + n * 0x1000
/-- R359 D000:01 (WO VOL). -/
abbrev EYE_CONTROL (n : Nat) : Nat := 0xD00001 + n * 0x4000
/-- R359 D000:02 (RO VOL). -/
abbrev EYE_STATE (n : Nat) : Nat := 0xD00002 + n * 0x4000
/-- R359 D000:03 (RWI KEEP). -/
abbrev EYE_DWELL_LOG2 (n : Nat) : Nat := 0xD00003 + n * 0x4000
/-- R359 D000:04 (RWI VOL). -/
abbrev EYE_PHASE_FIRST (n : Nat) : Nat := 0xD00004 + n * 0x4000
/-- R359 D000:05 (RWI VOL). -/
abbrev EYE_PHASE_LAST (n : Nat) : Nat := 0xD00005 + n * 0x4000
/-- R359 D000:06 (RWI VOL). -/
abbrev EYE_VOLT_FIRST (n : Nat) : Nat := 0xD00006 + n * 0x4000
/-- R359 D000:07 (RWI VOL). -/
abbrev EYE_VOLT_LAST (n : Nat) : Nat := 0xD00007 + n * 0x4000
/-- R359 D000:08 (RWI VOL). -/
abbrev EYE_TC (n : Nat) : Nat := 0xD00008 + n * 0x4000
/-- R359 D000:09 (RWI VOL). -/
abbrev EYE_ADDR (n : Nat) : Nat := 0xD00009 + n * 0x4000
/-- R359 D000:0A (RO VOL). -/
abbrev EYE_POINTS_DONE (n : Nat) : Nat := 0xD0000A + n * 0x4000
/-- R359 D000:0B (RO VOL). -/
abbrev EYE_END_STAMP (n : Nat) : Nat := 0xD0000B + n * 0x4000
/-- R382 7800:01 (RW KEEP). -/
abbrev AX_ENABLE (n : Nat) : Nat := 0x780001 + n * 0x8000
/-- R382 7800:02 (RWI KEEP). -/
abbrev AX_MODE (n : Nat) : Nat := 0x780002 + n * 0x8000
/-- R382 7800:03 (RWI KEEP). -/
abbrev AX_QUAD_FILTER (n : Nat) : Nat := 0x780003 + n * 0x8000
/-- R382 7800:04 (RWI KEEP). -/
abbrev AX_NM_PER_COUNT (n : Nat) : Nat := 0x780004 + n * 0x8000
/-- R382 7800:05 (RWI KEEP). -/
abbrev AX_INVERT (n : Nat) : Nat := 0x780005 + n * 0x8000
/-- R382 7800:06 (RWI KEEP). -/
abbrev AX_OFFSET (n : Nat) : Nat := 0x780006 + n * 0x8000
/-- R382 7800:07 (RO VOL). -/
abbrev AX_STATUS (n : Nat) : Nat := 0x780007 + n * 0x8000
/-- R382 7800:08 (RO VOL). -/
abbrev AX_FAULT (n : Nat) : Nat := 0x780008 + n * 0x8000
/-- R382 7800:09 (WO VOL). -/
abbrev AX_FAULT_ACK (n : Nat) : Nat := 0x780009 + n * 0x8000
/-- R382 7800:0A (RO VOL). -/
abbrev AX_TRIM (n : Nat) : Nat := 0x78000A + n * 0x8000
/-- R382 7800:0B (RO VOL). -/
abbrev AX_AMPLITUDE (n : Nat) : Nat := 0x78000B + n * 0x8000
/-- R382 7800:0C (RW KEEP). -/
abbrev AX_IDLE_BAND (n : Nat) : Nat := 0x78000C + n * 0x8000
/-- R382 7800:0D (RW KEEP). -/
abbrev AX_IDLE_TIME (n : Nat) : Nat := 0x78000D + n * 0x8000
/-- R383 7801:01 (RO VOL). -/
abbrev AX_COUNT (n : Nat) : Nat := 0x780101 + n * 0x8000
/-- R383 7801:02 (RO VOL). -/
abbrev AX_POSITION (n : Nat) : Nat := 0x780102 + n * 0x8000
/-- R383 7801:03 (WO VOL). -/
abbrev AX_COUNT_PRESET (n : Nat) : Nat := 0x780103 + n * 0x8000
/-- R383 7801:04 (RO VOL). -/
abbrev AX_INDEX_LATCH (n : Nat) : Nat := 0x780104 + n * 0x8000
/-- R383 7801:05 (RO VOL). -/
abbrev AX_INDEX_STAMP (n : Nat) : Nat := 0x780105 + n * 0x8000
/-- R383 7801:06 (RW KEEP). -/
abbrev AX_INDEX_SPACING (n : Nat) : Nat := 0x780106 + n * 0x8000
/-- R383 7801:07 (RW KEEP). -/
abbrev AX_INDEX_TOL (n : Nat) : Nat := 0x780107 + n * 0x8000
/-- R383 7801:08 (RO VOL). -/
abbrev AX_INDEX_DEVIATION (n : Nat) : Nat := 0x780108 + n * 0x8000
/-- R383 7801:09 (RW KEEP). -/
abbrev AX_INDEX_CORRECT (n : Nat) : Nat := 0x780109 + n * 0x8000
/-- R383 7801:0A (RO VOL). -/
abbrev AX_CORR_PENDING (n : Nat) : Nat := 0x78010A + n * 0x8000
/-- R383 7801:0B (RO VOL). -/
abbrev AX_INDEX_COUNT (n : Nat) : Nat := 0x78010B + n * 0x8000
/-- R383 7801:0C (RO VOL). -/
abbrev AX_TRIG_LATCH (n : Nat) : Nat := 0x78010C + n * 0x8000
/-- R383 7801:0D (RO VOL). -/
abbrev AX_TRIG_STAMP (n : Nat) : Nat := 0x78010D + n * 0x8000
/-- R383 7801:0E (RO VOL). -/
abbrev AX_RCSYNC_LATCH (n : Nat) : Nat := 0x78010E + n * 0x8000
/-- R384 7802:01 (RW KEEP). -/
abbrev AO_ENABLE (n : Nat) : Nat := 0x780201 + n * 0x8000
/-- R384 7802:02 (RWI KEEP). -/
abbrev AO_NUM (n : Nat) : Nat := 0x780202 + n * 0x8000
/-- R384 7802:03 (RWI KEEP). -/
abbrev AO_DEN (n : Nat) : Nat := 0x780203 + n * 0x8000
/-- R384 7802:04 (RWI KEEP). -/
abbrev AO_Z_MODE (n : Nat) : Nat := 0x780204 + n * 0x8000
/-- R384 7802:05 (RO VOL). -/
abbrev AO_LAG (n : Nat) : Nat := 0x780205 + n * 0x8000
/-- R384 7802:06 (RO VOL). -/
abbrev AO_OVERSPEED_COUNT (n : Nat) : Nat := 0x780206 + n * 0x8000
/-- R385 7808:01 (RW VOL). -/
abbrev CMP_POSITION (n : Nat) (j : Nat) : Nat := 0x780801 + n * 0x8000 + j * 0x100
/-- R385 7808:02 (RWI VOL). -/
abbrev CMP_DIR (n : Nat) (j : Nat) : Nat := 0x780802 + n * 0x8000 + j * 0x100
/-- R385 7808:03 (RWI VOL). -/
abbrev CMP_STEP (n : Nat) (j : Nat) : Nat := 0x780803 + n * 0x8000 + j * 0x100
/-- R385 7808:04 (RWI VOL). -/
abbrev CMP_COUNT (n : Nat) (j : Nat) : Nat := 0x780804 + n * 0x8000 + j * 0x100
/-- R385 7808:05 (RWI VOL). -/
abbrev CMP_ACTION (n : Nat) (j : Nat) : Nat := 0x780805 + n * 0x8000 + j * 0x100
/-- R385 7808:06 (RWI VOL). -/
abbrev CMP_TARGET (n : Nat) (j : Nat) : Nat := 0x780806 + n * 0x8000 + j * 0x100
/-- R385 7808:07 (RW VOL). -/
abbrev CMP_ARM (n : Nat) (j : Nat) : Nat := 0x780807 + n * 0x8000 + j * 0x100
/-- R385 7808:08 (RO VOL). -/
abbrev CMP_FIRED (n : Nat) (j : Nat) : Nat := 0x780808 + n * 0x8000 + j * 0x100
/-- R385 7808:09 (RO VOL). -/
abbrev CMP_LAST (n : Nat) (j : Nat) : Nat := 0x780809 + n * 0x8000 + j * 0x100
/-- R385 7808:0A (RO VOL). -/
abbrev CMP_SKIPPED (n : Nat) (j : Nat) : Nat := 0x78080A + n * 0x8000 + j * 0x100
/-- R398 7A00:01 (RW KEEP). -/
abbrev LM_ENABLE : Nat := 0x7A0001
/-- R398 7A00:02 (RWI KEEP). -/
abbrev LM_PWM_BITS : Nat := 0x7A0002
/-- R398 7A00:03 (RWI KEEP). -/
abbrev LM_PWM_LSB : Nat := 0x7A0003
/-- R398 7A00:04 (RWI KEEP). -/
abbrev LM_BLANK : Nat := 0x7A0004
/-- R398 7A00:05 (RW KEEP). -/
abbrev LM_GLOBAL : Nat := 0x7A0005
/-- R398 7A00:06 (RW KEEP). -/
abbrev LM_STRETCH : Nat := 0x7A0006
/-- R398 7A00:07 (RO VOL). -/
abbrev LM_ROW_PERIOD : Nat := 0x7A0007
/-- R398 7A00:08 (RO VOL). -/
abbrev LM_STATE : Nat := 0x7A0008
/-- R399 7A01:01 (RW KEEP). -/
abbrev LM_COLUMN : Nat := 0x7A0101
/-- R399 7A01:02 (RW KEEP). -/
abbrev LM_DUTY : Nat := 0x7A0102
/-- R399 7A01:03 (RO VOL). -/
abbrev LM_SEG_STATUS : Nat := 0x7A0103
/-- R399 7A01:04 (RO VOL). -/
abbrev LM_SEG_FAULTS : Nat := 0x7A0104
/-- R400 7A10:01 (RW KEEP). -/
abbrev FL_MASK (n : Nat) : Nat := 0x7A1001 + n * 0x100
/-- R400 7A10:02 (RW KEEP). -/
abbrev FL_ON (n : Nat) : Nat := 0x7A1002 + n * 0x100
/-- R400 7A10:03 (RW KEEP). -/
abbrev FL_REPEAT (n : Nat) : Nat := 0x7A1003 + n * 0x100
/-- R400 7A10:04 (RO VOL). -/
abbrev FL_FIRED (n : Nat) : Nat := 0x7A1004 + n * 0x100
/-- R400 7A10:05 (RO VOL). -/
abbrev FL_LAST (n : Nat) : Nat := 0x7A1005 + n * 0x100
/-- R400 7A10:06 (RO VOL). -/
abbrev FL_SKIPPED (n : Nat) : Nat := 0x7A1006 + n * 0x100
/-- R401 7A20:01 (RW KEEP). -/
abbrev WL_MODE (n : Nat) : Nat := 0x7A2001 + n * 0x100
/-- R401 7A20:02 (RW KEEP). -/
abbrev WL_CURRENT (n : Nat) : Nat := 0x7A2002 + n * 0x100
/-- R401 7A20:03 (RW KEEP). -/
abbrev WL_PWM_PERIOD (n : Nat) : Nat := 0x7A2003 + n * 0x100
/-- R401 7A20:04 (RW KEEP). -/
abbrev WL_PWM_ON (n : Nat) : Nat := 0x7A2004 + n * 0x100
/-- R401 7A20:05 (RW KEEP). -/
abbrev WL_BLINK_ON (n : Nat) : Nat := 0x7A2005 + n * 0x100
/-- R401 7A20:06 (RW KEEP). -/
abbrev WL_BLINK_OFF (n : Nat) : Nat := 0x7A2006 + n * 0x100
/-- R401 7A20:07 (RO VOL). -/
abbrev WL_STATUS (n : Nat) : Nat := 0x7A2007 + n * 0x100
/-- R401 7A20:08 (WO VOL). -/
abbrev WL_ACK (n : Nat) : Nat := 0x7A2008 + n * 0x100
/-- R401 7A20:09 (RO VOL). -/
abbrev WL_DIAG_STAMP (n : Nat) : Nat := 0x7A2009 + n * 0x100
/-- R401 7A20:0A (RO VOL). -/
abbrev WL_FAULTS (n : Nat) : Nat := 0x7A200A + n * 0x100
/-- R402 7A30:01 (RWG KEEP). -/
abbrev WL_POLICY : Nat := 0x7A3001
/-- R402 7A30:02 (RW KEEP). -/
abbrev WL_DIAG_MAX : Nat := 0x7A3002
/-- R402 7A30:03 (RO VOL). -/
abbrev WL_PERMIT_HOLD : Nat := 0x7A3003
/-- R425 A000:01 (RO VOL). -/
abbrev TWIN_ROLE : Nat := 0xA00001
/-- R425 A000:02 (RO VOL). -/
abbrev TWIN_EPOCH : Nat := 0xA00002
/-- R425 A000:03 (RO VOL). -/
abbrev TWIN_PARTNER_ROLE : Nat := 0xA00003
/-- R425 A000:04 (RO VOL). -/
abbrev TWIN_PARTNER_EPOCH : Nat := 0xA00004
/-- R425 A000:05 (RO VOL). -/
abbrev TWIN_PARTNER_SERIAL : Nat := 0xA00005
/-- R425 A000:06 (RW KEEP). -/
abbrev TWIN_START : Nat := 0xA00006
/-- R425 A000:07 (WO VOL). -/
abbrev TWIN_COMMAND : Nat := 0xA00007
/-- R425 A000:08 (RW KEEP). -/
abbrev TWIN_REVERT_INHIBIT : Nat := 0xA00008
/-- R425 A000:09 (RW KEEP). -/
abbrev TWIN_REVERT_HOLDOFF : Nat := 0xA00009
/-- R425 A000:0A (RO VOL). -/
abbrev TWIN_HOLDOFF_LEFT : Nat := 0xA0000A
/-- R425 A000:0B (RO VOL). -/
abbrev TWIN_SYNC_STATE : Nat := 0xA0000B
/-- R425 A000:0C (RO VOL). -/
abbrev TWIN_SYNC_REMAIN : Nat := 0xA0000C
/-- R425 A000:0D (RW KEEP). -/
abbrev TWIN_SYNC_RATE : Nat := 0xA0000D
/-- R425 A000:0E (RO VOL). -/
abbrev TWIN_PAIR_OFFSET : Nat := 0xA0000E
/-- R425 A000:0F (RO VOL). -/
abbrev TWIN_LINKS : Nat := 0xA0000F
/-- R425 A000:10 (RO VOL). -/
abbrev TWIN_TAKEOVERS : Nat := 0xA00010
/-- R425 A000:11 (RO VOL). -/
abbrev TWIN_HB_LATE : Nat := 0xA00011
/-- R425 A000:12 (RO VOL). -/
abbrev TWIN_ROLE_STAMP : Nat := 0xA00012
/-- R425 A000:13 (RO VOL). -/
abbrev TWIN_LAST_MIRRORED : Nat := 0xA00013
/-- R426 1F10:01 (RO VOL). -/
abbrev FLEET_DIGEST : Nat := 0x1F1001
/-- R426 1F10:02 (RO VOL). -/
abbrev FLEET_STAMP : Nat := 0x1F1002
/-- R426 1F10:03 (RO VOL). -/
abbrev FLEET_PARTNER_VIEW : Nat := 0x1F1003
/-- R426 1F10:04 (RW KEEP). -/
abbrev FLEET_EXPECTED : Nat := 0x1F1004
/-- R426 1F10:05 (RO VOL). -/
abbrev FLEET_STATE : Nat := 0x1F1005
/-- R426 1F10:06 (RO VOL). -/
abbrev FLEET_CAUSE : Nat := 0x1F1006
/-- R426 1F10:07 (RO VOL). -/
abbrev FLEET_FIRST_NODE : Nat := 0x1F1007
/-- R426 1F10:08 (RO VOL). -/
abbrev FLEET_NODES : Nat := 0x1F1008
/-- R426 1F11:01 (RO VOL). -/
abbrev FLEET_NODE_KIND (n : Nat) : Nat := 0x1F1101 + n * 0x100
/-- R426 1F11:02 (RW KEEP). -/
abbrev FLEET_NODE_INCLUDE (n : Nat) : Nat := 0x1F1102 + n * 0x100
/-- R426 1F11:03 (RO VOL). -/
abbrev FLEET_NODE_DIGEST (n : Nat) : Nat := 0x1F1103 + n * 0x100
/-- R426 1F11:04 (RO VOL). -/
abbrev FLEET_NODE_STAMP (n : Nat) : Nat := 0x1F1104 + n * 0x100
/-- R426 1F11:05 (RO VOL). -/
abbrev FLEET_NODE_STATE (n : Nat) : Nat := 0x1F1105 + n * 0x100
/-- R427 2200:01 (RW KEEP). -/
abbrev DIGEST_HOLD_ENABLE : Nat := 0x220001
/-- R427 2200:02 (RO VOL). -/
abbrev DIGEST_HOLD : Nat := 0x220002
/-- R427 2200:03 (WO VOL). -/
abbrev DIGEST_HOLD_RELEASE : Nat := 0x220003
/-- R447 A400:01 (RWG KEEP). -/
abbrev GUARD_MAP : Nat := 0xA40001
/-- R447 A400:02 (RO VOL). -/
abbrev GUARD_STATE : Nat := 0xA40002
/-- R447 A400:03 (RO VOL). -/
abbrev GUARD_PROPOSAL_LAST : Nat := 0xA40003
/-- R447 A400:04 (RO VOL). -/
abbrev GUARD_PENDING : Nat := 0xA40004
/-- R448 A410:01 (RWG KEEP). -/
abbrev PARTY_KEY_0 : Nat := 0xA41001
/-- R448 A410:02 (RWG KEEP). -/
abbrev PARTY_KEY_1 : Nat := 0xA41002
/-- R448 A410:03 (RO VOL). -/
abbrev PARTY_KCV_0 : Nat := 0xA41003
/-- R448 A410:04 (RO VOL). -/
abbrev PARTY_KCV_1 : Nat := 0xA41004
/-- R449 A420:01 (RO VOL). -/
abbrev STG_STATE (n : Nat) : Nat := 0xA42001 + n * 0x100
/-- R449 A420:02 (RO VOL). -/
abbrev STG_PROPOSAL (n : Nat) : Nat := 0xA42002 + n * 0x100
/-- R449 A420:03 (RO VOL). -/
abbrev STG_TARGET (n : Nat) : Nat := 0xA42003 + n * 0x100
/-- R449 A420:04 (RO VOL). -/
abbrev STG_PARTY (n : Nat) : Nat := 0xA42004 + n * 0x100
/-- R449 A420:05 (RO VOL). -/
abbrev STG_SESSION (n : Nat) : Nat := 0xA42005 + n * 0x100
/-- R449 A420:06 (RO VOL). -/
abbrev STG_STAMP (n : Nat) : Nat := 0xA42006 + n * 0x100
/-- R449 A420:07 (RO VOL). -/
abbrev STG_VALUE (n : Nat) : Nat := 0xA42007 + n * 0x100
/-- R449 A420:08 (RO VOL). -/
abbrev STG_VALUE_LEN (n : Nat) : Nat := 0xA42008 + n * 0x100
/-- R450 A440:01 (RO VOL). -/
abbrev BP_STATE : Nat := 0xA44001
/-- R450 A440:02 (WO VOL). -/
abbrev PERMIT_RESTART : Nat := 0xA44002
/-- R450 A440:03 (RO VOL). -/
abbrev BP_CAUSE : Nat := 0xA44003
/-- R450 A440:04 (RO VOL). -/
abbrev BP_WITHDRAWALS : Nat := 0xA44004
/-- R450 A440:05 (RO VOL). -/
abbrev BP_READBACK_FAULT : Nat := 0xA44005
/-- R450 A440:06 (RO VOL). -/
abbrev BP_STAMP : Nat := 0xA44006
/-- R450 A440:07 (WO VOL). -/
abbrev BP_READBACK_CLEAR : Nat := 0xA44007
/-- R451 A450:01 (RO VOL). -/
abbrev IL_INPUTS : Nat := 0xA45001
/-- R451 A450:02 (RO VOL). -/
abbrev IL_PAIR_STATE : Nat := 0xA45002
/-- R451 A450:03 (RWG KEEP). -/
abbrev IL_POLICY : Nat := 0xA45003
/-- R451 A450:04 (RO VOL). -/
abbrev IL_DISCREPANCIES : Nat := 0xA45004
/-- R451 A450:05 (RO VOL). -/
abbrev IL_STAMP : Nat := 0xA45005
/-- R470 7E00:01 (RW VOL). -/
abbrev CAL_LOAD_ADDR : Nat := 0x7E0001
/-- R470 7E00:02 (WO VOL). -/
abbrev CAL_LOAD : Nat := 0x7E0002
/-- R470 7E00:03 (RWI KEEP). -/
abbrev CAL_OUT_BASE : Nat := 0x7E0003
/-- R470 7E00:04 (WO VOL). -/
abbrev CAL_MEASURE : Nat := 0x7E0004
/-- R470 7E00:05 (WO VOL). -/
abbrev CAL_MEAS_ABORT : Nat := 0x7E0005
/-- R470 7E00:06 (RO VOL). -/
abbrev CAL_MEAS_STATE : Nat := 0x7E0006
/-- R470 7E00:07 (RWG VOL). -/
abbrev CAL_INSTALL : Nat := 0x7E0007
/-- R470 7E00:08 (RO VOL). -/
abbrev CAL_INSTALL_STATE : Nat := 0x7E0008
/-- R470 7E00:09 (RO VOL). -/
abbrev CAL_STORE_STATE : Nat := 0x7E0009
/-- R470 7E00:0A (RO VOL). -/
abbrev CAL_LAST_REJECT : Nat := 0x7E000A
/-- R470 7E00:0B (RO VOL). -/
abbrev CAL_INSTALLS : Nat := 0x7E000B
/-- R470 7E00:0C (RO VOL). -/
abbrev CAL_INSTALL_STAMP : Nat := 0x7E000C
/-- R472 7E02:01 (RW KEEP). -/
abbrev CAL_FID_COUNT : Nat := 0x7E0201
/-- R472 7E02:02 (RW KEEP). -/
abbrev CAL_FID_POINTS : Nat := 0x7E0202
/-- R472 7E02:03 (RW KEEP). -/
abbrev CAL_FID_STEP : Nat := 0x7E0203
/-- R472 7E02:04 (RW KEEP). -/
abbrev CAL_FID_RUN2 : Nat := 0x7E0204
/-- R472 7E02:05 (RW KEEP). -/
abbrev CAL_FID_ARM : Nat := 0x7E0205
/-- R472 7E02:06 (RW KEEP). -/
abbrev CAL_FID_POWER : Nat := 0x7E0206
/-- R472 7E02:07 (RW KEEP). -/
abbrev CAL_FID_SPEED : Nat := 0x7E0207
/-- R472 7E02:08 (RW KEEP). -/
abbrev CAL_FID_FLASH : Nat := 0x7E0208
/-- R472 7E02:09 (RW KEEP). -/
abbrev CAL_FID_WINDOW : Nat := 0x7E0209
/-- R472 7E02:0A (RW KEEP). -/
abbrev CAL_FID_CONTRAST : Nat := 0x7E020A
/-- R473 7E40:01 (RO VOL). -/
abbrev CAND_STATE (n : Nat) : Nat := 0x7E4001 + n * 0x100
/-- R473 7E40:02 (RO VOL). -/
abbrev CAND_TYPE (n : Nat) : Nat := 0x7E4002 + n * 0x100
/-- R473 7E40:03 (RO VOL). -/
abbrev CAND_CHECK (n : Nat) : Nat := 0x7E4003 + n * 0x100
/-- R473 7E40:04 (RO VOL). -/
abbrev CAND_STAMP (n : Nat) : Nat := 0x7E4004 + n * 0x100
/-- R473 7E40:05 (WO VOL). -/
abbrev CAND_DISCARD (n : Nat) : Nat := 0x7E4005 + n * 0x100
/-- R474 7E03:01 (RW VOL). -/
abbrev CAL_QUERY_TYPE : Nat := 0x7E0301
/-- R474 7E03:02 (RO VOL). -/
abbrev CAL_QUERY_STATE : Nat := 0x7E0302
/-- R474 7E03:03 (RO VOL). -/
abbrev CAL_QUERY_GEN : Nat := 0x7E0303
/-- R474 7E03:04 (RO VOL). -/
abbrev CAL_QUERY_CHECK : Nat := 0x7E0304
/-- R474 7E03:05 (RO VOL). -/
abbrev CAL_QUERY_STAMP : Nat := 0x7E0305
/-- R488 7C00:01 (RO VOL). -/
abbrev DT_APEX : Nat := 0x7C0001
/-- R488 7C00:02 (RO VOL). -/
abbrev DT_LEVEL : Nat := 0x7C0002
/-- R488 7C00:03 (RO VOL). -/
abbrev DT_THRESH_LEVEL : Nat := 0x7C0003
/-- R488 7C00:04 (RO VOL). -/
abbrev DT_FLOOR : Nat := 0x7C0004
/-- R488 7C00:05 (RO VOL). -/
abbrev DT_CUTOFF : Nat := 0x7C0005
/-- R488 7C00:06 (RO VOL). -/
abbrev DT_FAST : Nat := 0x7C0006
/-- R488 7C00:07 (RO VOL). -/
abbrev DT_RISE : Nat := 0x7C0007
/-- R488 7C00:08 (RO VOL). -/
abbrev DT_STOP_STATE : Nat := 0x7C0008
/-- R488 7C00:09 (RO VOL). -/
abbrev DT_SENSOR_VALUE : Nat := 0x7C0009
/-- R488 7C00:0A (RO VOL). -/
abbrev DT_SENSOR_STATE : Nat := 0x7C000A
/-- R488 7C00:0B (RO VOL). -/
abbrev DT_SENSOR_CAUSE : Nat := 0x7C000B
/-- R488 7C00:0C (WO VOL). -/
abbrev DT_SENSOR_ACK : Nat := 0x7C000C
/-- R488 7C00:0D (RO VOL). -/
abbrev DT_SUBSTITUTE : Nat := 0x7C000D
/-- R488 7C00:0E (RW KEEP). -/
abbrev DT_PLAUSIBLE : Nat := 0x7C000E
/-- R488 7C00:0F (RW KEEP). -/
abbrev DT_STOP_MARGIN : Nat := 0x7C000F
/-- R488 7C00:10 (RO VOL). -/
abbrev DT_LEVEL_STAMP : Nat := 0x7C0010
/-- R488 7C00:11 (RO VOL). -/
abbrev DT_PEAK : Nat := 0x7C0011
/-- R504 7D00:01 (RO VOL). -/
abbrev PWR_RESET_CAUSE : Nat := 0x7D0001
/-- R504 7D00:02 (WO VOL). -/
abbrev PWR_RESET_REQUEST : Nat := 0x7D0002
/-- R504 7D00:03 (RO VOL). -/
abbrev PWR_RESET_STAMP : Nat := 0x7D0003
/-- R504 7D00:04 (RO VOL). -/
abbrev PWR_FAIL_STAMP : Nat := 0x7D0004
/-- R504 7D00:05 (RO VOL). -/
abbrev PWR_FAIL_RAILS : Nat := 0x7D0005
/-- R504 7D00:06 (RO VOL). -/
abbrev PWR_RAIL_GOOD : Nat := 0x7D0006
/-- R504 7D00:07 (RW VOL). -/
abbrev PWR_ORDER_FAULT : Nat := 0x7D0007
/-- R504 7D00:08 (RO VOL). -/
abbrev PWR_ORDER_SEEN : Nat := 0x7D0008
/-- R504 7D00:09 (RO VOL). -/
abbrev AON_VALID : Nat := 0x7D0009
/-- R504 7D00:0A (RO VOL). -/
abbrev VBAT_LOW : Nat := 0x7D000A
/-- R504 7D00:0B (RW KEEP). -/
abbrev CLK_SPREAD_DEPTH : Nat := 0x7D000B
/-- R504 7D00:0C (RO VOL). -/
abbrev CLK_SPREAD_IN_FORCE : Nat := 0x7D000C
/-- R504 7D00:0D (RW KEEP). -/
abbrev IO_EDGE_BP : Nat := 0x7D000D
/-- R504 7D00:0E (RW KEEP). -/
abbrev IO_EDGE_DBG : Nat := 0x7D000E
/-- R518 C000:01 (RWG VOL). -/
abbrev DBG_UNLOCK : Nat := 0xC00001
/-- R518 C000:02 (WO VOL). -/
abbrev DBG_LOCK : Nat := 0xC00002
/-- R518 C000:03 (RO VOL). -/
abbrev DBG_STATE : Nat := 0xC00003
/-- R518 C000:04 (RO VOL). -/
abbrev DBG_UNLOCK_LEFT : Nat := 0xC00004
/-- R518 C000:05 (RO VOL). -/
abbrev DBG_REQUESTS : Nat := 0xC00005
/-- R518 C000:06 (RO VOL). -/
abbrev DBG_FAULTS : Nat := 0xC00006
/-- R519 3100:01 (WO VOL). -/
abbrev DBG_SEQ_CONTROL (n : Nat) : Nat := 0x310001 + n * 0x1000
/-- R519 3100:02 (RO VOL). -/
abbrev DBG_SEQ_STATE (n : Nat) : Nat := 0x310002 + n * 0x1000
/-- R519 3100:03 (RO VOL). -/
abbrev DBG_STEPS (n : Nat) : Nat := 0x310003 + n * 0x1000
/-- R519 3100:04 (RO VOL). -/
abbrev DBG_HALT_STAMP (n : Nat) : Nat := 0x310004 + n * 0x1000
/-- R519 3100:05 (RO VOL). -/
abbrev DBG_LAST_BREAK (n : Nat) : Nat := 0x310005 + n * 0x1000
/-- R519 3101:01 (RW VOL). -/
abbrev BRK_KIND (n : Nat) (j : Nat) : Nat := 0x310101 + n * 0x1000 + j * 0x100
/-- R519 3101:02 (RW VOL). -/
abbrev BRK_VALUE (n : Nat) (j : Nat) : Nat := 0x310102 + n * 0x1000 + j * 0x100
/-- R519 3101:03 (RO VOL). -/
abbrev BRK_HITS (n : Nat) (j : Nat) : Nat := 0x310103 + n * 0x1000 + j * 0x100
/-- R519 3101:04 (RO VOL). -/
abbrev BRK_LAST (n : Nat) (j : Nat) : Nat := 0x310104 + n * 0x1000 + j * 0x100
/-- R527 9000:01 (RW KEEP). -/
abbrev EV_NOTICE (n : Nat) : Nat := 0x900001 + n * 0x100
/-- R527 9000:02 (RO VOL). -/
abbrev EV_COUNT (n : Nat) : Nat := 0x900002 + n * 0x100
/-- R527 9000:03 (RO VOL). -/
abbrev EV_LAST_STAMP (n : Nat) : Nat := 0x900003 + n * 0x100
/-- R527 9000:04 (RO VOL). -/
abbrev EV_LAST_CODE (n : Nat) : Nat := 0x900004 + n * 0x100
/-- R527 9000:05 (RO VOL). -/
abbrev EV_LAST_DATA (n : Nat) : Nat := 0x900005 + n * 0x100
/-- R527 9000:06 (RO VOL). -/
abbrev EV_NOTICED (n : Nat) : Nat := 0x900006 + n * 0x100
/-- R527 9000:07 (RO VOL). -/
abbrev EV_COALESCED (n : Nat) : Nat := 0x900007 + n * 0x100
/-- R527 9000:08 (RO VOL). -/
abbrev EV_MERGED (n : Nat) : Nat := 0x900008 + n * 0x100
/-- R527 9000:09 (WO VOL). -/
abbrev EV_CLEAR (n : Nat) : Nat := 0x900009 + n * 0x100
/-- R544 7D10:01 (RW KEEP). -/
abbrev PIN_FILTER_IL : Nat := 0x7D1001
/-- R544 7D10:02 (RW KEEP). -/
abbrev PIN_FILTER_RCSYNC : Nat := 0x7D1002
/-- R544 7D10:03 (RW KEEP). -/
abbrev PIN_FILTER_INDEX : Nat := 0x7D1003
/-- R241 4058:01 (RO VOL). -/
abbrev FX_LOG (n : Nat) (j : Nat) (i : Nat) : Nat := 0x405801 + n * 0x10000 + j * 0x100 + i
/-- R471 7E01:10 (RW KEEP). -/
abbrev CAL_TOL_10 : Nat := 0x7E0110
/-- R471 7E01:11 (RW KEEP). -/
abbrev CAL_TOL_11 : Nat := 0x7E0111
/-- R471 7E01:12 (RW KEEP). -/
abbrev CAL_TOL_12 : Nat := 0x7E0112
/-- R471 7E01:20 (RW KEEP). -/
abbrev CAL_TOL_20 : Nat := 0x7E0120
/-- R471 7E01:21 (RW KEEP). -/
abbrev CAL_TOL_21 : Nat := 0x7E0121
/-- R471 7E01:22 (RW KEEP). -/
abbrev CAL_TOL_22 : Nat := 0x7E0122
/-- R471 7E01:23 (RW KEEP). -/
abbrev CAL_TOL_23 : Nat := 0x7E0123
/-- R471 7E01:28 (RW KEEP). -/
abbrev CAL_TOL_28 : Nat := 0x7E0128
/-- R471 7E01:29 (RW KEEP). -/
abbrev CAL_TOL_29 : Nat := 0x7E0129
/-- R471 7E01:2A (RW KEEP). -/
abbrev CAL_TOL_2A : Nat := 0x7E012A
/-- R471 7E01:30 (RW KEEP). -/
abbrev CAL_TOL_30 : Nat := 0x7E0130
/-- R471 7E01:31 (RW KEEP). -/
abbrev CAL_TOL_31 : Nat := 0x7E0131
/-- R471 7E01:32 (RW KEEP). -/
abbrev CAL_TOL_32 : Nat := 0x7E0132
/-- R471 7E01:33 (RW KEEP). -/
abbrev CAL_TOL_33 : Nat := 0x7E0133
/-- R161 3002:01 (RO VOL). -/
abbrev CS_MARK_SPEED (n : Nat) : Nat := 0x300201 + n * 0x1000
/-- R161 3002:02 (RO VOL). -/
abbrev CS_JUMP_SPEED (n : Nat) : Nat := 0x300202 + n * 0x1000
/-- R161 3002:03 (RO VOL). -/
abbrev CS_FOCUS_OFFSET (n : Nat) : Nat := 0x300203 + n * 0x1000
/-- R161 3002:04 (RO VOL). -/
abbrev CS_POWER_SCALE (n : Nat) : Nat := 0x300204 + n * 0x1000
/-- R161 3002:05 (RO VOL). -/
abbrev CS_DWELL_LIMIT (n : Nat) : Nat := 0x300205 + n * 0x1000
/-- R161 3002:06 (RO VOL). -/
abbrev CS_DWELL_TIMEOUT (n : Nat) : Nat := 0x300206 + n * 0x1000
/-- R161 3002:07 (RO VOL). -/
abbrev CS_POOL_TARGET (n : Nat) : Nat := 0x300207 + n * 0x1000

end Sys2Proof.Machine.K
end

