-- ==== Sys2Proof/Machine/Flags.lean ====
section
/-! DEFINITION. Flags: the flag byte of an event record with the rule that sets MERGED, and the flag bits of a translation entry. The
block has no arithmetic flags. -/

namespace Sys2Proof.Machine

/-- FLAGS of a header block (R58): [5:4] extension block count, [3] MERGED, [2:0] class. -/
def EvRec.flags (e : EvRec) : Nat := e.ext.length * 16 + (if e.merged then 8 else 0) + e.cls

/-- The order of R47 on stamp tick, class and source; a series event follows its source's condition event. -/
def EvRec.before (a b : EvRec) : Bool :=
  if a.tick ≠ b.tick then decide (a.tick < b.tick)
  else if a.cls ≠ b.cls then decide (a.cls < b.cls)
  else if a.source ≠ b.source then decide (a.source < b.source)
  else !a.series && b.series

/-- Two conditions of one source on one tick as one event (R47, R524): the higher class stands, then the lower
instance, then the lower code. -/
def EvRec.merge (a b : EvRec) : EvRec :=
  let aWins := if a.cls ≠ b.cls then decide (a.cls < b.cls)
    else if a.inst ≠ b.inst then decide (a.inst < b.inst) else decide (a.code ≤ b.code)
  let w := if aWins then a else b
  { w with id := a.id, merged := true, noticed := a.noticed }

/-- The level-2 entry as a word (R121). -/
def Page.word (p : Page) : Nat :=
  2 ^ 63 + (if p.write then 2 ^ 62 else 0) + (if 0 < p.pins then 2 ^ 61 else 0) + (if p.unmap then 2 ^ 60 else 0) + p.phys % 2 ^ 18

end Sys2Proof.Machine
end

