-- ==== Sys2Proof/Machine/State.lean ====
section
/-! DEFINITION. The state of the block as plain data: the live dictionary, the parts of the device, and the queue of commands
that wait; the state right after reset. -/

namespace Sys2Proof.Machine

/-- Faults of a step. -/
inductive Fault where
  /-- Raised by no command: the specification gives every command of the table a next state. -/
  | stuck
deriving DecidableEq, Repr

/-- Refusals of a step. -/
inductive Refusal where
  /-- Raised by an arm of `exec` whose command has no meaning in this model yet. Safe: the machine stops. -/
  | notModelled (mnemonic : String)
deriving DecidableEq, Repr

/-- The whole state of the block. -/
structure State where
  /-- The live object dictionary: key (index * 256 + sub-index) to value; an unlisted entry holds its default (R65 to R89). -/
  od : Tab Nat
  /-- Whether the device is held, starting up or running (R502). -/
  dev : DevPhase
  /-- Keeping-store image and digest. -/
  kp : Keep
  /-- Time. -/
  tm : Time
  /-- The two PTP domains (R42). -/
  doms : Tab Domain
  /-- PTP on each port (R112 to R115). -/
  ptp : Tab PtpPort
  /-- Time triggers (R53). -/
  trig : Tab Trigger
  /-- Events and the notice queue. -/
  ev : Events
  /-- The journal writer. -/
  jr : Journal
  /-- Open sessions, in order of opening (R99). -/
  sessions : List Session
  /-- Staging slots (R437). -/
  staged : Tab (Option Staged)
  /-- Stream endpoints (R107). -/
  streams : Tab Stream
  /-- Commands that wait for their EFFECT tick, oldest first (R416). -/
  mirrors : List Mirror
  /-- The axis cycle (R116). -/
  cyc : Cyclic
  /-- Memory and translation (R119 to R138). -/
  mem : Mem
  /-- Beam channels with their sequencers (R140 to R202). -/
  chans : Tab Chan
  /-- The layer in execution (R22 to R29). -/
  layer : Layer
  /-- Loop channels (R310 to R335). -/
  loops : Tab Loop
  /-- Repetitive slots (R321). -/
  reps : Tab Rep
  /-- Lune queues (R203 to R225). -/
  lunes : Tab Lune
  /-- The lattice (R253 to R271). -/
  lat : Lattice
  /-- Installed calibration records by type (R81, R455). -/
  installed : Tab (Option CalRec)
  /-- Machine axes (R362 to R386). -/
  axes : Tab Axis
  /-- The matrix and the warning lamps (R387 to R404). -/
  light : Light
  /-- Die temperature (R477 to R489). -/
  die : Die
  /-- Supplies, the always-on island and start-up (R490 to R502). -/
  pw : Supply
  /-- The debug port (R507 to R522). -/
  dbg : Debug
  /-- Pipeline contexts (R277 to R309). -/
  pipes : Tab Pipe
  /-- Serial lanes (R336 to R361). -/
  lanes : Tab Lane
  /-- The safety island (R441 to R444). -/
  isl : Island
  /-- Calibration (R454 to R476). -/
  cal : Cal
  /-- The partner links (R409 to R424). -/
  tw : Twin
  /-- Messages, frames and levels that left the device, newest first. -/
  sent : List Sent
  /-- The model's own counter of free values drawn (see Config); no field of the device. -/
  free : Nat
  /-- Commands that wait, first in, first out. -/
  pending : List Instr
deriving DecidableEq, Repr

/-- The block right after reset: a part whose keeping store holds no image, at the release of PORN (R502). -/
def State.reset : State where
  od := []
  dev := .starting
  kp := { imgA := none, imgB := none, storing := none, changed := false, again := false, digestTick := 0 }
  tm := { tick := 0, time64 := 0, frac := 0, inc := 160 * 2 ^ 32, corr := 0, segs := [], stepDue := none, residual := 0, rate := 0, steered := false, lt := 0 }
  doms := []
  ptp := []
  trig := []
  ev := { opened := [], queue := [], counts := [], total := 0, firstStamp := 0, lastStamp := 0, hits := [], recent := [], nextId := 0, past := [] }
  jr := { buf := [], sealDue := false, nextSeq := 0, spanCrc := 0xFFFFFFFF, spanBlocks := 0, wraps := 0, total := 0, inRun := false, above75 := false, aonSeal := 0, held := none }
  sessions := []
  staged := []
  streams := []
  mirrors := []
  cyc := { nextTick := 0, cycle := 0, replied := [], silent := [] }
  mem := { bytes := [], pages := [], l1 := [], tcs := [], bad := [], beats := 0 }
  chans := []
  layer := { cur := none, pend := none, stage := 0, startAt := 0, ps := 0, aligned := false, rcSeen := false, before := 0, stallPos := 0, stallTick := 0, lastLoss := none, posted := 0, closeStep := 0, closeAt := 0, closeSeal := none, idleClose := false, idleDue := none, past := [] }
  loops := []
  reps := []
  lunes := []
  lat := { cells := [], pages := 0, waiting := [], queue := [], cache := [], dirty := [], backAt := [], visitAt := [], visitLayer := [], applied := 0, cutDone := none, recent := [], snap := [], snapHeld := false, disabledAt := none, layersOff := 0 }
  installed := []
  axes := []
  light := { row := 0, nextSlot := 0, counts := [], flash := none, lit := 0, due := [], failed := [], quiet := [], lamps := [] }
  die := { sensors := [], past := [], apexes := [], up := [0, 0, 0, 0], down := [0, 0, 0, 0], crossed := [false, false, false, false] }
  pw := { valid := false, keeper := 0, era := 0, epoch := 0, order := [], failStamp := 0, failRails := 0, nextCause := 0, startTick := 0, warm := false, trainFailed := false, clockLost := false, poolLoaded := false }
  dbg := { last := none, unlockEnd := none }
  pipes := []
  lanes := []
  isl := { disagree := [], bad := [], good := [], cutAt := 0, cut := 0 }
  cal := { store := [], factory := [], defaulted := [], writes := [], due := [], dueTick := 0, trims := [], switches := [], switchEnd := 0, deferred := [], load := none, meas := { kind := 0, inst := 0, chan := 0, aims := [], points := [], capture := none, shot := 0, waits := [], found := [], first := [], second := [], lost := [], frames := 0, sums := [], start := 0 } }
  tw := { mirrorSeq := 0, seenSeq := 0, readyTick := 0, heardAt := none, seenEpoch := 0, takeoverAt := none, handoverAt := none, agreed := false, copyFrom := 0, copyTotal := 0, copy := [], copyOff := 0, out := [], align := false, heard := false, wanted := none, checks := [], made := [], verdicts := [], before := none, partnerDigest := none }
  sent := []
  free := 0
  pending := []

end Sys2Proof.Machine
end

