-- ==== Sys2Proof/Machine/Table.lean ====
section
/-! DEFINITION. Operations on sparse tables. A key that is not listed reads as the table's default;
a write of the default removes the entry, so that equal tables are equal lists. -/

namespace Sys2Proof.Machine

/-- The value at a key. -/
def Tab.get {α : Type} (d : Nat → α) : Tab α → Nat → α
  | [], k => d k
  | (j, v) :: t, k => if j = k then v else Tab.get d t k

/-- The table without a key. -/
def Tab.del {α : Type} (k : Nat) : Tab α → Tab α
  | [] => []
  | (j, v) :: t => if j = k then Tab.del k t else (j, v) :: Tab.del k t

/-- The table with an entry put in key order. -/
def Tab.ins {α : Type} (k : Nat) (v : α) : Tab α → Tab α
  | [] => [(k, v)]
  | (j, w) :: t => if k < j then (k, v) :: (j, w) :: t else (j, w) :: Tab.ins k v t

/-- Writing a value at a key. -/
def Tab.set {α : Type} [DecidableEq α] (d : Nat → α) (t : Tab α) (k : Nat) (v : α) : Tab α :=
  if v = d k then Tab.del k t else Tab.ins k v (Tab.del k t)

/-- Every key of the table is above the bound, keys rise strictly, no entry holds its default. -/
def Tab.wfFrom {α : Type} [DecidableEq α] (d : Nat → α) : Option Nat → Tab α → Bool
  | _, [] => true
  | b, (j, v) :: t => (match b with | none => true | some i => decide (i < j)) &&
      decide (v ≠ d j) && Tab.wfFrom d (some j) t

/-- The canonical form of a table. -/
def Tab.wf {α : Type} [DecidableEq α] (d : Nat → α) (t : Tab α) : Bool :=
  Tab.wfFrom d none t

/-- Changing the value at a key by a function. -/
def Tab.upd {α : Type} [DecidableEq α] (d : Nat → α) (t : Tab α) (k : Nat) (f : α → α) : Tab α :=
  Tab.set d t k (f (Tab.get d t k))

end Sys2Proof.Machine
end

