-- ==== Sys2Proof/Machine/Ops.lean ====
section
/-! DEFINITION. The named operations on the state: the live dictionary, the tables of units, time stamps, what is sent,
and raising an event. -/

namespace Sys2Proof.Machine

/-- A live dictionary value. -/
def State.rd (s : State) (k : Nat) : Nat := Tab.get Dict.dflt s.od k

/-- Setting a live dictionary value. -/
def State.wr (s : State) (k v : Nat) : State := { s with od := Tab.set Dict.dflt s.od k v }

/-- A live value read as a signed number of `w` bits. -/
def State.rdS (s : State) (w k : Nat) : Int := sgn w (s.rd k)

/-- Setting a live value from a signed number of `w` bits. -/
def State.wrS (s : State) (w k : Nat) (v : Int) : State := s.wr k (uns w v)

/-- Adding to a counter of `w` bits that wraps. -/
def State.bump (s : State) (w k n : Nat) : State := s.wr k ((s.rd k + n) % 2 ^ w)

/-- Adding 1 to a 32-bit counter. -/
def State.inc (s : State) (k : Nat) : State := s.bump 32 k 1

/-- Setting several entries. -/
def State.wrs (s : State) : List (Nat × Nat) → State
  | [] => s
  | (k, v) :: t => (s.wr k v).wrs t

/-- Setting an entry to its default. -/
def State.clr (s : State) (k : Nat) : State := s.wr k (Dict.dflt k)

/-- The codes of R73 and R98. -/
abbrev Ans.ok : Nat := 0x00
abbrev Ans.alreadyComplete : Nat := 0x01
abbrev Ans.stagedCode : Nat := 0x02
abbrev Ans.noEntry : Nat := 0x10
abbrev Ans.noSubindex : Nat := 0x11
abbrev Ans.access : Nat := 0x12
abbrev Ans.size : Nat := 0x13
abbrev Ans.outOfRange : Nat := 0x14
abbrev Ans.unitBusy : Nat := 0x15
abbrev Ans.refused : Nat := 0x16
abbrev Ans.guarded : Nat := 0x17
abbrev Ans.badVersion : Nat := 0x40
abbrev Ans.badKind : Nat := 0x41
abbrev Ans.malformed : Nat := 0x42
abbrev Ans.noSession : Nat := 0x43
abbrev Ans.sessionLimit : Nat := 0x44
abbrev Ans.seqGap : Nat := 0x45
abbrev Ans.roleStale : Nat := 0x46
abbrev Ans.authFailed : Nat := 0x47
abbrev Ans.kindMismatch : Nat := 0x48
abbrev Ans.proposalUnknown : Nat := 0x49
abbrev Ans.proposalMismatch : Nat := 0x4A
abbrev Ans.sameParty : Nat := 0x4B

/-- An idle channel before its first layer. -/
def Chan.init : Chan :=
  { stack := [], ox := 0, oy := 0, wait := .none, released := none, cand := none, run := [], gates := [], tails := [],
    px := 0, py := 0, nx := 0, ny := 0, boundary := 0, decodes := 0, inRun := false, notBefore := 0, group := [], groupEnd := none,
    groupOn := false, groupPassed := 0, refused := none, pass := none, oldPass := none, repairs := [], repairNext := 0, commits := [], member := false,
    reached := false, offAt := none, regionAt := none, rearm := false, hx := 0, hy := 0, hz := 0, safe := (0, 0, 0), fbSample := none,
    headStatus := 0, walk := none, tableHold := none, haltAt := none, brokeAt := none,
    stepping := false, shots := [], lastCell := none, gain := (0, 16384), frame := [] }

/-- The floating item in execution or about to begin, with its lune. -/
def Chan.itemNow (c : Chan) : Option (Nat × Item) :=
  match c.run with
  | [] => none
  | p :: _ => p.item

/-- Channel `n`. -/
def State.chan (s : State) (n : Nat) : Chan := Tab.get (fun _ => Chan.init) s.chans n

/-- Setting channel `n`. -/
def State.setChan (s : State) (n : Nat) (c : Chan) : State := { s with chans := Tab.set (fun _ => Chan.init) s.chans n c }

/-- A context with no transfer. -/
def Tc.init : Tc := { job := .none, more := [], part := none, used := 0, faultWrite := false, resumeAt := none, window := [], shortAt := [] }

/-- Translation context `n`. -/
def State.tc (s : State) (n : Nat) : Tc := Tab.get (fun _ => Tc.init) s.mem.tcs n

/-- Setting translation context `n`. -/
def State.setTc (s : State) (n : Nat) (t : Tc) : State :=
  { s with mem := { s.mem with tcs := Tab.set (fun _ => Tc.init) s.mem.tcs n t } }

/-- Present TIME64. -/
def State.now (s : State) : Nat := s.tm.time64

/-- Time in 2^-32 units on a tick, from the newest segment that begins at or before it. -/
def accAt (t : Nat) : List (Nat × Nat × Int) → Option Int
  | [] => none
  | (t0, a, i) :: r => if t0 ≤ t then some ((a : Int) + ((t : Int) - t0) * i) else accAt t r

/-- TIME64 of a tick near the present one: past ticks from the kept segments, coming ones at the present rate. -/
def State.timeAt (s : State) (t : Nat) : Nat :=
  let here := (s.tm.time64 : Int) * 2 ^ 32 + s.tm.frac
  let a := if s.tm.tick ≤ t then here + ((t : Int) - s.tm.tick) * s.tm.inc
    else (accAt t s.tm.segs).getD (here - ((s.tm.tick : Int) - t) * s.tm.inc)
  (a / 2 ^ 32 % 2 ^ 64).toNat

/-- `a` is at or after `b` as TIME64 instants (R36). -/
def atOrAfter (a b : Nat) : Bool := decide (0 ≤ sgn 64 ((a + 2 ^ 64 - b % 2 ^ 64) % 2 ^ 64))

/-- A pin whose filter is F changes level only after F + 1 equal samples (R46): `delay` ticks lie between the first and the latest
sample of the run. -/
def State.filtered (s : State) (entry delay : Nat) : Bool := decide (s.rd entry ≤ delay)

/-- Sending bytes on a path. -/
def State.emit (s : State) (p : Path) (b : List Byte) : State :=
  { s with sent := { tick := s.tm.tick, path := p, bytes := b } :: s.sent }

/-- Drawing a free value: the counter's present value, and the state with the counter advanced. -/
def State.draw (s : State) : Nat × State := (s.free, { s with free := s.free + 1 })

/-- Names of states used across the model. -/
abbrev Phase.idle : Nat := 0
abbrev Phase.recoat : Nat := 1
abbrev Phase.expose : Nat := 2
abbrev Phase.repair : Nat := 3
abbrev Phase.close : Nat := 4
abbrev Phase.held : Nat := 5
abbrev Bc.off : Nat := 0
abbrev Bc.armed : Nat := 1
abbrev Bc.run : Nat := 2
abbrev Bc.hold : Nat := 3
abbrev Bc.fault : Nat := 4
abbrev Role.active : Nat := 1
abbrev Role.standby : Nat := 2
abbrev Role.syncing : Nat := 3
abbrev Role.detached : Nat := 4

/-- Present layer phase. -/
def State.phase (s : State) : Nat := s.rd K.LAYER_PHASE

/-- The part's role code (R425). -/
def State.role (s : State) : Nat := s.rd K.TWIN_ROLE

/-- Bytes of a header block (R58), with the given SEQ. -/
def recordHeader (e : EvRec) (seq : Nat) : List Byte :=
  toLE 8 e.stamp ++ toLE 4 seq ++ toLE 1 e.source ++
    toLE 1 e.flags ++ toLE 2 e.code ++ toLE 2 e.gen ++
    toLE 2 e.epoch ++ toLE 4 e.layer ++ toLE 8 e.data

/-- A block of 32 bytes. -/
def padBlock (b : List Byte) : List Byte := (b ++ List.replicate (32 - b.length) 0).take 32

/-- Bytes of a record: its header block and its extension blocks. -/
def recordBytes (e : EvRec) (seq : Nat) : List Byte := recordHeader e seq ++ e.ext.flatMap padBlock

/-- Putting an event into a list in the order of R47, after those it does not precede. -/
def insEv (e : EvRec) : List EvRec → List EvRec
  | [] => [e]
  | x :: t => if e.before x then e :: x :: t else x :: insEv e t

/-- Putting a notice into the queue: before the entries, still open for merging, that follow it in the order of R47. -/
def insNotice (n : Notice) (e : EvRec) : List Notice → List Notice
  | [] => [n]
  | x :: t =>
    match x.openOf, x.ev with
    | some _, some f => if e.before f then n :: x :: t else x :: insNotice n e t
    | _, _ => x :: insNotice n e t

/-- Adding to the coalesced count of a source; the count in a summary saturates (R105). -/
def addCount (src : Nat) : List (Nat × Nat) → List (Nat × Nat)
  | [] => [(src, 1)]
  | (k, v) :: t =>
    if src < k then (src, 1) :: (k, v) :: t
    else if src = k then (k, min 16777215 (v + 1)) :: t else (k, v) :: addCount src t

/-- Showing the number of queue entries in use (R106). -/
def State.countQueue (s : State) : State :=
  let n := s.ev.queue.length
  let s := s.wr K.NOTICE_QUEUED n
  if s.rd K.NOTICE_QUEUE_PEAK < n then s.wr K.NOTICE_QUEUE_PEAK n else s

/-- Deciding an event's notice at its place (R528, R104, R105, R530): the event with its decision. -/
def State.decideNotice (s : State) (e : EvRec) : EvRec × State :=
  if !(s.rd (K.EV_NOTICE e.source)).testBit e.cls then (e, s)
  else if s.ev.queue.length < 4095 then
    let e := { e with noticed := 1 }
    let n : Notice := { openOf := some e.id, ev := some e, summary := [], addr := s.sessions.map (·.num), sent := [] }
    let s := { s with ev := { s.ev with queue := insNotice n e s.ev.queue } }
    (e, (s.countQueue).inc (K.EV_NOTICED e.source))
  else
    let e := { e with noticed := 2 }
    let first := if s.ev.counts.isEmpty then e.stamp else s.ev.firstStamp
    let s := { s with ev := { s.ev with counts := addCount e.source s.ev.counts, total := s.ev.total + 1, firstStamp := first, lastStamp := e.stamp } }
    (e, (s.inc (K.EV_COALESCED e.source)).inc K.NOTICE_COALESCED)

/-- The open condition event of a source for a stamp tick. -/
def State.openEvent (s : State) (t src : Nat) : Option EvRec :=
  s.ev.opened.find? (fun e => e.tick == t && e.source == src && !e.series)

/-- Putting a new content in the place of an open event and of its notice, each where the order of R47 has it. -/
def State.putOpen (s : State) (e : EvRec) : State :=
  let q := match s.ev.queue.find? (fun n => n.openOf == some e.id) with
    | none => s.ev.queue
    | some n => insNotice { n with ev := some e } e (s.ev.queue.filter (fun n => n.openOf != some e.id))
  { s with ev := { s.ev with opened := insEv e (s.ev.opened.filter (fun x => x.id != e.id)), queue := q } }

/-- TIME_GEN, role epoch and LAYER_NUMBER at a stamp tick (R58). -/
def State.namesAt (s : State) (t : Nat) : Nat × Nat × Nat :=
  let now := (s.rd K.TIME_GEN, s.rd K.TWIN_EPOCH, s.rd K.LAYER_NUMBER)
  if s.tm.tick ≤ t then now
  else match s.ev.past.find? (fun p => decide (p.1 ≤ t)) with
    | some p => p.2
    | none => now

/-- Keeping the names at the end of a tick, where they have changed (R58). -/
def State.keepNames (s : State) : State :=
  let now := (s.rd K.TIME_GEN, s.rd K.TWIN_EPOCH, s.rd K.LAYER_NUMBER)
  if (s.ev.past.head?.map (·.2)) = some now then s
  else { s with ev := { s.ev with past := ((s.tm.tick, now) :: s.ev.past).take 8 } }

/-- Showing an event in the last-event entries of its source (R527). -/
def State.showEvent (s : State) (e : EvRec) : State :=
  s.wrs [(K.EV_LAST_STAMP e.source, e.stamp), (K.EV_LAST_CODE e.source, e.code), (K.EV_LAST_DATA e.source, e.data)]

/-- Raising a condition or a series event stamped on a tick (R18, R47, R523 to R530, R558). -/
def State.raiseAt (s : State) (t src code cls inst data : Nat) (ext : List (List Byte)) (series : Bool) : State :=
  if Dict.reservedSource src || 256 ≤ src then s
  else
    let names := s.namesAt t
    let e : EvRec :=
      { id := s.ev.nextId, tick := t, stamp := s.timeAt t, source := src, code := code, cls := cls, inst := inst,
        data := data % 2 ^ 64, ext := ext, series := series, merged := false, gen := names.1,
        epoch := names.2.1 % 65536, layer := names.2.2, noticed := 0, seq := 0xFFFFFFFF }
    let s := { s with ev := { s.ev with hits := s.ev.hits ++ [(src, code, t)], nextId := s.ev.nextId + 1 } }
    match (if series then none else s.openEvent t src) with
    | some o =>
      let m := o.merge e
      let s := s.inc (K.EV_MERGED src)
      let (m, s) := if m.noticed = 0 then s.decideNotice m else (m, s)
      (s.putOpen m).showEvent m
    | none =>
      let s := (s.inc (K.EV_COUNT src)).showEvent e
      let (e, s) := s.decideNotice e
      { s with ev := { s.ev with opened := insEv e s.ev.opened } }

/-- Raising a condition on the present tick. -/
def State.raise (s : State) (src code cls inst data : Nat) : State :=
  s.raiseAt s.tm.tick src code cls inst data [] false

/-- Raising a condition with an extension block. -/
def State.raiseExt (s : State) (src code cls inst data : Nat) (ext : List Byte) : State :=
  s.raiseAt s.tm.tick src code cls inst data [ext] false

/-- Raising a series event. -/
def State.raiseSeries (s : State) (src code cls data : Nat) (ext : List (List Byte)) : State :=
  s.raiseAt s.tm.tick src code cls 0 data ext true

/-- Event sources of a channel (R525). -/
def srcSeq (n : Nat) : Nat := 0x20 + 6 * n
def srcFacet (n : Nat) : Nat := 0x21 + 6 * n
def srcChan (n : Nat) : Nat := 0x22 + 6 * n
def srcHead (n : Nat) : Nat := 0x23 + 6 * n

/-- Memory source of a context (R525). -/
def srcTc (n : Nat) : Nat :=
  if n < 16 then 0xE1 else if n < 32 then 0xE2 else if n < 56 then 0xE3 else if n < 62 then 0xE4
  else if n < 64 then 0xE5 else 0xE6 + (n - 64) / 32

/-- The pair count of a tick (R408): every rule that places instants at multiples of a tick count counts on it. -/
def State.pair (s : State) (t : Nat) : Nat := ((t : Int) + s.rdS 64 K.TWIN_PAIR_OFFSET).toNat

/-- The tick of a pair count. -/
def State.unpair (s : State) (p : Nat) : Nat := ((p : Int) - s.rdS 64 K.TWIN_PAIR_OFFSET).toNat

/-- Ticks since the latest sample instant (R30, R145). -/
def State.inSample (s : State) : Nat := s.pair s.tm.tick % 400

/-- The latest sample instant at or before a tick. -/
def State.sampleOf (s : State) (t : Nat) : Nat := t - s.pair t % 400

/-- The first sample instant at or after a tick. -/
def State.nextSample (s : State) (t : Nat) : Nat := t + (400 - s.pair t % 400) % 400

end Sys2Proof.Machine
end

