-- ==== Sys2Proof/Machine/Memory.lean ====
section
/-! DEFINITION. Memory, translation contexts and transfers (R119 to R139): pages, beats, faults, parking, pins and the
write lock, and the meanings of the memory commands. -/

namespace Sys2Proof.Machine

/-- Key of a job page of a context. -/
def pageKey (tc jp : Nat) : Nat := tc * 2 ^ 24 + jp % 2 ^ 24

/-- The level-2 entry of a job page. -/
def State.page (s : State) (tc jp : Nat) : Option Page := Tab.get (fun _ => none) s.mem.pages (pageKey tc jp)

/-- Setting the level-2 entry of a job page. -/
def State.setPage (s : State) (tc jp : Nat) (p : Option Page) : State :=
  { s with mem := { s.mem with pages := Tab.set (fun _ => none) s.mem.pages (pageKey tc jp) p } }

/-- The lattice cell a cleared lattice holds everywhere (R256, R269). -/
def Cell.cleared : Cell :=
  { heat := 0, stamp := 0, dose := 0, peak := 0, lastCh := 0, missed := false, repaired := false, overheat := false,
    claimed := false, exposed := false, old := true, tag := 0 }

/-- A cell as a 128-bit number, with the lock owner given (R256). -/
def Cell.image (c : Cell) (lock : Nat) : Nat :=
  let b := fun (x : Bool) (i : Nat) => if x then 2 ^ i else 0
  c.heat % 2 ^ 16 + c.stamp % 2 ^ 32 * 2 ^ 16 + c.dose % 2 ^ 16 * 2 ^ 48 + c.peak % 2 ^ 16 * 2 ^ 64 +
    c.lastCh % 16 * 2 ^ 80 + lock % 32 * 2 ^ 84 + b c.missed 89 + b c.repaired 90 + b c.overheat 91 +
    b c.claimed 92 + b c.exposed 93 + b c.old 94 + c.tag % 256 * 2 ^ 96

/-- A cell read from its 128-bit image; the lock owner field is not kept (R207). -/
def Cell.ofImage (v : Nat) : Cell :=
  { heat := bits v 15 0, stamp := bits v 47 16, dose := bits v 63 48, peak := bits v 79 64, lastCh := bits v 83 80,
    missed := v.testBit 89, repaired := v.testBit 90, overheat := v.testBit 91, claimed := v.testBit 92,
    exposed := v.testBit 93, old := v.testBit 94, tag := bits v 103 96 }

/-- Tile of a cell (R255). -/
def tileOf (c : Nat) : Nat := c / 4096 / 64 * 64 + c % 4096 / 64

/-- The physical page that holds a tile; a tile whose page is not mapped has a place of its own beyond the physical pages, so that
the lattice keeps it (R255). -/
def State.tilePage (s : State) (t : Nat) : Nat :=
  match s.page 56 (s.rd K.LAT_BASE / 65536 + t) with
  | some p => p.phys
  | none => 2 ^ 18 + t

/-- The place of cell `j * 4096 + i` in memory, in units of 16 bytes (R255). -/
def State.cellPlace (s : State) (c : Nat) : Nat := s.tilePage (tileOf c) * 4096 + c / 4096 % 64 * 64 + c % 64

/-- The lattice tile that a physical page holds, when it holds one (R255). -/
def State.latticePage (s : State) (pp : Nat) : Option Nat :=
  let base := s.rd K.LAT_BASE / 65536
  (s.mem.pages.findSome? fun e => match e.2 with
    | none => none
    | some p => if e.1 / 2 ^ 24 = 56 ∧ p.phys = pp ∧ base ≤ e.1 % 2 ^ 24 ∧ e.1 % 2 ^ 24 < base + 4096
      then some (e.1 % 2 ^ 24 - base) else none)

/-- The content of a page stands as cells rather than as bytes. -/
def State.asCells (s : State) (pp : Nat) : Bool := decide (2 ^ 18 ≤ pp) || s.lat.pages.testBit pp

/-- The cell at a place in memory. -/
def State.cellIn (s : State) (q : Nat) : Cell := Tab.get (fun _ => Cell.cleared) s.lat.cells q

/-- A byte of physical memory. -/
def State.physByte (s : State) (a : Nat) : Byte :=
  if s.asCells (a / 65536) then BitVec.ofNat 8 ((s.cellIn (a / 16)).image 0 / 2 ^ (8 * (a % 16)))
  else Tab.get (fun _ => 0) s.mem.bytes a

/-- The bytes of a page that has stood as cells, from the last one down to the first. -/
def State.cellBytes (s : State) (pp : Nat) : Nat → Tab Byte → Tab Byte
  | 0, t => t
  | n + 1, t =>
    let b := s.physByte (pp * 65536 + n)
    s.cellBytes pp n (if b = 0 then t else (pp * 65536 + n, b) :: t)

/-- A page taken back into use as bytes: its cells become the bytes they were. -/
def State.cellsToBytes (s : State) (pp : Nat) : State :=
  let below := s.mem.bytes.filter (fun e => decide (e.1 / 65536 < pp))
  let above := s.mem.bytes.filter (fun e => decide (pp < e.1 / 65536))
  let bytes := below ++ s.cellBytes pp 65536 above
  let cells := s.lat.cells.filter (fun e => e.1 / 4096 != pp)
  { s with mem := { s.mem with bytes := bytes }, lat := { s.lat with pages := s.lat.pages ^^^ 2 ^ pp, cells := cells } }

/-- Writing a byte of physical memory. -/
def State.setPhysByte (s : State) (a : Nat) (b : Byte) : State :=
  if s.asCells (a / 65536) && (s.latticePage (a / 65536)).isSome then
    let c := Cell.ofImage (octSet ((s.cellIn (a / 16)).image 0) (a % 16) b.toNat)
    { s with lat := { s.lat with cells := Tab.set (fun _ => Cell.cleared) s.lat.cells (a / 16) c } }
  else
    let s := if s.lat.pages.testBit (a / 65536) then s.cellsToBytes (a / 65536) else s
    { s with mem := { s.mem with bytes := Tab.set (fun _ => 0) s.mem.bytes a b } }

/-- Cell number `j * 4096 + i` (R255, R256). -/
def State.cell (s : State) (c : Nat) : Cell :=
  let q := s.cellPlace c
  if s.asCells (q / 4096) then s.cellIn q
  else Cell.ofImage (leNat ((List.range 16).map fun i => s.physByte (16 * q + i)))

/-- Setting a cell. -/
def State.setCell (s : State) (c : Nat) (v : Cell) : State :=
  let q := s.cellPlace c
  if s.asCells (q / 4096) then { s with lat := { s.lat with cells := Tab.set (fun _ => Cell.cleared) s.lat.cells q v } }
  else (List.range 16).foldl (fun s i => s.setPhysByte (16 * q + i) (BitVec.ofNat 8 (v.image 0 / 2 ^ (8 * i)))) s

/-- The number of the cell at a place, when the place belongs to the lattice. -/
def State.cellOf (s : State) (q : Nat) : Option Nat :=
  let pp := q / 4096
  (if 2 ^ 18 ≤ pp then some (pp - 2 ^ 18) else s.latticePage pp).map fun t =>
    (t / 64 * 64 + q % 4096 / 64) * 4096 + (t % 64 * 64 + q % 64)

/-- The mapped pages of the lattice range, as a set of bits. -/
def State.latticeSet (s : State) : Nat :=
  let base := s.rd K.LAT_BASE / 65536
  s.mem.pages.foldl (fun m e => match e.2 with
    | none => m
    | some p => if e.1 / 2 ^ 24 = 56 ∧ base ≤ e.1 % 2 ^ 24 ∧ e.1 % 2 ^ 24 < base + 4096 then m ||| 2 ^ p.phys else m) 0

/-- Every cell of the lattice takes its reset value with OLD set (R269). -/
def State.clearCells (s : State) : State :=
  let m := s.latticeSet
  let bytes := s.mem.bytes.filter (fun e => !m.testBit (e.1 / 65536))
  let cells := s.lat.cells.filter (fun e => decide (e.1 / 4096 < 2 ^ 18) && !m.testBit (e.1 / 4096))
  { s with mem := { s.mem with bytes := bytes }, lat := { s.lat with pages := s.lat.pages ||| m, cells := cells } }

/-- The lattice takes its pages as they are: those that stand as bytes become cells, a cell nothing has written being a cleared one
(R255). -/
def State.takeCells (s : State) : State :=
  let m := s.latticeSet
  let new := fun (a : Nat) => m.testBit (a / 65536) && !s.lat.pages.testBit (a / 65536)
  let places := ((s.mem.bytes.filter (fun e => new e.1)).map (fun e => e.1 / 16)).eraseDups
  let cells := places.foldl (fun t q => Tab.set (fun _ => Cell.cleared) t q
    (Cell.ofImage (leNat ((List.range 16).map fun i => s.physByte (16 * q + i))))) s.lat.cells
  { s with mem := { s.mem with bytes := s.mem.bytes.filter (fun e => !new e.1) }, lat := { s.lat with pages := s.lat.pages ||| m, cells := cells } }

/-- The physical address of a job address of a context. -/
def State.translate (s : State) (tc addr : Nat) : Option Nat :=
  (s.page tc (addr / 65536)).map fun p => p.phys * 65536 + addr % 65536

/-- The fault of a beat, by kind code: 1 NOT_MAPPED, 2 READ_ONLY, 3 DATA_ERROR (R130). -/
def State.beatFault (s : State) (tc addr : Nat) (write : Bool) : Option Nat :=
  if 2 ^ 40 ≤ addr then some 1
  else match s.page tc (addr / 65536) with
  | none => some 1
  | some p =>
    if write && !p.write then some 2
    else if !write && s.mem.bad.contains ((p.phys * 65536 + addr % 65536) / 64) then some 3 else none

/-- The first faulting beat of a run of `n` bytes: kind and job address of the beat. -/
def State.firstFault (s : State) (tc addr n : Nat) (write : Bool) : Option (Nat × Nat) :=
  let beats := (addr + n + 63) / 64 - addr / 64
  (List.range beats).findSome? fun i =>
    let a := addr / 64 * 64 + 64 * i
    (s.beatFault tc a write).map fun k => (k, a)

/-- Bytes read through a context, when no beat faults. -/
def State.readMem (s : State) (tc addr n : Nat) : Option (List Byte) :=
  match s.firstFault tc addr n false with
  | some _ => none
  | none => some ((List.range n).map fun i => ((s.translate tc (addr + i)).map s.physByte).getD 0)

/-- A little-endian number of `n` bytes read through a context. -/
def State.readNum (s : State) (tc addr n : Nat) : Option Nat := (s.readMem tc addr n).map leNat

/-- Writing bytes through a context; a byte whose page is not mapped is left out. -/
def State.writeMem (s : State) (tc addr : Nat) : List Byte → State
  | [] => s
  | b :: t =>
    let s := match s.translate tc addr with
      | some a => s.setPhysByte a b
      | none => s
    s.writeMem tc (addr + 1) t

/-- The owning unit of a pinned-whole context is enabled (R132). -/
def State.unitEnabled (s : State) (tc : Nat) : Bool :=
  if tc = 56 then s.rd K.LAT_ENABLE == 1
  else if tc = 57 then s.rd K.JOURNAL_ENABLE == 1
  else s.role != Role.detached

/-- Job pages of the bulk tables a BED_BULK record of a context refers to (R457): context and page. -/
def bulkPages (k : Nat) (p : List Byte) : List (Nat × Nat) :=
  let num := fun (off n : Nat) => leNat ((p.drop off).take n)
  (List.range 6).flatMap fun i =>
    let a := num (8 + 16 * i) 8
    let n := if i = 5 then (num 0 4 * num 4 4 + 7) / 8 else 2 * num 0 4 * num 4 4
    if n = 0 then [] else (List.range ((a + n - 1) / 65536 + 1 - a / 65536)).map fun q => (32 + k, a / 65536 + q)

/-- The job page is locked for calibration (R460): a page of a slot that is not FREE, or a table of a BED_BULK record that is READY
or installed. -/
def State.calPage (s : State) (tc jp : Nat) : Bool :=
  let base := s.rd K.CAL_OUT_BASE / 65536
  if tc = 63 then decide (base ≤ jp) && decide (jp < base + 2048) && s.rd (K.CAND_STATE ((jp - base) / 32)) != 0
  else if tc < 48 ∨ 56 ≤ tc then false
  else
    let k := tc - 32
    let type := 0x2800 + k
    let mine := match Tab.get (fun _ => none) s.installed type with
      | some r => (bulkPages k r.payload).contains (tc, jp)
      | none => false
    mine || (List.range 64).any fun i =>
      s.rd (K.CAND_STATE i) == 2 && s.rd (K.CAND_TYPE i) == type &&
        (match s.readMem 63 (s.rd K.CAL_OUT_BASE + 2097152 * i + 32) 104 with
         | some p => (bulkPages k p).contains (tc, jp)
         | none => false)

/-- A physical page is write-locked (R136, R460). -/
def State.locked (s : State) (pp : Nat) : Bool :=
  s.mem.pages.any fun e => match e.2 with
    | none => false
    | some p => p.phys == pp &&
      ((decide (e.1 / 2 ^ 24 < 32) && decide (0 < p.pins)) ||
       (decide (56 ≤ e.1 / 2 ^ 24) && decide (e.1 / 2 ^ 24 < 62) && s.unitEnabled (e.1 / 2 ^ 24)) ||
       s.calPage (e.1 / 2 ^ 24) (e.1 % 2 ^ 24))

/-- The first locked page a run of `n` bytes meets. -/
def State.firstLocked (s : State) (tc addr n : Nat) : Option Nat :=
  let pages := if n = 0 then 0 else (addr + n - 1) / 65536 + 1 - addr / 65536
  (List.range pages).findSome? fun i => match s.page tc (addr / 65536 + i) with
    | none => none
    | some p => if s.locked p.phys then some p.phys else none

/-- Parking a context on a beat (R130): state, fault fields and event. A pinned-whole context does not park (R132). -/
def State.park (s : State) (tc kind addr : Nat) (write : Bool) : State :=
  let s := if kind = 3 then s.inc K.MEM_UNCORRECTED else s
  if 56 ≤ tc ∧ tc < 62 then
    s.raise 0xE0 0x00B5 3 tc tc
  else
    let s := s.wrs [(K.TC_STATE tc, 2), (K.TC_FAULT_KIND tc, kind), (K.TC_FAULT_ADDR tc, addr), (K.TC_FAULT_STAMP tc, s.now)]
    let s := s.setTc tc { s.tc tc with faultWrite := write, resumeAt := none }
    s.raise (srcTc tc) 0x00B0 3 tc (tc + addr / 65536 * 2 ^ 32)

/-- A write refused by the write lock: the event of R136. -/
def State.lockEvent (s : State) (tc pp : Nat) : State := s.raise 0xE0 0x00B3 3 tc (tc + pp * 2 ^ 32)

/-- Counting beats of a context (R123, R127, R139). -/
def State.countBeats (s : State) (tc n : Nat) : State :=
  let s := s.bump 64 (K.TC_BEATS tc) n
  let s := s.setTc tc { s.tc tc with used := (s.tc tc).used + n }
  let s := { s with mem := { s.mem with beats := s.mem.beats + n } }
  let share := s.mem.beats * 64 * 100 / 6553600
  if s.rd K.MEM_LOAD_PEAK < share then s.wr K.MEM_LOAD_PEAK (min 100 share) else s

/-- The level-1 entry of a 256 MiB span: the number of its pool table (R121). -/
def State.table (s : State) (tc span : Nat) : Option Nat := Tab.get (fun _ => none) s.mem.l1 (tc * 4096 + span)

/-- Setting the level-1 entry of a span. -/
def State.setTable (s : State) (tc span : Nat) (t : Option Nat) : State :=
  { s with mem := { s.mem with l1 := Tab.set (fun _ => none) s.mem.l1 (tc * 4096 + span) t } }

/-- A level-2 table exists for a span. -/
def State.spanUsed (s : State) (tc span : Nat) : Bool := (s.table tc span).isSome

/-- The pool tables that no span has. -/
def State.freeTables (s : State) : List Nat :=
  (List.range 1792).filter fun t => !(s.mem.l1.any fun e => e.2 == some t)

/-- A level-2 table for a span that has none: any one of the free tables (R121). -/
def State.takeTable (s : State) (tc span : Nat) : State :=
  if s.spanUsed tc span then s
  else
    let (i, s) := s.draw
    let free := s.freeTables
    (s.setTable tc span (some (free.getD ((Config.poolTable i).toNat % max 1 free.length) 0))).wr K.TABLE_FREE (s.rd K.TABLE_FREE - 1)

/-- Level-2 tables a map of `count` pages from `jp` needs. -/
def State.tablesNeeded (s : State) (tc jp count : Nat) : Nat :=
  ((List.range ((jp + count - 1) / 4096 + 1 - jp / 4096)).filter fun i => !s.spanUsed tc (jp / 4096 + i)).length

/-- Mapping one page after another. -/
def mapPages (tc jp pp : Nat) (write : Bool) : Nat → State → State
  | 0, s => s
  | n + 1, s => mapPages tc (jp + 1) (pp + 1) write n
      (s.setPage tc jp (some { phys := pp, write := write, pins := 0, unmap := false }))

/-- The context resumes on the tick after a map that covers its faulting page (R131). -/
def State.autoResume (s : State) (tc jp count : Nat) : State :=
  let fp := s.rd (K.TC_FAULT_ADDR tc) / 65536
  if s.rd (K.TC_STATE tc) = 2 ∧ s.rd (K.TC_AUTO_RESUME tc) = 1 ∧ s.rd (K.TC_FAULT_KIND tc) ≠ 3 ∧ jp ≤ fp ∧ fp < jp + count then
    s.setTc tc { s.tc tc with resumeAt := some (s.tm.tick + 1) }
  else s

/-- A pin more on a page; a page with a deferred unmap is never pinned again (R125). -/
def State.pin (s : State) (tc jp : Nat) : State :=
  match s.page tc jp with
  | none => s
  | some p =>
    if p.unmap then s
    else (s.setPage tc jp (some { p with pins := p.pins + 1 })).wr (K.TC_PINNED_PAGES tc)
      (s.rd (K.TC_PINNED_PAGES tc) + (if p.pins = 0 then 1 else 0))

/-- Every page of the journal ring is mapped for writing (R132). -/
def State.ringMapped (s : State) : Bool :=
  (s.firstFault 57 (s.rd K.JOURNAL_BASE) (s.rd K.JOURNAL_SIZE) true).isNone

/-- The journal writer starts once it is on and its whole ring is mapped: the pages of the ring are pinned (R132). -/
def State.startJournal (s : State) : State :=
  if s.jr.held.isSome ∨ s.rd K.JOURNAL_ENABLE = 0 ∨ !s.ringMapped then s
  else
    let first := s.rd K.JOURNAL_BASE / 65536
    let count := s.rd K.JOURNAL_SIZE / 65536
    let s := (List.range count).foldl (fun (s : State) i => s.pin 57 (first + i)) s
    { s with jr := { s.jr with held := some (first, count) } }

/-- Mapped pages of a context. -/
def State.mappedPages (s : State) (tc : Nat) : List Nat :=
  s.mem.pages.filterMap fun e => if e.1 / 2 ^ 24 = tc ∧ e.2.isSome then some (e.1 % 2 ^ 24) else none

/-- The twin unit holds every mapped page of its contexts while it is enabled (R132; no chapter gives it a range:
notes/assumptions/138). -/
def State.holdTwin (s : State) (tc : Nat) : State :=
  if tc < 58 ∨ 62 ≤ tc ∨ !s.unitEnabled tc then s
  else (s.mappedPages tc).foldl (fun s jp => match s.page tc jp with
    | some p => if p.pins = 0 then s.pin tc jp else s
    | none => s) s

/-- TC_MAP (R124): the answer code and the state. -/
def tcMapEff (tc req : Nat) (s : State) : Nat × State :=
  let jp := bits req 23 0
  let pp := bits req 63 32
  let count := bits req 95 64
  if count = 0 ∨ 4096 < count then (Ans.outOfRange, s)
  else if 2 ^ 24 < jp + count ∨ 261120 < pp + count ∨
      (List.range count).any (fun i => (s.page tc (jp + i)).isSome) ∨
      s.rd K.TABLE_FREE < s.tablesNeeded tc jp count then (Ans.refused, s)
  else
    let spans := (List.range ((jp + count - 1) / 4096 + 1 - jp / 4096)).map fun i => jp / 4096 + i
    let s := spans.foldl (fun (s : State) q => s.takeTable tc q) s
    let s := mapPages tc jp pp (req.testBit 96) count s
    let s := (s.wr (K.TC_MAPPED_PAGES tc) (s.rd (K.TC_MAPPED_PAGES tc) + count)).holdTwin tc
    let s := if tc = 57 then s.startJournal else s
    (Ans.ok, s.autoResume tc jp count)

/-- Unmapping one page at once: its entry goes and a level-2 table that has become empty is freed (R121, R125). -/
def State.dropPage (s : State) (tc jp : Nat) : State :=
  let s := s.setPage tc jp none
  let s := s.wr (K.TC_MAPPED_PAGES tc) (s.rd (K.TC_MAPPED_PAGES tc) - 1)
  if s.mem.pages.any (fun e => e.1 / 4096 == tc * 4096 + jp / 4096) then s
  else (s.setTable tc (jp / 4096) none).wr K.TABLE_FREE (s.rd K.TABLE_FREE + 1)

/-- Unmapping pages: a pinned page is deferred (R125). -/
def unmapPages (tc jp : Nat) : Nat → State → State
  | 0, s => s
  | n + 1, s =>
    let s := match s.page tc jp with
      | none => s
      | some p =>
        if p.pins = 0 then s.dropPage tc jp
        else (s.setPage tc jp (some { p with unmap := true })).inc (K.TC_UNMAP_PENDING tc)
    unmapPages tc (jp + 1) n s

/-- TC_UNMAP (R125). -/
def tcUnmapEff (tc req : Nat) (s : State) : Nat × State :=
  let jp := bits req 23 0
  let count := bits req 63 32
  if count = 0 ∨ 4096 < count then (Ans.outOfRange, s)
  else if 2 ^ 24 < jp + count ∨ (List.range count).any (fun i => match s.page tc (jp + i) with
      | none => true
      | some p => p.unmap) then (Ans.refused, s)
  else (Ans.ok, unmapPages tc jp count s)

/-- A pin less; the last one lets a deferred unmap happen on that tick, and the last deferred unmap of the context is
announced (R125, R137). -/
def State.unpin (s : State) (tc jp : Nat) : State :=
  match s.page tc jp with
  | none => s
  | some p =>
    if p.pins ≤ 1 then
      let s := s.wr (K.TC_PINNED_PAGES tc) (s.rd (K.TC_PINNED_PAGES tc) - (if p.pins = 1 then 1 else 0))
      if p.unmap then
        let s := (s.setPage tc jp (some { p with pins := 0 })).dropPage tc jp
        let left := s.rd (K.TC_UNMAP_PENDING tc) - 1
        let s := s.wr (K.TC_UNMAP_PENDING tc) left
        if left = 0 then s.raise (srcTc tc) 0x00B2 6 tc tc else s
      else s.setPage tc jp (some { p with pins := 0 })
    else s.setPage tc jp (some { p with pins := p.pins - 1 })

/-- The PIN_RELEASED condition of several pages of one context on one tick (R137): it carries the lowest page and how many; a
second release of the context on the tick joins the condition of the first. -/
def State.pinsGone (s : State) (tc low count : Nat) : State :=
  let mine := fun (e : EvRec) => e.code == 0x00B4 && !e.merged && e.data % 256 == tc
  match (s.openEvent s.tm.tick (srcTc tc)).filter mine with
  | some e =>
    let e := { e with data := tc + min 65535 (bits e.data 31 16 + count) * 65536 + min low (bits e.data 63 32) * 2 ^ 32 }
    (s.putOpen e).showEvent e
  | none => s.raise (srcTc tc) 0x00B4 4 tc (tc + min 65535 count * 65536 + low * 2 ^ 32)

/-- Releasing the pins of several pages of one context on one tick: one PIN_RELEASED condition (R137). -/
def State.unpinAll (s : State) (tc : Nat) (pages : List Nat) : State :=
  let gone := pages.filter fun jp => match s.page tc jp with | some p => p.pins == 1 | none => false
  let s := pages.foldl (fun s jp => s.unpin tc jp) s
  match gone with
  | [] => s
  | jp :: rest => s.pinsGone tc (rest.foldl min jp) gone.length

/-- The journal writer stops: its pages are no longer pinned (R132, R137). -/
def State.stopJournal (s : State) : State :=
  match s.jr.held with
  | none => s
  | some (first, count) =>
    ({ s with jr := { s.jr with held := none } }).unpinAll 57 ((List.range count).map fun i => first + i)

/-- The twin unit's pages as its role has become: held while it is enabled, released when it is not (R132, R137). -/
def State.twinPins (s : State) : State :=
  [58, 59, 60, 61].foldl (fun (s : State) tc =>
    if s.unitEnabled tc then s.holdTwin tc
    else s.unpinAll tc ((s.mappedPages tc).filter fun jp => match s.page tc jp with | some p => decide (0 < p.pins) | none => false)) s

/-- Ending every transfer of a context: IDLE, with its fault fields kept. -/
def State.idleTc (s : State) (tc : Nat) : State :=
  (s.setTc tc { s.tc tc with job := .none, more := [], part := none, resumeAt := none }).wr (K.TC_STATE tc) 0

/-- The transfer in hand is over: the next one is taken up, or the context is IDLE. -/
def State.nextJob (s : State) (tc : Nat) : State :=
  match (s.tc tc).more with
  | [] => s.idleTc tc
  | j :: rest => (s.setTc tc { s.tc tc with job := j, more := rest, part := none, resumeAt := none }).wr (K.TC_STATE tc) 1

/-- A transfer that has parked becomes the one in hand, before any other of the context. -/
def State.parkJob (s : State) (tc : Nat) (j : Job) : State :=
  let t := s.tc tc
  let more := match t.job with
    | .none => t.more
    | old => old :: t.more
  s.setTc tc { t with job := j, more := more }

/-- A released context goes on: ACTIVE with a transfer in hand, else IDLE. -/
def State.resumed (s : State) (tc : Nat) : State :=
  (s.setTc tc { s.tc tc with resumeAt := none }).wr (K.TC_STATE tc) (if (s.tc tc).job = .none then 0 else 1)

/-- The fault that the faulting beat of a parked context meets now. A beam-feeding window takes a page with a deferred unmap as
unmapped (R125). -/
def State.resumeFault (s : State) (tc : Nat) : Option Nat :=
  let a := s.rd (K.TC_FAULT_ADDR tc)
  if tc < 32 ∧ (s.page tc (a / 65536)).any (fun p => p.unmap && p.pins == 0) then some 1
  else s.beatFault tc a (s.tc tc).faultWrite

/-- TC_RESUME 0x01 (R131): a DATA_ERROR beat is read again and may park the context again. -/
def tcResumeEff (tc : Nat) (s : State) : Nat × State :=
  if s.rd (K.TC_STATE tc) ≠ 2 then (Ans.refused, s)
  else match s.resumeFault tc with
    | none => (Ans.ok, s.resumed tc)
    | some 3 => (Ans.ok, s.park tc 3 (s.rd (K.TC_FAULT_ADDR tc)) (s.tc tc).faultWrite)
    | some _ => (Ans.refused, s)

/-- A beat of a unit's own write from `start` on that was complete when the write parked. -/
def State.partDone (s : State) (tc start beat : Nat) : Bool := (s.tc tc).part.any fun p => p.1 == start && decide (beat < p.2)

/-- The write from `start` on has come to its end. -/
def State.partOver (s : State) (tc start : Nat) : State :=
  if (s.tc tc).part.any (fun p => p.1 == start) then s.setTc tc { s.tc tc with part := none } else s

/-- Beats of a unit's own write from `start` on, one after another (R130, R136): whether it came to its end, and the state; `lock` says
that a beat to a locked page has raised its event. -/
def State.writeBeats (s : State) (tc start : Nat) : Nat → Nat → List Byte → Bool → Bool × State
  | 0, _, _, _ => (true, s)
  | n + 1, addr, data, lock =>
    if data.isEmpty then (true, s.partOver tc start)
    else
      let k := 64 - addr % 64
      let on := fun (s : State) (lock : Bool) => State.writeBeats s tc start n (addr + min k data.length) (data.drop k) lock
      if s.partDone tc start (addr / 64 * 64) then on s lock
      else match s.beatFault tc addr true with
      | some kind =>
        (false, (s.setTc tc { s.tc tc with part := some (start, addr / 64 * 64) }).park tc kind (addr / 64 * 64) true)
      | none =>
        match s.firstLocked tc addr 1 with
        | some pp => on (if lock then s else s.lockEvent tc pp) true
        | none => on ((s.writeMem tc addr (data.take k)).countBeats tc 1) lock

/-- Bytes a unit writes through a context of its own: false where the context is parked, or parks on a beat (R130); the unit offers
them again, and the beats already complete are not repeated. The beats on a locked page are refused (R136) and the write counts as
done (notes/assumptions/139). -/
def State.tryWrite (s : State) (tc addr : Nat) (data : List Byte) : Bool × State :=
  if s.rd (K.TC_STATE tc) = 2 then (false, s) else s.writeBeats tc addr (data.length / 64 + 3) addr data false

/-- Bytes a unit writes that the context itself keeps where it parks: what is left moves once it has resumed (R128, R131). -/
def State.sendWrite (s : State) (tc addr : Nat) (data : List Byte) : State :=
  if s.rd (K.TC_STATE tc) = 2 then s.setTc tc { s.tc tc with more := (s.tc tc).more ++ [.write addr data] }
  else
    let r := s.tryWrite tc addr data
    if r.1 then r.2
    else
      let a := max addr (((r.2.tc tc).part.map (·.2)).getD addr)
      (r.2.partOver tc addr).parkJob tc (.write a (data.drop (a - addr)))

/-- Winner of the arbitration among waiting contexts (R127): the reserved level first, then priority, then the lower number. -/
def State.arbLevel (s : State) (tc : Nat) : Nat :=
  if (s.tc tc).used < s.rd (K.TC_RESERVE tc) then 8 else s.rd (K.TC_PRIORITY tc)

/-- The context that wins the next beat. -/
def State.arbWinner (s : State) : List Nat → Option Nat
  | [] => none
  | tc :: r =>
    match s.arbWinner r with
    | none => some tc
    | some w =>
      if s.arbLevel w < s.arbLevel tc ∨ (s.arbLevel w = s.arbLevel tc ∧ tc < w) then some tc else some w

/-- The resumes that are due (R131): each parked context whose tick has come leaves PARKED. -/
def State.resumeDue (s : State) : State :=
  (s.mem.tcs.map (·.1)).foldl (fun s tc => match (s.tc tc).resumeAt with
    | some t => if t ≤ s.tm.tick ∧ s.rd (K.TC_STATE tc) = 2 then s.resumed tc else s
    | none => s) s

/-- What TC_PROBE_ENTRY reads. -/
def State.probe (s : State) (tc : Nat) : Nat :=
  match s.page tc (s.rd (K.TC_PROBE_ADDR tc) / 65536) with
  | none => 0
  | some p => p.word

end Sys2Proof.Machine
end

