-- ==== Sys2Proof/Machine/Operands.lean ====
section
/-! DEFINITION. The operand forms of a chord program (R143 to R167): the fields of a 128-bit command, its own errors
under R170, and cursors that step through a program. -/

namespace Sys2Proof.Machine

/-- A signed 32-bit field of a command at bit `lo`. -/
def fieldI (w lo : Nat) : Int := sgn 32 (w / 2 ^ lo)

/-- A field of a command. -/
def fieldU (w hi lo : Nat) : Nat := bits w hi lo

/-- A decoded command, fields as R147 to R167 give them; coordinates without offset. -/
inductive Cmd where
  | mark (x y : Int) (speed power : Nat) (noLoop noFF : Bool)
  | arc (cx cy sweep : Int) (power : Nat) (noLoop noFF : Bool)
  | jump (x y : Int) (speed : Nat) (reorder : Bool)
  | facet (slot passes : Nat) (x y : Int) (angle : Nat) (noLoop noFF : Bool)
  | float (count lune : Nat)
  | claim (limit lune : Nat) (any : Bool)
  | waitTime (time : Nat) (serve trig at' : Bool)
  | waitEvent (timeout code source : Nat) (serve : Bool)
  | barrier (mask id : Nat) (serve : Bool)
  | set (pa va pb vb : Nat)
  | call (dx dy target : Int)
  | ret
  | rep (dx dy : Int) (count length : Nat)
  | marker (tag : Nat)
  | close (layer : Nat)
  | halt
deriving DecidableEq, Repr

/-- Opcodes by name (R144). -/
abbrev Op.mark : Nat := 0x01
abbrev Op.arc : Nat := 0x02
abbrev Op.jump : Nat := 0x03
abbrev Op.facet : Nat := 0x04
abbrev Op.float : Nat := 0x08
abbrev Op.claim : Nat := 0x09
abbrev Op.waitTime : Nat := 0x10
abbrev Op.waitEvent : Nat := 0x11
abbrev Op.barrier : Nat := 0x12
abbrev Op.set : Nat := 0x18
abbrev Op.call : Nat := 0x20
abbrev Op.ret : Nat := 0x21
abbrev Op.rep : Nat := 0x22
abbrev Op.marker : Nat := 0x28
abbrev Op.close : Nat := 0x30
abbrev Op.halt : Nat := 0x31

/-- The command of a 128-bit word; none where the opcode is not listed. -/
def decodeCmd (w : Nat) : Option Cmd :=
  match w % 256 with
  | 0x01 => some (.mark (fieldI w 32) (fieldI w 64) (fieldU w 127 96) (fieldU w 31 16) (w.testBit 9) (w.testBit 8))
  | 0x02 => some (.arc (fieldI w 32) (fieldI w 64) (fieldI w 96) (fieldU w 31 16) (w.testBit 9) (w.testBit 8))
  | 0x03 => some (.jump (fieldI w 32) (fieldI w 64) (fieldU w 127 96) (w.testBit 8))
  | 0x04 => some (.facet (fieldU w 23 16) (fieldU w 111 96) (fieldI w 32) (fieldI w 64) (fieldU w 127 112)
      (w.testBit 9) (w.testBit 8))
  | 0x08 => some (.float (fieldU w 47 32) (fieldU w 22 16))
  | 0x09 => some (.claim (fieldU w 47 32) (fieldU w 22 16) (w.testBit 8))
  | 0x10 => some (.waitTime (fieldU w 127 64) (w.testBit 10) (w.testBit 9) (w.testBit 8))
  | 0x11 => some (.waitEvent (fieldU w 127 96) (fieldU w 47 32) (fieldU w 23 16) (w.testBit 8))
  | 0x12 => some (.barrier (fieldU w 63 48) (fieldU w 23 16) (w.testBit 8))
  | 0x18 => some (.set (fieldU w 23 16) (fieldU w 95 64) (fieldU w 31 24) (fieldU w 127 96))
  | 0x20 => some (.call (fieldI w 64) (fieldI w 96) (fieldI w 32))
  | 0x21 => some .ret
  | 0x22 => some (.rep (fieldI w 64) (fieldI w 96) (fieldU w 63 32) (fieldU w 31 16))
  | 0x28 => some (.marker (fieldU w 127 64))
  | 0x30 => some (.close (fieldU w 63 32))
  | 0x31 => some .halt
  | _ => none

/-- Bits that a command of an opcode defines; all others are reserved (R143). -/
def definedBits (w : Nat) : Nat :=
  let r := fun (hi lo : Nat) => (2 ^ (hi + 1 - lo) - 1) * 2 ^ lo
  match w % 256 with
  | 0x01 => r 127 16 + r 9 0
  | 0x02 => r 127 16 + r 9 0
  | 0x03 => r 127 32 + r 8 0
  | 0x04 => r 127 32 + r 23 16 + r 9 0
  | 0x08 => r 47 32 + r 22 16 + r 7 0
  | 0x09 => r 47 32 + r 22 16 + r 8 0
  | 0x10 => r 127 64 + r 10 0
  | 0x11 => r 127 96 + r 47 32 + r 23 16 + r 8 0
  | 0x12 => r 63 48 + r 23 16 + r 8 0
  | 0x18 => (if fieldU w 31 24 = 0 then 0 else r 127 96) + r 95 64 + r 31 16 + r 7 0
  | 0x20 => r 127 32 + r 7 0
  | 0x21 => r 7 0
  | 0x22 => r 127 16 + r 7 0
  | 0x28 => r 127 64 + r 7 0
  | 0x30 => r 63 32 + r 7 0
  | 0x31 => r 7 0
  | _ => r 127 0

/-- The codes of R170. -/
abbrev Err.badOpcode : Nat := 0x01
abbrev Err.reservedSet : Nat := 0x02
abbrev Err.range : Nat := 0x03
abbrev Err.stack : Nat := 0x04
abbrev Err.badParam : Nat := 0x05
abbrev Err.notEligible : Nat := 0x06
abbrev Err.luneOutside : Nat := 0x07
abbrev Err.floatBody : Nat := 0x08
abbrev Err.wrongLayer : Nat := 0x09
abbrev Err.facetSlot : Nat := 0x0A
abbrev Err.barrierMask : Nat := 0x0B
abbrev Err.bodyEnd : Nat := 0x0C

/-- The value of a SET parameter is valid (R160, R161). -/
def paramOk (p v : Nat) : Bool :=
  match p with
  | 1 => decide (1 ≤ v) && decide (v ≤ 20000000)
  | 2 => decide (1 ≤ v) && decide (v ≤ 40000000)
  | 3 => decide (-10000000 ≤ sgn 32 v) && decide (sgn 32 v ≤ 10000000)
  | 4 => decide (v ≤ 65536)
  | 5 => decide (v ≤ 65535)
  | 6 => decide (400 ≤ v) && decide (v ≤ 400000000)
  | 7 => true
  | _ => false

/-- Errors a command shows by its own fields: RANGE and BAD_PARAM (R147 to R164). -/
def Cmd.fieldErrors (c : Cmd) : List Nat :=
  let bad := fun (b : Bool) (e : Nat) => if b then [e] else []
  match c with
  | .mark _ _ v _ _ _ => bad (decide (20000000 < v)) Err.range
  | .arc _ _ sw _ _ _ => bad (decide (sw = 0) || decide (16777216 < sw.natAbs)) Err.range
  | .jump _ _ v _ => bad (decide (40000000 < v)) Err.range
  | .facet slot passes _ _ _ _ _ => bad (decide (7 < slot) || decide (passes = 0) || decide (4096 < passes)) Err.range
  | .float count _ => bad (decide (count = 0) || decide (1024 < count)) Err.range
  | .claim _ lune any => bad (any && decide (lune ≠ 0)) Err.range
  | .waitTime t _ trig at' => bad ((!trig && !at') || (!at' && decide (t ≠ 0))) Err.range
  | .waitEvent _ _ _ _ => []
  | .barrier _ id _ => bad (decide (15 < id)) Err.range
  | .set pa va pb vb => bad (!paramOk pa va || (pb != 0 && !paramOk pb vb)) Err.badParam
  | .call _ _ t => bad (decide (t = 0)) Err.range
  | .ret => []
  | .rep _ _ count len => bad (decide (count = 0) || decide (len = 0) || decide (4096 < len)) Err.range
  | .marker _ => []
  | .close _ => []
  | .halt => []

/-- Errors a 128-bit word shows by itself: its opcode, its reserved bits, its fields. -/
def wordErrors (w : Nat) : List Nat :=
  match decodeCmd w with
  | none => [Err.badOpcode]
  | some c => (if w &&& definedBits w = w then [] else [Err.reservedSet]) ++ c.fieldErrors

/-- The lowest of some codes (R170). -/
def lowest : List Nat → Option Nat
  | [] => none
  | e :: t => some (t.foldl min e)

/-- A resolved coordinate fits in I32 (R146). -/
def fitsI32 (v : Int) : Bool := decide (-2147483648 ≤ v) && decide (v ≤ 2147483647)

/-- Samples by which k non-chord commands delay the next chord (R145). -/
def decodeDelay (k : Nat) : Nat := divUp' (k + 1) 16 - 1
where
  /-- A quotient rounded up. -/
  divUp' (a b : Nat) : Nat := (a + b - 1) / b

/-- Whether the word is a chord command. -/
def Cmd.isChord : Cmd → Bool
  | .mark _ _ _ _ _ _ => true
  | .arc _ _ _ _ _ _ => true
  | .jump _ _ _ _ => true
  | .facet _ _ _ _ _ _ _ => true
  | .float _ _ | .claim _ _ _ | .waitTime _ _ _ _ | .waitEvent _ _ _ _ | .barrier _ _ _ | .set _ _ _ _ | .call _ _ _
  | .ret | .rep _ _ _ _ | .marker _ | .close _ | .halt => false

/-- MARK or ARC. -/
def Cmd.isVector : Cmd → Bool
  | .mark _ _ _ _ _ _ => true
  | .arc _ _ _ _ _ _ => true
  | _ => false

/-- The command at an address of channel `n`'s program: none where it cannot be fetched, or where fetch has parked (R133, R135). -/
def State.fetch (s : State) (n addr : Nat) : Option Nat :=
  let ok := match s.page n (addr / 65536) with
    | none => false
    | some p => !p.unmap || (s.tc n).window.contains (addr / 65536)
  let waits := s.rd (K.TC_STATE n) == 2 && s.rd (K.TC_FAULT_ADDR n) / 65536 == addr / 65536
  if ok && !waits && decide (addr + 16 ≤ 2 ^ 40) then s.readNum n addr 16 else none

/-- Taking a cursor past the end of the REPEAT bodies it has reached (R164): iteration after iteration, then out. -/
def Cursor.norm : Nat → Cursor → Cursor
  | 0, c => c
  | k + 1, c =>
    match c.stack with
    | .rep start length count iter ox oy dx dy :: t =>
      if c.pc = start + 16 * length then
        if iter + 1 < count then
          { pc := start, ox := ox + ((iter + 1 : Nat) : Int) * dx, oy := oy + ((iter + 1 : Nat) : Int) * dy,
            stack := .rep start length count (iter + 1) ox oy dx dy :: t }
        else Cursor.norm k { pc := c.pc, ox := ox, oy := oy, stack := t }
      else c
    | _ => c

/-- A cursor `k` commands on. -/
def Cursor.skip (c : Cursor) (k : Nat) : Cursor := Cursor.norm 10 { c with pc := c.pc + 16 * k }

/-- CALL (R162); none on a ninth frame. A target below address 0 is not stated; the model takes address 0 for it
(notes/assumptions/140). -/
def Cursor.call (c : Cursor) (dx dy target : Int) : Option Cursor :=
  if 8 ≤ c.stack.length then none
  else some { pc := ((c.pc : Int) + 16 * target).toNat, ox := c.ox + dx, oy := c.oy + dy,
              stack := .call (c.pc + 16) c.ox c.oy :: c.stack }

/-- RETURN (R163); none where the top frame is not a CALL frame. -/
def Cursor.ret (c : Cursor) : Option Cursor :=
  match c.stack with
  | .call r ox oy :: t => some (Cursor.norm 10 { pc := r, ox := ox, oy := oy, stack := t })
  | _ => none

/-- REPEAT (R164); none on a ninth frame. -/
def Cursor.rep (c : Cursor) (dx dy : Int) (count length : Nat) : Option Cursor :=
  if 8 ≤ c.stack.length then none
  else some { c with pc := c.pc + 16, stack := .rep (c.pc + 16) length count 0 c.ox c.oy dx dy :: c.stack }

/-- The cursor of channel `n`. -/
def State.cursor (s : State) (n : Nat) : Cursor :=
  { pc := s.rd (K.CS_PC n), ox := (s.chan n).ox, oy := (s.chan n).oy, stack := (s.chan n).stack }

/-- Setting the cursor of channel `n`. -/
def State.setCursor (s : State) (n : Nat) (c : Cursor) : State :=
  let h := s.chan n
  let broke := if h.brokeAt = some (s.rd (K.CS_PC n)) then none else h.brokeAt
  (s.setChan n { h with stack := c.stack, ox := c.ox, oy := c.oy, brokeAt := broke }).wrs
    [(K.CS_PC n, c.pc), (K.CS_OFFSET_X n, uns 32 c.ox), (K.CS_OFFSET_Y n, uns 32 c.oy), (K.CS_DEPTH n, c.stack.length)]

/-- The parameters in force on channel `n` (R161). -/
def State.params (s : State) (n : Nat) : Params :=
  { markSpeed := s.rd (K.CS_MARK_SPEED n), jumpSpeed := s.rd (K.CS_JUMP_SPEED n), focus := s.rdS 32 (K.CS_FOCUS_OFFSET n),
    scale := s.rd (K.CS_POWER_SCALE n), dwellLimit := s.rd (K.CS_DWELL_LIMIT n), dwellTimeout := s.rd (K.CS_DWELL_TIMEOUT n) }

/-- One parameter set (R160). -/
def Params.set (p : Params) (code v : Nat) : Params :=
  match code with
  | 1 => { p with markSpeed := v }
  | 2 => { p with jumpSpeed := v }
  | 3 => { p with focus := sgn 32 v }
  | 4 => { p with scale := v }
  | 5 => { p with dwellLimit := v }
  | 6 => { p with dwellTimeout := v }
  | _ => p

/-- The key of a present parameter (R161). -/
def paramKey (n code : Nat) : Nat :=
  match code with
  | 1 => K.CS_MARK_SPEED n
  | 2 => K.CS_JUMP_SPEED n
  | 3 => K.CS_FOCUS_OFFSET n
  | 4 => K.CS_POWER_SCALE n
  | 5 => K.CS_DWELL_LIMIT n
  | 6 => K.CS_DWELL_TIMEOUT n
  | _ => K.CS_POOL_TARGET n

/-- A chord command at a cursor, with its coordinates resolved; none where it is no chord. -/
def Cmd.chord (c : Cmd) (cur : Cursor) (par : Params) : Option Chord :=
  let mk := fun (sh : Shape) (v p : Nat) (nl nf r : Bool) =>
    some { shape := sh, speed := v, power := p, noFF := nf, noLoop := nl, reorder := r, addr := cur.pc, par := par }
  match c with
  | .mark x y v p nl nf => mk (.mark (x + cur.ox) (y + cur.oy)) v p nl nf false
  | .arc cx cy sw p nl nf => mk (.arc (cx + cur.ox) (cy + cur.oy) sw) 0 p nl nf false
  | .jump x y v r => mk (.jump (x + cur.ox) (y + cur.oy)) v 0 false false r
  | .facet slot passes x y a nl nf => mk (.facet slot passes (x + cur.ox) (y + cur.oy) a) 0 0 nl nf false
  | _ => none

/-- The resolved coordinates of a chord fit (R146). -/
def Chord.coordsOk (c : Chord) : Bool :=
  match c.shape with
  | .mark x y => fitsI32 x && fitsI32 y
  | .arc x y _ => fitsI32 x && fitsI32 y
  | .jump x y => fitsI32 x && fitsI32 y
  | .facet _ _ x y _ => fitsI32 x && fitsI32 y
  | .park _ _ => true

/-- The radius of an arc from a start point lies between 10 um and 1 m (R148). -/
def arcRadiusOk (x y cx cy : Int) : Bool :=
  let r2 := (x - cx) * (x - cx) + (y - cy) * (y - cy)
  decide (10000 ^ 2 ≤ r2) && decide (r2 ≤ 1000000000 ^ 2)

end Sys2Proof.Machine
end

