-- ==== Sys2Proof/Machine/Access.lean ====
section
/-! DEFINITION. Dictionary access and the host's message path: the checks of R72 and R97, answers and their cache,
mirrored deferral (R416), notices on their way out, and how a command's result becomes an outcome. -/

namespace Sys2Proof.Machine

/-- Releasing a sequencer's wait on tick `t` (R155, R156): at once when no item is being served, else at its end; on a
channel in HOLD at its resume (R515). -/
def State.wake (s : State) (n t : Nat) : State :=
  let c := s.chan n
  if c.itemNow.isSome || s.rd (K.BC_STATE n) != Bc.run then s.setChan n { c with released := some t }
  else
    ((s.setChan n { c with wait := .none, released := none, cand := none, decodes := 0, inRun := false,
                           notBefore := s.nextSample (t + 400) }).setCursor n ((s.cursor n).skip 1)).wrs
      [(K.CS_ACTIVITY n, 1), (K.BC_SHARE_WAIT n, 0), (K.BC_SHARE_AGE n, 0), (K.BC_SHARE_BLOCKER n, 255)]

/-- A condition matches the WAIT_EVENT of channel `n` (R158, R523). -/
def Chan.matches (c : Chan) (h : Nat × Nat × Nat) : Bool :=
  match c.wait with
  | .event src code since timeout _ =>
    src == h.1 && (code == 0xFFFF || code == h.2.1) && decide (since ≤ h.2.2) && c.released.isNone &&
      (timeout == 0 || decide (h.2.2 ≤ since + timeout))
  | _ => false

/-- A condition resets the repetitive slots in EVENT mode that name it (R321). -/
def State.rcHit (s : State) (h : Nat × Nat × Nat) : State :=
  (List.range 32).foldl (fun s i =>
    let e := s.rd (K.RC_EVENT i)
    if s.rd (K.RC_SYNC i) = 2 ∧ s.rd (K.RC_LOOP i) ≠ 0xFF ∧ bits e 23 16 = h.1 ∧ (bits e 15 0 = 0xFFFF ∨ bits e 15 0 = h.2.1)
      then s.wr (K.RC_INDEX i) 0 else s) s

/-- Delivering the conditions a command raised to those that wait for them. -/
def State.settle (s : State) : State :=
  let s' := s.ev.hits.foldl (fun s h =>
    let s := (List.range 16).foldl (fun s n => if (s.chan n).matches h then s.wake n h.2.2 else s) s
    s.rcHit h) s
  let kept := (s'.ev.recent ++ s.ev.hits).filter (fun h => decide (s'.tm.tick ≤ h.2.2))
  { s' with ev := { s'.ev with hits := [], recent := kept } }

/-- The outcome of a command on a running device: its effect, then the delivery of what it raised. A device held in
reset or starting up takes nothing. -/
def live (f : State → State) (s : State) : Host.Outcome State Fault Refusal :=
  .next (if s.dev = .running then (f s).settle else s)

/-- The unit of an RWI entry is idle (step 8 of R72). -/
def State.unitIdle (s : State) (key : Nat) : Bool :=
  let ix := key / 256
  let off := fun (a b : Nat) => decide (a ≤ ix) && decide (ix ≤ b)
  if off 0x1100 0x1101 then true
  else if off 0x1102 0x1103 then s.rd K.CYCLIC_ENABLE == 0
  else if off 0x1300 0x133F then s.rd (K.STREAM_STATE (ix - 0x1300)) != 1
  else if off 0x1400 0x1400 then s.rd K.CYCLIC_ENABLE == 0
  else if off 0x2000 0x2000 then s.phase == Phase.idle
  else if off 0x4000 0x4FFF then
    let n := (ix - 0x4000) / 256
    let x := ix % 256
    if decide (0x48 ≤ x) && decide (x < 0x50) then s.rd (K.FX_STATE n (x - 0x48)) == 0
    else decide (s.rd (K.BC_STATE n) ≤ 1)
  else if off 0x5000 0x5BFF then s.rd (K.LOOP_STATE ((ix - 0x5000) / 32)) == 0
  else if off 0x5C00 0x5DFF then s.rd (K.RC_STATE ((ix - 0x5C00) / 16)) != 1
  else if off 0x6000 0x65FF then s.rd (K.PC_ENABLE ((ix - 0x6000) / 64)) == 0
  else if off 0x6800 0x6800 then s.rd K.LAT_ENABLE == 0
  else if off 0x6820 0x6820 then s.rd K.LAT_SNAP_STATE != 1
  else if off 0x7100 0x713F then s.rd (K.TT_ARM (ix - 0x7100)) == 0
  else if off 0x7200 0x7200 then s.rd K.JOURNAL_ENABLE == 0
  else if off 0x7800 0x79FF then
    let k := (ix - 0x7800) / 0x80
    let x := ix % 0x80
    if x = 2 then s.rd (K.AO_ENABLE k) == 0
    else if 8 ≤ x then s.rd (K.CMP_ARM k (x - 8)) == 0
    else s.rd (K.AX_ENABLE k) == 0
  else if off 0x7A00 0x7AFF then s.rd K.LM_ENABLE == 0
  else if off 0x7E00 0x7EFF then s.rd K.CAL_MEAS_STATE == 0 && (List.range 64).all (fun i => s.rd (K.CAND_STATE i) != 1)
  else if off 0x8000 0x8BFF then s.rd (K.TC_STATE ((ix - 0x8000) / 16)) == 0
  else if off 0xB000 0xB7FF then
    let l := (ix - 0xB000) / 16
    if key % 256 = 1 then (s.phase == Phase.idle || s.phase == Phase.held) && s.rd (K.LUNE_QUEUED l) == 0
    else s.rd (K.LUNE_ENABLE l) == 0
  else if off 0xD000 0xDBFF then s.rd (K.EYE_STATE ((ix - 0xD000) / 64)) != 1
  else true

/-- Steps 1 to 8 of R72 on a write of `v`, sent as `len` bytes, by a host session or the debug port: the code of the
first check that fails. -/
def State.writeCheck (s : State) (debug : Bool) (key len v : Nat) : Option Nat :=
  if !Dict.indexExists (key / 256) then some Ans.noEntry
  else if key % 256 = 0 then some Ans.access
  else match Dict.find key with
  | none => some Ans.noSubindex
  | some r =>
    if r.acc = .ro then some Ans.access
    else if debug && (r.acc = .rwg || key = K.PERMIT_RESTART || key = K.BP_READBACK_CLEAR) then some Ans.guarded
    else if len ≠ r.len then some Ans.size
    else if !r.bitsOk v then some Ans.outOfRange
    else if !r.rangeOk v then some Ans.outOfRange
    else if r.acc = .rwi && !s.unitIdle key then some Ans.unitBusy
    else none

/-- A guarded entry (R12). -/
def guardedKey (key : Nat) : Bool :=
  match Dict.find key with
  | some r => decide (r.acc = .rwg)
  | none => false

/-- Entries of the twin group and PART_OWN entries: written on a part of any role, and never mirrored (R415, R416). -/
def partLocal (key : Nat) : Bool :=
  (decide (0xA000 ≤ key / 256) && decide (key / 256 ≤ 0xA3FF)) ||
    (match Dict.find key with | none => false | some r => r.partOwn)

/-- A command that changes state is mirrored (R416). -/
def State.mirrored (s : State) : Bool :=
  s.role == Role.active && (s.rd K.TWIN_PARTNER_ROLE == Role.standby || s.rd K.TWIN_PARTNER_ROLE == Role.syncing)

/-- A digest input has changed: PENDING from this tick (R85). -/
def State.digestPending (s : State) : State :=
  { (s.wr K.NODE_DIGEST_STATE 1) with kp := { s.kp with digestTick := s.tm.tick } }

/-- A KEEP value has changed: UNSAVED, but not while SAVING or NONE; and the digest input with it (R75, R85). -/
def State.noteKeep (s : State) (key : Nat) : State :=
  let s := { s with kp := { s.kp with changed := true } }
  let s := if s.rd K.KEEP_STATE = 2 ∨ s.rd K.KEEP_STATE = 4 then s else s.wr K.KEEP_STATE 1
  match Dict.find key with
  | none => s
  | some r => if r.partOwn then s else s.digestPending

/-- Step 9 of R72 as R415 adds to it: a part that is not ACTIVE takes a write of its own host for entries of its own only; a command that
its active partner has mirrored it carries out as the partner does (R74, R416). -/
def State.mayWrite (s : State) (remote : Bool) (key : Nat) : Bool := remote || s.role == Role.active || partLocal key

/-- A write that has passed R97: the checks of R72, the entry's own condition and effect `eff`, and what a changed KEEP
value brings about. -/
def State.applyWrite (s : State) (debug remote : Bool) (key len v : Nat) (eff : Nat → State → Nat × State) : Nat × State :=
  match s.writeCheck debug key len v with
  | some c => (c, s)
  | none =>
    if !s.mayWrite remote key then (Ans.refused, s)
    else
      let r := eff v s
      match Dict.find key with
      | some d => if d.keep && d.acc != .rwg && r.2.rd key != s.rd key then (r.1, r.2.noteKeep key) else r
      | none => r

/-- The effect of a write to an entry that only holds its value. -/
def plainEff (key v : Nat) (s : State) : Nat × State := (Ans.ok, s.wr key v)

/-- A frame is accepted at its port (R92). -/
def State.frameOk (s : State) (p : Nat) (f : Frame) : Bool :=
  f.fcsOk && f.toPort && (match f.vid with | none => true | some v => v.toNat == s.rd (K.VLAN_ID_IN_FORCE p)) &&
    f.ethertype.toNat == s.rd (K.ETHERTYPE_IN_FORCE p) &&
    decide (64 ≤ f.length.toNat) && decide (f.length.toNat ≤ (if f.vid.isSome then 1522 else 1518))

/-- A frame dropped at a port (R91). -/
def State.dropFrame (s : State) (p : Nat) : State := s.inc (K.RX_DROPPED p)

/-- Priority of a Zynbeuri frame by its KIND (R88, R92). -/
def State.framePcp (s : State) (p kind : Nat) : Nat :=
  if kind = 0xA0 then s.rd (K.PCP_STREAM p) else if kind = 0x30 then s.rd (K.PCP_CYCLIC p) else s.rd (K.PCP_COMMAND p)

/-- The 802.1Q tag and the EtherType before a Zynbeuri message, in network byte order (R92). -/
def State.frameTag (s : State) (p kind : Nat) : List Byte :=
  toBE 2 0x8100 ++ toBE 2 (s.framePcp p kind * 8192 + s.rd (K.VLAN_ID_IN_FORCE p)) ++ toBE 2 (s.rd (K.ETHERTYPE_IN_FORCE p))

/-- Sending a Zynbeuri frame on a port (R92): its tag, its EtherType and its message. -/
def State.sendFrame (s : State) (p : Nat) (dest b : List Byte) : State :=
  (s.emit (.port p dest) (s.frameTag p (leNat (b.drop 1 |>.take 1)) ++ b)).inc (K.TX_FRAMES p)

/-- Sending a Zynbeuri frame to a host; the manual does not state its destination address (notes/assumptions/134). -/
def State.sendPort (s : State) (p : Nat) (b : List Byte) : State := s.sendFrame p [] b

/-- A Zynbeuri message from the device (R93). -/
def State.message (s : State) (kind flags session seq : Nat) (body : List Byte) : List Byte :=
  toLE 1 1 ++ toLE 1 kind ++ toLE 1 flags ++ toLE 1 s.role ++ toLE 2 session ++ toLE 2 body.length ++ toLE 4 seq ++
    toLE 4 (s.rd K.TWIN_EPOCH) ++ body

/-- An ANSWER (R96). -/
def State.answerBytes (s : State) (session seq code kind stamp : Nat) (data : List Byte) : List Byte :=
  s.message 0x80 0 session seq (toLE 1 code ++ toLE 1 kind ++ toLE 2 0 ++ toLE 8 stamp ++ data)

/-- The session with a number. -/
def State.session (s : State) (num : Nat) : Option Session := s.sessions.find? (fun x => x.num == num)

/-- Changing the session with a number. -/
def State.updSession (s : State) (num : Nat) (f : Session → Session) : State :=
  { s with sessions := s.sessions.map (fun (x : Session) => if x.num == num then f x else x) }

/-- Answering a command of a session and caching the answer (R96, R100). -/
def State.reply (s : State) (port session seq kind code : Nat) (data : List Byte) : State :=
  let b := s.answerBytes session seq code kind s.now data
  (s.updSession session (fun x => { x with cache := ((seq, b) :: x.cache).take 64 })).sendPort port b

/-- HOST_COMMAND of R525: one for each READ, WRITE, STAGE and CONCUR that consumed its SEQ. -/
def State.hostEvent (s : State) (kind key code session : Nat) : State :=
  if 0x10 ≤ kind ∧ kind ≤ 0x13 then
    s.raise 0xF8 0x0160 5 0 (key / 256 % 65536 + key % 256 * 65536 + code * 2 ^ 24 + session * 2 ^ 32)
  else s

/-- Step 6 of R97 (R415): the part holds the addressed role and epoch. -/
def State.roleHeld (s : State) (role epoch : Nat) : Bool :=
  role == 0 || (role == s.role && (epoch == 0 || epoch == s.rd K.TWIN_EPOCH))

/-- The LENGTH field leaves room in the frame for header and body (step 3 of R97). -/
def msgFits (m : Msg) : Bool :=
  decide (m.length.toNat ≤ 1484) &&
    decide (16 + m.length.toNat + 18 + (if m.frame.vid.isSome then 4 else 0) ≤ m.frame.length.toNat)

/-- The reserved bits of header and body are zero. -/
def msgClean (m : Msg) : Bool := m.resv == 0 && decide (m.flags.toNat ≤ 1)

/-- Resending a cached answer with RETRY set (R100). -/
def State.resend (s : State) (p : Nat) (b : List Byte) : State := s.sendPort p (b.take 2 ++ [(1 : Byte)] ++ b.drop 3)

/-- A deferred command of this part's host that has not been answered yet (R416). -/
def Mirror.waitsFor (r : Mirror) (session seq : Nat) : Bool := !r.remote && r.session == session && r.seq == seq

/-- An answered command of a session: steps 1 to 6 of R97, then `k`, whose result is answered and cached unless it has
been deferred. `fit` says whether LENGTH suits the kind, `key` names the entry for the event. A duplicate of a deferred command that
has no answer yet is answered with it (DEDUCED: notes/assumptions/136). -/
def hostCmd (m : Msg) (kind key : Nat) (fit : Bool) (k : State → Option (Nat × List Byte) × State) (s : State) : State :=
  let p := m.port.val
  if 2 ≤ p ∨ !s.frameOk p m.frame then s.dropFrame p
  else
    let s := s.inc (K.RX_FRAMES p)
    let bad := fun (code : Nat) (data : List Byte) (ses : Nat) =>
      s.sendPort p (s.answerBytes ses m.seq.toNat code kind s.now data)
    if m.version ≠ 1 then bad Ans.badVersion [] 0
    else if !fit || !msgFits m || !msgClean m then bad Ans.malformed [] 0
    else match s.session m.session.toNat with
    | none => bad Ans.noSession [] 0
    | some ss =>
      let s := s.updSession ss.num (fun x => { x with lastTick := s.tm.tick, lastPort := p })
      if m.seq.toNat = ss.next then
        let s := s.updSession ss.num (fun x => { x with next := (ss.next + 1) % 2 ^ 32 })
        if !s.roleHeld m.role.toNat m.epoch.toNat then
          (s.reply p ss.num m.seq.toNat kind Ans.roleStale []).hostEvent kind key Ans.roleStale ss.num
        else match k s with
          | (none, s) => s
          | (some (code, data), s) => (s.reply p ss.num m.seq.toNat kind code data).hostEvent kind key code ss.num
      else
        match (if (ss.next + 2 ^ 32 - m.seq.toNat) % 2 ^ 32 ≤ 64 then ss.cache.find? (fun c => c.1 == m.seq.toNat) else none) with
        | some (_, b) => s.resend p b
        | none =>
          if s.mirrors.any (fun r => r.waitsFor ss.num m.seq.toNat) then
            { s with mirrors := s.mirrors.map (fun (r : Mirror) =>
              if r.waitsFor ss.num m.seq.toNat then { r with dups := r.dups ++ [p] } else r) }
          else s.sendPort p (s.answerBytes ss.num m.seq.toNat Ans.seqGap kind s.now (toLE 4 ss.next))

/-- A partner message (R351): its header of type, length and the sender's role epoch, and its body padded to a multiple of 8. -/
def partnerMsg (epoch type : Nat) (body : List Byte) : List Byte :=
  toLE 2 type ++ toLE 2 body.length ++ toLE 4 epoch ++ body ++ List.replicate ((8 - body.length % 8) % 8) 0

/-- Sending a partner message (R351, R409): it goes with the next groups of both links. -/
def State.sendPartner (s : State) (type : Nat) (body : List Byte) : State :=
  { s with tw := { s.tw with out := s.tw.out ++ [partnerMsg (s.rd K.TWIN_EPOCH) type body] } }

/-- Sending a partner message that carries a MIRROR_SEQ (R409, R410). -/
def State.sendMirror (s : State) (type : Nat) (body : List Byte) : State :=
  let q := (s.tw.mirrorSeq + 1) % 2 ^ 32
  ({ s with tw := { s.tw with mirrorSeq := q } }).sendPartner type (toLE 4 q ++ body)

/-- Sending what a standby cannot derive, while there is one that hears it (R411). -/
def State.tellPartner (s : State) (type : Nat) (body : List Byte) : State := if s.mirrored then s.sendMirror type body else s

/-- Mirroring bytes written through a context (R410, R416): MEMORY_WRITE messages that each fit a group. -/
def State.mirrorBytes (tc : Nat) : Nat → Nat → List Byte → State → State
  | 0, _, _, s => s
  | n + 1, addr, data, s =>
    let d := data.take 512
    State.mirrorBytes tc n (addr + d.length) (data.drop 512)
      (s.sendMirror 0x0011 (toLE 1 tc ++ toLE 3 0 ++ toLE 8 addr ++ toLE 4 d.length ++ d))

/-- Bytes written through a context go to a partner that hears them (R416). -/
def State.mirrorMemory (s : State) (tc addr : Nat) (data : List Byte) : State :=
  if s.mirrored then State.mirrorBytes tc ((data.length + 511) / 512) addr data s else s

/-- The header of a message as it was received (R93). -/
def msgHeader (m : Msg) (kind : Nat) : List Byte :=
  toLE 1 m.version.toNat ++ toLE 1 kind ++ toLE 1 m.flags.toNat ++ toLE 1 m.role.toNat ++ toLE 2 m.session.toNat ++
    toLE 2 m.length.toNat ++ toLE 4 m.seq.toNat ++ toLE 4 m.epoch.toNat

/-- The mirror message of a deferred command (R410): MAP for a map or unmap request, else HOST_COMMAND with header and
body as received. -/
def mirrorBody (m : Msg) (kind key effect host : Nat) (body bytes : List Byte) : Nat × List Byte :=
  if 0x8000 ≤ key / 256 ∧ key / 256 < 0x8C00 ∧ (key % 256 = 5 ∨ key % 256 = 6) then
    (0x0012, toLE 8 effect ++ toLE 1 ((key / 256 - 0x8000) / 16) ++ toLE 1 (key % 256 - 4) ++ toLE 2 0 ++ bytes)
  else (0x0010, toLE 8 effect ++ toLE 8 host ++ msgHeader m kind ++ body)

/-- A command deferred to its EFFECT tick (R416): it waits, goes to the partner, and shows as the last one mirrored. -/
def State.defer (s : State) (m : Msg) (kind key party proposal : Nat) (body bytes : List Byte) : State :=
  let host := ((s.session m.session.toNat).map (·.hostId)).getD 0
  let r : Mirror := { effect := s.tm.tick + 64, remote := false, kind := kind, port := m.port.val, session := m.session.toNat,
                      hostId := host, seq := m.seq.toNat, key := key, party := party, proposal := proposal, bytes := bytes, dups := [] }
  let s := { s with mirrors := s.mirrors ++ [r] }
  let s := s.wr K.TWIN_LAST_MIRRORED (host + m.seq.toNat * 2 ^ 64)
  let b := mirrorBody m kind key (s.pair (s.tm.tick + 64)) host body bytes
  s.sendMirror b.1 b.2

/-- A WRITE of `v` in `len` bytes to an entry, by a host session: step 8 of R97, deferral on a twin pair, then R72 and
the entry's effect. -/
def hostWrite (m : Msg) (key len v : Nat) (eff : Nat → State → Nat × State) (s : State) : State :=
  hostCmd m 0x11 key (m.length.toNat == 4 + len && decide (1 ≤ len) && decide (len ≤ 1024)) (fun s =>
    if guardedKey key then (some (Ans.kindMismatch, []), s)
    else if s.mirrored && !partLocal key then (none, s.defer m 0x11 key 0 0 (toLE 2 (key / 256) ++ toLE 1 key ++ toLE 1 0 ++ toLE len v) (toLE len v))
    else
      let r := s.applyWrite false false key len v eff
      (some (r.1, []), r.2)) s

/-- A WRITE that commands something, as an outcome. -/
def writeCmd (m : Msg) (key len v : Nat) (eff : Nat → State → Nat × State) (s : State) : Host.Outcome State Fault Refusal :=
  live (hostWrite m key len v eff) s

/-- How long a condition event stays open for conditions of the same stamp that are delivered late (R558): longer than
any filter of the pins and well within 5,000 ticks. -/
def closeDelay : Nat := 300

/-- The body of a queued notice. -/
def Notice.body (n : Notice) : List Byte :=
  match n.ev with
  | some e => recordBytes e e.seq
  | none => n.summary

/-- Sending one notice to a session (R103). -/
def State.sendNotice (s : State) (ss : Session) (n : Notice) (num : Nat) (retry : Bool) : State :=
  s.sendPort ss.lastPort (s.message (if n.ev.isSome then 0xC0 else 0xC1) (if retry then 1 else 0) ss.num num n.body)

/-- Sending to a session what its credit allows, in queue order (R103): `q` is the part of the queue still to look at. -/
def pumpQueue (num : Nat) : List Notice → List Notice → State → State
  | done, [], s => { s with ev := { s.ev with queue := done.reverse } }
  | done, n :: q, s =>
    match s.session num with
    | none => { s with ev := { s.ev with queue := done.reverse ++ n :: q } }
    | some ss =>
      if n.openOf.isSome then { s with ev := { s.ev with queue := done.reverse ++ n :: q } }
      else if n.addr.contains num && !(n.sent.any (fun x => x.1 == num)) && decide (ss.sentSeq - ss.ackSeq < ss.credit) then
        let num' := ss.sentSeq + 1
        let s := s.sendNotice ss n num' false
        let s := s.updSession num (fun x => { x with sentSeq := num' })
        pumpQueue num ({ n with sent := (num, num', s.tm.tick) :: n.sent } :: done) q s
      else pumpQueue num (n :: done) q s

/-- Sending notices to every session. -/
def State.pump (s : State) : State :=
  s.sessions.foldl (fun s ss => pumpQueue ss.num [] s.ev.queue s) s

/-- The body of a NOTICE_SUMMARY (R105). -/
def Events.summaryBody (e : Events) : List Byte :=
  toLE 8 e.firstStamp ++ toLE 8 e.lastStamp ++ toLE 4 e.total ++ toLE 2 e.counts.length ++
    toLE 2 0 ++ e.counts.flatMap (fun c => toLE 1 c.1 ++ toLE 3 c.2)

/-- Every session an entry is addressed to has acknowledged it or has closed (R104); one that is addressed to none stays. -/
def State.acked (s : State) (n : Notice) : Bool :=
  !n.addr.isEmpty && n.addr.all (fun a => match s.session a with
    | none => true
    | some ss => match n.sent.find? (fun x => x.1 == a) with
      | none => false
      | some x => decide (x.2.1 ≤ ss.ackSeq))

/-- The queue becomes `q`: where that frees an entry and events have been counted, the summary takes one and the counts begin anew (R104,
R105, R530). -/
def State.takeQueue (s : State) (q : List Notice) : State :=
  let freed := decide (q.length < s.ev.queue.length)
  let s := { s with ev := { s.ev with queue := q } }
  let s := if freed && !s.ev.counts.isEmpty then
      let n : Notice := { openOf := none, ev := none, summary := s.ev.summaryBody, addr := s.sessions.map (·.num), sent := [] }
      ({ s with ev := { s.ev with queue := s.ev.queue ++ [n], counts := [], total := 0 } }).inc K.NOTICE_SUMMARIES
    else s
  s.countQueue

/-- Freeing the entries that every addressed session has acknowledged or left (R104). -/
def State.freeNotices (s : State) : State := s.takeQueue (s.ev.queue.filter (fun n => !s.acked n))

end Sys2Proof.Machine
end

