-- ==== Sys2Proof/Machine/LoopBase.lean ====
section
/-! DEFINITION. The states of loop channels (R314, R315): closing, holding, idling and the outputs in force. -/

namespace Sys2Proof.Machine

/-- A loop channel that has not run. -/
def Loop.init : Loop :=
  { sp := 0, sv := 0, iacc := 0, enPrev := 0, rPrev := 0, haveFb := false, newFb := false, seq := 0, missRun := 0, ut := 0,
    ramp := 0, moving := false, rawPrev := none, fzY := 0, fzSeq := 0, fzCmds := [], oscSign := 0, oscAges := [],
    feRun := 0, mark := none, lastAt := none, ff := 0, count := 0 }

/-- Loop channel `m`. -/
def State.loop (s : State) (m : Nat) : Loop := Tab.get (fun _ => Loop.init) s.loops m

/-- Setting loop channel `m`. -/
def State.setLoop (s : State) (m : Nat) (x : Loop) : State := { s with loops := Tab.set (fun _ => Loop.init) s.loops m x }

/-- An empty repetitive slot. -/
def Rep.init : Rep := { table := [], paired := false, suspended := false }

/-- Repetitive slot `i`. -/
def State.rep (s : State) (i : Nat) : Rep := Tab.get (fun _ => Rep.init) s.reps i

/-- Setting repetitive slot `i`. -/
def State.setRep (s : State) (i : Nat) (x : Rep) : State := { s with reps := Tab.set (fun _ => Rep.init) s.reps i x }

/-- Codes of LOOP_STATE and LOOP_CAUSE (R331). -/
abbrev Lp.idle : Nat := 0
abbrev Lp.closed : Nat := 1
abbrev Lp.hold : Nat := 2
abbrev Lp.tripped : Nat := 3
abbrev LpCause.host : Nat := 0x01
abbrev LpCause.noLoop : Nat := 0x02
abbrev LpCause.underrun : Nat := 0x03
abbrev LpCause.driveSilent : Nat := 0x04
abbrev LpCause.oscillation : Nat := 0x05
abbrev LpCause.fbLost : Nat := 0x10
abbrev LpCause.fbFrozen : Nat := 0x11
abbrev LpCause.following : Nat := 0x12
abbrev LpCause.hostTrip : Nat := 0x13

/-- State of loop `m`. -/
def State.loopState (s : State) (m : Nat) : Nat := s.rd (K.LOOP_STATE m)

/-- Output in force of loop `m`. -/
def State.loopOut (s : State) (m : Nat) : Int := s.rdS 32 (K.LOOP_OUTPUT m)

/-- The four loops of a beam channel (R310). -/
def beamLoops (n : Nat) : List Nat := [3 * n, 3 * n + 1, 3 * n + 2, 48 + n]

/-- The state of a repetitive slot follows its loop and mode (R321, R250). -/
def State.syncRep (s : State) (i : Nat) : State :=
  let l := s.rd (K.RC_LOOP i)
  let active := s.rd (K.RC_MODE i) ≠ 0 ∧ l ≠ 0xFF ∧ s.loopState l = Lp.closed
  let st := if !decide active then 0
    else if s.rd (K.RC_SYNC i) = 1 ∧ (!(s.rep i).paired || (s.rep i).suspended) then 2 else 1
  s.wr (K.RC_STATE i) st

/-- The repetitive slots attached to a loop, ascending. -/
def State.slotsOf (s : State) (m : Nat) : List Nat := (List.range 32).filter (fun i => s.rd (K.RC_LOOP i) == m)

/-- A loop takes a state with its cause (R314). -/
def State.setLoopState (s : State) (m st cause : Nat) : State :=
  let s := s.wrs [(K.LOOP_STATE m, st), (K.LOOP_CAUSE m, cause), (K.LOOP_STATE_STAMP m, s.now)]
  (s.slotsOf m).foldl (fun s i => s.syncRep i) s

/-- Set-point of a loop as its entry and its driver give it (R310, R313): galvo set-points are those of the channel's
record in force, a power loop's is POOL_TARGET unless that is 0. -/
def State.loopSetpoint (s : State) (m : Nat) : Int :=
  if m < 48 then
    let c := s.chan (m / 3)
    match m % 3 with
    | 0 => c.hx
    | 1 => c.hy
    | _ => c.hz
  else if m < 64 then
    let t := s.rd (K.CS_POOL_TARGET (m - 48))
    if t = 0 then s.rdS 32 (K.LOOP_SETPOINT m) else t
  else
    match (List.range 32).find? (fun k => s.rd (K.LOOP_OUT_TARGET (64 + k)) == 0x0100 + m) with
    | some k => s.loopOut (64 + k)
    | none => s.rdS 32 (K.LOOP_SETPOINT m)

/-- Entry to CLOSED from IDLE (R315): shaper and history at the newest feedback, or at the set-point when none has been
present. -/
def State.closeLoop (s : State) (m : Nat) : State :=
  let x := s.loop m
  let y := if x.haveFb then s.rdS 32 (K.LOOP_FEEDBACK m) else s.loopSetpoint m
  let s := s.setLoop m { x with sp := y * 65536, sv := 0, iacc := 0, enPrev := 0, rPrev := y, missRun := 0, fzCmds := [],
                                oscSign := 0, oscAges := [], feRun := 0 }
  (s.wr (K.LOOP_INTEGRATOR m) 0).setLoopState m Lp.closed 0

/-- A loop returns to IDLE: its output is 0 (R315). -/
def State.idleLoop (s : State) (m : Nat) : State := (s.wr (K.LOOP_OUTPUT m) 0).setLoopState m Lp.idle 0

/-- A CLOSED loop enters HOLD. -/
def State.holdLoop (s : State) (m cause : Nat) : State :=
  if s.loopState m = Lp.closed then s.setLoopState m Lp.hold cause else s

/-- A loop held for one cause is closed again. -/
def State.unholdLoop (s : State) (m cause : Nat) : State :=
  if s.loopState m = Lp.hold ∧ s.rd (K.LOOP_CAUSE m) = cause then s.setLoopState m Lp.closed 0 else s

/-- An event of loop `m` (R329). -/
def State.loopEvent (s : State) (m code cls detail : Nat) (value : Int) : State :=
  s.raise (0x80 + m / 3) code cls m (m + detail * 256 + uns 32 value * 2 ^ 32)

/-- One output instant of a TRIPPED loop (R327): the ramp to zero. -/
def State.rampLoop (s : State) (m : Nat) : State :=
  if s.loopState m ≠ Lp.tripped then s
  else
    let x := s.loop m
    let k := x.ramp + 1
    let n := s.rd (K.LOOP_TRIP_RAMP m)
    let u : Int := if n ≤ k then 0 else Int.tdiv (x.ut * ((n - k : Nat) : Int)) n
    (s.setLoop m { x with ramp := k }).wrS 32 (K.LOOP_OUTPUT m) u

/-- The feedback of a loop has arrived (R312). -/
def State.feed (s : State) (m : Nat) (y : Int) (seq : Nat) : State :=
  (s.setLoop m { s.loop m with haveFb := true, newFb := true, seq := seq }).wrS 32 (K.LOOP_FEEDBACK m) y

/-- Feedback that arrives too late for its sample (R31, R312): it is the newest, and the sample counts as missing. -/
def State.feedLate (s : State) (m : Nat) (y : Int) (seq : Nat) : State :=
  (s.setLoop m { s.loop m with haveFb := true, seq := seq }).wrS 32 (K.LOOP_FEEDBACK m) y

end Sys2Proof.Machine
end

