-- ==== Sys2Proof/Machine/Geometry.lean ====
section
/-! DEFINITION. Plane geometry in integers: square roots, sines in fixed point, convex polygons. Lengths are in nm. -/

namespace Sys2Proof.Machine

/-- One step of the bitwise square root: the root so far, and the bit to try. -/
def sqrtStep (x : Nat) : Nat → Nat → Nat
  | 0, r => r
  | k + 1, r => let t := r + 2 ^ k; sqrtStep x k (if t * t ≤ x then t else r)

/-- The largest `r` with `r * r ≤ x`. -/
def isqrt (x : Nat) : Nat := sqrtStep x (x.log2 / 2 + 1) 0

/-- The smallest `r` with `x ≤ r * r`. -/
def ceilSqrt (x : Nat) : Nat := let r := isqrt x; if r * r = x then r else r + 1

/-- A quotient rounded up. -/
def divUp (a b : Nat) : Nat := (a + b - 1) / b

/-- pi times 2^96. -/
abbrev piFix : Nat := 248902613312231085230521944622

/-- Turns are counted in units of 2^-48, sines in units of 2^-60. -/
abbrev turnUnit : Nat := 2 ^ 48
abbrev sinUnit : Int := 2 ^ 60

/-- Terms of a sine or cosine series: `t` is the last term, `x2` the squared angle, `k` its index. -/
def trigTerms (x2 : Int) : Nat → Nat → Int → Int
  | 0, _, _ => 0
  | n + 1, k, t => t + trigTerms x2 n (k + 2) (-(t * x2 / sinUnit) / ((k + 1) * (k + 2) : Nat))

/-- Sine and cosine of an angle within an eighth of a turn, given in 2^-60 radians. -/
def sinSmall (x : Int) : Int := trigTerms (x * x / sinUnit) 12 1 x
def cosSmall (x : Int) : Int := trigTerms (x * x / sinUnit) 12 0 sinUnit

/-- Radians (2^-60) of a number of turn units. -/
def radians (t : Int) : Int := t * (2 * (piFix : Int)) / 2 ^ 84

/-- Cosine and sine of an angle in turn units: the angle is reduced to the nearest quarter turn. -/
def cosSin (turns : Int) : Int × Int :=
  let t := turns % (turnUnit : Int)
  let q := (t + turnUnit / 8) / (turnUnit / 4)
  let x := radians (t - q * (turnUnit / 4 : Nat))
  let c := cosSmall x
  let d := sinSmall x
  match q % 4 with
  | 0 => (c, d)
  | 1 => (-d, c)
  | 2 => (-c, -d)
  | _ => (d, -c)

/-- Cosine and sine of an angle in 2^-16 turn. -/
def cosSin16 (a : Nat) : Int × Int := cosSin (a * 2 ^ 32)

/-- Cross product of `b - a` and `c - a`. -/
def cross (a b c : Int × Int) : Int := (b.1 - a.1) * (c.2 - a.2) - (b.2 - a.2) * (c.1 - a.1)

/-- Popping the points of a half hull that a new point makes redundant. -/
def popHull (p : Int × Int) : List (Int × Int) → List (Int × Int)
  | b :: a :: t => if cross a b p ≤ 0 then popHull p (a :: t) else b :: a :: t
  | l => l
termination_by structural l => l

/-- A half hull of points in order. -/
def halfHull (ps : List (Int × Int)) : List (Int × Int) := ps.foldl (fun h p => p :: popHull p h) []

/-- Order of points by x then y. -/
def ptLe (a b : Int × Int) : Bool := decide (a.1 < b.1) || (decide (a.1 = b.1) && decide (a.2 ≤ b.2))

/-- Putting a point into an ordered list without repeats. -/
def insPt (p : Int × Int) : List (Int × Int) → List (Int × Int)
  | [] => [p]
  | q :: t => if p = q then q :: t else if ptLe p q then p :: q :: t else q :: insPt p t

/-- The convex hull of a set of points, counter-clockwise. -/
def hull (ps : List (Int × Int)) : List (Int × Int) :=
  let s := ps.foldl (fun l p => insPt p l) []
  match s with
  | [] => []
  | [p] => [p]
  | _ => ((halfHull s).drop 1).reverse ++ ((halfHull s.reverse).drop 1).reverse

/-- Least and greatest value of a list of numbers. -/
def spanOf : List Int → Int × Int
  | [] => (0, 0)
  | x :: t => t.foldl (fun m y => (min m.1 y, max m.2 y)) (x, x)

/-- The extents of two point sets along a direction do not meet. -/
def apartAlong (d : Int × Int) (p q : List (Int × Int)) : Bool :=
  let a := spanOf (p.map fun v => v.1 * d.1 + v.2 * d.2)
  let b := spanOf (q.map fun v => v.1 * d.1 + v.2 * d.2)
  decide (a.2 < b.1) || decide (b.2 < a.1)

/-- Edge directions of a polygon. -/
def edgesOf (p : List (Int × Int)) : List (Int × Int) :=
  (p.zip (p.drop 1 ++ p.take 1)).map fun e => (e.2.1 - e.1.1, e.2.2 - e.1.2)

/-- Two convex polygons meet; touching counts (R208). -/
def meets (p q : List (Int × Int)) : Bool :=
  !p.isEmpty && !q.isEmpty &&
    !((edgesOf p ++ edgesOf q).any fun d => apartAlong (-d.2, d.1) p q || apartAlong d p q) &&
    !apartAlong (1, 0) p q && !apartAlong (0, 1) p q

/-- A point lies in a convex counter-clockwise polygon or on its boundary. -/
def inside (poly : List (Int × Int)) (p : Int × Int) : Bool :=
  !poly.isEmpty && (poly.zip (poly.drop 1 ++ poly.take 1)).all fun e => decide (0 ≤ cross e.1 e.2 p)

/-- An edge direction points to the lower half of the plane, the negative x axis with it. -/
def lowerHalf (d : Int × Int) : Bool := decide (d.2 < 0) || (decide (d.2 = 0) && decide (d.1 < 0))

/-- Times the edge directions of a polygon that turns left throughout pass the positive x axis: how often its boundary winds. -/
def winding (poly : List (Int × Int)) : Nat :=
  let e := edgesOf poly
  ((e.zip (e.drop 1 ++ e.take 1)).filter fun d => lowerHalf d.1 && !lowerHalf d.2).length

/-- Every corner of a closed polygon turns left, and its boundary winds once (R204). -/
def strictlyConvex (poly : List (Int × Int)) : Bool :=
  let nxt := poly.drop 1 ++ poly.take 1
  let nx2 := poly.drop 2 ++ poly.take 2
  decide (3 ≤ poly.length) && ((poly.zip (nxt.zip nx2)).all fun t => decide (0 < cross t.1 t.2.1 t.2.2)) && winding poly == 1

/-- Vertices before their rounding are counted in units of 2^-40 nm. -/
abbrev fineUnit : Int := 2 ^ 40

/-- A fine coordinate rounded to 1 um away from a middle (R208). -/
def outward (mid2 x : Int) : Int :=
  let um := 1000 * fineUnit
  if mid2 ≤ 2 * x then -((-x) / um) * 1000 else x / um * 1000

/-- A polygon with its fine vertices rounded outward to 1 um. -/
def roundFine (p : List (Int × Int)) : List (Int × Int) :=
  let bx := spanOf (p.map (·.1))
  let b := spanOf (p.map (·.2))
  p.map fun v => (outward (bx.1 + bx.2) v.1, outward (b.1 + b.2) v.2)

/-- A polygon of whole nm with its vertices rounded outward to 1 um. -/
def roundOut (p : List (Int × Int)) : List (Int × Int) := roundFine (p.map fun v => (v.1 * fineUnit, v.2 * fineUnit))

/-- The corners of an axis-aligned box. -/
def boxPoly (x0 y0 x1 y1 : Int) : List (Int × Int) := [(x0, y0), (x1, y0), (x1, y1), (x0, y1)]

/-- The bounding box of points: x0, y0, x1, y1. -/
def bboxOf (p : List (Int × Int)) : Int × Int × Int × Int :=
  let bx := spanOf (p.map (·.1))
  let b := spanOf (p.map (·.2))
  (bx.1, b.1, bx.2, b.2)

end Sys2Proof.Machine
end

