-- ==== Sys2Proof/Machine/Motion.lean ====
section
/-! DEFINITION. Planned motion (R174 to R180): durations, lead-in and lead-out, blanked transfers, arcs, and the position
of a planned path at each sample. Lengths are in nm, times in ticks, speeds in um/s, accelerations in mm/s^2. -/

namespace Sys2Proof.Machine

/-- The squared distance of two points. -/
def dist2 (x0 y0 x1 y1 : Int) : Nat := ((x1 - x0) * (x1 - x0) + (y1 - y0) * (y1 - y0)).toNat

/-- The side, 0 or 1, to which a point is rounded where the manual gives only a bound (R176, R177). -/
def roundSide (key : Nat) : Int := (Config.pathRound key).toNat

/-- Marked samples of a straight vector (R175): ceil of the duration over 400, at least 1. -/
def markSamples (l2 speed : Nat) : Nat := max 1 (divUp (ceilSqrt (divUp (l2 * 10 ^ 10) (speed * speed))) 400)

/-- Squared length of an arc times 2^240: `r2` the squared radius, `sweep` in 2^-24 turn (R176). -/
def arcLen2 (r2 sweep : Nat) : Nat := r2 * (sweep * sweep) * (4 * (piFix * piFix))

/-- Marked samples of an arc (R175). -/
def arcSamples (r2 sweep speed : Nat) : Nat :=
  max 1 (divUp (ceilSqrt (divUp (arcLen2 r2 sweep * 10 ^ 10) (speed * speed * 2 ^ 240))) 400)

/-- Lead-in or lead-out samples (R179): the set number, or as many as the acceleration limit asks for. The squared length
of the marked part is `l2n / l2d`. -/
def leadSamples (least accel n l2n l2d : Nat) : Nat :=
  max least (ceilSqrt (divUp (l2n * (25000000 * 25000000)) ((400 * n * accel) * (400 * n * accel) * l2d)))

/-- Samples of a blanked trapezoidal move over a squared distance, without settling (R177). The distance enters rounded
up to 2^-20 nm. -/
def moveSamples (l2 accel speed : Nat) : Nat :=
  if l2 = 0 then 0
  else
    let l := ceilSqrt (l2 * 2 ^ 40)
    if l2 * (accel * accel) < speed * speed * (speed * speed) then
      max 1 (ceilSqrt (divUp (l * 10 ^ 10) (accel * 40000 * 2 ^ 20)))
    else max 1 (divUp (l * 100000 * accel + speed * speed * 100000 * 2 ^ 20) (speed * accel * 400 * 2 ^ 20))

/-- Distance covered at tick `t` of a move of `n` samples over `l` (2^-20 nm) at acceleration `accel`, in 2^-20 nm: the
cruise speed is the one that makes the whole move last exactly its samples. -/
def moveDist (l accel n t : Nat) : Nat :=
  let tt := 400 * n
  -- w = cruise speed in 10^-10 * 2^-20 nm per tick
  let a := accel * 2 ^ 20
  let disc := a * tt * (a * tt) - 4 * a * l * 10 ^ 10
  let w := (a * tt - isqrt disc) / 2
  let ta := divUp w (max 1 a)
  if 2 * t ≤ tt then
    if t ≤ ta then a * t * t / (2 * 10 ^ 10)
    else (w * t - w * w / (2 * max 1 a)) / 10 ^ 10
  else
    let u := tt - t
    l - (if u ≤ ta then a * u * u / (2 * 10 ^ 10) else (w * u - w * w / (2 * max 1 a)) / 10 ^ 10)

/-- Linear interpolation with halves away from zero (R176). -/
def lerp (x0 x1 : Int) (t d : Nat) : Int := x0 + divHalfAway ((x1 - x0) * t) d

/-- The point of an arc at `t` of `d`: the exact point, rounded to one side or the other (R176). -/
def arcPoint (x0 y0 cx cy sweep : Int) (t d key : Nat) : Int × Int :=
  let a := cosSin (sweep * 2 ^ 24 * t / d)
  let dx := x0 - cx
  let dy := y0 - cy
  (cx + (dx * a.1 - dy * a.2) / sinUnit + roundSide (2 * key), cy + (dx * a.2 + dy * a.1) / sinUnit + roundSide (2 * key + 1))

/-- Samples of a piece. -/
def Seg.len : Seg → Nat
  | .stay n _ _ => n
  | .move n _ _ _ _ _ => n
  | .leadIn n _ _ _ _ _ _ _ => n
  | .leadOut n _ _ _ _ _ _ _ => n
  | .line n _ _ _ _ _ => n
  | .arc n _ _ _ _ _ => n

/-- The position at sample `k` of a piece, `k = len` being its end. `key` tells apart the instants at which the manual
leaves a rounding open. -/
def Seg.pos (key : Nat) (k : Nat) : Seg → Int × Int
  | .stay _ x y => (x, y)
  | .move n x0 y0 x1 y1 accel =>
    if n ≤ k then (x1, y1)
    else if k = 0 then (x0, y0)
    else
      let l := ceilSqrt (dist2 x0 y0 x1 y1 * 2 ^ 40)
      let d := moveDist l accel n (400 * k)
      (x0 + (x1 - x0) * d / (max 1 l : Nat) + roundSide (2 * key), y0 + (y1 - y0) * d / (max 1 l : Nat) + roundSide (2 * key + 1))
  | .leadIn n x y vx vy vd qx qy =>
    -- sigma ticks before the end: d = v * (sigma - sigma^2 / (2 T))
    let t := 400 * n
    let sg := t - 400 * k
    let f := 2 * t * sg - sg * sg
    (x - divHalfAway (vx * f) (max 1 (2 * t * vd)) - divHalfAway (qx * sg) (max 1 t),
     y - divHalfAway (vy * f) (max 1 (2 * t * vd)) - divHalfAway (qy * sg) (max 1 t))
  | .leadOut n x y vx vy vd qx qy =>
    let t := 400 * n
    let sg := 400 * k
    let f := 2 * t * sg - sg * sg
    (x + divHalfAway (vx * f) (max 1 (2 * t * vd)) + divHalfAway (qx * sg) (max 1 t),
     y + divHalfAway (vy * f) (max 1 (2 * t * vd)) + divHalfAway (qy * sg) (max 1 t))
  | .line n x0 y0 x1 y1 _ => (lerp x0 x1 (400 * k) (max 1 (400 * n)), lerp y0 y1 (400 * k) (max 1 (400 * n)))
  | .arc n x0 y0 cx cy sweep =>
    if k = 0 then (x0, y0) else arcPoint x0 y0 cx cy sweep (400 * k) (max 1 (400 * n)) key

/-- Where a piece ends. -/
def Seg.ending (g : Seg) : Int × Int := g.pos 0 g.len

/-- The piece that holds sample `k` of a path, and the sample's place in it. -/
def segAt : Nat → List Seg → Option (Seg × Nat)
  | _, [] => none
  | k, g :: t => if k < g.len then some (g, k) else segAt (k - g.len) t

/-- Samples of a path. -/
def segsLen (l : List Seg) : Nat := l.foldl (fun a g => a + g.len) 0

/-- The motion limits of a channel. -/
structure Limits where
  skyIn : Nat
  skyOut : Nat
  skyAngle : Nat
  accel : Nat
  jumpAccel : Nat
  settle : Nat
deriving DecidableEq, Repr

/-- The motion limits of channel `n` (R200). -/
def State.limits (s : State) (n : Nat) : Limits :=
  { skyIn := s.rd (K.BC_SKY_IN n), skyOut := s.rd (K.BC_SKY_OUT n), skyAngle := s.rd (K.BC_SKY_ANGLE n),
    accel := s.rd (K.BC_ACCEL_MAX n), jumpAccel := s.rd (K.BC_JUMP_ACCEL n), settle := s.rd (K.BC_JUMP_SETTLE n) }

/-- A blanked transfer with its settle samples (R177, R180): nothing where the beam is there already. -/
def transfer (lim : Limits) (x0 y0 x1 y1 : Int) (speed : Nat) : List Seg :=
  let l2 := dist2 x0 y0 x1 y1
  if l2 = 0 then []
  else [.move (moveSamples l2 lim.jumpAccel speed) x0 y0 x1 y1 lim.jumpAccel] ++
    (if lim.settle = 0 then [] else [.stay lim.settle x1 y1])

/-- The marked part of a vector or arc: its start and end, samples, velocity at both ends as a numerator over `vd`, and
its squared length as a fraction. -/
structure Marked where
  sx : Int
  sy : Int
  ex : Int
  ey : Int
  n : Nat
  v0x : Int
  v0y : Int
  v1x : Int
  v1y : Int
  vd : Nat
  l2n : Nat
  l2d : Nat
  seg : Seg
deriving DecidableEq, Repr

/-- The marked part of a MARK (R175, R176). -/
def markPart (sx sy ex ey : Int) (speed : Nat) : Marked :=
  let l2 := dist2 sx sy ex ey
  let n := markSamples l2 speed
  let vx := ex - sx
  let vy := ey - sy
  { sx := sx, sy := sy, ex := ex, ey := ey, n := n, v0x := vx, v0y := vy, v1x := vx, v1y := vy, vd := 400 * n,
    l2n := l2, l2d := 1, seg := .line n sx sy ex ey none }

/-- The end point of an arc. -/
def arcEnd (sx sy cx cy sweep : Int) : Int × Int :=
  let a := cosSin (sweep * 2 ^ 24)
  (cx + divHalfAway ((sx - cx) * a.1 - (sy - cy) * a.2) sinUnit.toNat,
   cy + divHalfAway ((sx - cx) * a.2 + (sy - cy) * a.1) sinUnit.toNat)

/-- The marked part of an ARC (R175, R176): the tangent is the radius turned by a quarter, towards the sweep. -/
def arcPart (sx sy cx cy sweep : Int) (speed : Nat) : Marked :=
  let r2 := dist2 cx cy sx sy
  let n := arcSamples r2 sweep.natAbs speed
  let e := arcEnd sx sy cx cy sweep
  -- speed per tick = r * |sweep| * 2 pi / 2^24 / (400 n), as sweep * 2 pi * radius vector
  let k := sweep * (2 * (piFix / 2 ^ 40) : Nat)
  { sx := sx, sy := sy, ex := e.1, ey := e.2, n := n, v0x := -(sy - cy) * k, v0y := (sx - cx) * k,
    v1x := -(e.2 - cy) * k, v1y := (e.1 - cx) * k, vd := 400 * n * 2 ^ 80,
    l2n := arcLen2 r2 sweep.natAbs, l2d := 2 ^ 240, seg := .arc n sx sy cx cy sweep }

/-- The marked part of a chord that starts at a point; none for a JUMP or FACET. -/
def Chord.marked (c : Chord) (sx sy : Int) : Option Marked :=
  let v := if c.speed = 0 then c.par.markSpeed else c.speed
  match c.shape with
  | .mark x y => some (markPart sx sy x y v)
  | .arc cx cy sw => some (arcPart sx sy cx cy sw v)
  | .jump _ _ => none
  | .facet _ _ _ _ _ => none
  | .park _ _ => none

/-- The marked part has a direction (R178). -/
def Marked.moves (m : Marked) : Bool := m.v0x != 0 || m.v0y != 0

/-- A junction is broken (R178): its angle is above the limit, or one side has no tangent. -/
def broken (lim : Limits) (a b : Marked) : Bool :=
  if !a.moves || !b.moves then true
  else
    -- the angle between (v1) and (v0): compare its cosine with that of the limit
    let dot := a.v1x * b.v0x + a.v1y * b.v0y
    let aa := a.v1x * a.v1x + a.v1y * a.v1y
    let bb := b.v0x * b.v0x + b.v0y * b.v0y
    let c := (cosSin16 lim.skyAngle).1
    -- dot < c * sqrt(aa * bb)
    if 0 ≤ c then decide (dot < 0) || decide (dot * dot * (sinUnit * sinUnit) < c * c * (aa * bb))
    else decide (dot < 0) && decide (c * c * (aa * bb) < dot * dot * (sinUnit * sinUnit))

/-- The lead-in of a marked part (R179). -/
def leadInOf (lim : Limits) (m : Marked) : Seg :=
  let n := if m.moves then leadSamples lim.skyIn lim.accel m.n m.l2n m.l2d else lim.skyIn
  .leadIn n m.sx m.sy m.v0x m.v0y m.vd 0 0

/-- The lead-out of a marked part (R179). -/
def leadOutOf (lim : Limits) (m : Marked) : Seg :=
  let n := if m.moves then leadSamples lim.skyOut lim.accel m.n m.l2n m.l2d else lim.skyOut
  .leadOut n m.ex m.ey m.v1x m.v1y m.vd 0 0

/-- Where a lead-in begins. -/
def Seg.startPos (g : Seg) : Int × Int := g.pos 0 0

/-- The corners of the swept arc's bounding box (R206): its end points and the extreme points its sweep passes. -/
def arcBox (sx sy cx cy sweep : Int) : Int × Int × Int × Int :=
  let e := arcEnd sx sy cx cy sweep
  let r : Int := ceilSqrt (dist2 cx cy sx sy)
  let dx := sx - cx
  let dy := sy - cy
  -- quarter q (direction (1,0), (0,1), ...) lies within the sweep
  let within := fun (ux uy : Int) =>
    if 16777216 ≤ sweep.natAbs then true
    else
      let c := dx * ux + dy * uy
      let d := (dx * uy - dy * ux) * (if 0 ≤ sweep then 1 else -1)
      -- angle from start to the direction, counted in the sense of the sweep, at most |sweep|
      let a := cosSin (sweep.natAbs * 2 ^ 24)
      let half := 8388608 ≤ sweep.natAbs
      -- the direction seen from the start: (c, d); inside when its angle in [0, 2 pi) is at most the sweep's
      if half then decide (0 ≤ d) || decide (0 ≤ -(a.1 * d - a.2 * c)) else
        decide (0 ≤ d) && decide (0 ≤ a.2 * c - a.1 * d) && (decide (0 < c) || decide (0 < d) || decide (c = 0))
  let pts := [(sx, sy), e] ++ (if within 1 0 then [(cx + r, cy)] else []) ++ (if within 0 1 then [(cx, cy + r)] else []) ++
    (if within (-1) 0 then [(cx - r, cy)] else []) ++ (if within 0 (-1) then [(cx, cy - r)] else [])
  bboxOf pts

end Sys2Proof.Machine
end

