-- ==== Sys2Proof/Machine/Lattice.lean ====
section
/-! DEFINITION. The lattice (R253 to R276): lattice time, decay, deposits, marks, formed cells, the tile cache, and the
meanings of the lattice commands. -/

namespace Sys2Proof.Machine

/-- Lattice time on a tick of the present steering interval or a coming one (R253). -/
def State.ltAt (s : State) (t : Nat) : Nat :=
  let acc : Int := (s.tm.time64 : Int) * 2 ^ 32 + s.tm.frac
  (((s.tm.lt : Int) + ((acc + ((t : Int) - s.tm.tick) * s.tm.inc) / 2 ^ 32 - s.tm.time64)) % 2 ^ 64).toNat

/-- STAMP of an instant: LT[41:10] (R256). -/
def State.stampAt (s : State) (t : Nat) : Nat := bits (s.ltAt t) 41 10

/-- Terms of the exponential series in units of 2^-96. -/
def expTerms (x : Nat) : Nat → Nat → Nat → Nat
  | 0, _, _ => 0
  | n + 1, k, t => t + expTerms x n (k + 1) (t * x / 2 ^ 96 / (k + 1))

/-- 65,536 * exp(-num / den), rounded to nearest (R263). -/
def expRound (num den : Nat) : Nat :=
  if 12 * den < num then 0
  else
    let e := expTerms (num * 2 ^ 96 / den) 80 0 (2 ^ 96)
    (2 * 65536 * 2 ^ 96 + e) / (2 * e)

/-- Elapsed time e_i of a decay table entry, LSB 64 ns (R263). -/
def decayTime (i : Nat) : Nat := if i < 16 then i else (16 + i % 16) * 2 ^ (i / 16 - 1)

/-- Entry D[i] of the decay table for a time constant in us (R263). -/
def decayEntry (tau i : Nat) : Nat := if i = 0 then 65536 else expRound (decayTime i * 64) (1000 * tau)

/-- The factor F of R262 for an elapsed time. -/
def decayFactor (tau e : Nat) : Nat :=
  let e := if 2 ^ 31 ≤ e then 0 else e
  if e < 16 then decayEntry tau e
  else
    let k := e.log2
    let m := e / 2 ^ (k - 4) % 16
    let i := 16 * (k - 3) + m
    let fr := (e - (16 + m) * 2 ^ (k - 4)) * 65536 / 2 ^ (k - 4)
    let a : Int := decayEntry tau i
    let b : Int := decayEntry tau (i + 1)
    (a + ((b - a) * fr + 32768) / 65536).toNat

/-- decay(H, x) of R262. -/
def decayHeat (tau h e : Nat) : Nat := (h * decayFactor tau e + 32768) / 65536

/-- Column and row of a bed point (R254). -/
def State.cellAt (s : State) (x y : Int) : Int × Int :=
  let p : Int := s.rd K.LAT_PITCH * 1000
  ((x - s.rdS 32 K.LAT_ORIGIN_X) / p, (y - s.rdS 32 K.LAT_ORIGIN_Y) / p)

/-- The number of a cell, when it lies in the lattice. -/
def cellNo (c : Int × Int) : Option Nat :=
  if 0 ≤ c.1 ∧ c.1 ≤ 4095 ∧ 0 ≤ c.2 ∧ c.2 ≤ 4095 then some (c.2.toNat * 4096 + c.1.toNat) else none

/-- Centre of a cell. -/
def State.cellCentre (s : State) (c : Nat) : Int × Int :=
  let p : Int := s.rd K.LAT_PITCH * 1000
  (s.rdS 32 K.LAT_ORIGIN_X + (c % 4096 : Nat) * p + p / 2, s.rdS 32 K.LAT_ORIGIN_Y + (c / 4096 : Nat) * p + p / 2)

/-- Regions a channel holds (R209): those of its planned chords within the first 64, and the tail's. -/
def Chan.held (c : Chan) : List Held :=
  (c.run.filterMap fun p => if p.inTail || p.held.lock.isEmpty then none else some p.held) ++ c.tails.map (·.2)

/-- LOCK_OWNER of a cell (R207). -/
def State.lockOwner (s : State) (c : Nat) : Nat :=
  let p := s.cellCentre c
  match (List.range 16).find? (fun n => (s.chan n).held.any fun h => inside h.lock p) with
  | some n => n + 1
  | none => 0

/-- A cell is stale (R257). -/
def State.stale (s : State) (c : Cell) : Bool := c.old || c.tag != s.rd K.LAYER_NUMBER % 256

/-- HEAT of a cell at an instant (R262). -/
def State.heatAt (s : State) (c : Cell) (t : Nat) : Nat :=
  if c.heat = 0 then 0 else decayHeat (s.rd K.LAT_DECAY_TAU) c.heat ((s.stampAt t + 2 ^ 32 - c.stamp % 2 ^ 32) % 2 ^ 32)

/-- A cell formed at an instant (R257), as its 128 bits. -/
def State.formCell (s : State) (n t : Nat) : Nat :=
  let c := s.cell n
  let f := { c with heat := s.heatAt c t, stamp := s.stampAt t,
                    tag := if c.old then 255 else (s.rd K.LAYER_NUMBER + 256 - c.tag % 256) % 256 }
  let f := if s.stale c then
      { f with dose := 0, peak := 0, missed := false, repaired := false, overheat := false, claimed := false, exposed := false }
    else f
  f.image (s.lockOwner n)

/-- The cell a write begins from (R257): a stale one loses its per-layer fields and takes the present layer's tag. -/
def State.freshCell (s : State) (n : Nat) : Cell :=
  let c := s.cell n
  if s.stale c then
    { c with dose := 0, peak := 0, missed := false, repaired := false, overheat := false, claimed := false, exposed := false,
             old := false, tag := s.rd K.LAYER_NUMBER % 256 }
  else c

/-- LAYER_TAG of a cell is 255 layers behind LAYER_NUMBER (R266). -/
def State.behind (s : State) (c : Cell) : Bool := !c.old && (s.rd K.LAYER_NUMBER + 256 - c.tag % 256) % 256 == 255

/-- A weight of the kernel. -/
def State.kernel (s : State) (di dj : Nat) : Nat := octField 2 (s.rd K.LAT_KERNEL) (2 * (3 * dj + di))

/-- The lattice answers reads: ACTIVE or DEGRADED, enabled or not (R264, R265, R268). -/
def State.latReads (s : State) : Bool := s.rd K.LAT_STATE == 3 || s.rd K.LAT_STATE == 4

/-- The lattice takes deposits and marks: ACTIVE, or DEGRADED and enabled; a disabled one keeps its cells (R269). -/
def State.latOn (s : State) : Bool := s.rd K.LAT_ENABLE == 1 && s.latReads

/-- A tile of the cache has been used (R267). -/
def State.useTile (s : State) (t : Nat) : State := { s with lat := { s.lat with cache := t :: s.lat.cache.filter (· != t) } }

/-- Marking a tile dirty and most recently used. -/
def State.touchTile (s : State) (t : Nat) : State :=
  let l := s.lat
  let dirty := if l.dirty.contains t then l.dirty else l.dirty ++ [t]
  let back := if l.dirty.contains t then l.backAt else Tab.set (fun _ => 0) l.backAt t s.tm.tick
  { s with lat := { l with cache := t :: l.cache.filter (· != t), dirty := dirty, backAt := back } }

/-- A single cell write on a tile that is in the cache (R259, R244, R246, R261, R266). -/
def State.writeCell (s : State) (w : CellWrite) : State :=
  let s := s.touchTile (tileOf w.cell)
  let c := s.freshCell w.cell
  match w.kind with
  | 0 =>
    let h := min 65535 (s.heatAt c w.inst + w.dh)
    let hot := decide (s.rd K.LAT_OVERHEAT_LEVEL ≤ h)
    let gained := hot && !c.overheat
    let c' := { c with heat := h, stamp := s.stampAt w.inst, dose := min 65535 (c.dose + w.dh),
                       lastCh := if 0 < w.dh then w.ch else c.lastCh, exposed := c.exposed || w.centre,
                       claimed := c.claimed || w.floating, overheat := c.overheat || hot }
    let s := s.setCell w.cell c'
    if gained then
      let first := decide (s.rd K.LAT_OVERHEAT_CELLS = 0)
      let s := s.inc K.LAT_OVERHEAT_CELLS
      if first then s.raise 0xB8 0x0050 6 0 (w.cell / 4096 * 65536 + w.cell % 4096 + h * 2 ^ 32) else s
    else s
  | 1 => if c.missed then s.setCell w.cell c else (s.setCell w.cell { c with missed := true }).inc K.LAT_MISSED_CELLS
  | 2 => s.setCell w.cell { c with repaired := true }
  | 3 =>
    let c1 := if 0 < c.heat then { c with heat := s.heatAt c w.inst, stamp := s.stampAt w.inst } else c
    s.setCell w.cell (if s.behind (s.cell w.cell) then { c1 with old := true } else c1)
  | _ => s.setCell w.cell { c with peak := max c.peak w.value }

/-- A cell write: applied when its tile is in the cache, else queued, or dropped when the queue is full (R268). -/
def State.putCell (s : State) (w : CellWrite) : State :=
  if s.lat.cache.contains (tileOf w.cell) then s.writeCell w
  else if s.lat.queue.length < 65536 then { s with lat := { s.lat with queue := s.lat.queue ++ [w] } }
  else ((s.inc K.LAT_DEPOSIT_DROPPED).wr K.LAT_STATE 4).raise 0xB8 0x0051 3 0 0

/-- A cell write of a kind at an instant. -/
def cellWrite (kind inst cell value : Nat) : CellWrite :=
  { inst := inst, cell := cell, kind := kind, ch := 0, dh := 0, centre := false, floating := false, value := value }

/-- The nine cell writes of a deposit (R259). -/
def State.depositCells (s : State) (ch inst e : Nat) (x y : Int) (floating : Bool) : List CellWrite :=
  let ctr := s.cellAt x y
  let e1 := (e * s.rd K.LAT_HEAT_GAIN + 2 ^ 23) / 2 ^ 24
  (List.range 9).filterMap fun q =>
    let di := q % 3
    let dj := q / 3
    let k := s.kernel di dj
    let centre := q == 4
    if k = 0 ∧ !centre then none
    else (cellNo (ctr.1 + di - 1, ctr.2 + dj - 1)).map fun c =>
      { inst := inst, cell := c, kind := 0, ch := ch, dh := (e1 * k + 32768) / 65536, centre := centre, floating := floating,
        value := 0 }

/-- A deposit (R258, R259). -/
def State.deposit (s : State) (ch inst e : Nat) (x y : Int) (floating : Bool) : State :=
  let s := if (cellNo (s.cellAt x y)).isNone then s.inc K.LAT_OUTSIDE else s
  let s := s.bump 64 K.LAT_DEPOSITS 1
  (s.depositCells ch inst e x y floating).foldl (fun s w => s.putCell w) s

/-- The instant of a waiting write. -/
def LatWrite.inst : LatWrite → Nat
  | .deposit _ i _ _ _ _ => i
  | .missed _ i _ => i
  | .cut i _ => i
  | .repaired _ i _ => i

/-- Its place among the writes of its instant: deposits by channel, then marks (R260). -/
def LatWrite.rank : LatWrite → Nat
  | .deposit ch _ _ _ _ _ => ch
  | .missed _ _ _ => 16
  | .cut _ _ => 16
  | .repaired _ _ _ => 17

/-- Order of application. -/
def LatWrite.le (a b : LatWrite) : Bool :=
  decide (a.inst < b.inst) || (decide (a.inst = b.inst) && decide (a.rank ≤ b.rank))

/-- Putting a write into the list that waits, in order of application. -/
def insWrite (w : LatWrite) : List LatWrite → List LatWrite
  | [] => [w]
  | x :: t => if x.le w then x :: insWrite w t else w :: x :: t

/-- Handing a write to the lattice. -/
def State.latPush (s : State) (w : LatWrite) : State := { s with lat := { s.lat with waiting := insWrite w s.lat.waiting } }

/-- A waiting write stands for light of the sample of channel `n` at an instant. -/
def LatWrite.ofSample (n a : Nat) : LatWrite → Bool
  | .deposit ch i _ _ _ _ => ch == n && i == a
  | .missed _ _ _ => false
  | .cut _ _ => false
  | .repaired ch i _ => ch == n && i == a

/-- A sample that carries no light after all deposits nothing and repairs nothing (R197, R246, R258). -/
def State.undoSample (s : State) (n a : Nat) : State :=
  { s with lat := { s.lat with waiting := s.lat.waiting.filter (fun w => !w.ofSample n a),
                               recent := Tab.upd (fun _ => []) s.lat.recent n (fun l => l.filter (fun e => e.1 != a)) } }

/-- Applying one waiting write. -/
def State.latApply (s : State) (w : LatWrite) : State :=
  match w with
  | .deposit ch i e x y f => s.deposit ch i e x y f
  | .missed _ i cells => cells.foldl (fun s c => s.putCell (cellWrite 1 i c 0)) s
  | .cut i cells =>
    let s := cells.foldl (fun (s : State) c => s.putCell (cellWrite 1 i c 0)) s
    { s with lat := { s.lat with cutDone := some s.tm.tick } }
  | .repaired _ i cells => cells.foldl (fun s c => s.putCell (cellWrite 2 i c 0)) s

/-- Deltas of instant `a` that each fit a group (R351, R410). -/
def State.tellCells (a : Nat) : Nat → List (Nat × Cell) → State → State
  | 0, _, s => s
  | n + 1, l, s => State.tellCells a n (l.drop 36)
      (s.tellPartner 0x0030 (toLE 8 (s.pair a) ++ (l.take 36).flatMap (fun e => toLE 4 e.1 ++ toLE 16 (e.2.image (s.lockOwner e.1)))))

/-- The cells that differ from those before go to the partner as deltas of instant `a` (R411). -/
def State.tellDeposits (s : State) (before : Tab Cell) (a : Nat) : State :=
  let changed := (s.lat.cells.filter (fun e => !before.contains e)).filterMap fun e => (s.cellOf e.1).map fun c => (c, e.2)
  State.tellCells a ((changed.length + 35) / 36) changed s

/-- LATTICE_DEPOSIT (R260): on tick A + 380 the writes of A and of earlier instants are applied in order. A standby part's
own deposits stand like an active part's (R411). -/
def State.latticeDeposit (s : State) : State :=
  if s.inSample ≠ 380 then s
  else
    let a := s.tm.tick - 380
    let due := s.lat.waiting.filter (fun w => decide (w.inst ≤ a))
    let s := { s with lat := { s.lat with waiting := s.lat.waiting.filter (fun w => !decide (w.inst ≤ a)), applied := a } }
    if !s.latOn ∨ s.rd K.DT_CUTOFF = 1 then s
    else
      (due.foldl (fun s w => s.latApply w) s).tellDeposits s.lat.cells a

/-- LATTICE_DEPOSIT (R260). -/
def execLatticeDeposit (s : State) : Host.Outcome State Fault Refusal := live (fun s => s.latticeDeposit) s

/-- The gain for a heat value (R264). -/
def State.gainOf (s : State) (n heat : Nat) : Nat :=
  let t := s.rd (K.BC_FF_TABLE n)
  let h := heat / 1024
  let a : Int := octField 2 t (2 * h)
  let b : Int := octField 2 t (2 * (h + 1))
  (a + ((b - a) * (heat % 1024) + 512) / 1024).toNat

/-- A feed-forward read at a point for an instant (R264): the gain and the state with its counters. -/
def State.ffRead (s : State) (n : Nat) (noFF : Bool) (x y : Int) (inst : Nat) : Nat × State :=
  let show' := fun (h g : Nat) (s : State) =>
    (g, s.wrs [(K.BC_FF_LAST_H n, h), (K.BC_FF_LAST_G n, g), (K.BC_FF_MIN_G n, min g (s.rd (K.BC_FF_MIN_G n)))])
  if s.rd (K.BC_FF_ENABLE n) = 0 ∨ noFF ∨ !s.latReads then (16384, s.wr (K.BC_FF_LAST_G n) 16384)
  else match cellNo (s.cellAt x y) with
  | none => show' 0 16384 s
  | some c =>
    if !s.lat.cache.contains (tileOf c) then show' (s.rd (K.BC_FF_LAST_H n)) 16384 (s.inc K.LAT_FF_MISS)
    else
      let h := s.heatAt (s.cell c) inst
      show' h (s.gainOf n h) (s.useTile (tileOf c))

/-- The dwell test of a start point for an instant (R265): it passes, and the HEAT used when a cell has been read. -/
def State.dwellTest (s : State) (limit : Nat) (x y : Int) (inst : Nat) : Bool × Option Nat :=
  if limit = 0xFFFF ∨ !s.latReads then (true, none)
  else match cellNo (s.cellAt x y) with
  | none => (true, none)
  | some c =>
    if !s.lat.cache.contains (tileOf c) then (false, none)
    else
      let h := s.heatAt (s.cell c) inst
      (decide (h ≤ limit), some h)

/-- A dwell test is shown, and counts as a use of its tile (R265, R267). -/
def State.dwellRead (s : State) (n : Nat) (x y : Int) (h : Option Nat) : State :=
  match h, cellNo (s.cellAt x y) with
  | some v, some c => (s.useTile (tileOf c)).wr (K.BC_DWELL_LAST_H n) v
  | _, _ => s

/-- PEAK of a pool frame (R261): recorded in the centre cell of the deposit of the latest instant at or before mid-exposure. -/
def State.recordPeak (s : State) (n mid peak : Nat) : State :=
  match ((Tab.get (fun _ => []) s.lat.recent n).find? (fun e => e.1 == s.sampleOf mid)) with
  | none => s
  | some e => if s.latOn then s.putCell (cellWrite 4 e.1 e.2 peak) else s

/-- Remembering the centre cell of a channel's deposit. -/
def State.noteDeposit (s : State) (n inst : Nat) (x y : Int) : State :=
  match cellNo (s.cellAt x y) with
  | none => s
  | some c =>
    let r := Tab.upd (fun _ => []) s.lat.recent n (fun l => ((inst, c) :: l).take 4096)
    { s with lat := { s.lat with recent := r } }

/-- Pages of the lattice range are all mapped (R132). -/
def State.latMapped (s : State) : Bool := (s.firstFault 56 (s.rd K.LAT_BASE) 268435456 true).isNone

/-- The job pages of the lattice range. -/
def State.latPages (s : State) : List Nat := (List.range 4096).map (fun i => s.rd K.LAT_BASE / 65536 + i)

/-- A cell keeps its tile in the refresh set (R266). -/
def Cell.refreshed (c : Cell) : Bool := decide (0 < c.heat) || !c.old

/-- The tiles of the refresh set (R266). -/
def State.refreshSet (s : State) : List Nat :=
  ((s.lat.cells.filter (fun e => e.2.refreshed)).filterMap (fun e => (s.cellOf e.1).map tileOf)).eraseDups

/-- The lattice may no longer be enabled without a clear (R266): disabled for too long with cells still to refresh. -/
def State.mustClear (s : State) : Bool :=
  let set := s.refreshSet
  !set.isEmpty && ((s.lat.disabledAt.isSome && set.any fun t =>
    decide (12800000000 < s.tm.tick - Tab.get (fun _ => 0) s.lat.visitAt t)) || decide (255 ≤ s.lat.layersOff))

/-- A write of LAT_CLEAR (R269). -/
def latClearEff (_v : Nat) (s : State) : Nat × State :=
  if s.phase ≠ Phase.idle ∨ s.rd K.LAT_STATE = 3 ∨ s.rd K.LAT_STATE = 1 then (Ans.refused, s)
  else
    let s := s.wr K.LAT_STATE 1
    let s := s.clearCells
    (Ans.ok, { s with lat := { s.lat with queue := [], waiting := [] } })

/-- LAT_CLEAR (R269). -/
def execLatClear (m : Msg) (s : State) : Host.Outcome State Fault Refusal := writeCmd m K.LAT_CLEAR 1 1 latClearEff s

/-- LAT_CLEAR_DONE (R269): READY, or ACTIVE when the lattice was enabled. -/
def State.latClearDone (s : State) : State :=
  if s.rd K.LAT_STATE ≠ 1 then s
  else
    let s := s.clearCells
    let s := { s with lat := { s.lat with queue := [], dirty := [], backAt := [], visitAt := [],
                                          visitLayer := [], layersOff := 0 } }
    s.wr K.LAT_STATE (if s.rd K.LAT_ENABLE = 1 then 3 else 2)

/-- LAT_CLEAR_DONE (R269). -/
def execLatClearDone (s : State) : Host.Outcome State Fault Refusal := live (fun s => s.latClearDone) s

/-- The lattice enabled (R269): its pages are pinned. -/
def State.enableLat (s : State) (pages : List Nat) : State :=
  let s := pages.foldl (fun s jp => s.pin 56 jp) s.takeCells
  let s := s.wrs [(K.LAT_ENABLE, 1), (K.LAT_STATE, 3)]
  { s with lat := { s.lat with disabledAt := none, layersOff := 0 } }

/-- The lattice disabled (R269): its pages are no longer pinned. -/
def State.disableLat (s : State) (pages : List Nat) : State :=
  let s := s.wrs [(K.LAT_ENABLE, 0), (K.LAT_STATE, if s.rd K.LAT_STATE = 3 then 2 else s.rd K.LAT_STATE)]
  let s := { s with lat := { s.lat with disabledAt := some s.tm.tick, layersOff := 0 } }
  s.unpinAll 56 pages

/-- A write of LAT_ENABLE (R269). -/
def latEnableEff (v : Nat) (s : State) : Nat × State :=
  if v = 1 then
    if s.rd K.LAT_ENABLE = 1 then (if s.phase = Phase.idle ∧ s.rd K.LAT_STATE = 2 then (Ans.ok, s) else (Ans.refused, s))
    else if s.phase ≠ Phase.idle ∨ s.rd K.LAT_STATE ≠ 2 ∨ !s.latMapped ∨ s.mustClear then (Ans.refused, s)
    else (Ans.ok, s.enableLat s.latPages)
  else if s.phase ≠ Phase.idle then (Ans.refused, s)
  else if s.rd K.LAT_ENABLE = 0 then (Ans.ok, s)
  else (Ans.ok, s.disableLat s.latPages)

/-- LAT_ENABLE (R269). -/
def execLatEnable (m : Msg) (s : State) : Host.Outcome State Fault Refusal := writeCmd m K.LAT_ENABLE 1 1 latEnableEff s

/-- LAT_DISABLE (R269). -/
def execLatDisable (m : Msg) (s : State) : Host.Outcome State Fault Refusal := writeCmd m K.LAT_ENABLE 1 0 latEnableEff s

/-- A write of LAT_KERNEL (R272). -/
def latKernelEff (v : Nat) (s : State) : Nat × State :=
  if 65536 < ((List.range 9).foldl (fun a i => a + octField 2 v (2 * i)) 0) then (Ans.outOfRange, s)
  else (Ans.ok, s.wr K.LAT_KERNEL v)

/-- The tiles of a snapshot area in row order (R271, R274). -/
def snapTiles (area : Nat) : List Nat :=
  let i0 := bits area 7 0
  let j0 := bits area 15 8
  let i1 := bits area 23 16
  let j1 := bits area 31 24
  if i1 < i0 ∨ j1 < j0 then []
  else (List.range (j1 + 1 - j0)).flatMap fun j => (List.range (i1 + 1 - i0)).map fun i => (j0 + j) * 64 + (i0 + i)

/-- The end of a snapshot (R271). -/
def State.snapEnd (s : State) (st code : Nat) : State :=
  let s := { s with lat := { s.lat with snap := [], snapHeld := false } }
  (s.wrs [(K.LAT_SNAP_STATE, st), (K.LAT_SNAP_END_STAMP, s.now)]).raise 0xB9 code 4 0 0

/-- A write of LAT_SNAP_CONTROL (R271, R51). -/
def snapControlEff (v : Nat) (s : State) : Nat × State :=
  let st := s.rd K.LAT_SNAP_STATE
  if v = 1 then
    let tiles := snapTiles (s.rd K.LAT_SNAP_AREA)
    if st = 1 ∨ tiles.isEmpty ∨ s.rd K.LAT_STATE ≤ 1 then (Ans.refused, s)
    else (Ans.ok, ({ s with lat := { s.lat with snap := tiles } }).wrs [(K.LAT_SNAP_STATE, 1), (K.LAT_SNAP_TILES, 0)])
  else if st = 1 then (Ans.ok, s.snapEnd 3 0x0061)
  else if st = 2 then (Ans.alreadyComplete, s)
  else (Ans.refused, s)

/-- SNAPSHOT_START (R271). -/
def execSnapshotStart (m : Msg) (s : State) : Host.Outcome State Fault Refusal :=
  writeCmd m K.LAT_SNAP_CONTROL 1 1 snapControlEff s

/-- SNAPSHOT_ABORT (R271). -/
def execSnapshotAbort (m : Msg) (s : State) : Host.Outcome State Fault Refusal :=
  writeCmd m K.LAT_SNAP_CONTROL 1 2 snapControlEff s

/-- The 65,536 bytes of a tile with every cell formed at an instant. -/
def State.tileBytes (s : State) (t inst : Nat) : List Byte :=
  (List.range 4096).flatMap fun k =>
    toLE 16 (s.formCell ((t / 64 * 64 + k / 64) * 4096 + (t % 64 * 64 + k % 64)) inst)

/-- The 64-byte header of a captured tile (R271). -/
def State.tileHeader (s : State) (t : Nat) (cells : List Byte) : List Byte :=
  toLE 1 (t % 64) ++ toLE 1 (t / 64) ++ toLE 2 0 ++ toLE 4 (s.rd K.LAYER_NUMBER) ++ toLE 8 s.now ++ toLE 8 (s.ltAt s.tm.tick) ++
    toLE 2 (s.rd K.LAT_PITCH) ++ toLE 2 0 ++ toLE 4 (crc32c cells) ++ toLE 32 0

/-- The first tile of the snapshot is written (R271). -/
def State.snapNext (s : State) : State :=
  let rest := s.lat.snap.drop 1
  let s := ({ s with lat := { s.lat with snap := rest, snapHeld := false } }).wr K.LAT_SNAP_TILES (s.rd K.LAT_SNAP_TILES + 1)
  if rest.isEmpty then s.snapEnd 2 0x0060 else s

/-- A captured tile goes out (R271): what a fault leaves of it moves once the context has resumed. -/
def State.snapTile (s : State) (tc addr : Nat) (img : List Byte) : State :=
  let s := s.sendWrite tc addr img
  if (s.tc tc).job = .none then s.snapNext else { s with lat := { s.lat with snapHeld := true } }

/-- SNAPSHOT_TILE (R271): on a sample boundary the next tile is captured and written, a header of 64 bytes before its 65,536; a tile
whose writing has parked comes to its end first. -/
def State.snapshotTile (s : State) : State :=
  if s.rd K.LAT_SNAP_STATE ≠ 1 ∨ s.inSample ≠ 0 then s
  else match s.lat.snap with
  | [] => s
  | t :: _ =>
    let tc := s.rd K.LAT_SNAP_TC
    if s.rd (K.TC_STATE tc) = 2 ∨ (s.tc tc).job ≠ .none then s
    else if s.lat.snapHeld then s.snapNext
    else
      let cells := s.tileBytes t s.tm.tick
      s.snapTile tc (s.rd K.LAT_SNAP_ADDR + 65600 * s.rd K.LAT_SNAP_TILES) (s.tileHeader t cells ++ cells)

/-- SNAPSHOT_TILE (R271). -/
def execSnapshotTile (s : State) : Host.Outcome State Fault Refusal := live (fun s => s.snapshotTile) s

/-- Cells of a tile that are listed in the lattice's table, by number. -/
def State.tileCells (s : State) (t : Nat) : List (Nat × Cell) :=
  let pp := s.tilePage t
  (s.lat.cells.filter (fun e => e.1 / 4096 == pp)).map fun e =>
    ((t / 64 * 64 + e.1 % 4096 / 64) * 4096 + (t % 64 * 64 + e.1 % 64), e.2)

/-- The part runs the refresh pass (R266): the active part of a pair, or one without a partner, while the lattice is enabled. -/
def State.refreshes (s : State) : Bool :=
  s.rd K.LAT_ENABLE == 1 && s.role != Role.standby && s.role != Role.syncing && s.rd K.DT_STOP_STATE != 2 && s.rd K.DT_CUTOFF != 1

/-- REFRESH_VISIT (R266): hot cells decay to the latest applied instant, cells 255 layers behind gain OLD, and the partner is told. -/
def State.refreshVisit (s : State) (t : Nat) : State :=
  if !s.refreshes then s
  else
    let r := s.lat.applied
    let before := s.lat.cells
    let s := (s.tileCells t).foldl (fun s e =>
      if 0 < e.2.heat || s.behind e.2 then s.putCell (cellWrite 3 r e.1 0) else s) s
    let s := s.tellDeposits before r
    let last := Tab.get (fun _ => 0) s.lat.visitAt t
    let lag := if last = 0 then 0 else (s.tm.tick - last) / 100000
    let s := { s with lat := { s.lat with visitAt := Tab.set (fun _ => 0) s.lat.visitAt t s.tm.tick,
                                          visitLayer := Tab.set (fun _ => 0) s.lat.visitLayer t (s.rd K.LAYER_NUMBER) } }
    if s.rd K.LAT_REFRESH_LAG < lag then s.wr K.LAT_REFRESH_LAG lag else s

/-- REFRESH_VISIT (R266). -/
def execRefreshVisit (tile : Fin 4096) (s : State) : Host.Outcome State Fault Refusal := live (fun s => s.refreshVisit tile) s

/-- The position a planned chord takes at the sample of an instant. -/
def Planned.posAt (n : Nat) (p : Planned) (a : Nat) : Option (Int × Int) :=
  if a < p.first ∨ p.boundary ≤ a then none
  else (segAt ((a - p.first) / 400) p.segs).map fun g => g.1.pos (a / 400 * 16 + n) g.2

/-- Tiles that the 3 x 3 neighbourhoods of the next 250 samples of every planned path touch (R267). -/
def State.neededTiles (s : State) : List Nat :=
  ((List.range 16).flatMap fun n =>
    let c := s.chan n
    if c.run.isEmpty then []
    else (List.range 250).flatMap fun k =>
      let a := s.sampleOf s.tm.tick + 400 * k
      match c.run.findSome? (fun p => p.posAt n a) with
      | none => []
      | some (x, y) =>
        let ctr := s.cellAt x y
        ([(-1, -1), (1, -1), (-1, 1), (1, 1)] : List (Int × Int)).filterMap fun d =>
          (cellNo (ctr.1 + d.1, ctr.2 + d.2)).map tileOf).eraseDups

/-- TILE_WRITE_BACK (R267): the dirty tile's image is in memory. -/
def State.tileWriteBack (s : State) (t : Nat) : State :=
  if s.lat.dirty.contains t then
    ({ s with lat := { s.lat with dirty := s.lat.dirty.filter (· != t), backAt := Tab.del t s.lat.backAt } }).countBeats 56 1024
  else s

/-- TILE_WRITE_BACK (R267). -/
def execTileWriteBack (tile : Fin 4096) (s : State) : Host.Outcome State Fault Refusal :=
  live (fun s => s.tileWriteBack tile) s

/-- Making room in a full cache (R267): the least recently used tile that is not needed is written back and leaves. -/
def State.evict (s : State) : State :=
  if s.lat.cache.length < 64 then s
  else
    let need := s.neededTiles
    match s.lat.cache.reverse.find? (fun t => !need.contains t) with
    | none => s
    | some t =>
      let s := s.tileWriteBack t
      { s with lat := { s.lat with cache := s.lat.cache.filter (· != t) } }

/-- A beat in error that a fill of a tile meets is delivered with an error mark and counted (R120, R132); what the cells hold then is as
they stand (notes/assumptions/30). -/
def State.fillErrors (s : State) (t : Nat) : State :=
  let pp := s.tilePage t
  let n := (s.mem.bad.filter fun b => b / 1024 == pp).length
  (List.range n).foldl (fun (s : State) _ => s.park 56 3 0 false) s

/-- TILE_FILL (R267, R268): the tile arrives and its held writes are applied in order of instant. -/
def State.tileFill (s : State) (t : Nat) : State :=
  if s.lat.cache.contains t ∨ !s.latMapped then s
  else
    let s := s.evict
    if 64 ≤ s.lat.cache.length then s
    else
      let s := ({ s with lat := { s.lat with cache := t :: s.lat.cache } }).inc K.LAT_TILE_FILLS
      let s := (s.countBeats 56 1024).fillErrors t
      let held := s.lat.queue.filter (fun w => tileOf w.cell == t)
      let s := { s with lat := { s.lat with queue := s.lat.queue.filter (fun w => tileOf w.cell != t) } }
      (sortBy (fun a b => decide (a.inst ≤ b.inst)) held).foldl (fun s w => s.writeCell w) s

/-- TILE_FILL (R268). -/
def execTileFill (tile : Fin 4096) (s : State) : Host.Outcome State Fault Refusal := live (fun s => s.tileFill tile) s

/-- The cell LAT_PROBE_VALUE shows (R270). -/
def State.probeCell (s : State) : Nat :=
  let v := s.rd K.LAT_PROBE_CELL
  s.formCell (bits v 31 16 % 4096 * 4096 + bits v 15 0 % 4096) s.tm.tick

/-- A write of LAT_PROBE_CELL: both numbers within 0 to 4,095 (R273). -/
def probeCellEff (v : Nat) (s : State) : Nat × State :=
  if 4095 < bits v 31 16 ∨ 4095 < bits v 15 0 then (Ans.outOfRange, s) else (Ans.ok, s.wr K.LAT_PROBE_CELL v)

end Sys2Proof.Machine
end

