-- ==== Sys2Proof/Machine/Plan.lean ====
section
/-! DEFINITION. Planning of chords: paths, lock regions and envelopes (R206 to R209), the pieces of a run with its
lead-ins, lead-outs and transfers (R175 to R180), and its gate intervals (R184). -/

namespace Sys2Proof.Machine

/-- The geometry of a facet slot (R230). -/
structure FacetGeo where
  w : Nat
  h : Nat
  px : Nat
  lp : Nat
  t : Nat
deriving DecidableEq, Repr

/-- The geometry of a slot of channel `n`. -/
def State.facetGeo (s : State) (n slot : Nat) : FacetGeo :=
  { w := s.rd (K.FX_WIDTH n slot), h := s.rd (K.FX_HEIGHT n slot), px := s.rd (K.FX_PIXEL_PITCH n slot),
    lp := s.rd (K.FX_LINE_PITCH n slot), t := s.rd (K.FX_PIXEL_PERIOD n slot) }

/-- The bed point at `a` along and `b` across a facet, both in half nm (R234). -/
def facetPoint (x y : Int) (angle : Nat) (a2 b2 : Int) : Int × Int :=
  let c := cosSin16 angle
  (x + divHalfAway (a2 * c.1 - b2 * c.2) (2 * sinUnit.toNat), y + divHalfAway (a2 * c.2 + b2 * c.1) (2 * sinUnit.toNat))

/-- The same point before its rounding, in units of 2^-61 nm. -/
def facetFine (x y : Int) (angle : Nat) (a2 b2 : Int) : Int × Int :=
  let c := cosSin16 angle
  (2 * x * sinUnit + (a2 * c.1 - b2 * c.2), 2 * y * sinUnit + (a2 * c.2 + b2 * c.1))

/-- The pass rectangle (R234): the bounding box of all footprints, rounded outward to 1 um. -/
def passRect (g : FacetGeo) (x y : Int) (angle : Nat) : Int × Int × Int × Int :=
  let a1 : Int := 2 * (g.w * g.px : Nat)
  let b0 : Int := -(g.lp : Int)
  let b1 : Int := 2 * (g.h * g.lp : Nat) - (g.lp : Nat)
  let b := bboxOf [facetFine x y angle 0 b0, facetFine x y angle a1 b0, facetFine x y angle a1 b1, facetFine x y angle 0 b1]
  let um := 2000 * sinUnit
  (b.1 / um * 1000, b.2.1 / um * 1000, -((-b.2.2.1) / um) * 1000, -((-b.2.2.2) / um) * 1000)

/-- The path of a chord as the share tests see it (R206). -/
inductive PathShape where
  | segment (x0 y0 x1 y1 : Int)
  | box (x0 y0 x1 y1 : Int)
deriving DecidableEq, Repr

/-- The corners of a path. -/
def PathShape.corners : PathShape → List (Int × Int)
  | .segment x0 y0 x1 y1 => [(x0, y0), (x1, y1)]
  | .box x0 y0 x1 y1 => boxPoly x0 y0 x1 y1

/-- The path of a chord that starts at a point of its channel; none for a JUMP. -/
def State.pathOf (s : State) (n : Nat) (c : Chord) (sx sy : Int) : Option PathShape :=
  match c.shape with
  | .mark x y => some (.segment sx sy x y)
  | .arc cx cy sw => let b := arcBox sx sy cx cy sw; some (.box b.1 b.2.1 b.2.2.1 b.2.2.2)
  | .facet slot _ x y a => let b := passRect (s.facetGeo n slot) x y a; some (.box b.1 b.2.1 b.2.2.1 b.2.2.2)
  | .jump _ _ => none
  | .park _ _ => none

/-- The lock radius in nm (R207). -/
def State.lockRadius (s : State) : Nat := max (s.rd K.SHARE_LOCK_RADIUS * 1000) (3 * (s.rd K.LAT_PITCH * 1000))

/-- The lock region of a path (R207, R208). -/
def lockRegion (r : Nat) (p : PathShape) : Poly :=
  match p with
  | .segment x0 y0 x1 y1 =>
    let l2 := dist2 x0 y0 x1 y1
    if l2 = 0 then roundOut (boxPoly (x0 - r) (y0 - r) (x0 + r) (y0 + r))
    else
      let l : Int := max 1 (isqrt (l2 * 2 ^ 120))
      let ux := (x1 - x0) * 2 ^ 60 * fineUnit * r / l
      let uy := (y1 - y0) * 2 ^ 60 * fineUnit * r / l
      let at' := fun (x y dx dy : Int) => (x * fineUnit + dx, y * fineUnit + dy)
      roundFine [at' x0 y0 (uy - ux) (-uy - ux), at' x1 y1 (ux + uy) (uy - ux), at' x1 y1 (ux - uy) (uy + ux), at' x0 y0 (-ux - uy) (ux - uy)]
  | .box x0 y0 x1 y1 => roundOut (boxPoly (x0 - r) (y0 - r) (x1 + r) (y1 + r))

/-- The sector of channel `n` at a point (R208), in fine units. -/
def State.sectorAt (s : State) (n : Nat) (o : Int × Int) : List (Int × Int) :=
  let l : Int := s.rd (K.BC_SECTOR_EFF_LENGTH n) * 1000
  let g := cosSin16 (s.rd K.BED_GAS_DIR)
  let a := cosSin16 (s.rd (K.BC_SECTOR_EFF_ANGLE n))
  let w := l * a.2 * fineUnit / max 1 a.1
  let ox := o.1 * fineUnit
  let oy := o.2 * fineUnit
  let bx := ox + l * g.1 * fineUnit / sinUnit
  let b := oy + l * g.2 * fineUnit / sinUnit
  [(ox, oy), (bx - w * g.2 / sinUnit, b + w * g.1 / sinUnit), (bx + w * g.2 / sinUnit, b - w * g.1 / sinUnit)]

/-- The envelope of a path (R208): the hull of the sector at each corner. -/
def State.envelope (s : State) (n : Nat) (p : PathShape) : Poly := roundFine (hull (p.corners.flatMap fun c => s.sectorAt n c))

/-- The regions of a path. -/
def State.regionsOf (s : State) (n : Nat) (p : PathShape) : Held :=
  { lock := lockRegion s.lockRadius p, env := s.envelope n p }

/-- A path lies within one of the channel's allowed rectangles (R191); a region's edges belong to it. -/
def State.inRegion (s : State) (n : Nat) (p : PathShape) : Bool :=
  [K.BC_REGION_0 n, K.BC_REGION_1 n, K.BC_REGION_2 n, K.BC_REGION_3 n].any fun k =>
    let v := s.rd k
    let x0 := sgn 32 (octField 4 v 0)
    let y0 := sgn 32 (octField 4 v 4)
    let x1 := sgn 32 (octField 4 v 8)
    let y1 := sgn 32 (octField 4 v 12)
    decide (x0 < x1) && decide (y0 < y1) && p.corners.all fun c => decide (x0 ≤ c.1) && decide (c.1 ≤ x1) && decide (y0 ≤ c.2) && decide (c.2 ≤ y1)

/-- A boundary that is not known yet (R240: a FACET whose last pass has still to be planned). -/
abbrev never : Nat := 2 ^ 80

/-- Where the beam must rest for a chord that begins a run: the start of its lead-in (R180), given the start point. -/
def leadStart (lim : Limits) (m : Marked) : Int × Int := (leadInOf lim m).startPos

/-- The samples of a blanked move to a point with its settle samples, or one blanked sample where the beam is there
already (R177, R149). -/
def jumpSegs (lim : Limits) (x0 y0 x1 y1 : Int) (speed : Nat) : List Seg :=
  if dist2 x0 y0 x1 y1 = 0 then [.stay 1 x0 y0] else transfer lim x0 y0 x1 y1 speed

/-- What planning carries from chord to chord: where the beam rests, the nominal position, the next first sample, and
the marked part a continuing chord would join. -/
structure PlanAt where
  rx : Int
  ry : Int
  nx : Int
  ny : Int
  a : Nat
  prev : Option Marked
deriving DecidableEq, Repr

/-- The point a JUMP moves to (R180): the lead-in start of the chord that follows it, or its target. -/
def jumpTo (lim : Limits) (x y : Int) (next : Option Chord) (facetLead : Chord → Option (Int × Int)) : Int × Int :=
  match next with
  | none => (x, y)
  | some c => match c.marked x y with
    | some m => leadStart lim m
    | none => (facetLead c).getD (x, y)

/-- Planning vectors and JUMPs one after another. `lead` gives the lead-in start of a FACET, `last` the chord after the
last one when it is known. -/
def planChords (s : State) (n : Nat) (lim : Limits) (lead : Chord → Option (Int × Int)) (last : Option Chord) :
    List (Chord × Option Cursor) → PlanAt → List Planned
  | [], _ => []
  | (c, after) :: rest, p =>
    let next := match rest with
      | [] => last
      | (d, _) :: _ => some d
    match c.marked p.nx p.ny with
    | none =>
      let (x, y, speed) := match c.shape with
        | .jump x y => (x, y, if c.speed = 0 then c.par.jumpSpeed else c.speed)
        | .park x y => (x, y, c.speed)
        | _ => (p.nx, p.ny, c.par.jumpSpeed)
      let d := match c.shape with
        | .jump x y => jumpTo lim x y next lead
        | _ => (x, y)
      let segs := jumpSegs lim p.rx p.ry d.1 d.2 speed
      let b := p.a + 400 * segsLen segs
      let q : Planned := { chord := c, first := p.a, t0 := b, tEnd := b, boundary := b, sx := p.rx, sy := p.ry, ex := x, ey := y,
                           rx := d.1, ry := d.2, segs := segs, held := ⟨[], []⟩, inTail := false, after := after, checked := true, item := none }
      q :: planChords s n lim lead last rest { rx := d.1, ry := d.2, nx := x, ny := y, a := b, prev := none }
    | some m =>
      let start := p.a + 400 * decodeDelay c.before
      let cont := match p.prev with
        | none => false
        | some m0 => c.before = 0 && !broken lim m0 m
      let lin := leadInOf lim m
      let st := lin.startPos
      let pre := if cont then [] else transfer lim p.rx p.ry st.1 st.2 c.par.jumpSpeed ++ [lin]
      let goesOn := match rest with
        | [] => false
        | (d, _) :: _ => match d.marked m.ex m.ey with
          | none => false
          | some m1 => d.before = 0 && !broken lim m m1
      let lout := leadOutOf lim m
      let post := if goesOn then [] else [lout]
      let segs := pre ++ [m.seg] ++ post
      let t0 := start + 400 * segsLen pre
      let te := t0 + 400 * m.n
      let b := start + 400 * segsLen segs
      let e := if goesOn then (m.ex, m.ey) else lout.ending
      let path := (s.pathOf n c p.nx p.ny).getD (.segment m.sx m.sy m.ex m.ey)
      let q : Planned := { chord := c, first := start, t0 := t0, tEnd := te, boundary := b, sx := m.sx, sy := m.sy, ex := m.ex,
                           ey := m.ey, rx := e.1, ry := e.2, segs := segs, held := s.regionsOf n path, inTail := false,
                           after := after, checked := false, item := none }
      let at' : PlanAt := { rx := e.1, ry := e.2, nx := m.ex, ny := m.ey, a := b, prev := some m }
      q :: planChords s n lim lead last rest at'

/-- A planned chord is marked. -/
def Planned.isMarked (p : Planned) : Bool :=
  match p.chord.shape with
  | .mark _ _ => true
  | .arc _ _ _ => true
  | .facet _ _ _ _ _ => true
  | .jump _ _ => false
  | .park _ _ => false

/-- It begins with its marked part, so that its light continues that of the chord before (R178). -/
def Planned.continues (p : Planned) : Bool :=
  match p.segs with
  | .line _ _ _ _ _ _ :: _ => true
  | .arc _ _ _ _ _ _ :: _ => true
  | _ => false

/-- Nominal gate intervals of planned vectors (R184): on, off, first and last sample of the span. `open'` is the interval
begun and not ended. -/
def gateSpans : Option (Nat × Nat) → List Planned → List Gate
  | _, [] => []
  | open', p :: rest =>
    if !p.isMarked then gateSpans none rest
    else
      let o := match open' with
        | some o => o
        | none => (p.t0, p.first)
      let more := match rest with
        | [] => false
        | q :: _ => q.continues
      if more then gateSpans (some o) rest
      else
        { on := o.1, off := p.tEnd, nomOn := o.1, nomOff := p.tEnd, addr := 0, spanFirst := o.2, spanLast := p.boundary - 400 } ::
          gateSpans none rest

/-- Placing one edge within its span (R184): the instant, and whether it was clamped. -/
def placeEdge (t : Int) (first last : Nat) : Nat × Bool :=
  if t < first then (first, true) else if (last : Int) + 400 ≤ t then (last + 399, true) else (t.toNat, false)

/-- Placing the edges of a gate interval within its span with the channel's delays (R184): on and off, each with whether it was
clamped. -/
def State.gateEdges (s : State) (n : Nat) (g : Gate) : (Nat × Bool) × (Nat × Bool) :=
  let off := s.rdS 16 (K.BC_CAL_TIME_OFFSET n)
  (placeEdge ((g.nomOn : Int) + s.rdS 16 (K.BC_GATE_ON_DELAY n) + off) g.spanFirst g.spanLast,
    placeEdge ((g.nomOff : Int) + s.rdS 16 (K.BC_GATE_OFF_DELAY n) + off) g.spanFirst g.spanLast)

/-- An interval keeps its placed edges, or stays dark and is reported (R184). -/
def State.keepGate (s : State) (n on off : Nat) (g : Gate) : State :=
  if off ≤ on then s.raise (srcSeq n) 0x0006 6 n g.addr
  else s.setChan n { s.chan n with gates := (s.chan n).gates ++ [{ g with on := on, off := off }] }

/-- Placing the gates of a granted run: DARK_RUN for an interval without light (R184). -/
def State.placeGates (s : State) (n addr : Nat) : List Gate → State
  | [] => s
  | g :: t =>
    let r := s.gateEdges n g
    let s := s.bump 32 (K.BC_EDGE_CLAMPED n) (r.1.2.toNat + r.2.2.toNat)
    (s.keepGate n r.1.1 r.2.1 { g with addr := addr }).placeGates n addr t

/-- An interval whose span is cut short is placed anew (R178, R184): an edge that is clamped now and was not before counts. -/
def State.replaceGate (s : State) (n : Nat) (g : Gate) (nomOff spanLast : Nat) : State :=
  let h := { g with nomOff := nomOff, spanLast := spanLast }
  let was := s.gateEdges n g
  let r := s.gateEdges n h
  let s := s.setChan n { s.chan n with gates := (s.chan n).gates.filter (· != g) }
  let s := s.bump 32 (K.BC_EDGE_CLAMPED n) ((r.1.2 && !was.1.2).toNat + (r.2.2 && !was.2.2).toNat)
  s.keepGate n r.1.1 r.2.1 h

/-- The tail of a run (R209): the bounding box of the paths beyond the 64th chord. -/
def State.tailOf (s : State) (n : Nat) (ps : List Planned) : Option Held :=
  let pts := ps.flatMap fun p => match s.pathOf n p.chord p.sx p.sy with
    | none => []
    | some q => q.corners
  if pts.isEmpty then none
  else let b := bboxOf pts; some (s.regionsOf n (.box b.1 b.2.1 b.2.2.1 b.2.2.2))

/-- Marking the chords beyond the 64th marked one as held in the tail. -/
def tailMarks (k : Nat) : List Planned → List Planned
  | [] => []
  | p :: t => { p with inTail := decide (64 ≤ k) } :: tailMarks (if p.isMarked then k + 1 else k) t

end Sys2Proof.Machine
end

