-- ==== Sys2Proof/Machine/Facet.lean ====
section
/-! DEFINITION. Facets (R230 to R249): planes, block maps and composites, commits and their retirement, the sweep of a
pass, its pixels and gates. -/

namespace Sys2Proof.Machine

/-- The commits of a slot, newest first. -/
def State.commits (s : State) (n slot : Nat) : List Commit := Tab.get (fun _ => []) (s.chan n).commits slot

/-- The entry of a commit in a slot's log (R241). -/
def Commit.log (c : Commit) : Nat :=
  c.num + c.effectLayer * 2 ^ 32 + c.effectPass * 2 ^ 64 + c.state * 2 ^ 96 + (if c.state = 4 then c.planes else 0) * 2 ^ 104

/-- Setting the commits of a slot, and its log with them. -/
def State.setCommits (s : State) (n slot : Nat) (l : List Commit) : State :=
  let c := s.chan n
  let l := l.take 8 ++ (l.drop 8).filter (fun (k : Commit) => k.state != 4)
  let s := s.setChan n { c with commits := Tab.set (fun _ => []) c.commits slot l }
  (List.range 8).foldl (fun s i => s.wr (K.FX_LOG n slot i) ((l[i]?.map Commit.log).getD 0)) s

/-- Changing one commit of a slot. -/
def State.updCommit (s : State) (n slot num : Nat) (f : Commit → Commit) : State :=
  s.setCommits n slot ((s.commits n slot).map fun (c : Commit) => if c.num = num then f c else c)

/-- A commit by number. -/
def State.commit (s : State) (n slot num : Nat) : Option Commit := (s.commits n slot).find? (fun c => c.num == num)

/-- Tile columns and rows (R232). -/
def FacetGeo.bw (g : FacetGeo) : Nat := divUp g.w 64
def FacetGeo.bh (g : FacetGeo) : Nat := divUp g.h 64

/-- The enabled planes of a commit. -/
def Commit.planeList (c : Commit) : List Nat := (List.range 4).filter (fun k => c.planes.testBit k)

/-- Weight and mode of a plane (R230). -/
def State.planeWeight (s : State) (n slot k : Nat) : Nat := s.rd (K.FX_WEIGHT n slot k)
def State.planeAdd (s : State) (n slot k : Nat) : Bool := (s.rd (K.FX_PLANE_MODE n slot)).testBit k
def State.planeSigned (s : State) (n slot k : Nat) : Bool := (s.rd (K.FX_PLANE_MODE n slot)).testBit (k + 4)

/-- A byte in the facet context of a channel, zero where it is not mapped. -/
def State.facetByte (s : State) (n addr : Nat) : Nat := (((s.translate (16 + n) addr).map s.physByte).getD 0).toNat

/-- Tile `t` of a plane is marked as holding data in its block map (R232). -/
def State.tileMarked (s : State) (n : Nat) (c : Commit) (k t : Nat) : Bool :=
  (s.facetByte n (c.maps.getD k 0 + t / 8)).testBit (t % 8)

/-- A block is empty (R233): every enabled plane with a weight marks it 0. -/
def State.blockEmpty (s : State) (n slot : Nat) (c : Commit) (t : Nat) : Bool :=
  c.planeList.all fun k => s.planeWeight n slot k == 0 || !s.tileMarked n c k t

/-- Address of a pixel's byte in a plane (R232). -/
def pixelAddr (g : FacetGeo) (base x y : Nat) : Nat :=
  base + 4096 * (y / 64 * g.bw + x / 64) + 64 * (y % 64) + x % 64

/-- The composite value of a pixel (R233). -/
def State.composite (s : State) (n slot : Nat) (g : FacetGeo) (c : Commit) (x y : Nat) : Nat :=
  let t := y / 64 * g.bw + x / 64
  let v := fun (k : Nat) =>
    let b := if s.tileMarked n c k t then s.facetByte n (pixelAddr g (c.bases.getD k 0) x y) else 0
    let p : Int := if s.planeSigned n slot k then sgn 8 b else b
    (p * s.planeWeight n slot k + 128) / 256
  let m := (c.planeList.filter (fun k => !s.planeAdd n slot k)).foldl (fun (a : Option Int) k => match a with
    | none => some (v k)
    | some b => some (max b (v k))) none
  let a := (c.planeList.filter (fun k => s.planeAdd n slot k)).foldl (fun (a : Int) k => a + v k) 0
  (clampInt 0 255 (m.getD 0 + a)).toNat

/-- Job pages of a byte range. -/
def pagesOf (addr len : Nat) : List Nat :=
  if len = 0 then [] else (List.range ((addr + len - 1) / 65536 + 1 - addr / 65536)).map (fun i => addr / 65536 + i)

/-- Byte ranges a commit spans: tile array and block map of each enabled plane. -/
def commitRanges (g : FacetGeo) (c : Commit) : List (Nat × Nat) :=
  c.planeList.flatMap fun k =>
    [(c.bases.getD k 0, 4096 * (g.bw * g.bh)), (c.maps.getD k 0, divUp (g.bw * g.bh) 8)]

/-- Pages a commit spans, each once (R134). -/
def commitPages (g : FacetGeo) (c : Commit) : List Nat :=
  ((commitRanges g c).flatMap fun r => pagesOf r.1 r.2).eraseDups

/-- Pages a pass needs (R242): the block maps, and the tiles of non-empty blocks in every enabled plane. -/
def State.neededPages (s : State) (n slot : Nat) (g : FacetGeo) (c : Commit) (fromLine : Nat) : List Nat :=
  (c.planeList.flatMap fun k =>
    pagesOf (c.maps.getD k 0) (divUp (g.bw * g.bh) 8) ++
    (List.range (g.bw * g.bh)).flatMap fun t =>
      if t / g.bw < fromLine / 64 || s.blockEmpty n slot c t then []
      else pagesOf (c.bases.getD k 0 + 4096 * t) 4096).eraseDups

/-- The job page is pinned in the facet window and may be used. -/
def State.facetPinned (s : State) (n : Nat) (held : List Nat) (jp : Nat) : Bool :=
  held.contains jp && (match s.page (16 + n) jp with | some p => decide (0 < p.pins) && !p.unmap | none => false)

/-- Repair entries that have not ended (R246). -/
def Chan.openRepairs (c : Chan) : List Repair := c.repairs.drop c.repairNext

/-- Retiring the commits of a slot that nothing refers to any more (R249): one PLANE_RETIRED for each plane. -/
def State.retire (s : State) (n slot : Nat) : State :=
  (s.commits n slot).foldl (fun s c =>
    let used := (s.chan n).openRepairs.any (fun r => r.slot == slot && r.commit == c.num) ||
      (match (s.chan n).pass with | some p => p.slot == slot && p.commit == c.num | none => false)
    if (c.state = 2 ∨ c.state = 3) ∧ c.pinned.isEmpty ∧ !used then
      let s := s.updCommit n slot c.num (fun c => { c with state := 4 })
      c.planeList.foldl (fun s k => s.raiseSeries (srcFacet n) 0x0043 4 (c.num + slot * 2 ^ 32 + k * 2 ^ 40) []) s
    else s) s

/-- Releasing the window pins of a commit (R137, R242). -/
def State.dropPins (s : State) (n slot num : Nat) : State :=
  match s.commit n slot num with
  | none => s
  | some c => (s.updCommit n slot num (fun c => { c with pinned := [] })).unpinAll (16 + n) c.pinned

/-- A FACET naming a slot is a candidate, in progress or in pin wait, or a repair entry of it has not ended (R231). -/
def Chan.usesSlot (c : Chan) (slot : Nat) : Bool :=
  let names := fun (ch : Chord) => match ch.shape with
    | .facet k _ _ _ _ => k == slot
    | _ => false
  let offered := fun (d : Cand) => d.chords.any (fun x => names x.1) || d.item.any fun (i : Nat × Item) => i.2.chords.any names
  c.cand.any offered || c.run.any (fun p => names p.chord) || c.refused.any (fun r => r.2.2.chords.any names) ||
    (match c.pass with | some p => p.slot == slot | none => false) || c.openRepairs.any (fun r => r.slot == slot)

/-- Bringing FX_STATE up to date (R231). -/
def State.syncSlots (s : State) (n : Nat) : State :=
  (List.range 8).foldl (fun s j =>
    if s.rd (K.FX_STATE n j) = 0 then s else s.wr (K.FX_STATE n j) (if (s.chan n).usesSlot j then 2 else 1)) s

/-- Releasing what the commits of a slot that are no longer in force still pin for a pass (R137, R249): the one named stays. -/
def State.dropHeld (s : State) (n slot keep : Nat) : State :=
  let s := ((s.commits n slot).filter (fun c => c.state == 3 && c.num != keep)).foldl (fun s c => s.dropPins n slot c.num) s
  s.retire n slot

/-- A write of FX_COMMIT (R239, R240). -/
def fxCommitEff (n slot _v : Nat) (s : State) : Nat × State :=
  let g := s.facetGeo n slot
  let planes := s.rd (K.FX_PLANES n slot)
  let c : Commit := { num := (s.rd (K.FX_COMMITS n slot) + 1) % 2 ^ 32, tick := s.tm.tick,
                      bases := (List.range 4).map (fun k => s.rd (K.FX_BASE n slot k)),
                      maps := (List.range 4).map (fun k => s.rd (K.FX_MAP n slot k)), planes := planes, pinned := [],
                      state := 0, effectLayer := 0, effectPass := 0 }
  if planes = 0 ∨ 200 * g.t < g.px ∨ g.t < s.rd (K.FX_HEAD_MIN_PERIOD n) ∨
      (commitRanges g c).any (fun r => decide (2 ^ 40 < r.1 + r.2)) ∨ 256 < (commitPages g c).length then (Ans.refused, s)
  else
    let old := (s.commits n slot).filter (fun c => c.state == 0)
    let s := s.setCommits n slot (c :: (s.commits n slot))
    let s := s.wrs [(K.FX_COMMITS n slot, c.num), (K.FX_STATE n slot, max 1 (s.rd (K.FX_STATE n slot)))]
    let s := old.foldl (fun s c => (s.updCommit n slot c.num (fun c => { c with state := 2 })).dropPins n slot c.num) s
    (Ans.ok, s.retire n slot)

/-- FX_COMMIT (R239). -/
def execFxCommit (m : Msg) (n : Fin 16) (slot : Fin 8) (s : State) : Host.Outcome State Fault Refusal :=
  writeCmd m (K.FX_COMMIT n slot) 1 1 (fxCommitEff n slot) s

/-- A write of FX_CLEAR (R231): READY to EMPTY, the commit in force and one that waits lose their roles. -/
def fxClearEff (n slot _v : Nat) (s : State) : Nat × State :=
  if s.rd (K.FX_STATE n slot) ≠ 1 then (Ans.refused, s)
  else
    let live' := (s.commits n slot).filter (fun c => decide (c.state ≤ 1))
    let s := live'.foldl (fun s c =>
      (s.updCommit n slot c.num (fun c => { c with state := if c.state = 1 then 3 else 2 })).dropPins n slot c.num) s
    (Ans.ok, (s.wrs [(K.FX_STATE n slot, 0), (K.FX_IN_FORCE n slot, 0)]).retire n slot)

/-- FX_CLEAR (R231). -/
def execFxClear (m : Msg) (n : Fin 16) (slot : Fin 8) (s : State) : Host.Outcome State Fault Refusal :=
  writeCmd m (K.FX_CLEAR n slot) 1 1 (fxClearEff n slot) s

/-- A write of FX_PLANE_MODE (R230): SIGNED only together with ADD. -/
def fxModeEff (n slot v : Nat) (s : State) : Nat × State :=
  if (List.range 4).any (fun k => v.testBit (k + 4) && !v.testBit k) then (Ans.refused, s)
  else (Ans.ok, s.wr (K.FX_PLANE_MODE n slot) v)

/-- The commit a pass uses at its commit instant (R240): the newest stamped before it. -/
def State.passCommit (s : State) (n slot instant : Nat) : Option Commit :=
  (s.commits n slot).find? (fun c => decide (c.state ≤ 1) && decide (c.tick < instant))

/-- A commit comes into force at its first use (R240, R241, R249). -/
def State.useCommit (s : State) (n slot num passNo : Nat) : State :=
  match s.commit n slot num with
  | none => s
  | some c =>
    if c.state ≠ 0 then s
    else
      let prior := (s.commits n slot).filter (fun d => d.state == 1)
      let s := prior.foldl (fun s d => s.updCommit n slot d.num (fun d => { d with state := 3 })) s
      let s := s.updCommit n slot num (fun c =>
        { c with state := 1, effectLayer := s.rd K.LAYER_NUMBER, effectPass := passNo })
      (s.wr (K.FX_IN_FORCE n slot) num).raise (srcFacet n) 0x0042 4 0 (num + passNo * 2 ^ 32)

/-- Samples of a line (R235). -/
def FacetGeo.lineSamples (g : FacetGeo) : Nat := divUp (g.w * g.t) 400

/-- Lead-in or lead-out samples at line speed (R236, R179). -/
def FacetGeo.lead (g : FacetGeo) (least accel : Nat) : Nat := max least (divUp (250 * g.px * 100000) (g.t * accel))

/-- Lines of a tile row are swept: it holds a non-empty block (R236). -/
def State.rowSwept (s : State) (n slot : Nat) (g : FacetGeo) (c : Commit) (by' : Nat) : Bool :=
  (List.range g.bw).any fun bx => !s.blockEmpty n slot c (by' * g.bw + bx)

/-- The swept lines of a pass, from a line on. -/
def State.sweptLines (s : State) (n slot : Nat) (g : FacetGeo) (c : Commit) (fromLine : Nat) : List Nat :=
  (List.range g.bh).flatMap fun r =>
    if s.rowSwept n slot g c r then
      ((List.range 64).map (fun i => r * 64 + i)).filter (fun y => decide (y < g.h) && decide (fromLine ≤ y))
    else []

/-- The ends of a swept line, in the order of the sweep: where its samples begin and end, in half nm along and across
(R235). A repair entry's first line begins at its pixel (R246). -/
def lineEnds (g : FacetGeo) (y : Nat) (fromPixel : Option Nat) : Int × Int × Nat :=
  let up := y % 2 = 0
  match fromPixel with
  | none =>
    let n := g.lineSamples
    let len : Int := 800 * n * g.px / g.t
    if up then (0, len, n) else (len, 0, n)
  | some x =>
    let k := if up then g.w - x else x + 1
    let n := divUp (k * g.t) 400
    let len : Int := 800 * n * g.px / g.t
    let a : Int := 2 * (if up then x * g.px else (x + 1) * g.px)
    if up then (a, a + len, n) else (a, a - len, n)

/-- Where the light of a swept line begins and ends along the facet, in half nm times T (R235). -/
def lineSpan (g : FacetGeo) (y : Nat) (fromPixel : Option Nat) : Int × Int :=
  let up := y % 2 = 0
  match fromPixel with
  | none =>
    let len : Int := 800 * g.lineSamples * g.px
    if up then (0, len) else (len, 0)
  | some x =>
    let k := if up then g.w - x else x + 1
    let len : Int := 800 * divUp (k * g.t) 400 * g.px
    let a : Int := 2 * (if up then x * g.px else (x + 1) * g.px) * g.t
    (a, if up then a + len else a - len)

/-- The turnaround from a line to the next is regular (R236, R250): the rest point of the lead-out is where the lead-in starts, so no
transfer joins them. -/
def regularTurn (g : FacetGeo) (lim : Limits) (line : Nat) (fromPixel : Option Nat) : Bool :=
  let nin : Int := g.lead lim.skyIn lim.accel
  let nout : Int := g.lead lim.skyOut lim.accel
  let dir : Int := if line % 2 = 0 then 1 else -1
  decide (0 < nin + nout) &&
    (lineSpan g line fromPixel).2 + dir * 400 * g.px * nout == (lineSpan g (line + 1) none).1 + dir * 400 * g.px * nin

/-- The pieces of a swept line with its lead-in and lead-out: `q0` and `q1` are the shifts across, in half nm, spread over
lead-in and lead-out (R236). -/
def linePieces (g : FacetGeo) (lim : Limits) (x y : Int) (angle line : Nat) (fromPixel : Option Nat) (q0 q1 : Int) : List Seg :=
  let e := lineEnds g line fromPixel
  let b : Int := 2 * (line * g.lp : Nat)
  let p0 := facetPoint x y angle e.1 b
  let p1 := facetPoint x y angle e.2.1 b
  let c := cosSin16 angle
  let dir : Int := if line % 2 = 0 then 1 else -1
  let vx := dir * g.px * c.1
  let vy := dir * g.px * c.2
  let vd := g.t * sinUnit.toNat
  let sh := fun (q : Int) => (divHalfAway (-q * c.2) (2 * sinUnit.toNat), divHalfAway (q * c.1) (2 * sinUnit.toNat))
  let s0 := sh q0
  let s1 := sh q1
  [.leadIn (g.lead lim.skyIn lim.accel) p0.1 p0.2 vx vy vd s0.1 s0.2, .line e.2.2 p0.1 p0.2 p1.1 p1.2 (some line),
   .leadOut (g.lead lim.skyOut lim.accel) p1.1 p1.2 vx vy vd s1.1 s1.2]

/-- The pieces of a pass, line after line, with the line starts as sample counts from its first piece. -/
def sweepPieces (g : FacetGeo) (lim : Limits) (speed : Nat) (x y : Int) (angle : Nat) :
    Option Nat → Option (Nat × Option Nat) → Nat → Option (Int × Int) → List Nat → List Seg × List (Nat × Nat)
  | _, _, _, _, [] => ([], [])
  | fromPixel, before, at', rest, line :: more =>
    let nin := g.lead lim.skyIn lim.accel
    let nout := g.lead lim.skyOut lim.accel
    let step : Int := 2 * g.lp
    let out : Int := if nin + nout = 0 then 0 else step * nout / (nin + nout : Nat)
    let q0 := match before with | some k => if k.1 + 1 = line then step - out else 0 | none => 0
    let q1 := match more with | k :: _ => if line + 1 = k then out else 0 | [] => 0
    let ps := linePieces g lim x y angle line fromPixel q0 q1
    let start := match ps with | a :: _ => a.startPos | [] => (x, y)
    let joined := before.any fun k => k.1 + 1 == line && regularTurn g lim k.1 k.2
    let tr := match rest with
      | none => []
      | some r => if joined then [] else transfer lim r.1 r.2 start.1 start.2 speed
    let ls := at' + segsLen tr + nin
    let ending := match ps.getLast? with | some q => q.ending | none => start
    let r := sweepPieces g lim speed x y angle none (some (line, fromPixel)) (at' + segsLen tr + segsLen ps) (some ending) more
    (tr ++ ps ++ r.1, (line, ls) :: r.2)

/-- A planned pass: its pieces from its first sample, the pass with its line starts, and where the beam rests after it. -/
structure PassPlan where
  segs : List Seg
  pass : Pass
  restX : Int
  restY : Int
  endTick : Nat
deriving DecidableEq, Repr

/-- Planning a pass that begins at tick `a` with the beam at rest at `r` (R235, R236, R246). -/
def State.planPass (s : State) (n slot : Nat) (c : Commit) (x y : Int) (angle : Nat) (noFF noLoop : Bool) (left passNo : Nat)
    (fromAt : Option (Nat × Nat)) (repair : Option Nat) (a : Nat) (r : Int × Int) (speed : Nat) : PassPlan :=
  let g := s.facetGeo n slot
  let lim := s.limits n
  let lines := s.sweptLines n slot g c ((fromAt.map (·.1)).getD 0)
  let first := lines.headD ((fromAt.map (·.1)).getD 0)
  let fp := fromAt.map (·.2)
  let lead0 := linePieces g lim x y angle first fp 0 0
  let st := match lead0 with | q :: _ => q.startPos | [] => (x, y)
  let tr := transfer lim r.1 r.2 st.1 st.2 speed
  let mk := fun (ls : List (Nat × Nat)) (b : Nat) =>
    ({ slot := slot, commit := c.num, passNo := passNo, left := left, x := x, y := y, angle := angle, noFF := noFF,
       noLoop := noLoop, lines := ls, fromAt := fromAt, firstLead := a + 400 * segsLen tr, boundary := b, pinned := false,
       under := none, repair := repair, rows := ((fromAt.map (·.1)).getD 0) / 64 } : Pass)
  match lines with
  | [] =>
    let segs := tr ++ [Seg.stay 1 st.1 st.2]
    let e := a + 400 * segsLen segs
    { segs := segs, pass := mk [] e, restX := st.1, restY := st.2, endTick := e }
  | _ :: _ =>
    let w := sweepPieces g lim speed x y angle fp none (segsLen tr) none lines
    let segs := tr ++ w.1
    let nout := g.lead lim.skyOut lim.accel
    let e := a + 400 * segsLen segs
    let rest := match segs.getLast? with | some q => q.ending | none => st
    { segs := segs, pass := mk (w.2.map fun l => (l.1, a + 400 * l.2)) (e - 400 * nout), restX := rest.1, restY := rest.2,
      endTick := e }

/-- The start of the lead-in of a FACET's first pass, when its slot holds a commit (R180). -/
def State.facetLead (s : State) (n : Nat) (c : Chord) : Option (Int × Int) :=
  match c.shape with
  | .facet slot _ x y angle =>
    match s.passCommit n slot (s.tm.tick + 1) with
    | none => none
    | some k =>
      let p := s.planPass n slot k x y angle false false 0 0 none none 0 (x, y) 1
      match p.pass.lines, p.segs.find? (fun g => match g with | .leadIn _ _ _ _ _ _ _ _ => true | _ => false) with
      | _ :: _, some g => some g.startPos
      | _, _ => some (p.restX, p.restY)
  | _ => none

/-- The tick at which a pixel of a swept line starts, before the channel's time offset (R235). -/
def pixelStart (g : FacetGeo) (line ls x : Nat) (fromPixel : Option Nat) : Nat :=
  match fromPixel with
  | some x0 => if line % 2 = 0 then ls + (x - x0) * g.t else ls + (x0 - x) * g.t
  | none => if line % 2 = 0 then ls + x * g.t else ls + (400 * g.lineSamples - g.w * g.t) + (g.w - 1 - x) * g.t

/-- Pixels of a line in the order of the sweep. -/
def lineOrder (g : FacetGeo) (line : Nat) (fromPixel : Option Nat) : List Nat :=
  if line % 2 = 0 then (List.range g.w).filter (fun x => decide (fromPixel.getD 0 ≤ x))
  else ((List.range g.w).filter (fun x => match fromPixel with | some p => decide (x ≤ p) | none => true)).reverse

/-- The first pixel of a line of a pass: a repair entry's first line begins within. -/
def Pass.fromPixel (p : Pass) (line : Nat) : Option Nat :=
  match p.fromAt with
  | some (l, x) => if l = line then some x else none
  | none => none

/-- Lines of a pass whose light may fall near an instant: the channel's delays reach 8,000 ticks. -/
def Pass.linesNear (p : Pass) (g : FacetGeo) (a : Nat) : List (Nat × Nat) :=
  p.lines.filter fun l => decide (l.2 ≤ a + 8800) && decide (a ≤ l.2 + 400 * g.lineSamples + 8800)

/-- A pixel comes after the underrun of its pass. -/
def Pass.after (p : Pass) (line x : Nat) : Bool :=
  match p.under with
  | none => false
  | some (l, u) => decide (l < line) || (line == l && (if line % 2 = 0 then decide (u ≤ x) else decide (x ≤ u)))

/-- Stretches of a line in the order of the sweep that lie in non-empty blocks: first and last pixel. -/
def State.litStretches (s : State) (n : Nat) (p : Pass) (g : FacetGeo) (c : Commit) (line : Nat) : List (Nat × Nat) :=
  let cols := (List.range g.bw).filter fun bx => !s.blockEmpty n p.slot c (line / 64 * g.bw + bx)
  let lo := match p.fromPixel line with | some x => if line % 2 = 0 then x else 0 | none => 0
  let hi := match p.fromPixel line with | some x => if line % 2 = 0 then g.w - 1 else x | none => g.w - 1
  let join := cols.foldl (fun (l : List (Nat × Nat)) bx => match l with
    | (a, b) :: t => if b + 1 = bx then (a, bx) :: t else (bx, bx) :: (a, b) :: t
    | [] => [(bx, bx)]) []
  let st := join.filterMap fun r =>
    let a := max lo (64 * r.1)
    let b := min hi (64 * r.2 + 63)
    if a ≤ b then some (a, b) else none
  if line % 2 = 0 then st.reverse else st.map fun r => (r.2, r.1)

/-- Gate intervals of a pass near an instant, edges placed within the chord's span (R238, R184), with a flag for each
edge that was clamped; the off-edge of a dark one comes no later than its on-edge. -/
def State.passGates (s : State) (n : Nat) (p : Pass) (c : Commit) (first last a : Nat) : List (Nat × Nat × Bool × Bool) :=
  let g := s.facetGeo n p.slot
  let off := s.rdS 16 (K.BC_CAL_TIME_OFFSET n)
  (p.linesNear g a).flatMap fun l =>
    (s.litStretches n p g c l.1).filterMap fun r =>
      if p.after l.1 r.1 then none
      else
        let ending := if p.after l.1 r.2 then
            (match p.under with | some (_, u) => pixelStart g l.1 l.2 u (p.fromPixel l.1) | none => 0)
          else pixelStart g l.1 l.2 r.2 (p.fromPixel l.1) + g.t
        let e0 := placeEdge ((pixelStart g l.1 l.2 r.1 (p.fromPixel l.1) : Int) + s.rdS 16 (K.BC_GATE_ON_DELAY n) + off) first last
        let e1 := placeEdge ((ending : Int) + s.rdS 16 (K.BC_GATE_OFF_DELAY n) + off) first last
        some (e0.1, e1.1, e0.2, e1.2)

/-- Pixels of a pass that start in [a, a + 400), with line, pixel and start (R235, R237); `back` takes in those that start
up to that many ticks before. -/
def State.pixelsIn (s : State) (n : Nat) (p : Pass) (a back : Nat) : List (Nat × Nat × Nat) :=
  let g := s.facetGeo n p.slot
  let off := s.rdS 16 (K.BC_CAL_TIME_OFFSET n)
  (p.linesNear g a).flatMap fun l =>
    (lineOrder g l.1 (p.fromPixel l.1)).filterMap fun x =>
      let t := (pixelStart g l.1 l.2 x (p.fromPixel l.1) : Int) + off
      if (a : Int) - back ≤ t ∧ t < (a : Int) + 400 then some (l.1, x, t.toNat) else none

/-- Beats that fetch reads for a pass from a line on (R123, R232): its block maps and the tiles they mark. -/
def State.passBeats (s : State) (n slot : Nat) (c : Commit) (fromLine : Nat) : Nat :=
  let g := s.facetGeo n slot
  c.planeList.foldl (fun t k =>
    t + divUp (divUp (g.bw * g.bh) 8) 64 + 64 * ((List.range (g.bw * g.bh)).filter fun b =>
      decide (fromLine / 64 ≤ b / g.bw) && !s.blockEmpty n slot c b && s.tileMarked n c k b).length) 0

/-- Cells whose centre lies in a pixel's footprint (R234, R244). -/
def State.footprintCells (s : State) (g : FacetGeo) (p : Pass) (x y : Nat) : List Nat :=
  let c := cosSin16 p.angle
  let a0 : Int := x * g.px
  let b0 : Int := 2 * (y * g.lp : Nat) - (g.lp : Nat)
  let cs := [facetPoint p.x p.y p.angle (2 * a0) b0, facetPoint p.x p.y p.angle (2 * (a0 + g.px)) b0,
    facetPoint p.x p.y p.angle (2 * a0) (b0 + 2 * g.lp), facetPoint p.x p.y p.angle (2 * (a0 + g.px)) (b0 + 2 * g.lp)]
  let b := bboxOf cs
  let lo := s.cellAt b.1 b.2.1
  let hi := s.cellAt b.2.2.1 b.2.2.2
  (List.range ((hi.2 - lo.2).toNat + 1)).flatMap fun (j : Nat) => (List.range ((hi.1 - lo.1).toNat + 1)).filterMap fun (i : Nat) =>
    match cellNo (lo.1 + i, lo.2 + j) with
    | none => none
    | some k =>
      let q := s.cellCentre k
      let dx := q.1 - p.x
      let dy := q.2 - p.y
      let a := dx * c.1 + dy * c.2
      let d := 2 * (dy * c.1 - dx * c.2)
      if a0 * sinUnit ≤ a ∧ a < (a0 + g.px) * sinUnit ∧ b0 * sinUnit ≤ d ∧ d < (b0 + 2 * g.lp) * sinUnit then some k else none

end Sys2Proof.Machine
end

