-- ==== Sys2Proof/Machine/Lune.lean ====
section
/-! DEFINITION. Lunes and floating items (R152 to R155, R203 to R205, R212, R214, R221 to R225): bodies and their
items, the queues and the pool, live masks, orphans, remnants, and reports of unexposed work. -/

namespace Sys2Proof.Machine

/-- A lune with nothing queued. -/
def Lune.init : Lune := { items := [], orphans := [] }

/-- Lune `l`. -/
def State.lune (s : State) (l : Nat) : Lune := Tab.get (fun _ => Lune.init) s.lunes l

/-- The channels for which lune `l` is enabled (R204). -/
def State.luneMask (s : State) (l : Nat) : Nat := if s.rd (K.LUNE_ENABLE l) = 1 then s.rd (K.LUNE_ELIGIBLE l) else 0

/-- Setting lune `l`, with the number of its queued items shown. -/
def State.setLune (s : State) (l : Nat) (x : Lune) : State :=
  ({ s with lunes := Tab.set (fun _ => Lune.init) s.lunes l x }).wr (K.LUNE_QUEUED l) (x.items.length % 65536)

/-- The polygon of a lune (R203). -/
def State.lunePoly (s : State) (l : Nat) : List (Int × Int) :=
  (List.range (s.rd (K.LUNE_VERTICES l))).map fun k =>
    (sgn 32 (octField 4 (s.rd (K.LUNE_POLYGON l)) (8 * k)), sgn 32 (octField 4 (s.rd (K.LUNE_POLYGON l)) (8 * k + 4)))

/-- A channel is live (R221), whatever the lune. -/
def State.chanLive (s : State) (n : Nat) : Bool :=
  let c := s.chan n
  c.member && !c.reached && (s.rd (K.BC_STATE n) == Bc.run || s.rd (K.BC_STATE n) == Bc.hold)

/-- The live channels of a lune (R221). -/
def State.liveMask (s : State) (l : Nat) : Nat :=
  (List.range 16).foldl (fun a n => if (s.luneMask l).testBit n && s.chanLive n then a + 2 ^ n else a) 0

/-- The lunes with a queue, or a live mask that may have changed. -/
def lunesAll : List Nat := List.range 128

/-- The nominal end of a chord that begins at a point. -/
def State.chordEnd (s : State) (n : Nat) (c : Chord) (x y : Int) : Int × Int :=
  match c.shape with
  | .mark a b => (a, b)
  | .arc cx cy sw => arcEnd x y cx cy sw
  | .jump a b => (a, b)
  | .park a b => (a, b)
  | .facet slot _ ox oy angle =>
    match s.passCommit n slot (s.tm.tick + 1) with
    | none => (ox, oy)
    | some k =>
      let p := s.planPass n slot k ox oy angle false false 0 0 none none 0 (ox, oy) 1
      match (p.segs.reverse.find? fun g => match g with | .line _ _ _ _ _ _ => true | _ => false) with
      | some g => g.ending
      | none => (p.restX, p.restY)

/-- The paths of chords one after another from a point, and where they end. -/
def State.chordPaths (s : State) (n : Nat) : Int × Int → List Chord → List PathShape × (Int × Int)
  | p, [] => ([], p)
  | p, c :: t =>
    let r := s.chordPaths n (s.chordEnd n c p.1 p.2) t
    match s.pathOf n c p.1 p.2 with
    | none => r
    | some q => (q :: r.1, r.2)

/-- The paths of an item on channel `n`. -/
def State.itemPaths (s : State) (n : Nat) (i : Item) : List PathShape := (s.chordPaths n (i.sx, i.sy) i.chords).1

/-- The corners of an item's path as the lune check sees them (R205): a FACET, whose slot is the claimant's, shows its
origin alone. -/
def State.itemCorners (s : State) (i : Item) : List (Int × Int) :=
  match i.chords with
  | [c] => match c.shape with
    | .facet _ _ x y _ => [(x, y)]
    | _ => (s.itemPaths 0 i).flatMap PathShape.corners
  | _ => (s.itemPaths 0 i).flatMap PathShape.corners

/-- One command of a FLOAT body: its address, word and decoding. -/
structure BodyCmd where
  addr : Nat
  word : Nat
  cmd : Option Cmd
deriving DecidableEq, Repr

/-- No parameters: a floating item takes its claimant's. -/
def Params.none : Params := { markSpeed := 0, jumpSpeed := 0, focus := 0, scale := 0, dwellLimit := 0xFFFF, dwellTimeout := 0 }

/-- Arc radii of a body in range (R148), judged where the position is known: the addresses of the commands that are not. -/
def State.arcErrors (s : State) (ox oy : Int) : Option (Int × Int) → List BodyCmd → List Nat
  | _, [] => []
  | p, b :: t =>
    match b.cmd.bind fun c => c.chord { pc := b.addr, ox := ox, oy := oy, stack := [] } Params.none with
    | none => s.arcErrors ox oy none t
    | some c =>
      let bad := match c.shape, p with
        | .arc cx cy _, some q => !arcRadiusOk q.1 q.2 cx cy
        | _, _ => false
      let q := match c.shape, p with
        | .facet _ _ _ _ _, _ => none
        | .jump x y, _ => some (x, y)
        | .mark x y, _ => some (x, y)
        | _, none => none
        | _, some q => some (s.chordEnd 0 c q.1 q.2)
      (if bad then [b.addr] else []) ++ s.arcErrors ox oy q t

/-- The whole items of a body, whatever else it holds. `cur` is the item begun, newest first. -/
def wholeItems : List BodyCmd → List BodyCmd → List (List BodyCmd)
  | cur, [] => if 2 ≤ cur.length ∧ cur.length ≤ 16 then [cur.reverse] else []
  | cur, b :: t =>
    let done := if 2 ≤ cur.length ∧ cur.length ≤ 16 then [cur.reverse] else []
    match b.cmd with
    | some (.jump _ _ _ false) => done ++ wholeItems [b] t
    | some (.mark _ _ _ _ _ _) => if cur.isEmpty then wholeItems [] t else wholeItems (b :: cur) t
    | some (.arc _ _ _ _ _ _) => if cur.isEmpty then wholeItems [] t else wholeItems (b :: cur) t
    | some (.facet _ _ _ _ _ _ _) => done ++ [b] :: wholeItems [] t
    | _ => done ++ wholeItems [] t

/-- Splitting a body into whole items (R152): none where it breaks one. `cur` is the item begun, newest first. -/
def splitItems : List BodyCmd → List BodyCmd → Option (List (List BodyCmd))
  | [], [] => some []
  | cur, [] => if 2 ≤ cur.length then some [cur.reverse] else none
  | cur, b :: t =>
    let closed := cur.isEmpty || decide (2 ≤ cur.length)
    match b.cmd with
    | some (.jump _ _ _ false) =>
      if closed then (splitItems [b] t).map fun r => if cur.isEmpty then r else cur.reverse :: r else none
    | some (.mark _ _ _ _ _ _) => if cur.isEmpty ∨ 16 ≤ cur.length then none else splitItems (b :: cur) t
    | some (.arc _ _ _ _ _ _) => if cur.isEmpty ∨ 16 ≤ cur.length then none else splitItems (b :: cur) t
    | some (.facet _ _ _ _ _ _ _) =>
      if closed then (splitItems [] t).map fun r => if cur.isEmpty then [b] :: r else cur.reverse :: [b] :: r else none
    | _ => none

/-- The chords of the commands of an item, coordinates resolved by an offset. -/
def bodyChords (ox oy : Int) (l : List BodyCmd) : List Chord :=
  l.filterMap fun b => b.cmd.bind fun c => c.chord { pc := b.addr, ox := ox, oy := oy, stack := [] } Params.none

/-- An item made of some commands. -/
def bodyItem (ox oy : Int) (poster : Nat) (l : List BodyCmd) : Item :=
  { chords := bodyChords ox oy l, entries := l.length, poster := poster, addr := (l.head?.map (·.addr)).getD 0, order := 0,
    barred := 0, sx := 0, sy := 0 }

/-- What a FLOAT body breaks (R152, R205): codes with the body command's address, or none for the FLOAT's own. -/
def State.bodyErrors (s : State) (l : Nat) (ox oy : Int) (poster : Nat) (body : List BodyCmd) : List (Nat × Option Nat) :=
  let own := body.flatMap fun b => (wordErrors b.word).map fun e => (e, some b.addr)
  let res := body.flatMap fun b => match b.cmd.bind fun c => c.chord { pc := b.addr, ox := ox, oy := oy, stack := [] } Params.none with
    | some c => if c.coordsOk then [] else [(Err.range, some b.addr)]
    | none => []
  let arcs := (s.arcErrors ox oy none body).map fun a => (Err.range, some a)
  let items := (wholeItems [] body).map (bodyItem ox oy poster)
  let poly := s.lunePoly l
  let out := s.luneMask l = 0 ∨ items.any fun i => (s.itemCorners i).any fun p => !inside poly p
  own ++ res ++ arcs ++ (if out then [(Err.luneOutside, none)] else []) ++
    (if (splitItems [] body).isNone then [(Err.floatBody, none)] else [])

/-- The items of a sound body. -/
def bodyItems (ox oy : Int) (poster : Nat) (body : List BodyCmd) : List Item :=
  ((splitItems [] body).getD []).map (bodyItem ox oy poster)

/-- Entries of the pool in use (R153). -/
def State.poolUsed (s : State) : Nat := lunesAll.foldl (fun a l => a + s.rd (K.LUNE_ENTRIES l)) 0

/-- Entries are free for a body. -/
def State.poolFits (s : State) (n : Nat) : Bool := decide (s.poolUsed + n ≤ 16384)

/-- Putting items into a lune's queue, at its head or tail; they are orphaned where no channel is live (R222). -/
def State.enqueue (s : State) (l : Nat) (front : Bool) (its : List Item) : State :=
  let x := s.lune l
  let add := fun (q : List Item) => if front then its ++ q else q ++ its
  if s.liveMask l = 0 then s.setLune l { x with orphans := add x.orphans } else s.setLune l { x with items := add x.items }

/-- Giving items their posting order. -/
def numberItems : Nat → List Item → List Item
  | _, [] => []
  | k, i :: t => { i with order := k } :: numberItems (k + 1) t

/-- Posting a body (R152, R153): items numbered, queued, their entries taken. -/
def State.post (s : State) (l : Nat) (its : List Item) : State :=
  let k := s.layer.posted
  let s := { s with layer := { s.layer with posted := k + its.length } }
  let s := s.wr (K.LUNE_ENTRIES l) (s.rd (K.LUNE_ENTRIES l) + its.foldl (fun a i => a + i.entries) 0)
  s.enqueue l false (numberItems k its)

/-- Freeing an item's entries (R153). -/
def State.freeEntries (s : State) (l : Nat) (i : Item) : State :=
  s.wr (K.LUNE_ENTRIES l) (s.rd (K.LUNE_ENTRIES l) - i.entries)

/-- Bringing LUNE_LIVE of every lune up to date after a change of channel `n`: a lune that loses its last live channel
with items queued orphans them (R221, R222). -/
def State.syncLive (s : State) (n : Nat) : State :=
  lunesAll.foldl (fun s l =>
    let old := s.rd (K.LUNE_LIVE l)
    let new := s.liveMask l
    if old = new then s
    else
      let s := s.wr (K.LUNE_LIVE l) new
      let x := s.lune l
      if new = 0 ∧ !x.items.isEmpty then
        (s.setLune l { x with items := [], orphans := x.orphans ++ x.items }).raise (srcSeq n) 0x0031 3 n (l + x.items.length * 2 ^ 32)
      else s) s

/-- Showing the lunes of each channel (R228). -/
def State.syncMasks (s : State) : State :=
  (List.range 16).foldl (fun s n =>
    s.wr (K.BC_LUNE_MASK n) (lunesAll.foldl (fun a l => if (s.luneMask l).testBit n then a + 2 ^ l else a) 0)) s

/-- A write of LUNE_ENABLE (R204). -/
def luneEnableEff (l v : Nat) (s : State) : Nat × State :=
  if v = 1 then
    let k := s.rd (K.LUNE_VERTICES l)
    if k < 3 ∨ 16 < k ∨ s.rd (K.LUNE_POLYGON l) / 2 ^ (64 * k) ≠ 0 ∨ !strictlyConvex (s.lunePoly l) ∨ s.rd (K.LUNE_ELIGIBLE l) = 0 then
      (Ans.refused, s)
    else
      let s := (s.wr (K.LUNE_ENABLE l) 1).syncMasks
      (Ans.ok, s.wr (K.LUNE_LIVE l) (s.liveMask l))
  else
    let s := (s.wr (K.LUNE_ENABLE l) 0).syncMasks
    (Ans.ok, s.wr (K.LUNE_LIVE l) (s.liveMask l))

/-- LUNE_ENABLE (R204). -/
def execLuneEnable (m : Msg) (l : Fin 128) (s : State) : Host.Outcome State Fault Refusal :=
  writeCmd m (K.LUNE_ENABLE l) 1 1 (luneEnableEff l) s

/-- Reading a body of commands through a context, without parking it. -/
def State.readBody (s : State) (tc addr count : Nat) : Option (List BodyCmd) :=
  (List.range count).foldr (fun i r => match s.readNum tc (addr + 16 * i) 16, r with
    | some w, some t => some ({ addr := addr + 16 * i, word := w, cmd := decodeCmd w } :: t)
    | _, _ => none) (some [])

/-- A body of commands as a sequencer fetches it. -/
def State.fetchBody (s : State) (n addr count : Nat) : Option (List BodyCmd) :=
  (List.range count).foldr (fun i r => match s.fetch n (addr + 16 * i), r with
    | some w, some t => some ({ addr := addr + 16 * i, word := w, cmd := decodeCmd w } :: t)
    | _, _ => none) (some [])

/-- The first command of a body that a sequencer cannot fetch. -/
def State.bodyHole (s : State) (n addr count : Nat) : Nat :=
  match (List.range count).find? (fun i => (s.fetch n (addr + 16 * i)).isNone) with
  | some i => addr + 16 * i
  | none => addr

/-- A write of LUNE_POST (R224). -/
def lunePostEff (l _v : Nat) (s : State) : Nat × State :=
  let count := s.rd (K.LUNE_POST_COUNT l)
  let ph := s.phase
  if (ph ≠ Phase.recoat ∧ ph ≠ Phase.expose) ∨ s.liveMask l = 0 ∨ count = 0 then (Ans.refused, s)
  else match s.readBody (s.rd (K.LUNE_POST_TC l)) (s.rd (K.LUNE_POST_ADDR l)) count with
  | none => (Ans.refused, s)
  | some body =>
    if !(s.bodyErrors l 0 0 16 body).isEmpty ∨ !s.poolFits count then (Ans.refused, s)
    else (Ans.ok, s.post l (bodyItems 0 0 16 body))

/-- LUNE_POST (R224). -/
def execLunePost (m : Msg) (l : Fin 128) (s : State) : Host.Outcome State Fault Refusal :=
  writeCmd m (K.LUNE_POST l) 1 1 (lunePostEff l) s

/-- An item lies wholly within one of the channel's allowed rectangles (R212). -/
def State.itemFits (s : State) (n : Nat) (i : Item) : Bool :=
  let b := bboxOf ((s.itemPaths n i).flatMap PathShape.corners)
  s.inRegion n (.box b.1 b.2.1 b.2.2.1 b.2.2.2)

/-- The lunes a claim or a serving channel takes from. -/
def State.servedLunes (s : State) (n : Nat) (any : Bool) (lune : Nat) : List Nat :=
  if any then lunesAll.filter (fun l => (s.luneMask l).testBit n && !(s.lune l).items.isEmpty) else [lune]

/-- An unclaimed item remains for a channel (R212 step 1). -/
def State.anyItem (s : State) (n : Nat) (any : Bool) (lune : Nat) : Bool :=
  (s.servedLunes n any lune).any fun l => (s.lune l).items.any fun i => s.itemFits n i

/-- Counting, once for each item, those passed over for the channel's scan region (R212). -/
def State.skipItems (s : State) (n : Nat) (lunes : List Nat) : State :=
  lunes.foldl (fun s l =>
    let x := s.lune l
    let new := x.items.filter fun i => !i.barred.testBit n && !s.itemFits n i
    if new.isEmpty then s
    else
      let s := s.bump 32 (K.BC_SKIPPED_REGION n) new.length
      let mark := fun (i : Item) => if new.any (fun j => j.order == i.order) = true then { i with barred := i.barred + 2 ^ n } else i
      s.setLune l { x with items := x.items.map mark }) s

/-- The items offered to a channel, in the order in which they are tried (R212): place in the queue, then lune. -/
def State.offers (s : State) (n : Nat) (lunes : List Nat) : List (Nat × Item) :=
  let look := s.rd (K.BC_CLAIM_LOOKAHEAD n)
  let qs := lunes.map fun l => (l, ((s.lune l).items.filter (fun i => s.itemFits n i)).take look)
  (List.range look).flatMap fun k => qs.filterMap fun q => (q.2[k]?).map fun i => (q.1, i)

/-- Taking an item out of its queue. -/
def State.takeItem (s : State) (l : Nat) (i : Item) : State :=
  let x := s.lune l
  s.setLune l { x with items := x.items.filter (fun j => j.order != i.order) }

/-- The columns and rows of a box, limited to the lattice (R225). -/
def State.boxCells (s : State) (b : Int × Int × Int × Int) : List Byte :=
  let lo := s.cellAt b.1 b.2.1
  let hi := s.cellAt b.2.2.1 b.2.2.2
  [lo.1, hi.1, lo.2, hi.2].flatMap fun v => toLE 2 (clampInt 0 4095 v).toNat

/-- An UNCOVERED report (R225). -/
def State.uncovered (s : State) (n form lune ch addr : Nat) (pts : List (Int × Int)) (count : Nat) : State :=
  let b := bboxOf pts
  let d := form * 2 ^ 62 + lune * 2 ^ 52 + ch * 2 ^ 48 + addr % 2 ^ 40
  let head := if form = 3 then toLE 24 0 else
    toLE 4 (uns 32 b.1) ++ toLE 4 (uns 32 b.2.1) ++ toLE 4 (uns 32 b.2.2.1) ++ toLE 4 (uns 32 b.2.2.2) ++ s.boxCells b
  s.raiseSeries (srcSeq n) 0x0030 3 d [head ++ toLE 4 count ++ toLE 4 0]

/-- Points the report of a discarded item covers (R225): the corners of its paths. -/
def State.itemPoints (s : State) (n : Nat) (i : Item) : List (Int × Int) := (s.itemPaths n i).flatMap PathShape.corners

/-- Discarding what a lune still holds at the start of REPAIR (R222): one report and the entries of each item. -/
def State.discardLune (s : State) (l : Nat) : State :=
  let x := s.lune l
  let all := x.orphans ++ x.items
  if all.isEmpty then s
  else
    let s := all.foldl (fun s i =>
      let src := if i.poster = 16 then 0 else i.poster
      let s := s.uncovered src (if i.poster = 16 then 1 else 0) l (if i.poster = 16 then 0 else i.poster) i.addr
        (s.itemPoints src i) i.chords.length
      (s.freeEntries l i).bump 16 (K.LUNE_ORPHANED l) 1) s
    s.setLune l { x with items := [], orphans := [] }

/-- Putting what is left of granted items back at the head of their queues (R214): the chords of the run that have not
started, item by item. -/
def State.remnants (s : State) (left : List Planned) : State :=
  let items := (left.filterMap (·.item)).foldl (fun (l : List (Nat × Item)) i =>
    if l.any (fun j => j.2.order == i.2.order) then l else i :: l) []
  -- newest first, so that the item begun last is put back first
  items.foldl (fun s li =>
    let mine := left.filter fun p => match p.item with | some j => j.2.order == li.2.order | none => false
    let st := match mine with
      | p :: _ => if p.isMarked then (p.sx, p.sy) else (li.2.sx, li.2.sy)
      | [] => (li.2.sx, li.2.sy)
    let a := match mine with | p :: _ => p.chord.addr | [] => li.2.addr
    s.enqueue li.1 true [{ li.2 with chords := mine.map (·.chord), addr := a, sx := st.1, sy := st.2 }]) s

end Sys2Proof.Machine
end

