-- ==== Sys2Proof/Machine/Beam.lean ====
section
/-! DEFINITION. Beam channels as they move between their states (R142, R194 to R198): chord boundaries, holds, faults,
OFF, repair entries, and what a stop leaves behind. -/

namespace Sys2Proof.Machine

/-- Showing the number of regions a channel holds (R228). -/
def State.syncHeld (s : State) (n : Nat) : State := s.wr (K.BC_HELD n) (s.chan n).held.length

/-- A transition of R194 other than an entry to FAULT (R525). -/
def State.setBc (s : State) (n st : Nat) : State :=
  (s.wrs [(K.BC_STATE n, st), (K.BC_STATE_STAMP n, s.now)]).raise (srcChan n) 0x0058 4 n st

/-- A channel stops waiting for a decision. -/
def State.noWait (s : State) (n : Nat) : State :=
  (s.setChan n { s.chan n with cand := none }).wrs
    [(K.BC_SHARE_WAIT n, 0), (K.BC_SHARE_AGE n, 0), (K.BC_SHARE_BLOCKER n, 0xFF)]

/-- The facet chord of a pin wait gives up its remaining passes to its item (R214, R242). -/
def Chan.pinRemnant (c : Chan) : Option (Nat × Item) :=
  match c.cand with
  | some d =>
    if d.pinWait then
      match d.item, d.chords, c.pass with
      | some (l, i), (ch, _) :: _, some p =>
        match ch.shape with
        | .facet slot _ x y a => some (l, { i with chords := [{ ch with shape := .facet slot (p.left + 1) x y a }] })
        | _ => none
      | _, _, _ => none
    else none
  | none => none

/-- Chords cut before each JUMP. -/
def splitJumps : List Chord → List (List Chord)
  | [] => []
  | c :: t =>
    let jump := match t with
      | d :: _ => (match d.shape with | .jump _ _ => true | _ => false)
      | [] => true
    match splitJumps t with
    | [] => [[c]]
    | g :: r => if jump then [c] :: g :: r else (c :: g) :: r

/-- What is planned of a reorder group and has not started (R169): it goes back to the head of the group. -/
def Chan.groupBack (c : Chan) : List (List Chord) :=
  if c.groupOn then
    let first := c.run.takeWhile fun p => p.after.isNone
    splitJumps ((first ++ (c.run.drop first.length).take 1).map fun p => p.chord)
  else []

/-- A channel gives up what it has planned and not executed: regions released, items returned (R214). -/
def State.dropRun (s : State) (n : Nat) : State :=
  let c := s.chan n
  let s := match c.pass with
    | some q => if q.repair.isNone then s.dropPins n q.slot q.commit else s
    | none => s
  let back := c.groupBack
  let s := s.setChan n { s.chan n with run := [], gates := [], tails := [], pass := none, oldPass := none,
                                       group := back ++ c.group, groupPassed := c.groupPassed + back.length }
  let s := s.remnants c.run
  let s := match c.refused with
    | some (_, l, i) => (s.setChan n { s.chan n with refused := none }).enqueue l true [i]
    | none => s
  let s := match c.pinRemnant with
    | some li => s.enqueue li.1 true [li.2]
    | none => s
  let s := match c.pass with
    | some q => s.retire n q.slot
    | none => s
  let s := if c.pass.isSome then s.wr (K.FX_SLOT_ACTIVE n) 0xFF else s
  ((s.noWait n).syncHeld n).syncSlots n

/-- HOLD with a sequencer cause (R171, R194). -/
def State.holdSeq (s : State) (n cause : Nat) : State :=
  ((s.dropRun n).wrs [(K.BC_CAUSE n, 1), (K.CS_HOLD_CAUSE n, cause), (K.CS_ACTIVITY n, 9)]).setBc n Bc.hold

/-- A hold ends: the next chord's first sample is the first one at or after `t` (R156, R171, R516). -/
def State.runSeq (s : State) (n t : Nat) : State :=
  let s := s.setChan n { s.chan n with notBefore := s.nextSample t, decodes := 0 }
  (s.wrs [(K.BC_CAUSE n, 0), (K.CS_HOLD_CAUSE n, 0), (K.CS_ACTIVITY n, 1)]).setBc n Bc.run

/-- HOLD with cause DEBUG (R515, R516). -/
def State.holdDebug (s : State) (n : Nat) : State :=
  let c := s.chan n
  let s := if c.stepping then s.inc (K.DBG_STEPS n) else s
  let s := s.setChan n { c with haltAt := none, stepping := false }
  ((s.holdSeq n 6).wrs [(K.DBG_SEQ_STATE n, 2), (K.DBG_HALT_STAMP n, s.now)]).raise (srcSeq n) 0x0021 4 n 0

/-- The fault that fetch meets at an address: a page the window does not take counts as unmapped (R125, R130). -/
def State.fetchKind (s : State) (n a : Nat) : Nat :=
  match s.page n (a / 65536) with
  | none => 1
  | some p => if p.unmap && !(s.tc n).window.contains (a / 65536) then 1 else (s.beatFault n (a / 64 * 64) false).getD 1

/-- Fetch parks on the beat of an address that it cannot take (R130, R135). -/
def State.parkFetch (s : State) (n a : Nat) : State :=
  if s.rd (K.TC_STATE n) = 2 then s else s.park n (s.fetchKind n a) (a / 64 * 64) false

/-- A channel waits for a command that cannot be fetched (R135). -/
def State.holdFetch (s : State) (n a : Nat) : State := (s.parkFetch n a).holdSeq n 1

/-- What a sequencer finds next when it decodes on from a cursor (R145). -/
inductive Next where
  | chord (c : Chord) (cur after : Cursor)
  | claim (any : Bool) (lune limit : Nat)
  | stop
  /-- A command that cannot be fetched, at its address. -/
  | hole (addr : Nat)
deriving DecidableEq, Repr

/-- What lies ahead: the next chord or claim, the non-chord commands before it with their addresses, and the parameters as they leave
them. -/
structure Peek where
  next : Next
  k : Nat
  seen : List Nat
  par : Params
deriving DecidableEq, Repr

/-- A FACET names a slot that holds a commit a pass may use (R150, R231). -/
def State.slotOk (s : State) (n slot : Nat) : Bool :=
  s.rd (K.FX_STATE n slot) != 0 && (s.passCommit n slot (s.tm.tick + 1)).isSome

/-- The words of a REPEAT body, none where one cannot be fetched. -/
def State.bodyWords (s : State) (n addr count : Nat) : Option (List Nat) :=
  (List.range count).foldr (fun i r => match s.fetch n (addr + 16 * i), r with
    | some w, some t => some (w :: t)
    | _, _ => none) (some [])

/-- A REPEAT body keeps the rules of R164: whole nested REPEAT and FLOAT bodies, no LAYER_CLOSE, no reorder group cut.
`left` counts the commands still to look at. -/
def bodyWhole : Nat → List Nat → Bool
  | _, [] => true
  | 0, _ => false
  | f + 1, w :: t =>
    match decodeCmd w with
    | some (.rep _ _ _ len) => decide (len ≤ t.length) && bodyWhole f (t.take len) && bodyWhole f (t.drop len)
    | some (.float count _) => decide (count ≤ t.length) && bodyWhole f (t.drop count)
    | some (.close _) => false
    | _ => bodyWhole f t

/-- The body of a REPEAT that ends inside a reorder item: its last commands are one, and a vector follows the body. -/
def cutsItem (body : List Nat) (after : Option Nat) : Bool :=
  let isVec := fun (w : Nat) => match decodeCmd w with | some c => c.isVector | none => false
  let lastHead := body.reverse.dropWhile isVec
  (match lastHead with
   | w :: _ => (match decodeCmd w with | some (.jump _ _ _ r) => r | _ => false)
   | [] => false) && (match after with | some w => isVec w | none => false)

/-- The innermost REPEAT body a cursor is in: where it begins and where it ends. -/
def Cursor.inBody (c : Cursor) : Option (Nat × Nat) :=
  match c.stack with
  | .rep start len _ _ _ _ _ _ :: _ => some (start, start + 16 * len)
  | _ => none

/-- `k` commands from a cursor on reach beyond the body they stand in (R164). -/
def Cursor.pastBody (c : Cursor) (k : Nat) : Bool := c.inBody.any fun b => decide (b.2 < c.pc + 16 * k)

/-- A REPEAT body breaks R164; a body that cannot be read yet is judged as its commands are decoded. -/
def State.badBody (s : State) (n addr len : Nat) : Bool :=
  match s.bodyWords n addr len with
  | none => false
  | some ws => !bodyWhole (4 * len + 4) ws || cutsItem ws (s.fetch n (addr + 16 * len))

/-- Decoding on from a cursor to the next chord or claim: SET, CALL, RETURN, REPEAT, MARKER, a CLAIM that finds no item and a FLOAT that
can post with those before it are passed over; `far` also passes the waits that serve nothing, and `room` counts the entries the
FLOATs take. -/
def State.peek (s : State) (n : Nat) (far : Bool) : Nat → Nat → Nat → List Nat → Params → Cursor → Peek
  | 0, k, _, seen, par, _ => ⟨.stop, k, seen, par⟩
  | f + 1, k, room, seen, par, cur =>
    let stop : Peek := ⟨.stop, k, seen ++ [cur.pc], par⟩
    let on := fun (p : Params) (c : Cursor) => s.peek n far f (k + 1) room (seen ++ [cur.pc]) p c
    match s.fetch n cur.pc with
    | none => ⟨.hole cur.pc, k, seen, par⟩
    | some w =>
      if !(wordErrors w).isEmpty then stop
      else match decodeCmd w with
      | none => stop
      | some cmd =>
        match cmd with
        | .set pa va pb vb => on ((par.set pa va).set pb vb) (cur.skip 1)
        | .call dx dy t => (match cur.call dx dy t with | some c => on par c | none => stop)
        | .ret => (match cur.ret with | some c => on par c | none => stop)
        | .rep dx dy count len =>
          if s.badBody n (cur.pc + 16) len ∨ cur.pastBody (len + 1) then stop
          else (match cur.rep dx dy count len with | some c => on par c | none => stop)
        | .marker _ => on par (cur.skip 1)
        | .float count lune =>
          (match s.fetchBody n (cur.pc + 16) count with
           | some body =>
             if (s.bodyErrors lune cur.ox cur.oy n body).isEmpty ∧ s.poolFits (room + count) ∧ !cur.pastBody (count + 1) then
               s.peek n far f (k + 1) (room + count) (seen ++ [cur.pc]) par (cur.skip (count + 1))
             else stop
           | none => ⟨.hole (s.bodyHole n (cur.pc + 16) count), k, seen, par⟩)
        | .claim limit lune any =>
          if any ∨ (s.luneMask lune).testBit n then
            (if s.anyItem n any lune then ⟨.claim any lune limit, k, seen ++ [cur.pc], par⟩ else on par (cur.skip 1))
          else stop
        | .waitTime _ serve _ _ => if far ∧ !serve then on par (cur.skip 1) else stop
        | .waitEvent _ _ _ serve => if far ∧ !serve then on par (cur.skip 1) else stop
        | .barrier _ _ serve => if far ∧ !serve then on par (cur.skip 1) else stop
        | .halt => stop
        | .close _ => stop
        | .mark _ _ _ _ _ _ | .arc _ _ _ _ _ _ | .jump _ _ _ _ | .facet _ _ _ _ _ _ _ =>
          match cmd.chord cur par with
          | none => stop
          | some c =>
            let ok := c.coordsOk && (match c.shape with | .facet slot _ _ _ _ => s.slotOk n slot | _ => true)
            if ok then ⟨.chord c cur (cur.skip 1), k, seen ++ [cur.pc], par⟩ else stop

/-- The frames of a stack as the walker follows them, from the place `a` at which the innermost level stands. -/
def windowFrames : Nat → List SFrame → List WFrame
  | _, [] => []
  | _, .call ret _ _ :: t => .call ret :: windowFrames (ret - 16) t
  | a, .rep start len count iter _ _ _ _ :: t =>
    let e := start + 16 * len
    .body e e (if iter + 1 < count then some (start, a) else none) :: windowFrames (start - 16) t

/-- Past the ends of the bodies an address has reached. -/
def windowNorm : Nat → Nat → List WFrame → Nat × List WFrame
  | 0, pc, fs => (pc, fs)
  | k + 1, pc, fs =>
    match fs with
    | .body upto next again :: t =>
      if pc = upto then
        match again with
        | some (a, b) => windowNorm k a (.body b next none :: t)
        | none => windowNorm k next t
      else (pc, fs)
    | _ => (pc, fs)

/-- The job pages a chord window covers from an address on, in execution order (R133): at most 64, within `left` bytes, up to an
unmapped page or one with a deferred unmap, which is given as the second component. Each repeated body is taken once. -/
def State.windowFrom (s : State) (n : Nat) : Nat → Nat → Nat → List WFrame → List Nat → List Nat × Option Nat
  | 0, _, _, _, ps => (ps, none)
  | f + 1, left, pc, fs, ps =>
    let jp := pc / 65536
    if 2 ^ 24 ≤ jp ∨ (!ps.contains jp ∧ 64 ≤ ps.length) then (ps, none)
    else match s.page n jp with
    | none => (ps, some jp)
    | some p =>
      if p.unmap ∧ !(s.tc n).window.contains jp then (ps, some jp)
      else
        let ps := if ps.contains jp then ps else ps ++ [jp]
        let on := fun (pc : Nat) (fs : List WFrame) => let r := windowNorm 10 pc fs; s.windowFrom n f (left - 16) r.1 r.2 ps
        if left < 16 then (ps, none)
        else match (s.readNum n pc 16).bind decodeCmd with
        | some (.call _ _ t) => if 8 ≤ fs.length then (ps, none) else on ((pc : Int) + 16 * t).toNat (.call (pc + 16) :: fs)
        | some .ret => (match fs with | .call r :: t => on r t | _ => (ps, none))
        | some (.rep _ _ _ len) =>
          if 8 ≤ fs.length then (ps, none) else on (pc + 16) (.body (pc + 16 + 16 * len) (pc + 16 + 16 * len) none :: fs)
        | some (.close _) => (ps, none)
        | _ => on (pc + 16) fs

/-- The window of channel `n` as it stands, as far as `left` bytes on: it begins at the command in execution, or where the walk of a
lost channel's program stands. -/
def State.window (s : State) (n left : Nat) : List Nat × Option Nat :=
  let cur := match (s.chan n).walk with | some w => w.cur | none => s.cursor n
  s.windowFrom n 65537 left cur.pc (windowFrames cur.pc cur.stack) []

/-- Fetch runs 16 KiB ahead of the command in execution (R133, R135): on reaching a hole that the walker has met, it parks there while
the channel runs on. -/
def State.fetchAhead (s : State) (n : Nat) : State :=
  if (s.tc n).shortAt.isEmpty ∨ s.rd (K.TC_STATE n) = 2 ∨ !(s.chan n).member ∨ (s.chan n).reached then s
  else match (s.window n 16384).2 with
    | some jp => s.parkFetch n (jp * 65536)
    | none => s

/-- A channel in RUN with no complete chord before a command it cannot fetch waits for it (R135). -/
def State.fetchCheck (s : State) (n : Nat) : State :=
  let c := s.chan n
  if s.rd (K.BC_STATE n) = Bc.run ∧ c.member ∧ !c.reached ∧ c.run.isEmpty ∧ c.wait = .none ∧ c.cand.isNone ∧ !c.groupOn then
    match (s.peek n true 4096 0 0 [] (s.params n) (s.cursor n)).next with
    | .hole a => s.holdFetch n a
    | .chord _ _ _ | .claim _ _ _ | .stop => s.fetchAhead n
  else s

/-- Releasing the pages the window of a channel no longer covers (R137); it ends with the channel's part in the layer. -/
def State.trimWindow (s : State) (n : Nat) : State :=
  let t := s.tc n
  let c := s.chan n
  let on : Bool := c.member && !c.reached && (s.rd (K.BC_STATE n) == Bc.run || s.rd (K.BC_STATE n) == Bc.hold || c.walk.isSome)
  let keep := if on then (s.window n 1048576).1 else []
  let gone := t.window.filter (fun p => !keep.contains p)
  if gone.isEmpty then s
  else (s.setTc n { t with window := t.window.filter (fun p => keep.contains p) }).unpinAll n gone

/-- What CS_ACTIVITY shows while a channel waits (R172); at LAYER_CLOSE it claims (notes/assumptions/141). -/
def Wait.activity : Wait → Nat
  | .none => 1
  | .posting => 2
  | .claiming _ _ _ _ => 3
  | .closing => 3
  | .time _ _ _ _ => 4
  | .event _ _ _ _ _ => 5
  | .barrier _ _ _ => 6
  | .mismatch => 6
  | .closed => 8

/-- Floating items granted to a channel and not yet executed. -/
def Chan.inHand (c : Chan) : Nat := ((c.run.filterMap (·.item)).map (·.2.order)).eraseDups.length

/-- Moving the cursor on: another beat has been fetched where it leaves its own, and the window behind it is released when its page is
left. -/
def State.moveTo (s : State) (n : Nat) (c : Cursor) : State :=
  let old := s.rd (K.CS_PC n)
  let s := s.setCursor n c
  let s := if old / 64 = c.pc / 64 then s else s.countBeats n 1
  if old / 65536 = c.pc / 65536 then s else s.trimWindow n

/-- The planned chords lie beyond commands that have still to take effect: the head is a chord of the program and the
sequencer has not come to it. -/
def State.aheadOf (s : State) (n : Nat) : Bool :=
  match (s.chan n).run with
  | p :: _ => p.after.isSome && !(s.chan n).groupOn && p.chord.addr != s.rd (K.CS_PC n)
  | [] => false

/-- LAYER_CLOSE may be reached (R166, R223): nothing is left to serve, and the reissue wait after the latest loss is over. -/
def State.closeReady (s : State) (n : Nat) : Bool :=
  let c := s.chan n
  c.run.isEmpty && c.wait == .closing && !s.anyItem n true 0 &&
    (match s.layer.lastLoss with
     | none => true
     | some t => decide (t + s.rd K.SHARE_REISSUE_WAIT * 100000 ≤ s.tm.tick))

/-- The channel has reached its layer-close command (R166, R221). -/
def State.reachClose (s : State) (n : Nat) : State :=
  let s := (s.setChan n { s.chan n with wait := .closed, reached := true, released := none }).noWait n
  ((s.wr (K.CS_ACTIVITY n) 8).syncLive n).trimWindow n

/-- A CLAIM ends (R154): the program goes on after it. -/
def State.claimOver (s : State) (n : Nat) : State :=
  let c := s.chan n
  let k := match c.wait with | .claiming _ _ _ 0 => 1 | _ => 0
  let s := if c.cand.any (·.claim) then s.noWait n else s
  ((s.setChan n { s.chan n with wait := .none, decodes := c.decodes + k }).moveTo n ((s.cursor n).skip 1)).wr (K.CS_ACTIVITY n) 1

/-- A serving channel that finds nothing more to take (R154, R166): a CLAIM ends, at the end of the items in hand, or a LAYER_CLOSE may
be reached. -/
def State.claimEmpty (s : State) (n : Nat) : State :=
  let c := s.chan n
  match c.wait with
  | .claiming any lune _ done =>
    if c.run.isEmpty then (s.claimOver n).fetchCheck n
    else if s.anyItem n any lune then s
    else s.setChan n { c with wait := .claiming any lune (done + c.inHand) done }
  | .closing => if s.closeReady n then s.reachClose n else s
  | _ => s

/-- A waiting FLOAT posts its whole body when the pool has room, and the wait ends (R153, R155). -/
def State.postWaiting (s : State) (n b : Nat) : State :=
  let cur := s.cursor n
  match (s.readNum n cur.pc 16).bind decodeCmd with
  | some (.float count lune) =>
    match s.fetchBody n (cur.pc + 16) count with
    | some body =>
      if !s.poolFits count then s.setChan n { s.chan n with released := none }
      else
        let its := bodyItems cur.ox cur.oy n body
        let s := (s.post lune its).bump 32 (K.CS_POSTED n) its.length
        let s := s.setChan n { s.chan n with wait := .none, released := none, cand := none, decodes := 0, inRun := false,
                                             notBefore := s.nextSample (b + 400) }
        (((s.noWait n).moveTo n (cur.skip (count + 1))).wr (K.CS_ACTIVITY n) 1).fetchCheck n
    | none => s
  | _ => s

/-- The last chord of a floating item has ended: its entries are free, it counts, and a wait met meanwhile or a claim at
its end is over (R153 to R155, R172). -/
def State.itemEnd (s : State) (n l : Nat) (i : Item) (b : Nat) : State :=
  let s := (s.freeEntries l i).inc (K.CS_CLAIMED n)
  let c := s.chan n
  match c.wait with
  | .claiming any lune limit done =>
    let c := { c with wait := .claiming any lune limit (done + 1) }
    let s := s.setChan n c
    if limit ≠ 0 ∧ limit ≤ done + 1 then s.claimOver n
    else if !c.run.isEmpty then s
    else if !s.anyItem n any lune then s.claimOver n
    else s.wr (K.CS_ACTIVITY n) 3
  | .none => s
  | .closing => s.claimEmpty n
  | .posting => if c.released.isSome ∧ c.run.isEmpty then s.postWaiting n b else s.wr (K.CS_ACTIVITY n) c.wait.activity
  | _ =>
    if c.released.isSome ∧ c.run.isEmpty then
      ((s.setChan n { c with wait := .none, released := none, cand := none, decodes := 0,
                             notBefore := s.nextSample (b + 400) }).moveTo n ((s.cursor n).skip 1)).wr (K.CS_ACTIVITY n) 1
    else s.wr (K.CS_ACTIVITY n) c.wait.activity

/-- The head chord of a channel has ended (R145): it leaves the run, its regions with it. -/
def State.finishHead (s : State) (n : Nat) : State :=
  let c := s.chan n
  match c.run with
  | [] => s
  | p :: rest =>
    let on := match p.after with | some _ => false | none => c.groupOn
    let tails := c.tails.filter fun t => rest.any fun q => q.first == t.1
    let isFacet := fun (q : Planned) => match q.chord.shape with | .facet _ _ _ _ _ => true | _ => false
    let facet := isFacet p && !rest.any isFacet
    let s := s.setChan n { c with run := rest, px := p.rx, py := p.ry, nx := p.ex, ny := p.ey, boundary := p.boundary,
                                  decodes := 0, inRun := p.isMarked && p.item.isNone, tails := tails, groupOn := on, pass := if facet then none else c.pass,
                                  oldPass := if facet then none else c.oldPass,
                                  gates := c.gates.filter (fun g => decide (p.boundary ≤ g.spanLast)) }
    let s := match p.chord.shape with
      | .park _ _ => s
      | _ => s.inc (K.CS_CHORDS n)
    let s := if facet then (s.wr (K.FX_SLOT_ACTIVE n) 0xFF).syncSlots n else s
    let s := match p.after with
      | some cur => s.moveTo n cur
      | none => s
    let s := s.syncHeld n
    match p.item with
    | some (l, i) =>
      if rest.any (fun q => match q.item with | some j => j.2.order == i.order | none => false) then s
      else s.itemEnd n l i p.boundary
    | none => s

/-- Dropping a repair entry that will not be executed (R246). -/
def State.dropRepair (s : State) (n : Nat) (r : Repair) : State :=
  let s := (s.bump 8 (K.RP_DROPPED n) 1).raise (srcFacet n) 0x0046 3 n (r.passNo + r.line * 2 ^ 32 + r.pixel * 2 ^ 48)
  s.unpinAll (16 + n) r.pages

/-- Dropping every repair entry that has not started. -/
def State.dropRepairs (s : State) (n : Nat) : State :=
  let c := s.chan n
  let started : Bool := match c.run with
    | p :: _ => p.after.isNone && p.item.isNone && c.pass.any (fun q => q.repair.isSome)
    | [] => false
  let keep := if started then c.repairs.take (c.repairNext + 1) else c.repairs.take c.repairNext
  let gone := c.repairs.drop keep.length
  if gone.isEmpty then s
  else
    let s := s.setChan n { c with repairs := keep }
    let s := gone.foldl (fun s r => s.dropRepair n r) s
    let s := (List.range 8).foldl (fun s k => s.retire n k) s
    (if keep.length ≤ c.repairNext then s.wr (K.RP_STATE n) 3 else s).syncSlots n

/-- Recording a repair entry (R245): its needed pages are pinned as a repair hold. -/
def State.recordRepair (s : State) (n : Nat) (p : Pass) (line pixel : Nat) : State :=
  let c := s.chan n
  if s.rd (K.RP_LIMIT n) ≤ c.repairs.length then
    (s.bump 8 (K.RP_DROPPED n) 1).raise (srcFacet n) 0x0046 3 n (p.passNo + line * 2 ^ 32 + pixel * 2 ^ 48)
  else
    let pages := match s.commit n p.slot p.commit with
      | some k => s.neededPages n p.slot (s.facetGeo n p.slot) k line
      | none => []
    let r : Repair := { slot := p.slot, commit := p.commit, x := p.x, y := p.y, angle := p.angle, noFF := p.noFF,
                        noLoop := p.noLoop, passNo := p.passNo, line := line, pixel := pixel, pages := pages }
    let s := pages.foldl (fun s jp => s.pin (16 + n) jp) s
    let s := s.setChan n { c with repairs := c.repairs ++ [r] }
    (s.bump 8 (K.RP_RECORDED n) 1).wr (K.RP_STATE n) 1

/-- The cells under the pixels of non-empty blocks of a pass from a line and pixel on (R244, R247). -/
def State.remainderCells (s : State) (n : Nat) (p : Pass) (c : Commit) : List Nat :=
  let g := s.facetGeo n p.slot
  (p.lines.flatMap fun l =>
    (lineOrder g l.1 (p.fromPixel l.1)).flatMap fun x =>
      if p.after l.1 x ∧ !s.blockEmpty n p.slot c (l.1 / 64 * g.bw + x / 64) then s.footprintCells g p x l.1 else []).eraseDups

/-- The pixel at which a pass stands on a tick: the first one, in the order of the sweep, that has not ended. -/
def State.pixelAt (s : State) (n : Nat) (p : Pass) (t : Nat) : Option (Nat × Nat) :=
  let g := s.facetGeo n p.slot
  let off := s.rdS 16 (K.BC_CAL_TIME_OFFSET n)
  p.lines.findSome? fun l =>
    ((lineOrder g l.1 (p.fromPixel l.1)).find? fun x =>
      decide ((t : Int) < (pixelStart g l.1 l.2 x (p.fromPixel l.1) : Int) + off + g.t)).map fun x => (l.1, x)

/-- A repair entry ends (R246): the next one comes up, and its pages are released. -/
def State.endRepair (s : State) (n i : Nat) : State :=
  let c := s.chan n
  let s := s.setChan n { c with repairNext := i + 1 }
  s.unpinAll (16 + n) (((c.repairs[i]?).map (·.pages)).getD [])

/-- A repair entry ends as failed (R246). -/
def State.failRepair (s : State) (n i passNo : Nat) : State :=
  ((s.bump 8 (K.RP_FAILED n) 1).raise (srcFacet n) 0x0045 3 n passNo).endRepair n i

/-- A pass has begun: its first line has, or, where it sweeps none, its one sample has passed (R236). -/
def Pass.begun (p : Pass) (t : Nat) : Bool := decide ((match p.lines with | l :: _ => l.2 | [] => p.boundary) ≤ t)

/-- A FACET cut on the present tick (R247): its pass, when it has begun, is treated as an underrun there; the lattice marks the
remainder's cells on that tick. A pass that has met an underrun already has its entry (R252). -/
def State.cutFacet (s : State) (n : Nat) : State :=
  match (s.chan n).pass with
  | none => s
  | some p =>
    let s := match p.repair with
      | none => s
      | some i => s.failRepair n i p.passNo
    match (if p.begun s.tm.tick then s.pixelAt n p s.tm.tick else none), s.commit n p.slot p.commit with
    | some (l, x), some k =>
      let cells := s.remainderCells n { p with under := some (l, x) } k
      let s := if s.latOn ∧ !cells.isEmpty then s.latPush (.cut (s.sampleOf s.tm.tick) cells) else s
      if p.under.isSome then s
      else
        let s := s.setChan n { s.chan n with pass := some { p with under := some (l, x) } }
        if p.repair.isNone then s.recordRepair n p l x else s
    | _, _ => s

/-- What a channel still executes of its plan: all of it, or, when an OFF or a halt waits for the end of the chord in progress, the
chords whose first sample was latched before its stamp, and a move to the park point (R196, R484, R515). -/
def State.liveRun (s : State) (n : Nat) : List Planned :=
  let c := s.chan n
  match c.offAt, c.haltAt with
  | none, none => c.run
  | o, h =>
    if s.rd (K.BC_STATE n) ≠ Bc.run then c.run
    else
      let t := match o, h with
        | some a, some b => min a b
        | some a, none => a
        | none, b => b.getD 0
      c.run.filter fun p => (match p.chord.shape with | .park _ _ => true | _ => false) || decide (p.first < t + 240)

/-- The planned chord in progress at an instant. -/
def State.chordAt (s : State) (n a : Nat) : Option Planned :=
  if (s.chan n).regionAt.any (fun r => decide (r ≤ a)) then none
  else (s.liveRun n).find? fun p => decide (p.first ≤ a) && decide (a < p.boundary)

/-- The position of a channel's beam at an instant (R174): on its path, else where it rests. -/
def State.beamAt (s : State) (n a : Nat) : Int × Int :=
  let c := s.chan n
  match s.chordAt n a with
  | some p => (p.posAt n a).getD (p.rx, p.ry)
  | none => match (s.liveRun n).filter (fun p => decide (p.boundary ≤ a)) with
    | [] => (c.px, c.py)
    | p :: t => let q := (t.getLast?).getD p; (q.rx, q.ry)

/-- The position of the last sample latched. -/
def State.lastLatched (s : State) (n : Nat) : Int × Int := s.beamAt n (s.sampleOf (s.tm.tick + 240))

/-- Releases of a barrier (R159): every channel of the mask that is not OFF waits at it. -/
def State.atBarrier (s : State) (n id mask : Nat) : Bool :=
  let c := s.chan n
  c.released.isNone && s.rd (K.BC_STATE n) == Bc.run &&
    (match c.wait with
     | .barrier i m _ => i == id && m == mask
     | _ => false)

/-- Releasing the barriers that are complete (R159). -/
def State.barrierTry (s : State) : State :=
  (List.range 16).foldl (fun s n =>
    match (s.chan n).wait with
    | .barrier id mask _ =>
      let group := (List.range 16).filter fun m => mask.testBit m && s.rd (K.BC_STATE m) != Bc.off
      if !group.isEmpty ∧ group.all (fun m => s.atBarrier m id mask) then group.foldl (fun s m => s.wake m s.tm.tick) s else s
    | _ => s) s

/-- What a channel that stops for good in a layer leaves behind (R221 to R225): live masks, the time of the loss, and the
walk of the rest of its program. -/
def State.leaveLayer (s : State) (n : Nat) (cur : Cursor) (x y : Int) : State :=
  let c := s.chan n
  if s.phase = Phase.idle ∨ s.phase = Phase.held then s
  else
    let eligible := (List.range 128).any fun l => (s.luneMask l).testBit n
    let s := if eligible then { s with layer := { s.layer with lastLoss := some s.tm.tick } } else s
    let s := s.syncLive n
    if !c.member ∨ c.reached then s
    else
      let cur := if c.groupOn then c.groupEnd.getD cur else cur
      let w : Walk := { cur := cur, x := x, y := y, reports := 0, pre := c.group }
      s.setChan n { s.chan n with walk := some w, group := [], groupOn := false, wait := .none, released := none }

/-- The chords whose boundary has come are complete before anything else of the tick (R198). -/
def State.finishDue (n : Nat) : Nat → State → State
  | 0, s => s
  | k + 1, s =>
    match (s.chan n).run with
    | p :: _ => if p.boundary ≤ s.tm.tick ∧ !s.aheadOf n then State.finishDue n k (s.finishHead n) else s
    | [] => s

/-- A record without light (R197): POWER 0, no edge, GATE_IN 0. -/
def darkRecord (r : List Byte) : List Byte :=
  r.take 28 ++ List.replicate 6 0 ++ ((r.drop 34).take 1).map (· &&& 0xFE#8) ++ (r.drop 35).take 13

/-- From the tick of a fault or an OFF no record carries light (R196, R197): one that has been latched and has still to leave loses its
own, and its sample deposits nothing. -/
def State.darken (s : State) (n : Nat) : State :=
  let c := s.chan n
  let a := s.sampleOf (s.tm.tick + 240)
  let latched : Bool := match c.shots with | q :: _ => q.inst == a | [] => false
  if !latched ∨ a < s.tm.tick + 200 then s
  else
    let f := darkRecord c.frame ++ List.replicate 100 0 ++ c.frame.drop 148
    let dark := fun (x : Shot) => { x with p1 := 0, mod := 0, lit := false }
    let off := fun (x : Sent) => if x.path = .head n ∧ x.tick = a - 200 then { x with bytes := darkRecord x.bytes } else x
    let s := (s.undoSample n a).setChan n { c with frame := f, shots := c.shots.modifyHead dark }
    { s with sent := s.sent.map off }

/-- OFF (R196): blanked, the loops that are not TRIPPED idle, and the layer goes on without the channel. -/
def State.chanOff (s : State) (n : Nat) : State :=
  if s.rd (K.BC_STATE n) = Bc.off then s
  else
    let c := s.chan n
    let wasFault := s.rd (K.BC_STATE n) = Bc.fault
    let pos := s.lastLatched n
    let cur := s.cursor n
    let s := (s.darken n).dropRun n
    let s := s.setChan n { s.chan n with px := pos.1, py := pos.2, nx := pos.1, ny := pos.2, offAt := none, regionAt := none,
                                         haltAt := none, stepping := false }
    let s := (beamLoops n).foldl (fun s m => if s.loopState m = Lp.tripped then s else s.idleLoop m) s
    let s := s.wrs [(K.CS_ACTIVITY n, 9), (K.CS_HOLD_CAUSE n, 0), (K.DBG_SEQ_STATE n, 0),
                    (K.BC_CAUSE n, if s.rd (K.BC_CAUSE n) = 1 then 0 else s.rd (K.BC_CAUSE n))]
    let s := s.setBc n Bc.off
    let s := if s.phase = Phase.repair then s.dropRepairs n else s
    let s := if wasFault then s else s.leaveLayer n cur c.nx c.ny
    s.barrierTry

/-- The causes of a FAULT whose events are of class 1: a withdrawn permit and the hard cutoff (R197). -/
def firstCause (cause : Nat) : Bool := cause == 0x10 || cause == 0x16

/-- A channel that has entered FAULT on this very tick meets another cause (R197): BC_CAUSE and the event take the one whose event comes
first. -/
def State.faultAgain (s : State) (n cause : Nat) : State :=
  if s.rd (K.BC_STATE n) = Bc.fault ∧ s.rd (K.BC_STATE_STAMP n) = s.now ∧ firstCause cause ∧ !firstCause (s.rd (K.BC_CAUSE n)) then
    let s := s.wr (K.BC_CAUSE n) cause
    match s.openEvent s.tm.tick (srcChan n) with
    | some o => if o.code = 0x0059 then let e := { o with data := cause * 2 ^ 8 }; (s.putOpen e).showEvent e else s
    | none => s
  else s

/-- FAULT (R197, R198): the chord in progress is cut by every cause but REGION. An OFF that waited for the end of that chord takes
effect on the same tick (notes/assumptions/143). -/
def State.chanFault (s : State) (n cause : Nat) : State :=
  let st := s.rd (K.BC_STATE n)
  if st = Bc.off ∨ st = Bc.fault then s.faultAgain n cause
  else
    let pending := (s.chan n).offAt.isSome
    let s := State.finishDue n 64 s
    let c := s.chan n
    let pos := s.lastLatched n
    let cut := match c.run with
      | p :: _ => if p.first ≤ s.tm.tick ∧ cause ≠ 0x14 then some p else none
      | [] => none
    let fixed := match cut with | some p => (match p.chord.shape with | .park _ _ => false | _ => true) | none => false
    let s := match cut with
      | some p =>
        if fixed then
          let s := s.cutFacet n
          let s := s.inc (K.BC_CUT n)
          s.raiseExt (srcSeq n) 0x0002 3 n p.chord.addr (toLE 8 s.now ++ toLE 4 (uns 32 pos.1) ++ toLE 4 (uns 32 pos.2))
        else s
      | none => s
    -- the cut chord's part of an item is not part of the remnant; with its last chord the item is over (R153)
    let s := match cut with
      | some p =>
        let s := s.setChan n { s.chan n with run := (s.chan n).run.drop 1 }
        (match p.item with
         | some (l, i) => if (s.chan n).run.any (fun q => q.item.any fun (j : Nat × Item) => j.2.order == i.order) then s else s.freeEntries l i
         | none => s)
      | none => s
    let wcur := match cut with | some p => p.after.getD (s.cursor n) | none => s.cursor n
    let wpos := match cut with | some p => if p.item.isNone then (p.ex, p.ey) else pos | none => (c.nx, c.ny)
    let s := (s.darken n).dropRun n
    let s := s.setChan n { s.chan n with px := pos.1, py := pos.2, nx := pos.1, ny := pos.2, regionAt := none, offAt := none,
                                         haltAt := none, stepping := false }
    let s := s.wrs [(K.BC_STATE n, Bc.fault), (K.BC_STATE_STAMP n, s.now), (K.BC_CAUSE n, cause), (K.CS_ACTIVITY n, 9),
                    (K.CS_HOLD_CAUSE n, 0), (K.DBG_SEQ_STATE n, 0)]
    let s := s.raise (srcChan n) 0x0059 3 n (cause * 2 ^ 8)
    let s := (s.unholdLoop (48 + n) LpCause.noLoop).unholdLoop (48 + n) LpCause.underrun
    let s := if s.phase = Phase.repair then s.dropRepairs n else s
    let s := s.leaveLayer n wcur wpos.1 wpos.2
    if pending then s.chanOff n else s

/-- A floating FACET that names no committed pass of its claimant (R150): it goes back to the head of its lune's queue, and the channel
enters HOLD, its CLAIM or serving standing. -/
def State.holdRefused (s : State) (n : Nat) : State :=
  match (s.chan n).refused with
  | none => s
  | some (_, l, i) =>
    let s := (s.setChan n { s.chan n with refused := none }).enqueue l true [i]
    let s := s.wrs [(K.CS_ERROR n, Err.facetSlot), (K.CS_ERROR_ADDR n, i.addr)]
    (s.raise (srcSeq n) 0x0001 3 n (Err.facetSlot + i.addr * 2 ^ 24)).holdSeq n 2

/-- The claimant comes to the item on its boundary, once it has executed what lies before its CLAIM. -/
def State.refusedDue (s : State) (n : Nat) : Bool :=
  let c := s.chan n
  s.rd (K.BC_STATE n) == Bc.run && c.run.isEmpty && c.wait != .none && c.refused.any fun r => decide (r.1 ≤ s.tm.tick)

/-- A WAIT_EVENT whose TIMEOUT has passed (R158). -/
def State.eventLate (s : State) (n : Nat) : Bool :=
  match (s.chan n).wait with
  | .event _ _ since timeout _ => timeout != 0 && decide (since + timeout ≤ s.tm.tick) && (s.chan n).released.isNone
  | _ => false

/-- HOLD with cause EVENT_TIMEOUT (R158). -/
def State.holdTimeout (s : State) (n : Nat) : State :=
  (s.setChan n { s.chan n with wait := .none }).holdSeq n 4

/-- The blanked move to the park point of a channel (R177, R195, R484). -/
def State.parkRun (s : State) (n : Nat) : State :=
  let c := s.chan n
  let x := s.rdS 32 (K.BC_PARK_X n)
  let y := s.rdS 32 (K.BC_PARK_Y n)
  let speed := s.rd (K.CS_START_JUMP_SPEED n)
  let segs := transfer (s.limits n) c.px c.py x y speed
  let a := s.nextSample (s.tm.tick + 320)
  let b := a + 400 * segsLen segs
  let ch : Chord := { shape := .park x y, speed := speed, power := 0, noFF := true, noLoop := false, reorder := false, addr := 0,
                      par := s.params n }
  let p : Planned := { chord := ch, first := a, t0 := b, tEnd := b, boundary := b, sx := c.px, sy := c.py, ex := x, ey := y,
                       rx := x, ry := y, segs := segs, held := { lock := [], env := [] }, inTail := false, after := none,
                       checked := true, item := none }
  s.setChan n { c with notBefore := b, run := if segs.isEmpty then [] else [p] }

/-- A channel comes to its stop (R196); in an orderly stop it first moves to its park point (R484). -/
def State.stopHere (s : State) (n : Nat) : State :=
  if s.rd K.DT_STOP_STATE ≠ 1 then s.chanOff n
  else
    let s := (s.dropRun n).parkRun n
    if (s.chan n).run.isEmpty then s.chanOff n else s

/-- What waits for the chord boundary `b` of a channel in RUN: a region fault, OFF, a halt, a timeout, a missing command. -/
def State.boundaryStops (s : State) (n b : Nat) (chord : Bool) : State :=
  let c := s.chan n
  if !chord ∧ c.offAt.isSome then s.chanOff n
  else if c.regionAt.any (fun a => decide (a ≤ b)) then
    (s.inc (K.BC_REGION_BREACH n)).chanFault n 0x14
  else if s.rd (K.BC_STATE n) ≠ Bc.run then s
  else if c.offAt.isSome ∧ (s.liveRun n).isEmpty then s.stopHere n
  else if (c.haltAt.any (fun t => decide (t + 240 ≤ b)) ∧ (s.liveRun n).isEmpty) ∨ (c.stepping ∧ chord) then s.holdDebug n
  else if c.wait = .mismatch ∧ c.itemNow.isNone then (s.setChan n { c with wait := .none }).holdSeq n 5
  else if s.eventLate n ∧ c.itemNow.isNone then s.holdTimeout n
  else if s.refusedDue n then s.holdRefused n
  else s.fetchCheck n

/-- CHORD_COMPLETE (R145): the chord whose boundary is the present tick ends. A repair entry ends by REPAIR_DONE. -/
def State.chordComplete (s : State) (n : Nat) : State :=
  let c := s.chan n
  match c.run with
  | p :: _ =>
    if s.tm.tick < p.boundary ∨ s.aheadOf n ∨ c.pass.any (fun q => q.repair.isSome) then s
    else
      let park := match p.chord.shape with | .park _ _ => true | _ => false
      (s.finishHead n).boundaryStops n p.boundary (!park)
  | [] => s

/-- CHORD_COMPLETE (R145). -/
def execChordComplete (n : Fin 16) (s : State) : Host.Outcome State Fault Refusal := live (fun s => s.chordComplete n) s

/-- Ending a run at the first junction B with B - 240 at or after a stamp (R178, R196, R515): the chord that ends there gets
its lead-out and the light ends with it. -/
def State.endRunFrom (s : State) (n t : Nat) : State :=
  let c := s.chan n
  let lim := s.limits n
  match c.run.find? (fun p => decide (t + 240 ≤ p.boundary)) with
  | none => s
  | some p =>
    let next := (c.run.dropWhile (fun q => q != p)).drop 1
    if !(next.head?.any (·.continues)) then s
    else match p.chord.marked p.sx p.sy with
    | none => s
    | some m =>
      let out := leadOutOf lim m
      let e := out.ending
      let p' := { p with segs := p.segs ++ [out], boundary := p.boundary + 400 * out.len, rx := e.1, ry := e.2 }
      let s := s.setChan n { c with run := c.run.map (fun q => if q == p then p' else q) }
      match c.gates.find? (fun g => decide (g.spanFirst ≤ p.first) && decide (p.first ≤ g.spanLast)) with
      | some g => s.replaceGate n g p.tEnd (p'.boundary - 400)
      | none => s

end Sys2Proof.Machine
end

