-- ==== Sys2Proof/Machine/Permits.lean ====
section
/-! DEFINITION. Beam permits as the rest of the device sees them (R441, R442, R450): withdrawal, its event, the pins, and
the channels it stops. -/

namespace Sys2Proof.Machine

/-- Causes of BP_CAUSE (R450). -/
abbrev Bp.interlock : Nat := 0x01
abbrev Bp.lamp : Nat := 0x02
abbrev Bp.thermal : Nat := 0x03
abbrev Bp.loopTrip : Nat := 0x04
abbrev Bp.linkLoss : Nat := 0x05
abbrev Bp.readback : Nat := 0x06
abbrev Bp.reset : Nat := 0x07

/-- Permit BPn is raised. -/
def State.permit (s : State) (n : Nat) : Bool := (s.rd K.BP_STATE).testBit n

/-- Joining a condition to the open event of a source on the present tick by a function of its DATA, or raising it:
events that carry a mask are never MERGED (R442, R524). -/
def State.joinEvent (s : State) (src code cls inst data : Nat) (f : Nat → Nat) : State :=
  match s.openEvent s.tm.tick src with
  | none => s.raise src code cls inst data
  | some o =>
    if o.code ≠ code then s.raise src code cls inst data
    else
      let e := { o with data := f o.data }
      let s := { s with ev := { s.ev with hits := s.ev.hits ++ [(src, code, s.tm.tick)] } }
      (s.putOpen e).showEvent e

/-- Channels of a mask, ascending. -/
def maskList (w m : Nat) : List Nat := (List.range w).filter (fun n => m.testBit n)

/-- Levels of the permit pins BPn_T and BPn_C of some channels (R441). -/
def State.drivePermits (s : State) (m : Nat) : State :=
  (maskList 16 m).foldl (fun s n =>
    (s.emit (.pin "BP_T" n) [if s.permit n then 1 else 0]).emit (.pin "BP_C" n) [if s.permit n then 0 else 1]) s

/-- The cause of a channel's FAULT when its permit is withdrawn (R197). -/
def faultCause (cause : Nat) : Nat :=
  match cause with
  | 3 => 0x16
  | 4 => 0x11
  | 5 => 0x12
  | _ => 0x10

/-- Withdrawing permits (R442): one event for each tick, the lowest-numbered cause in it and for each channel; the channels enter
FAULT. -/
def State.withdraw (s : State) (mask cause : Nat) : State :=
  let m := mask % 65536 &&& s.rd K.BP_STATE
  let same := if s.isl.cutAt = s.tm.tick + 1 then s.isl.cut else 0
  let low := (maskList 16 (mask &&& same)).filter (fun n => decide (cause < octByte (s.rd K.BP_CAUSE) n))
  let s := if m = 0 ∧ low.isEmpty then s
    else
      let s := s.wrs [(K.BP_STATE, s.rd K.BP_STATE - m), (K.BP_STAMP, s.now),
                      (K.BP_CAUSE, (maskList 16 m ++ low).foldl (fun v n => octSet v n cause) (s.rd K.BP_CAUSE))]
      let good := (maskList 16 m).foldl (fun (g : Tab Nat) n => Tab.set (fun _ => 0) g n s.tm.tick) s.isl.good
      let s := ({ s with isl := { s.isl with good := good, cutAt := s.tm.tick + 1, cut := same ||| m } }).drivePermits m
      let s := if same = 0 then s.inc K.BP_WITHDRAWALS else s
      s.joinEvent 0x00 0x0001 1 ((maskList 16 m).headD 0) (m + cause * 2 ^ 16)
        (fun d => ((d % 65536) ||| m) + min (d / 65536 % 256) cause * 2 ^ 16)
  if cause = Bp.reset then s else (maskList 16 mask).foldl (fun s n => s.chanFault n (faultCause cause)) s

end Sys2Proof.Machine
end

