-- ==== Sys2Proof/Machine/Head.lean ====
section
/-! DEFINITION. The head of a beam channel: corrections and registration (R181 to R183), the power curve (R185), the
set-points of a sample, repetitive control within a FACET (R250), and loops that trip (R327). -/

namespace Sys2Proof.Machine

/-- The installed record of a type. -/
def State.record (s : State) (ty : Nat) : Option CalRec := Tab.get (fun _ => none) s.installed ty

/-- A signed 32-bit field of a payload. -/
def payI32 (p : List Byte) (off : Nat) : Int := sgn 32 (leNat ((p.drop off).take 4))

/-- An unsigned field of a payload. -/
def payU (p : List Byte) (off w : Nat) : Nat := leNat ((p.drop off).take w)

/-- The four weights of the interpolation at a 16-bit fraction (R182). -/
def cubicWeights (f : Int) : List Int :=
  let f2 := (f * f + 32768) / 65536
  let f3 := (f2 * f + 32768) / 65536
  [(-f3 + 2 * f2 - f) / 2, (3 * f3 - 5 * f2 + 131072) / 2, (-3 * f3 + 4 * f2 + f) / 2, (f3 - f2) / 2]

/-- Cell and fraction of a coordinate on a grid of 65 nodes of pitch 2^k (R182). -/
def gridPos (p g0 : Int) (k : Nat) : Nat × Int :=
  let u := (clampInt 0 (64 * 2 ^ k) (p - g0)).toNat
  if u / 2 ^ k = 64 then (63, 65536) else (u / 2 ^ k, ((u / 2 ^ (k - 16) % 65536 : Nat) : Int))

/-- A plane of a field record evaluated at a point (R182); `node` reads node (i, j). -/
def planeAt (node : Nat → Nat → Int) (x y gx gy : Int) (k : Nat) : Int :=
  if k = 0 then 0
  else
    let a := gridPos x gx k
    let b := gridPos y gy k
    let wu := cubicWeights a.2
    let wv := cubicWeights b.2
    let near := fun (i r : Nat) => (clampInt 0 64 ((i : Int) + r - 1)).toNat
    let row := fun (r : Nat) =>
      ((List.range 4).foldl (fun (t : Int) c => t + wu.getD c 0 * node (near a.1 c) (near b.1 r)) 0 + 32768) / 65536
    ((List.range 4).foldl (fun (t : Int) r => t + wv.getD r 0 * row r) 0 + 32768) / 65536

/-- Saturation to 32 and 64 signed bits. -/
def sat32 (v : Int) : Int := clampInt (-2147483648) 2147483647 v
def sat64 (v : Int) : Int := clampInt (-9223372036854775808) 9223372036854775807 v

/-- Node (i, j) of plane `p` of channel `n`'s field record (R457). -/
def State.gridNode (s : State) (n p i j : Nat) : Int :=
  match s.record (0x1000 + n) with
  | none => 0
  | some r => payI32 r.payload (12 + 16900 * p + 4 * (65 * j + i))

/-- A plane of channel `n`'s field at a bed point (R182). -/
def State.fieldAt (s : State) (n p : Nat) (x y : Int) : Int :=
  planeAt (s.gridNode n p) x y (s.rdS 32 (K.BC_GRID_X0 n)) (s.rdS 32 (K.BC_GRID_Y0 n)) (s.rd (K.BC_GRID_SHIFT n))

/-- The set-points of a bed point (R181 to R183): Hx, Hy and Z. -/
def State.correct (s : State) (n : Nat) (focus x y : Int) : Int × Int × Int :=
  let d := fun (p : Nat) => s.fieldAt n p x y
  let px := sat32 (x + d 0)
  let py := sat32 (y + d 1)
  let a := fun (key : Nat) => s.rdS 32 key
  let hx := sat32 ((a (K.BC_REG_A11 n) * px + a (K.BC_REG_A12 n) * py + 2 ^ 29) / 2 ^ 30 + a (K.BC_REG_TX n))
  let hy := sat32 ((a (K.BC_REG_A21 n) * px + a (K.BC_REG_A22 n) * py + 2 ^ 29) / 2 ^ 30 + a (K.BC_REG_TY n))
  (hx, hy, sat32 (focus + d 2))

/-- A channel exposes fiducial crosses for a registration (R463). -/
def State.exposing (s : State) (n : Nat) : Bool :=
  let st := s.rd K.CAL_MEAS_STATE
  (st == 1 || st == 2) && s.cal.meas.kind == 0x12 && s.cal.meas.chan == n && s.rd (K.BC_STATE n) == Bc.armed

/-- Light may leave a channel: in RUN, and for a registration's crosses. -/
def State.marking (s : State) (n : Nat) : Bool := s.rd (K.BC_STATE n) == Bc.run || s.exposing n

/-- The set-points of the sample of an instant: those of its point in ARMED and RUN, the held ones else, and
while a head table is switched (R194, R197, R467). -/
def State.setPoints (s : State) (n a : Nat) : Int × Int × Int :=
  let c := s.chan n
  let st := s.rd (K.BC_STATE n)
  let parks := st = Bc.hold ∧ c.offAt.isSome
  if (st = Bc.run ∨ st = Bc.armed ∨ parks) ∧ c.tableHold.isNone then
    let p := s.beamAt n a
    let f := match s.chordAt n a with | some q => q.chord.par.focus | none => s.rdS 32 (K.CS_FOCUS_OFFSET n)
    s.correct n f p.1 p.2
  else (c.hx, c.hy, c.hz)

/-- Taking the set-points of an instant for the galvo loops. -/
def State.takeSetPoints (s : State) (n a : Nat) : State :=
  let h := s.setPoints n a
  s.setChan n { s.chan n with hx := h.1, hy := h.2.1, hz := h.2.2 }

/-- A power curve evaluated at p2 (R185): 32 points of W and M. -/
def curveAt (pts : List (Nat × Nat)) (p : Nat) : Nat :=
  match (List.range (pts.length - 1)).find? (fun i => decide ((pts.getD i (0, 0)).1 ≤ p) && decide (p < (pts.getD (i + 1) (0, 0)).1)) with
  | some i =>
    let a := pts.getD i (0, 0)
    let b := pts.getD (i + 1) (0, 0)
    let w : Int := (b.1 - a.1 : Nat)
    let d : Int := (b.2 : Int) - a.2
    ((a.2 : Int) + (((p - a.1 : Nat) : Int) * d + w / 2) / w).toNat
  | none => (pts.getLastD (0, 0)).2

/-- The points of channel `n`'s installed power curve (R457). -/
def State.curve (s : State) (n : Nat) : List (Nat × Nat) :=
  match s.record (0x1100 + n) with
  | none => []
  | some r => (List.range 32).map fun i => (payU r.payload (8 * i) 4, payU r.payload (8 * i + 4) 2)

/-- What the power of one sample or pixel comes to (R185): p1, p2, the modulation, and whether it was clamped. -/
structure Power where
  p1 : Nat
  p2 : Nat
  mod : Nat
  clamped : Bool
deriving DecidableEq, Repr

/-- Power composition (R185, R192): ceiling, POWER, POWER_SCALE, gain, loop correction, curve. -/
def composePower (ceil power scale gain : Nat) (corr : Int) (pts : List (Nat × Nat)) : Power :=
  let p0 := (ceil * power * scale + 2147450880) / 4294901760
  let p1 := (p0 * gain + 8192) / 16384
  let p2 := (clampInt 0 2147483647 ((p1 : Int) + ((p1 : Int) * corr + 32768) / 65536)).toNat
  let m := curveAt pts p2
  let top := curveAt pts ceil
  { p1 := p1, p2 := p2, mod := if ceil = 0 then 0 else min m top, clamped := decide (top < m) }

/-- The layer and phase that end now are kept for images taken in them (R300). -/
def State.keepPhase (s : State) : State :=
  { s with layer := { s.layer with past := ((s.now, s.rd K.LAYER_NUMBER, s.phase) :: s.layer.past).take 64 } }

/-- A change of phase; outside RECOAT the blade line is inactive (R23, R226). -/
def State.setPhase (s : State) (p : Nat) : State :=
  let s := s.keepPhase.wr K.LAYER_PHASE p
  if p = Phase.recoat then s else s.wr K.BED_BLADE_STATE 0

/-- The beam channel a loop serves (R310). -/
def loopChan (m : Nat) : Option Nat := if m < 48 then some (m / 3) else if m < 64 then some (m - 48) else none

/-- A loop trips (R327): its state with the ramp before it, and its trip line. -/
def State.tripState (s : State) (m cause : Nat) : State :=
  if s.loopState m ≠ Lp.closed ∧ s.loopState m ≠ Lp.hold then s
  else
    let s := s.setLoop m { s.loop m with ut := s.loopOut m, ramp := 0 }
    let s := s.setLoopState m Lp.tripped cause
    match loopChan m with
    | some n => s.withdraw (2 ^ n) Bp.loopTrip
    | none => s

/-- A loop trips with the event of its cause (R329). -/
def State.tripLoop (s : State) (m cause code : Nat) (value : Int) : State :=
  if s.loopState m ≠ Lp.closed ∧ s.loopState m ≠ Lp.hold then s
  else (s.loopEvent m code 3 0 value).tripState m cause

/-- A sample whose feedback is missing (R325): counted; the second one running trips a CLOSED loop. -/
def State.missFeedback (s : State) (m : Nat) : State :=
  if s.loopState m ≠ Lp.closed then s
  else
    let x := s.loop m
    let s := (s.inc (K.LOOP_FB_MISSING m)).wr (K.LOOP_FLAGS m) (setBit (s.rd (K.LOOP_FLAGS m)) 0 true)
    let s := s.setLoop m { x with missRun := x.missRun + 1 }
    if 2 ≤ x.missRun + 1 then s.tripLoop m LpCause.fbLost 0x0081 (s.loopOut m) else s

/-- A line of a pass is joined to the next one by a regular turnaround (R250). -/
def State.joinedLines (s : State) (n : Nat) (p : Pass) (line : Nat) : Bool :=
  p.lines.any (fun q => q.1 == line) && p.lines.any (fun q => q.1 == line + 1) &&
    regularTurn (s.facetGeo n p.slot) (s.limits n) line (p.fromPixel line)

/-- Whether a FACET's sample lies in a line pair joined by a regular turnaround, lead-ins and lead-outs that belong to a regular
turnaround with it and the partial first line of a repair entry not, and whether it is the first lead-in sample of an even line that
follows one (R250). -/
def State.facetPhase (s : State) (n a : Nat) : Bool × Bool :=
  match (s.chan n).pass with
  | none => (false, false)
  | some p =>
    let g := s.facetGeo n p.slot
    let lim := s.limits n
    let nin := g.lead lim.skyIn lim.accel
    let nout := g.lead lim.skyOut lim.accel
    match p.lines.find? (fun l => decide (l.2 ≤ a + 400 * nin) && decide (a < l.2 + 400 * (g.lineSamples + nout))) with
    | none => (false, false)
    | some (l, ls) =>
      let len := match p.fromPixel l with
        | some x => divUp ((if l % 2 = 0 then g.w - x else x + 1) * g.t) 400
        | none => g.lineSamples
      let before := decide (0 < l) && s.joinedLines n p (l - 1)
      let part : Bool := if a < ls then before
        else if a < ls + 400 * len then (p.fromPixel l).isNone
        else s.joinedLines n p l
      (part && s.joinedLines n p (l / 2 * 2), before && l % 2 == 0 && a + 400 * nin == ls)

end Sys2Proof.Machine
end

