-- ==== Sys2Proof/Machine/Loops.lean ====
section
/-! DEFINITION. The loop engine (R310 to R335): the arithmetic of a sample, the shaper, repetitive control, supervision,
commands, and the conditions of its entries. -/

namespace Sys2Proof.Machine

/-- rsh of R316. -/
def rsh (x : Int) (k : Nat) : Int := if k = 0 then x else sat64 (x + 2 ^ (k - 1)) / 2 ^ k

/-- The sign of an integer. -/
def signOf (x : Int) : Int := if x < 0 then -1 else if 0 < x then 1 else 0

/-- Breakpoints of a gain table (R317). -/
def gainPoints (t : Nat) : List (Nat × Nat) := (List.range 64).map fun i => (octField 4 t (8 * i), octField 4 t (8 * i + 4))

/-- The gain of an error magnitude (R317). -/
def gainAt (pts : List (Nat × Nat)) (a : Nat) : Int :=
  match (List.range (pts.length - 1)).find? (fun i => decide ((pts.getD i (0, 0)).1 ≤ a) && decide (a < (pts.getD (i + 1) (0, 0)).1)) with
  | some i =>
    let p := pts.getD i (0, 0)
    let q := pts.getD (i + 1) (0, 0)
    let w : Int := (q.1 - p.1 : Nat)
    (p.2 : Int) + (((q.2 : Int) - p.2) * ((a - p.1 : Nat) : Int) + w / 2) / w
  | none => (pts.getLastD (0, 0)).2

/-- A gain table whose E values start at 0 and rise strictly (R317). -/
def gainTableOk (t : Nat) : Bool :=
  let e := (gainPoints t).map (·.1)
  e.headD 1 == 0 && (e.zip (e.drop 1)).all fun p => decide (p.1 < p.2)

/-- One step of the shaper (R319): the new position and velocity. -/
def shapeStep (vmax amax rraw sp sv : Int) : Int × Int :=
  let d := sat64 (rraw * 65536 - sp)
  let vd := signOf d * min vmax (isqrt (2 * amax.toNat * d.natAbs))
  let v := sat64 (sv + clampInt (-amax) amax (vd - sv))
  if (d.natAbs : Int) ≤ amax ∧ (v.natAbs : Int) ≤ amax then (rraw * 65536, 0) else (sat64 (sp + v), v)

/-- The sum of the ADD inputs of a loop (R313). -/
def State.addInputs (s : State) (m : Nat) : Int :=
  (List.range 32).foldl (fun (a : Int) k => if s.rd (K.LOOP_OUT_TARGET (64 + k)) = 0x0200 + m then sat64 (a + s.loopOut (64 + k)) else a) 0

/-- A table entry of a repetitive slot. -/
def State.repAt (s : State) (i j : Nat) : Int := Tab.get (fun _ => 0) (s.rep i).table j

/-- The corrections of the repetitive slots of a loop (R322). -/
def State.repSum (s : State) (m : Nat) : Int :=
  (s.slotsOf m).foldl (fun (a : Int) i =>
    if s.rd (K.RC_STATE i) = 1 then
      sat64 (a + s.repAt i ((s.rd (K.RC_INDEX i) + s.rd (K.RC_LEAD i)) % max 1 (s.rd (K.RC_PERIOD i))))
    else a) 0

/-- Learning and stepping of one slot after a computed sample (R321, R322). -/
def State.repLearn (s : State) (i : Nat) (en : Int) (sat : Bool) : State :=
  if s.rd (K.RC_STATE i) ≠ 1 then s
  else
    let j := s.rd (K.RC_INDEX i)
    let s := if s.rd (K.RC_MODE i) = 1 ∧ !sat then
        let v := sat32 (sat64 (rsh (sat64 ((s.rd (K.RC_FORGET i) : Int) * s.repAt i j)) 16 +
          rsh (sat64 (s.rdS 32 (K.RC_LEARN i) * en)) (s.rd (K.RC_LEARN_SHIFT i))))
        s.setRep i { s.rep i with table := Tab.set (fun _ => 0) (s.rep i).table j v }
      else s
    s.wr (K.RC_INDEX i) ((j + 1) % max 1 (s.rd (K.RC_PERIOD i)))

/-- A write of a loop's set-point counts as a change (R319). -/
def State.putSetpoint (s : State) (m : Nat) (v : Int) : State :=
  (s.wrS 32 (K.LOOP_SETPOINT m) v).setLoop m { s.loop m with moving := true }

/-- The move of PRE_LOOP is complete: the recoat move begins (R320). -/
def State.layerMove (s : State) (m : Nat) : State :=
  match s.layer.cur with
  | some d =>
    if s.phase = Phase.recoat ∧ s.layer.stage = 1 ∧ m = d.preLoop then
      ({ s with layer := { s.layer with stage := 2 } }).putSetpoint d.recoatLoop d.recoatTarget
    else s
  | none => s

/-- The recoat move is complete (R27, R320). -/
def State.recoatCheck (s : State) (m : Nat) (e : Int) : State :=
  match s.layer.cur with
  | some d =>
    if s.phase = Phase.recoat ∧ s.layer.stage = 2 ∧ m = d.recoatLoop ∧ !(s.loop m).moving ∧ s.loopState m = Lp.closed ∧
        e.natAbs ≤ s.rd (K.LOOP_FE_LIMIT m) then
      ({ s with layer := { s.layer with stage := 0 } }).setPhase Phase.expose
    else s
  | none => s

/-- Frozen feedback (R326): `cmd` is the sample's command, when there is one. -/
def State.freezeCheck (s : State) (m : Nat) (y : Int) (cmd : Option Int) : State :=
  if s.loopState m ≠ Lp.closed then s
  else match cmd with
  | none => s.setLoop m { s.loop m with fzCmds := [] }
  | some c =>
    let x := s.loop m
    let go := !x.fzCmds.isEmpty && x.fzY == y && x.fzSeq != x.seq
    let cmds := if go then (c :: x.fzCmds).take 64 else [c]
    let s := s.setLoop m { x with fzY := y, fzSeq := x.seq, fzCmds := cmds }
    let span := cmds.foldl max c - cmds.foldl min c
    if 64 ≤ cmds.length ∧ (s.rd (K.LOOP_FREEZE_DELTA m) : Int) < span then s.tripLoop m LpCause.fbFrozen 0x0082 y else s

/-- Oscillation (R328). -/
def State.oscCheck (s : State) (m : Nat) (en : Int) : State :=
  if s.loopState m ≠ Lp.closed then s
  else
    let x := s.loop m
    let ages := x.oscAges.map (· + 1)
    let floor := s.rd (K.LOOP_OSC_FLOOR m)
    if floor = 0xFFFFFFFF ∨ en.natAbs < floor ∨ en = 0 then s.setLoop m { x with oscAges := ages }
    else
      let reversal := x.oscSign != 0 && x.oscSign != signOf en
      let ages := if reversal then (0 :: ages).take 32 else ages
      let k := s.rd (K.LOOP_OSC_COUNT m)
      let fires := reversal && (match ages[k - 1]? with | some a => decide (a ≤ s.rd (K.LOOP_OSC_WINDOW m)) | none => false)
      if !fires then s.setLoop m { x with oscAges := ages, oscSign := signOf en }
      else
        let act := s.rd (K.LOOP_OSC_ACTION m)
        let s := s.setLoop m { x with oscAges := [], oscSign := 0 }
        let s := (s.inc (K.LOOP_OSC_EVENTS m)).wr (K.LOOP_FLAGS m) (setBit (s.rd (K.LOOP_FLAGS m)) 1 true)
        let s := s.loopEvent m 0x0083 3 act k
        if act = 1 then s.holdLoop m LpCause.oscillation
        else if act = 2 then s.tripState m LpCause.oscillation
        else s

/-- Following error (R328). -/
def State.followCheck (s : State) (m : Nat) (e : Int) : State :=
  if m < 88 ∨ s.loopState m ≠ Lp.closed then s
  else
    let x := s.loop m
    let k := if s.rd (K.LOOP_FE_LIMIT m) < e.natAbs then x.feRun + 1 else 0
    let s := s.setLoop m { x with feRun := k }
    if 0 < k ∧ s.rd (K.LOOP_FE_TIME m) ≤ k then s.tripLoop m LpCause.following 0x0084 e else s

/-- What the arithmetic of one sample comes to (R316 to R318). -/
structure LoopOut where
  r : Int
  e : Int
  en : Int
  u : Int
  iacc : Int
  sat : Bool
  sp : Int
  sv : Int
deriving DecidableEq, Repr

/-- The arithmetic of one sample (R316 to R319). -/
def State.lawOut (s : State) (m : Nat) (rraw y : Int) : LoopOut :=
  let x := s.loop m
  let c := fun (k : Nat) => s.rdS 32 k
  let shaped := s.rd (K.LOOP_SHAPER m) = 1
  let sh := if shaped then shapeStep (s.rd (K.LOOP_VMAX m)) (s.rd (K.LOOP_AMAX m)) rraw x.sp x.sv else (x.sp, x.sv)
  let r := if shaped then rsh sh.1 16 else rraw
  let e := sat32 (r - y)
  let a := e.natAbs
  let g := gainAt (gainPoints (s.rd (K.LOOP_GAIN_TABLE m))) a
  let en := signOf e * min 2147483647 (sat64 (sat64 (a * g) + 32768) / 65536)
  if s.rd (K.LOOP_LAW m) = 1 then { r := r, e := e, en := en, u := r, iacc := 0, sat := false, sp := sh.1, sv := sh.2 }
  else
    let si := s.rd (K.LOOP_SI m)
    let lo := c (K.LOOP_OUT_MIN m)
    let hi := c (K.LOOP_OUT_MAX m)
    let p := rsh (sat64 (c (K.LOOP_KP m) * en)) (s.rd (K.LOOP_SP m))
    let inew := sat64 (x.iacc + sat64 (c (K.LOOP_KI m) * en))
    let d := rsh (sat64 (c (K.LOOP_KD m) * (en - x.enPrev))) (s.rd (K.LOOP_SD m))
    let f := rsh (sat64 (c (K.LOOP_KV m) * (r - x.rPrev))) (s.rd (K.LOOP_SV m))
    let xs := sat64 (s.addInputs m + s.repSum m)
    let sum := fun (i : Int) => sat64 (p + rsh i si + d + f + xs + c (K.LOOP_OFFSET m))
    let uc := sum inew
    let inew := if (hi < uc ∧ 0 < en) ∨ (uc < lo ∧ en < 0) then x.iacc else inew
    let iacc := clampInt (lo * 2 ^ si) (hi * 2 ^ si) inew
    let un := sum iacc
    let u := clampInt lo hi un
    { r := r, e := e, en := en, u := u, iacc := iacc, sat := u != un, sp := sh.1, sv := sh.2 }

/-- One computed sample of a loop (R316): its output, its state, its repetitive slots, and the supervision of it. A set-point that differs
from that of the sample before, but for a galvo's, which the path moves, counts as a change (R319). `cmd` is
the command the freeze detector looks at, when it is not r. -/
def State.lawSample (s : State) (m : Nat) (rraw : Int) (cmd : Option (Option Int)) : State :=
  let x := s.loop m
  let y := s.rdS 32 (K.LOOP_FEEDBACK m)
  let o := s.lawOut m rraw y
  let shaped := s.rd (K.LOOP_SHAPER m) = 1
  let ff := if shaped then rsh o.sv 16 else o.r - x.rPrev
  let moving := x.moving || (decide (48 ≤ m) && x.rawPrev.any (· != rraw))
  let done := moving && (!shaped || (o.sp == rraw * 65536 && o.sv == 0))
  let s := s.setLoop m { x with sp := o.sp, sv := o.sv, iacc := o.iacc, enPrev := o.en, rPrev := o.r, missRun := 0, newFb := false,
                                ff := ff, count := x.count + 1, moving := moving && !done, rawPrev := some rraw }
  let s := (((s.wrS 32 (K.LOOP_OUTPUT m) o.u).wrS 32 (K.LOOP_ERROR m) o.en).wrS 32 (K.LOOP_SHAPED_SP m) o.r).wrS 64 (K.LOOP_INTEGRATOR m) o.iacc
  let s := s.inc (K.LOOP_SAMPLES m)
  let s := if shaped ∧ o.r ≠ rraw then
      (s.inc (K.LOOP_SHAPED m)).wr (K.LOOP_FLAGS m) (setBit (s.rd (K.LOOP_FLAGS m)) 2 true)
    else s
  let s := (s.slotsOf m).foldl (fun s i => s.repLearn i o.en o.sat) s
  let s := if done then (s.loopEvent m 0x0085 4 0 rraw).layerMove m else s
  let s := s.recoatCheck m o.e
  let s := s.freezeCheck m y (cmd.getD (some o.r))
  (s.oscCheck m o.en).followCheck m o.e

/-- The slots in FACET mode follow the sweep before a galvo sample (R250). -/
def State.facetSlots (s : State) (m n a : Nat) : State :=
  let ph := s.facetPhase n a
  (s.slotsOf m).foldl (fun s i =>
    if s.rd (K.RC_SYNC i) ≠ 1 then s
    else
      let s := (s.setRep i { s.rep i with paired := ph.1 }).syncRep i
      if ph.2 ∧ !(s.rep i).suspended then s.wr (K.RC_INDEX i) 0 else s) s

/-- The sample of a galvo loop for the instant A, on tick A - 320 (R310). -/
def State.galvoSample (s : State) (m : Nat) : State :=
  let n := m / 3
  let a := s.tm.tick + 320
  if s.inSample ≠ 80 ∨ (s.loop m).lastAt = some a then s
  else
    let s := s.takeSetPoints n a
    let s := if m % 3 < 2 then s.facetSlots m n a else s
    let had := (s.loop m).newFb
    let s := s.setLoop m { s.loop m with lastAt := some a, newFb := false }
    if s.loopState m = Lp.closed ∧ had then s.lawSample m (s.loopSetpoint m) none else s

/-- The sample of a power loop on its mark (R289, R310). -/
def State.poolSample (s : State) (m : Nat) : State :=
  match (s.loop m).mark with
  | none => s
  | some (kind, v, inst) =>
    let s := s.setLoop m { s.loop m with mark := none, lastAt := some s.tm.tick }
    let s := s.rampLoop m
    match kind with
    | 0 =>
      let s := s.feed m v ((s.loop m).seq + 1)
      if s.loopState m ≠ Lp.closed then s
      else
        let cmd := ((s.chan (m - 48)).shots.find? (fun q => q.inst == inst)).map fun q => (q.p1 : Int)
        s.lawSample m (s.loopSetpoint m) (some cmd)
    | 1 => s.setLoop m { s.loop m with missRun := 0 }
    | _ => s.missFeedback m

/-- A sample of a general or privileged loop is due (R311). -/
def State.loopDue (s : State) (m : Nat) : Bool :=
  (s.loop m).lastAt != some s.tm.tick &&
    (if s.rd (K.LOOP_TIMING m) = 0 then s.rd K.CYCLIC_ENABLE == 1 && decide (s.tm.tick + 2600 = s.cyc.nextTick)
     else (s.loop m).mark.isSome)

/-- The sample of a general or privileged loop (R311, R312). -/
def State.generalSample (s : State) (m : Nat) : State :=
  if !s.loopDue m then s
  else
    let s := s.setLoop m { s.loop m with mark := none, lastAt := some s.tm.tick }
    let s := s.rampLoop m
    let src := s.rd (K.LOOP_FB_SOURCE m)
    let s := if src / 256 = 1 ∧ s.rd (K.AX_STATUS (src % 4)) ≠ 2 then
        s.feed m (s.rdS 32 (K.AX_POSITION (src % 4))) ((s.loop m).seq + 1)
      else s
    if s.loopState m ≠ Lp.closed then s.setLoop m { s.loop m with newFb := false }
    else if (s.loop m).newFb then s.lawSample m (s.loopSetpoint m) none
    else s.missFeedback m

/-- LOOP_SAMPLE (R310, R316). -/
def State.loopSample (s : State) (m : Nat) : State :=
  if m < 48 then s.galvoSample m else if m < 64 then s.poolSample m else s.generalSample m

/-- A loop's part of a LOOP_STATE message (R410). -/
def State.loopImage (s : State) (m : Nat) : List Byte :=
  let x := s.loop m
  toLE 1 m ++ toLE 1 (s.loopState m) ++ toLE 2 0 ++ toLE 4 (s.rd (K.LOOP_OUTPUT m)) ++ toLE 4 (uns 32 x.enPrev) ++
    toLE 4 (uns 32 x.rPrev) ++ toLE 8 (uns 64 x.iacc) ++ toLE 8 (uns 64 x.sp) ++ toLE 8 (uns 64 x.sv) ++
    (s.slotsOf m).flatMap (fun i => toLE 2 (s.rd (K.RC_INDEX i)))

/-- Sending the state a sample has left to the partner (R411). -/
def State.tellLoop (s : State) (m : Nat) (before : Option Nat) : State :=
  if (s.loop m).lastAt = before then s else s.tellPartner 0x0031 (toLE 8 (s.pair s.tm.tick) ++ s.loopImage m)

/-- LOOP_SAMPLE (R310, R316). -/
def execLoopSample (l : Fin 96) (s : State) : Host.Outcome State Fault Refusal :=
  live (fun s => (s.loopSample l).tellLoop l ((s.loop l).lastAt)) s

/-- LOOP_DEADLINE (R324). -/
def State.loopDeadline (s : State) (m : Nat) (overrun : Bool) : State :=
  if s.loopState m ≠ Lp.closed ∨ (overrun ∧ m < 64) ∨ (!overrun ∧ 48 ≤ m) then s
  else
    let cause := if overrun then 2 else 1
    let inst := if overrun then s.tm.tick else s.tm.tick - 80
    let s := s.wrs [(K.LOOP_FLAGS m, setBit (s.rd (K.LOOP_FLAGS m)) 3 true), (K.LOOP_DL_CAUSE m, cause)]
    (s.inc (K.LOOP_DL_MISSED m)).loopEvent m 0x0080 3 cause ((s.pair inst / 400 % 2 ^ 32 : Nat) : Int)

/-- LOOP_DEADLINE (R324). -/
def execLoopDeadline (l : Fin 96) (overrun : Bool) (s : State) : Host.Outcome State Fault Refusal :=
  live (fun s => s.loopDeadline l overrun) s

/-- The power loop of a channel is held for a chord with NO_LOOP (R186, R314). -/
def State.loopHold (s : State) (n : Nat) : State :=
  let no := s.rd (K.BC_STATE n) = Bc.run ∧ (s.chordAt n s.tm.tick).any (fun p => p.chord.noLoop)
  if no then s.holdLoop (48 + n) LpCause.noLoop else s.unholdLoop (48 + n) LpCause.noLoop

/-- A loop that CLOSE has taken out of HOLD (R314): what holds a power loop besides holds it on. -/
def State.closeHeld (s : State) (m : Nat) : State :=
  let s := s.setLoopState m Lp.closed 0
  if m < 48 ∨ 64 ≤ m then s
  else if (s.chan (m - 48)).pass.any (fun p => p.under.isSome) then s.holdLoop m LpCause.underrun
  else s.loopHold (m - 48)

/-- A write of CLOSE (R314). -/
def loopCloseEff (m : Nat) (s : State) : Nat × State :=
  let st := s.loopState m
  let c := s.rd (K.LOOP_CAUSE m)
  if st = Lp.idle ∧ 64 ≤ m ∧ s.rd (K.LOOP_FB_SOURCE m) / 256 ≠ 0 then (Ans.ok, s.closeLoop m)
  else if st = Lp.hold ∧ (c = LpCause.host ∨ c = LpCause.driveSilent ∨ c = LpCause.oscillation) then
    (Ans.ok, s.closeHeld m)
  else (Ans.refused, s)

/-- A write of HOLD (R314). -/
def loopHoldEff (m : Nat) (s : State) : Nat × State :=
  if 64 ≤ m ∧ s.loopState m = Lp.closed then (Ans.ok, s.holdLoop m LpCause.host) else (Ans.refused, s)

/-- A write of OPEN (R314). -/
def loopOpenEff (m : Nat) (s : State) : Nat × State :=
  if 64 ≤ m ∧ (s.loopState m = Lp.closed ∨ s.loopState m = Lp.hold) then (Ans.ok, s.idleLoop m) else (Ans.refused, s)

/-- A write of RESET (R314, R327): the ramp has ended. -/
def loopResetEff (m : Nat) (s : State) : Nat × State :=
  if s.loopState m = Lp.tripped ∧ s.loopOut m = 0 then (Ans.ok, s.idleLoop m) else (Ans.refused, s)

/-- A write of TRIP (R314). -/
def loopTripEff (m : Nat) (s : State) : Nat × State :=
  if s.loopState m = Lp.closed ∨ s.loopState m = Lp.hold then (Ans.ok, s.tripLoop m LpCause.hostTrip 0x0086 (s.loopOut m))
  else (Ans.refused, s)

/-- A write of LOOP_CONTROL (R314). -/
def loopControlEff (m v : Nat) (s : State) : Nat × State :=
  match v with
  | 1 => loopCloseEff m s
  | 2 => loopHoldEff m s
  | 3 => loopOpenEff m s
  | 4 => loopResetEff m s
  | _ => loopTripEff m s

/-- LOOP_CLOSE (R314). -/
def execLoopClose (m : Msg) (l : Fin 96) (s : State) : Host.Outcome State Fault Refusal :=
  writeCmd m (K.LOOP_CONTROL l) 1 1 (loopControlEff l) s

/-- LOOP_HOLD (R314). -/
def execLoopHold (m : Msg) (l : Fin 96) (s : State) : Host.Outcome State Fault Refusal :=
  writeCmd m (K.LOOP_CONTROL l) 1 2 (loopControlEff l) s

/-- LOOP_OPEN (R314). -/
def execLoopOpen (m : Msg) (l : Fin 96) (s : State) : Host.Outcome State Fault Refusal :=
  writeCmd m (K.LOOP_CONTROL l) 1 3 (loopControlEff l) s

/-- LOOP_RESET (R314, R327). -/
def execLoopReset (m : Msg) (l : Fin 96) (s : State) : Host.Outcome State Fault Refusal :=
  writeCmd m (K.LOOP_CONTROL l) 1 4 (loopControlEff l) s

/-- LOOP_TRIP (R314). -/
def execLoopTrip (m : Msg) (l : Fin 96) (s : State) : Host.Outcome State Fault Refusal :=
  writeCmd m (K.LOOP_CONTROL l) 1 5 (loopControlEff l) s

/-- A write of RC_CLEAR (R323). -/
def rcClearEff (i _v : Nat) (s : State) : Nat × State :=
  if s.rd (K.RC_STATE i) = 1 then (Ans.refused, s) else (Ans.ok, s.setRep i { s.rep i with table := [] })

/-- RC_CLEAR (R323). -/
def execRcClear (m : Msg) (i : Fin 32) (s : State) : Host.Outcome State Fault Refusal :=
  writeCmd m (K.RC_CLEAR i) 1 1 (rcClearEff i) s

/-- Following SETPOINT targets from a loop reaches another (R313). -/
def State.chainReaches (s : State) (goal : Nat) : Nat → Nat → Bool
  | 0, _ => false
  | f + 1, m =>
    if m = goal then true
    else
      let t := s.rd (K.LOOP_OUT_TARGET m)
      if t / 256 = 1 then s.chainReaches goal f (t % 256) else false

/-- A write of LOOP_FB_SOURCE (R312). -/
def fbSourceEff (m v : Nat) (s : State) : Nat × State :=
  let i := v % 256
  let ok := match v / 256 with
    | 0 => decide (i = 0)
    | 1 => decide (i < 4)
    | 2 => decide (i < 8)
    | 3 => decide (i < 64)
    | 4 => decide (i = 0)
    | _ => false
  if m < 64 then (Ans.refused, s) else if !ok then (Ans.outOfRange, s) else (Ans.ok, s.wr (K.LOOP_FB_SOURCE m) v)

/-- A write of LOOP_OUT_TARGET (R313). -/
def outTargetEff (m v : Nat) (s : State) : Nat × State :=
  let i := v % 256
  let ok := match v / 256 with
    | 0 => decide (i = 0)
    | 1 => decide (64 ≤ i) && decide (i < 96)
    | 2 => decide (64 ≤ i) && decide (i < 96)
    | 3 => decide (i < 64)
    | _ => false
  if m < 64 then (Ans.refused, s)
  else if !ok then (Ans.outOfRange, s)
  else if (v / 256 = 1 ∨ v / 256 = 2) ∧ i = m then (Ans.refused, s)
  else if v / 256 = 1 ∧ ((List.range 32).any (fun k => 64 + k != m && s.rd (K.LOOP_OUT_TARGET (64 + k)) == v) ∨ s.chainReaches m 33 i) then
    (Ans.refused, s)
  else (Ans.ok, s.wr (K.LOOP_OUT_TARGET m) v)

/-- A write of LOOP_SETPOINT (R310, R313, R320). -/
def setpointEff (m v : Nat) (s : State) : Nat × State :=
  let driven := (List.range 32).any fun k => s.rd (K.LOOP_OUT_TARGET (64 + k)) == 0x0100 + m
  let mine : Bool := match s.layer.cur with
    | some d => s.phase == Phase.recoat && (m == d.recoatLoop || (d.preLoop != 0 && m == d.preLoop))
    | none => false
  if m < 48 ∨ driven ∨ mine then (Ans.refused, s) else (Ans.ok, s.putSetpoint m (sgn 32 v))

/-- Slots attached to a loop other than slot `i`. -/
def State.otherSlots (s : State) (i l : Nat) : Nat := ((s.slotsOf l).filter (· != i)).length

/-- Only galvo X and Y loops take a slot in FACET mode (R321). -/
def facetLoop (l : Nat) : Bool := l == 0xFF || (decide (l < 48) && decide (l % 3 < 2))

/-- The conditions and effects of writes to a loop's entries (R310 to R335); `x` is the index within the loop, `k` the
sub-index. -/
def loopWriteEff (m x k v : Nat) (s : State) : Nat × State :=
  let key := (0x5000 + 0x20 * m + x) * 256 + k
  let put : Nat × State := (Ans.ok, s.wr key v)
  let need := fun (b : Bool) => if b then put else (Ans.refused, s)
  match x, k with
  | 0, 2 => loopControlEff m v s
  | 0, 4 => if m < 64 then (Ans.refused, s) else if 1 < v then (Ans.outOfRange, s) else put
  | 0, 5 => fbSourceEff m v s
  | 0, 6 => outTargetEff m v s
  | 1, 10 => need (v == 0 || decide (88 ≤ m))
  | 2, 1 => setpointEff m v s
  | 2, 2 => if s.rdS 32 (K.LOOP_OUT_MAX m) ≤ sgn 32 v then (Ans.outOfRange, s) else put
  | 2, 3 => if sgn 32 v ≤ s.rdS 32 (K.LOOP_OUT_MIN m) then (Ans.outOfRange, s) else put
  | 2, 7 => if gainTableOk v then put else (Ans.outOfRange, s)
  | 3, 6 => need (decide (88 ≤ m))
  | 3, 8 =>
    let s := s.wr key v
    (Ans.ok, if s.rd (K.LOOP_FB_SOURCE m) = 0x0400 then s.feed m (sgn 32 v) ((s.loop m).seq + 1) else s)
  | 4, 6 => if v = 0 then put else (Ans.outOfRange, s)
  | _, _ => put

/-- The conditions and effects of writes to a repetitive slot's entries (R321, R323). -/
def rcWriteEff (i k v : Nat) (s : State) : Nat × State :=
  let key := (0x5C00 + 0x10 * i) * 256 + k
  match k with
  | 1 =>
    if v ≠ 0xFF ∧ (4 ≤ s.otherSlots i v ∨ (s.rd (K.RC_SYNC i) = 1 ∧ !facetLoop v)) then (Ans.refused, s)
    else (Ans.ok, (s.wr key v).syncRep i)
  | 2 => (Ans.ok, (s.wr key v).syncRep i)
  | 3 => if v = 1 ∧ !facetLoop (s.rd (K.RC_LOOP i)) then (Ans.refused, s) else (Ans.ok, (s.wr key v).syncRep i)
  | 4 =>
    if v ≤ s.rd (K.RC_LEAD i) then (Ans.outOfRange, s)
    else (Ans.ok, (s.wr key v).wr (K.RC_INDEX i) (s.rd (K.RC_INDEX i) % max 1 v))
  | 5 => if s.rd (K.RC_PERIOD i) ≤ v then (Ans.outOfRange, s) else (Ans.ok, s.wr key v)
  | 13 =>
    let j := s.rd (K.RC_TABLE_INDEX i)
    (Ans.ok, s.setRep i { s.rep i with table := Tab.set (fun _ => 0) (s.rep i).table j (sgn 32 v) })
  | 14 => rcClearEff i v s
  | _ => (Ans.ok, s.wr key v)

end Sys2Proof.Machine
end

