-- ==== Sys2Proof/Machine/Trigger.lean ====
section
/-! DEFINITION. Arming and disarming the time triggers (R53 to R56). -/

namespace Sys2Proof.Machine

/-- The target of an action lies in its range (R56). -/
def triggerTarget (action target : Nat) : Bool :=
  match action with
  | 1 => decide (64 ≤ target) && decide (target ≤ 95)
  | 2 => decide (target < 16)
  | 3 => decide (target < 4)
  | 4 => decide (target < 8)
  | 5 => decide (target < 4)
  | 6 => decide (target < 16)
  | _ => false

/-- A trigger that has no instant yet. -/
def Trigger.init : Trigger := { nextTick := none, late := false }

/-- Trigger `n`'s progress. -/
def State.trigger (s : State) (n : Nat) : Trigger := Tab.get (fun _ => Trigger.init) s.trig n

/-- Setting trigger `n`'s progress. -/
def State.setTrigger (s : State) (n : Nat) (t : Trigger) : State :=
  { s with trig := Tab.set (fun _ => Trigger.init) s.trig n t }

/-- Arming a disarmed trigger (R53, R54, R55). -/
def State.armTrigger (s : State) (n : Nat) : State :=
  let s := s.wrs [(K.TT_FIRED n, 0), (K.TT_SKIPPED n, 0), (K.TT_ARM n, 1)]
  let p := s.rd (K.TT_PERIOD n)
  let c := s.rd (K.TT_COUNT n)
  let t := s.rd (K.TT_TIME n)
  if !atOrAfter s.now t then s.setTrigger n Trigger.init
  else if p = 0 then s.setTrigger n { nextTick := some (s.tm.tick + 1), late := true }
  else
    let e := (s.now + 2 ^ 64 - t) % 2 ^ 64 / 160
    let k := e / p + 1
    if c ≠ 0 ∧ c ≤ k then (s.wrs [(K.TT_SKIPPED n, c), (K.TT_ARM n, 0)]).setTrigger n Trigger.init
    else (s.wr (K.TT_SKIPPED n) (k % 2 ^ 32)).setTrigger n { nextTick := some (s.tm.tick + (k * p - e)), late := false }

/-- A write of TT_ARM (R55). -/
def ttArmEff (n v : Nat) (s : State) : Nat × State :=
  let armed := s.rd (K.TT_ARM n) = 1
  if v = 1 then
    if armed then (Ans.ok, s)
    else if !triggerTarget (s.rd (K.TT_ACTION n)) (s.rd (K.TT_TARGET n)) then (Ans.outOfRange, s)
    else (Ans.ok, s.armTrigger n)
  else if armed then (Ans.ok, (s.wr (K.TT_ARM n) 0).setTrigger n Trigger.init)
  else if 0 < s.rd (K.TT_FIRED n) ∧ s.rd (K.TT_LAST n) = s.now then (Ans.alreadyComplete, s)
  else (Ans.ok, s)

/-- TT_ARM (R55). -/
def execTtArm (m : Msg) (n : Fin 64) (s : State) : Host.Outcome State Fault Refusal :=
  writeCmd m (K.TT_ARM n) 1 1 (ttArmEff n) s

/-- TT_DISARM (R55). -/
def execTtDisarm (m : Msg) (n : Fin 64) (s : State) : Host.Outcome State Fault Refusal :=
  writeCmd m (K.TT_ARM n) 1 0 (ttArmEff n) s

/-- A trigger fires on the present tick (R53). -/
def State.triggerDue (s : State) (n : Nat) : Bool :=
  s.rd (K.TT_ARM n) == 1 && (match (s.trigger n).nextTick with
    | some t => decide (t ≤ s.tm.tick)
    | none => atOrAfter s.now (s.rd (K.TT_TIME n)))

/-- The firing's event: one for each group and tick, with every trigger of the group in its masks (R524, R525). -/
def State.fireEvent (s : State) (n : Nat) (late : Bool) : State :=
  let src := 0x18 + n / 16
  let d := 2 ^ (n % 16) + (if late then 2 ^ (16 + n % 16) else 0)
  match s.openEvent s.tm.tick src with
  | none => s.raise src 0x0110 4 0 d
  | some o =>
    let e := { o with data := o.data ||| d }
    let s := { s with ev := { s.ev with hits := s.ev.hits ++ [(src, 0x0110, s.tm.tick)] } }
    (s.putOpen e).showEvent e

/-- The firing itself, before its action reaches the target (R53, R55). -/
def State.fireTrigger (s : State) (n : Nat) : State :=
  let late := (s.trigger n).late
  let p := s.rd (K.TT_PERIOD n)
  let c := s.rd (K.TT_COUNT n)
  let s := s.wrs [(K.TT_FIRED n, (s.rd (K.TT_FIRED n) + 1) % 2 ^ 32), (K.TT_LAST n, s.now)]
  let s := if p = 0 ∨ (c ≠ 0 ∧ c ≤ s.rd (K.TT_FIRED n) + s.rd (K.TT_SKIPPED n)) then
      (s.wr (K.TT_ARM n) 0).setTrigger n Trigger.init
    else s.setTrigger n { nextTick := some (((s.trigger n).nextTick).getD s.tm.tick + p), late := false }
  s.fireEvent n late

end Sys2Proof.Machine
end

