-- ==== Sys2Proof/Machine/Axis.lean ====
section
/-! DEFINITION. Machine axes (R362 to R386) and the blade line (R216 to R219, R379): counting, scaled position, signal state,
index and correction, position compare, pass-through, RCSYNC and a stalled recoater. -/

namespace Sys2Proof.Machine

/-- An axis that has not been enabled. -/
def Axis.init : Axis :=
  { hist := [], ref := none, jumps := [], phase := none, resync := false, enabledAt := 0, cleanAt := 0, brokeAt := none, mendedAt := 0, worst := 0, ahead := 0, behind := [], moved := 0,
    out := 0, edges := 0, outTick := 0, overspeed := false, zAt := none }

/-- Axis `k`. -/
def State.axis (s : State) (k : Nat) : Axis := Tab.get (fun _ => Axis.init) s.axes k

/-- Setting axis `k`. -/
def State.setAxis (s : State) (k : Nat) (x : Axis) : State := { s with axes := Tab.set (fun _ => Axis.init) s.axes k x }

/-- The event source of axis `k` (R525). -/
def srcAxis (k : Nat) : Nat := 0xD0 + k

/-- The count of axis `k` (R365). -/
def State.count (s : State) (k : Nat) : Int := s.rdS 64 (K.AX_COUNT k)

/-- The count of axis `k` on a tick of the recent past. -/
def State.countAt (s : State) (k t : Nat) : Int :=
  match (s.axis k).hist.find? (fun h => decide (h.1 ≤ t)) with
  | some h => h.2
  | none => match (s.axis k).hist.getLast? with
    | some h => h.2
    | none => s.count k

/-- The axis was in FAULT on a tick of the recent past (R367). -/
def State.faultAt (s : State) (k t : Nat) : Bool :=
  match (s.axis k).brokeAt with
  | none => false
  | some b => decide (b ≤ t) && (s.rd (K.AX_STATUS k) == 2 || decide (t < (s.axis k).mendedAt))

/-- The scaled position of a count (R366). -/
def State.scaled (s : State) (k : Nat) (c : Int) : Int :=
  let q := (c * s.rd (K.AX_NM_PER_COUNT k) + 2 ^ 15) / 2 ^ 16
  (if s.rd (K.AX_INVERT k) = 1 then -q else q) + s.rdS 32 (K.AX_OFFSET k)

/-- The fault bits that the mode of an axis can have (R367): an illegal transition is one of quadrature, the radius and the frequency
are those of a sine/cosine signal. -/
def State.modeFaults (s : State) (k : Nat) : Nat := if s.rd (K.AX_MODE k) = 0 then 21 else 27

/-- Fault bits of an axis come up (R367): FAULT with its event, but while OFF they are only shown. -/
def State.axisFault (s : State) (k bits : Nat) : State :=
  let bits := bits &&& s.modeFaults k
  let new := s.rd (K.AX_FAULT k) ||| bits
  if s.rd (K.AX_ENABLE k) = 0 ∨ new = s.rd (K.AX_FAULT k) then s
  else
    let s := s.wr (K.AX_FAULT k) new
    if s.rd (K.AX_STATUS k) = 0 then s
    else
      let x := s.axis k
      let fresh := s.rd (K.AX_STATUS k) ≠ 2
      let s := s.setAxis k { x with worst := (if fresh then 0 else x.worst) ||| bits,
                                    brokeAt := if fresh then some s.tm.tick else x.brokeAt, zAt := none }
      (s.wr (K.AX_STATUS k) 2).raise (srcAxis k) 0x00C3 3 k new

/-- The pass-through target (R377). -/
def State.aoTarget (s : State) (k : Nat) : Int := (s.axis k).moved * s.rd (K.AO_NUM k) / s.rd (K.AO_DEN k)

/-- Fault bits of an axis clear (R367, R378): VALID when RANGE was the only one, else UNCERTAIN. -/
def State.axisClear (s : State) (k bits : Nat) : State :=
  let old := s.rd (K.AX_FAULT k)
  let new := old - (old &&& bits)
  let s := s.wr (K.AX_FAULT k) new
  let x := s.axis k
  if new ≠ 0 ∨ old = 0 then s
  else if s.rd (K.AX_STATUS k) ≠ 2 then s.setAxis k { x with cleanAt := s.tm.tick }
  else
    let st := if x.worst = 16 then 1 else 3
    let s := s.setAxis k { x with worst := 0, resync := x.phase.isSome && x.worst != 16, out := s.aoTarget k, overspeed := false,
                                  mendedAt := s.tm.tick }
    let s := s.wr (K.AO_LAG k) 0
    (s.wr (K.AX_STATUS k) st).raise (srcAxis k) 0x00C4 6 k st

/-- Forming the scaled position (R366): outside the I32 range it is a fault of the tick, and what it reads is open. -/
def State.formPos (s : State) (k : Nat) : State :=
  let q := s.scaled k (s.count k)
  if -2147483648 ≤ q ∧ q ≤ 2147483647 then (s.wrS 32 (K.AX_POSITION k) q).axisClear k 16
  else
    let d := s.draw
    (d.2.wr (K.AX_POSITION k) ((Config.unstated d.1).toNat % 2 ^ 32)).axisFault k 16

/-- The start of the longest stretch up to now in which the counts lie within a band (R368). -/
def bandStart (band : Nat) : Int → Int → Option Nat → List (Nat × Int) → Option Nat
  | _, _, t, [] => t
  | lo, hi, t, (t', c) :: r =>
    let lo := min lo c
    let hi := max hi c
    if (2 * band : Nat) < hi - lo then t else bandStart band lo hi (some t') r

/-- The axis is at rest (R368). -/
def State.atRest (s : State) (k : Nat) : Bool :=
  let c := s.count k
  (match bandStart (s.rd (K.AX_IDLE_BAND k)) c c none (s.axis k).hist with
   | some t => decide (t + s.rd (K.AX_IDLE_TIME k) ≤ s.tm.tick)
   | none => false) &&
    !(s.rd K.BED_BLADE_AXIS == k && s.phase == Phase.recoat)

/-- Keeping the counts that still matter: those of the idle band, and those younger than a filter's delay. -/
def pruneHist (band now : Nat) : Int → Int → List (Nat × Int) → List (Nat × Int)
  | _, _, [] => []
  | lo, hi, (t, c) :: r =>
    let lo := min lo c
    let hi := max hi c
    if hi - lo ≤ (2 * band : Nat) ∨ now < t + closeDelay then (t, c) :: pruneHist band now lo hi r else [(t, c)]

/-- A new count stands from the present tick. -/
def State.putCount (s : State) (k : Nat) (c : Int) : State :=
  let x := s.axis k
  let older := x.hist.filter (fun h => decide (h.1 < s.tm.tick))
  (s.setAxis k { x with hist := pruneHist (s.rd (K.AX_IDLE_BAND k)) s.tm.tick c c ((s.tm.tick, c) :: older) }).wrS 64 (K.AX_COUNT k) c

/-- A count changed otherwise than by motion: for the band of R368 the counts before it are seen as moved with it. -/
def State.shiftCount (s : State) (k : Nat) (d : Int) (preset : Bool) : State :=
  let x := s.axis k
  let js := (s.tm.tick, d, x.ref, preset) :: x.jumps.filter (fun j => decide (s.tm.tick < j.1 + closeDelay))
  (s.setAxis k { x with hist := x.hist.map (fun h => (h.1, h.2 + d)), jumps := js }).wrS 64 (K.AX_COUNT k) (s.count k + d)

/-- The presets and corrections made on a tick or after it. -/
def State.jumpsFrom (s : State) (k t : Nat) : List (Nat × Int × Option Int × Bool) :=
  (s.axis k).jumps.filter (fun j => decide (t ≤ j.1))

/-- The count as it stood on a tick of the recent past, before any preset or correction of that tick (R386). -/
def State.latchAtTick (s : State) (k t : Nat) : Int :=
  (s.jumpsFrom k t).foldl (fun c j => c - j.2.1) (s.countAt k t)

/-- The count lies short of a unit's position in its armed direction (R374). -/
def State.cmpShort (s : State) (k c : Nat) : Bool :=
  let p := s.rdS 64 (K.CMP_POSITION k c)
  if s.rd (K.CMP_DIR k c) = 0 then decide (s.count k < p) else decide (p < s.count k)

/-- Armed units that have come to lie ahead (R374, R375). -/
def State.markAhead (s : State) (k : Nat) : State :=
  let x := s.axis k
  let a := (List.range 8).foldl (fun a c => if s.rd (K.CMP_ARM k c) = 1 ∧ s.cmpShort k c then setBit a c true else a) x.ahead
  s.setAxis k { x with ahead := a }

/-- Judging an armed unit (R375): ahead, or behind with its report on the next tick. -/
def State.judge (s : State) (k c : Nat) : State :=
  let x := s.axis k
  if s.rd (K.CMP_ARM k c) = 0 then s
  else if s.cmpShort k c then s.setAxis k { x with ahead := setBit x.ahead c true, behind := x.behind.filter (fun b => b.1 != c) }
  else s.setAxis k { x with ahead := setBit x.ahead c false, behind := x.behind.filter (fun b => b.1 != c) ++ [(c, s.tm.tick + 1)] }

/-- Judging every armed unit after a preset or correction; a unit that is left behind fires no more. -/
def State.judgeAll (s : State) (k : Nat) : State := (List.range 8).foldl (fun s c => s.judge k c) s

/-- COMPARE_BEHIND for the units whose tick has come (R375). -/
def State.behindDue (s : State) (k : Nat) : State :=
  let x := s.axis k
  let due := x.behind.filter (fun b => decide (b.2 ≤ s.tm.tick))
  if due.isEmpty then s
  else
    let s := s.setAxis k { x with behind := x.behind.filter (fun b => !decide (b.2 ≤ s.tm.tick)) }
    due.foldl (fun s b => s.raise (srcAxis k) 0x00C6 6 b.1 (b.1 + uns 32 (s.count k) * 2 ^ 32)) s

/-- The position of an axis along the blade's travel, relative to the last accepted RCSYNC (R216, R379). -/
def State.bladeRaw (s : State) (p : Int) : Int :=
  let k := s.rd K.BED_BLADE_AXIS
  let ps := if s.layer.aligned then s.layer.ps else s.scaled k 0
  let back := s.rd K.BED_BLADE_ALT = 1 ∧ s.rd K.LAYER_NUMBER % 2 = 0
  s.rdS 32 K.BED_BLADE_REF + (if back then ps - p else p - ps)

/-- The raw position of the blade line now. -/
def State.bladeNow (s : State) : Int := s.bladeRaw (s.scaled (s.rd K.BED_BLADE_AXIS) (s.count (s.rd K.BED_BLADE_AXIS)))

/-- The stall timer starts anew from a position (R219). -/
def State.stallFrom (s : State) (b : Int) : State := { s with layer := { s.layer with stallPos := b, stallTick := s.tm.tick } }

/-- The blade line follows the blade axis in RECOAT (R216). -/
def State.bladeMotion (s : State) (k : Nat) : State :=
  if s.phase ≠ Phase.recoat ∨ s.rd K.BED_BLADE_AXIS ≠ k then s
  else
    let b := max (s.rdS 32 K.BED_BLADE_POS) s.bladeNow
    let s := s.wrS 32 K.BED_BLADE_POS b
    if s.layer.stallPos + s.rd K.BED_STALL_DIST * 1000 ≤ b then s.stallFrom b else s

/-- The output follows its target, one edge at a time and 2 ticks apart (R377), repeating Z where it is due. -/
def State.aoFollow (s : State) (k : Nat) : State :=
  let x := s.axis k
  if s.rd (K.AO_ENABLE k) = 0 ∨ s.rd (K.AX_STATUS k) = 2 then s
  else
    let t := s.aoTarget k
    let lag := (t - x.out).natAbs
    let n := if x.outTick + 2 ≤ s.tm.tick then min lag 1 else 0
    let d : Int := if x.out ≤ t then n else -(n : Int)
    let out := x.out + d
    let z := match x.zAt with
      | some c => if (x.out ≤ c ∧ c ≤ out) ∨ (out ≤ c ∧ c ≤ x.out) then true else false
      | none => false
    let left := lag - n
    let s := s.setAxis k { x with out := out, edges := x.edges + d, outTick := if n = 0 then x.outTick else s.tm.tick,
                                  overspeed := x.overspeed && left != 0, zAt := if z then none else x.zAt }
    let s := s.wr (K.AO_LAG k) (min left (2 ^ 32 - 1))
    let s := if n = 0 then s
      else
        let q := ((x.edges + d) % 4).toNat
        s.emit (.pin "AO" k) [BitVec.ofNat 8 (if q = 1 ∨ q = 2 then 1 else 0), BitVec.ofNat 8 (if q = 2 ∨ q = 3 then 1 else 0)]
    if z then s.emit (.pin "AO_Z" k) [1, 0] else s

/-- Motion of an axis (R365, R377). -/
def State.axisMove (s : State) (k : Nat) (d : Int) : State :=
  if d = 0 then s
  else
    let s := s.putCount k (s.count k + d)
    let x := s.axis k
    let s := if s.rd (K.AO_ENABLE k) = 1 then s.setAxis k { x with moved := x.moved + d } else s
    (((s.formPos k).markAhead k).bladeMotion k).aoFollow k

/-- An angle given by a vector lies at or beyond `(2 j + 1) / 8192` of a turn, both within [0, 1) turn. -/
def atOrBeyond (x y : Int) (j : Nat) : Bool :=
  let a := cosSin ((2 * j + 1) * 2 ^ 35)
  let hi := decide (y < 0) || (decide (y = 0) && decide (x < 0))
  let hj := decide (2048 ≤ j)
  if hi != hj then hi else decide (0 ≤ a.1 * y - a.2 * x)

/-- Bisection for the number of half steps an angle has passed. -/
def bisectPhase (x y : Int) : Nat → Nat → Nat → Nat
  | 0, lo, _ => lo
  | f + 1, lo, w =>
    if w = 0 then lo
    else
      let m := lo + w / 2
      if atOrBeyond x y m then bisectPhase x y f (m + 1) (w - w / 2 - 1) else bisectPhase x y f lo (w / 2)

/-- The phase of a corrected sample (R363): round(4,096 atan2 / 2 pi) mod 4,096. -/
def phaseOf (x y : Int) : Nat := bisectPhase x y 13 0 4096 % 4096

/-- A corrected sample pair (R363), both scaled by the same positive factor: cosine and sine. -/
def State.trimPair (s : State) (k : Nat) (sn cs : Int) : Int × Int :=
  let t := s.rd (K.AX_TRIM k)
  let s1 := sn - sgn 16 (octField 2 t 0)
  let c1 := cs - sgn 16 (octField 2 t 2)
  let c2 := (c1 * sgn 16 (octField 2 t 4) + 8192) / 16384
  let a := cosSin (sgn 16 (octField 2 t 6) * 2 ^ 32)
  (c2 * a.1, s1 * sinUnit - c2 * a.2)

/-- A sine/cosine sample (R363, R367). -/
def State.axisPair (s : State) (k : Nat) (sn cs : Int) : State :=
  let v := s.trimPair k sn cs
  let x := s.axis k
  let p := phaseOf v.1 v.2
  let amp := isqrt (v.1 * v.1 + v.2 * v.2).toNat * 1000 / (32768 * (cosSin (sgn 16 (octField 2 (s.rd (K.AX_TRIM k)) 6) * 2 ^ 32)).1.toNat)
  let s := s.wr (K.AX_AMPLITUDE k) (min amp 65535)
  match x.phase with
  | none => s.setAxis k { x with phase := some p }
  | some p0 =>
    let s := s.setAxis k { x with phase := some p, resync := false }
    if x.resync then
      let c := s.count k + p - p0
      (((s.putCount k c).formPos k).markAhead k).bladeMotion k
    else
      let d := ((p : Int) - p0 + 2048) % 4096 - 2048
      s.axisMove k d

/-- AXIS_MOTION (R362 to R365): while a fault other than RANGE stands, the count holds. -/
def State.axisMotion (s : State) (k : Nat) (i : AxisInput) : State :=
  if s.rd (K.AX_ENABLE k) = 0 ∨ s.rd (K.AX_FAULT k) % 16 ≠ 0 then s
  else match i with
    | .edges d => if s.rd (K.AX_MODE k) = 0 then s.axisMove k d.toInt else s
    | .pair a b => if s.rd (K.AX_MODE k) = 1 then s.axisPair k a.toInt b.toInt else s

/-- AXIS_MOTION (R365). -/
def execAxisMotion (k : Fin 4) (i : AxisInput) (s : State) : Host.Outcome State Fault Refusal := live (fun s => s.axisMotion k i) s

/-- A write of AX_ENABLE (R365, R367). -/
def axEnableEff (k v : Nat) (s : State) : Nat × State :=
  let old := s.rd (K.AX_ENABLE k)
  let s := s.wr (K.AX_ENABLE k) v
  if v = old then (Ans.ok, s)
  else
    let s := s.wrs [(K.AX_STATUS k, 0), (K.AX_FAULT k, 0)]
    if v = 0 then (Ans.ok, s)
    else
      let x := s.axis k
      let s := s.setAxis k { Axis.init with hist := [(s.tm.tick, 0)], enabledAt := s.tm.tick, cleanAt := s.tm.tick, out := x.out, edges := x.edges,
                                            moved := x.moved, outTick := x.outTick }
      let s := s.wrs [(K.AX_COUNT k, 0), (K.AX_CORR_PENDING k, 0)]
      (Ans.ok, ((s.formPos k).judgeAll k).bladeMotion k)

/-- AX_ENABLE (R367). -/
def execAxEnable (m : Msg) (k : Fin 4) (v : BitVec 8) (s : State) : Host.Outcome State Fault Refusal :=
  writeCmd m (K.AX_ENABLE k) 1 v.toNat (axEnableEff k) s

/-- SIGNAL_FAULT (R367): WIRE, AMPLITUDE, QUAD_ERROR, OVERSPEED by bit. -/
def execSignalFault (k : Fin 4) (bits : BitVec 4) (s : State) : Host.Outcome State Fault Refusal :=
  live (fun s => s.axisFault k bits.toNat) s

/-- An axis that has been enabled becomes VALID once its signals have been free of faults for 1 us (R367). -/
def State.axisReady (s : State) (k : Nat) : State :=
  if s.rd (K.AX_ENABLE k) = 1 ∧ s.rd (K.AX_STATUS k) = 0 ∧ s.rd (K.AX_FAULT k) = 0 ∧ (s.axis k).cleanAt + 100 ≤ s.tm.tick
  then s.wr (K.AX_STATUS k) 1 else s

/-- SIGNAL_RECOVERED (R367): the signals are free of faults. -/
def State.signalRecovered (s : State) (k : Nat) : State :=
  if s.rd (K.AX_ENABLE k) = 0 then s else (s.axisClear k 15).axisReady k

/-- SIGNAL_RECOVERED (R367). -/
def execSignalRecovered (k : Fin 4) (s : State) : Host.Outcome State Fault Refusal := live (fun s => s.signalRecovered k) s

/-- A write of AX_FAULT_ACK (R367, R382). -/
def axAckEff (k _v : Nat) (s : State) : Nat × State :=
  if s.rd (K.AX_STATUS k) = 3 then (Ans.ok, s.wr (K.AX_STATUS k) 1) else (Ans.refused, s)

/-- AX_FAULT_ACK (R367). -/
def execAxFaultAck (m : Msg) (k : Fin 4) (s : State) : Host.Outcome State Fault Refusal :=
  writeCmd m (K.AX_FAULT_ACK k) 1 1 (axAckEff k) s

/-- A write of AX_COUNT_PRESET (R369, R375). -/
def axPresetEff (k v : Nat) (s : State) : Nat × State :=
  let st := s.rd (K.AX_STATUS k)
  if !s.atRest k ∨ (st ≠ 1 ∧ st ≠ 3) then (Ans.refused, s)
  else
    let s := s.shiftCount k (sgn 64 v - s.count k) true
    let s := s.setAxis k { s.axis k with ref := none }
    let s := s.wrs [(K.AX_STATUS k, 1), (K.AX_CORR_PENDING k, 0)]
    (Ans.ok, (s.formPos k).judgeAll k)

/-- AX_COUNT_PRESET (R369). -/
def execAxCountPreset (m : Msg) (k : Fin 4) (v : BitVec 64) (s : State) : Host.Outcome State Fault Refusal :=
  writeCmd m (K.AX_COUNT_PRESET k) 8 v.toNat (axPresetEff k) s

/-- The check of a latch against the reference (R371, R372): the deviation is reported, and pending where corrections are on and no
preset has cleared it since. -/
def State.checkIndex (s : State) (k t : Nat) (latch r : Int) (cleared : Bool) : State :=
  let sp := s.rd (K.AX_INDEX_SPACING k)
  let d := latch - r
  let dev := d - divHalfAway d sp * sp
  if sp = 0 ∨ s.faultAt k t ∨ dev.natAbs ≤ s.rd (K.AX_INDEX_TOL k) then s
  else
    let s := s.wrS 32 (K.AX_INDEX_DEVIATION k) dev
    let s := s.raiseAt t (srcAxis k) 0x00C1 3 k (uns 32 dev + uns 32 latch * 2 ^ 32) [] false
    if s.rd (K.AX_INDEX_CORRECT k) = 1 ∧ !cleared then s.wrS 32 (K.AX_CORR_PENDING k) (s.rdS 32 (K.AX_CORR_PENDING k) - dev) else s

/-- INDEX (R370 to R372), delivered `delay` ticks after its stamp: latched, checked and made the reference as of its stamp. -/
def State.indexPulse (s : State) (k delay : Nat) : State :=
  let x := s.axis k
  let t := s.tm.tick - delay
  if s.rd (K.AX_ENABLE k) = 0 ∨ !s.filtered K.PIN_FILTER_INDEX delay ∨ (delay ≠ 0 ∧ t ≤ x.enabledAt) then s
  else
    let latch := s.latchAtTick k t
    let js := s.jumpsFrom k t
    let cleared := js.any (fun j => j.2.2.2)
    let old := match js.getLast? with
      | some j => j.2.2.1
      | none => x.ref
    let s := s.wrs [(K.AX_INDEX_LATCH k, uns 64 latch), (K.AX_INDEX_STAMP k, s.timeAt t)]
    let s := (s.inc (K.AX_INDEX_COUNT k)).raiseAt t (srcAxis k) 0x00C0 4 k (uns 64 latch) [] false
    let s := match old with
      | none => s
      | some r => s.checkIndex k t latch r cleared
    let m := x.moved - (s.count k - s.countAt k t)
    let z := if s.rd (K.AO_ENABLE k) = 1 ∧ s.rd (K.AO_Z_MODE k) = 0 ∧ s.rd (K.AX_STATUS k) ≠ 2
      then some (m * s.rd (K.AO_NUM k) / s.rd (K.AO_DEN k)) else x.zAt
    let s := s.setAxis k { x with ref := if cleared then none else some (s.countAt k t), zAt := z }
    s.aoFollow k

/-- INDEX (R370). -/
def execIndex (k : Fin 4) (delay : BitVec 8) (s : State) : Host.Outcome State Fault Refusal :=
  live (fun s => s.indexPulse k delay.toNat) s

/-- AX_CORRECTED (R372): the axis is at rest with a correction pending; while a fault holds the count it waits (R367). -/
def State.axCorrected (s : State) (k : Nat) : State :=
  let c := s.rdS 32 (K.AX_CORR_PENDING k)
  if c = 0 ∨ !s.atRest k ∨ s.rd (K.AX_ENABLE k) = 0 ∨ s.rd (K.AX_FAULT k) % 16 ≠ 0 then s
  else
    let s := s.shiftCount k c false
    let s := s.setAxis k { s.axis k with ref := (s.axis k).ref.map (· + c) }
    let s := (s.wr (K.AX_CORR_PENDING k) 0).raise (srcAxis k) 0x00C2 4 k (uns 32 c)
    (s.formPos k).judgeAll k

/-- AX_CORRECTED (R372). -/
def execAxCorrected (k : Fin 4) (s : State) : Host.Outcome State Fault Refusal := live (fun s => s.axCorrected k) s

/-- A write of CMP_ARM (R375, R385, R386). -/
def cmpArmEff (k c v : Nat) (s : State) : Nat × State :=
  let armed := s.rd (K.CMP_ARM k c) = 1
  if v = 1 then
    if armed then (Ans.ok, s)
    else if s.rd (K.CMP_ACTION k c) ≠ 0 ∧ !triggerTarget (s.rd (K.CMP_ACTION k c)) (s.rd (K.CMP_TARGET k c)) then (Ans.outOfRange, s)
    else (Ans.ok, (s.wrs [(K.CMP_ARM k c, 1), (K.CMP_FIRED k c, 0), (K.CMP_SKIPPED k c, 0)]).judge k c)
  else if armed then
    let x := s.axis k
    (Ans.ok, (s.wr (K.CMP_ARM k c) 0).setAxis k { x with ahead := setBit x.ahead c false, behind := x.behind.filter (fun b => b.1 != c) })
  else if 0 < s.rd (K.CMP_FIRED k c) ∧ s.rd (K.CMP_LAST k c) = s.now then (Ans.alreadyComplete, s)
  else (Ans.ok, s)

/-- CMP_ARM (R375). -/
def execCmpArm (m : Msg) (k : Fin 4) (c : Fin 8) (s : State) : Host.Outcome State Fault Refusal :=
  writeCmd m (K.CMP_ARM k c) 1 1 (cmpArmEff k c) s

/-- CMP_DISARM (R386). -/
def execCmpDisarm (m : Msg) (k : Fin 4) (c : Fin 8) (s : State) : Host.Outcome State Fault Refusal :=
  writeCmd m (K.CMP_ARM k c) 1 0 (cmpArmEff k c) s

/-- A write of CMP_POSITION (R375). -/
def cmpPositionEff (k c v : Nat) (s : State) : Nat × State := (Ans.ok, (s.wr (K.CMP_POSITION k c) v).judge k c)

/-- A unit that is ahead has been reached or passed (R374). -/
def State.cmpDue (s : State) (k c : Nat) : Bool :=
  s.rd (K.CMP_ARM k c) == 1 && (s.axis k).ahead.testBit c && !s.cmpShort k c

/-- The firing of a unit, before its action reaches the target (R376). -/
def State.fireCompare (s : State) (k c : Nat) : State :=
  let step := s.rd (K.CMP_STEP k c)
  let n := s.rd (K.CMP_COUNT k c)
  let x := s.axis k
  let s := (s.inc (K.CMP_FIRED k c)).wr (K.CMP_LAST k c) s.now
  let s := s.raise (srcAxis k) 0x00C5 4 c (c + s.rd (K.CMP_ACTION k c) * 2 ^ 8 + uns 32 (s.count k) * 2 ^ 32)
  if step = 0 then (s.wr (K.CMP_ARM k c) 0).setAxis k { x with ahead := setBit x.ahead c false }
  else
    let p := s.rdS 64 (K.CMP_POSITION k c)
    let steps := (s.count k - p).natAbs / step + 1
    let used := s.rd (K.CMP_FIRED k c) - 1 + s.rd (K.CMP_SKIPPED k c)
    let last := n ≠ 0 ∧ n ≤ used + steps
    let steps := if last then n - used else steps
    let d : Int := (steps * step : Nat)
    let s := s.wrS 64 (K.CMP_POSITION k c) (if s.rd (K.CMP_DIR k c) = 0 then p + d else p - d)
    let s := s.bump 32 (K.CMP_SKIPPED k c) (steps - 1)
    if last then (s.wr (K.CMP_ARM k c) 0).setAxis k { x with ahead := setBit x.ahead c false } else s

/-- A write of AO_ENABLE (R377, R378). -/
def aoEnableEff (k v : Nat) (s : State) : Nat × State :=
  if v = s.rd (K.AO_ENABLE k) then (Ans.ok, s)
  else
    let s := s.wrs [(K.AO_ENABLE k, v), (K.AO_LAG k, 0)]
    let s := s.setAxis k { s.axis k with moved := 0, out := 0, edges := 0, outTick := s.tm.tick, overspeed := false, zAt := none }
    (Ans.ok, if v = 1 then s.emit (.pin "AO" k) [0, 0] else s)

/-- AO_ENABLE (R377). -/
def execAoEnable (m : Msg) (k : Fin 4) (v : BitVec 8) (s : State) : Host.Outcome State Fault Refusal :=
  writeCmd m (K.AO_ENABLE k) 1 v.toNat (aoEnableEff k) s

/-- AO_OVERSPEED (R377): raised once until the lag has returned to 0. -/
def State.aoOverspeed (s : State) (k : Nat) : State :=
  let s := s.aoFollow k
  let x := s.axis k
  let lag := s.rd (K.AO_LAG k)
  if s.rd (K.AO_ENABLE k) = 0 ∨ lag ≤ 16 ∨ x.overspeed then s
  else ((s.setAxis k { x with overspeed := true }).inc (K.AO_OVERSPEED_COUNT k)).raise (srcAxis k) 0x00C8 3 k (lag % 2 ^ 32 * 2 ^ 32)

/-- AO_OVERSPEED (R377). -/
def execAoOverspeed (k : Fin 4) (s : State) : Host.Outcome State Fault Refusal := live (fun s => s.aoOverspeed k) s

/-- RCSYNC (R218, R379), delivered `delay` ticks after its stamp. -/
def State.rcsync (s : State) (delay : Nat) : State :=
  let k := s.rd K.BED_BLADE_AXIS
  let t := s.tm.tick - delay
  let latch := s.latchAtTick k t
  let s := s.wrS 64 (K.AX_RCSYNC_LATCH k) latch
  let fault := s.faultAt k t
  let inRecoat := s.phase = Phase.recoat ∧ s.layer.startAt ≤ t
  let cls := if inRecoat ∧ s.layer.rcSeen ∧ !fault then 6 else 4
  let s := s.raiseAt t (srcAxis k) 0x00C7 cls k (uns 64 latch) [] false
  if fault then s.raiseAt t (srcAxis k) 0x00CA 3 k 0 [] false
  else if !inRecoat ∨ s.layer.rcSeen then s
  else
    let p := s.scaled k latch
    let ref := s.rdS 32 K.BED_BLADE_REF
    let c := ref - s.bladeRaw p
    let s := { s with layer := { s.layer with rcSeen := true } }
    if c.natAbs ≤ s.rd K.BED_RCSYNC_WINDOW * 1000 then
      let s := { s with layer := { s.layer with ps := p, aligned := true } }
      let s := (s.wrS 32 K.BED_BLADE_POS ref).wrs [(K.BED_BLADE_STATE, 2), (K.BED_RCSYNC_CORR, uns 32 c)]
      let s := (s.stallFrom ref).bladeMotion k
      if c < 0 then s.raiseAt t (srcAxis k) 0x00CB 3 k (uns 32 c) [] false else s
    else (s.wr K.BED_BLADE_STATE 4).raiseAt t (srcAxis k) 0x00CA 3 k (uns 32 c) [] false

/-- RCSYNC (R218), when its run is as long as the filter asks (R46). -/
def execRcsync (delay : Nat) (s : State) : Host.Outcome State Fault Refusal := live (fun s => if s.filtered K.PIN_FILTER_RCSYNC delay then s.rcsync (min delay closeDelay) else s) s

/-- RECOAT_STALL (R219). -/
def State.recoatStall (s : State) : State :=
  match s.layer.cur with
  | none => s
  | some d =>
    let st := s.rd K.BED_BLADE_STATE
    let l := s.loopState d.recoatLoop
    let b := s.rdS 32 K.BED_BLADE_POS
    let slow := decide (s.layer.stallTick + s.rd K.BED_STALL_TIME * 100000 ≤ s.tm.tick) &&
      decide (b < s.layer.stallPos + s.rd K.BED_STALL_DIST * 1000)
    if s.phase ≠ Phase.recoat ∨ st = 3 ∨ !(l == Lp.hold || l == Lp.tripped || slow) then s
    else
      let s := { s with layer := { s.layer with before := st } }
      (s.wr K.BED_BLADE_STATE 3).raise (srcAxis (s.rd K.BED_BLADE_AXIS)) 0x00CC 3 (s.rd K.BED_BLADE_AXIS) (uns 32 b)

/-- RECOAT_STALL (R219). -/
def execRecoatStall (s : State) : Host.Outcome State Fault Refusal := live (fun s => s.recoatStall) s

/-- A write of RECOAT_COMMAND (R219, R320). -/
def recoatCommandEff (_v : Nat) (s : State) : Nat × State :=
  match s.layer.cur with
  | none => (Ans.refused, s)
  | some d =>
    if s.phase ≠ Phase.recoat ∨ s.loopState d.recoatLoop = Lp.tripped then (Ans.refused, s)
    else
      let s := s.putSetpoint d.recoatLoop d.recoatTarget
      let s := if s.rd K.BED_BLADE_STATE = 3 then s.wr K.BED_BLADE_STATE s.layer.before else s
      (Ans.ok, s.stallFrom (s.rdS 32 K.BED_BLADE_POS))

/-- RECOAT_COMMAND (R219). -/
def execRecoatCommand (m : Msg) (s : State) : Host.Outcome State Fault Refusal := writeCmd m K.RECOAT_COMMAND 1 1 recoatCommandEff s

/-- AXIS_LATCH (R373). -/
def State.axisLatch (s : State) (k : Nat) : State :=
  (s.wrs [(K.AX_TRIG_LATCH k, s.rd (K.AX_COUNT k)), (K.AX_TRIG_STAMP k, s.now)]).raise (srcAxis k) 0x00C9 4 k (s.rd (K.AX_COUNT k))

/-- A write of AX_INDEX_CORRECT (R372): with the enable clear, nothing is pending. -/
def indexCorrectEff (k v : Nat) (s : State) : Nat × State :=
  let s := s.wr (K.AX_INDEX_CORRECT k) v
  (Ans.ok, if v = 0 then s.wr (K.AX_CORR_PENDING k) 0 else s)

/-- What the axes do on a tick: an enabled axis becomes VALID, reports fall due, outputs catch up (R367, R375, R377). -/
def State.axisTick (s : State) : State :=
  (List.range 4).foldl (fun s k =>
    let s := s.axisReady k
    let s := if (s.axis k).behind.isEmpty then s else s.behindDue k
    if s.rd (K.AO_LAG k) = 0 then s else s.aoFollow k) s

end Sys2Proof.Machine
end

