-- ==== Sys2Proof/Machine/Light.lean ====
section
/-! DEFINITION. The illumination matrix and the warning lamps (R387 to R404). -/

namespace Sys2Proof.Machine

/-- The on-window of a row slot (R387). -/
def State.lmWindow (s : State) : Nat := 2 ^ s.rd K.LM_PWM_BITS * s.rd K.LM_PWM_LSB

/-- The row period (R387). -/
def State.lmRowPeriod (s : State) : Nat := 8 * (s.rd K.LM_BLANK + s.lmWindow)

/-- A gain of the installed lamp-sink trims (R457): columns 0 to 23, then lamps 0 to 3; neutral where there is none. -/
def State.lampTrim (s : State) (i : Nat) : Nat :=
  match s.record 0x3000 with
  | some r => payU r.payload (2 * i) 2
  | none => 16384

/-- The current of a column before its trim, in uA (R388). -/
def State.columnCurrent (s : State) (c : Nat) : Nat := 150000 * s.rd K.LM_GLOBAL * octByte (s.rd K.LM_COLUMN) c / 65025

/-- The on-time of a segment in a steady slot (R389, R390). -/
def State.segmentOn (s : State) (seg : Nat) (stretch : Bool) : Nat :=
  let d := octField 2 (s.rd K.LM_DUTY) (2 * seg)
  let w := s.lmWindow
  let t := if d = 0xFFFF then w else d / 2 ^ (16 - s.rd K.LM_PWM_BITS) * s.rd K.LM_PWM_LSB
  if stretch && decide (0 < t) && decide (t < 200) then 200 else t

/-- Status of a matrix segment (R394). -/
def State.segStatus (s : State) (seg : Nat) : Nat := s.rd K.LM_SEG_STATUS / 4 ^ seg % 4

/-- Setting the status of a segment. -/
def State.setSegStatus (s : State) (seg v : Nat) : State :=
  let old := s.rd K.LM_SEG_STATUS
  s.wr K.LM_SEG_STATUS (old - s.segStatus seg * 4 ^ seg + v * 4 ^ seg)

/-- The segments of a row. -/
def rowSegments (r : Nat) : List Nat := (List.range 24).map fun c => 24 * r + c

/-- A light event (R403). -/
def State.lightEvent (s : State) (t src code cls num detail : Nat) : State :=
  s.raiseAt t src code cls num (num + detail * 256) [] false

/-- A segment enters UNDIAGNOSED (R394). -/
def State.undiagnose (s : State) (seg : Nat) : State :=
  let was := s.segStatus seg
  if was = 0 then s
  else
    let s := s.setSegStatus seg 0
    if was = 1 then s.lightEvent s.tm.tick 0xD8 0x00D1 6 seg 0 else s

/-- A slot of a row begins: segments that went 512 slots without a diagnosis become UNDIAGNOSED (R394). -/
def State.countSlot (s : State) (r : Nat) : State :=
  let s := { s with light := { s.light with counts := Tab.upd (fun _ => 0) s.light.counts r (· + 1) } }
  (rowSegments r).foldl (fun s seg =>
    let q := Tab.get (fun _ => 0) s.light.quiet seg
    let s := if 512 ≤ q then s.undiagnose seg else s
    { s with light := { s.light with quiet := Tab.set (fun _ => 0) s.light.quiet seg (min 512 (q + 1)) } }) s

/-- The light of a row slot that begins on tick `t`: on-times by segment, shown on the pins, and the ends of on-periods that
can be diagnosed (R388, R391, R393). -/
def State.lightRow (s : State) (t r : Nat) (on : Nat → Nat) : State :=
  let start := t + s.rd K.LM_BLANK
  let cols := (List.range 24).flatMap fun c =>
    toLE 4 (s.columnCurrent c) ++ toLE 2 (s.lampTrim c) ++ toLE 4 (on (24 * r + c))
  let s := { s.emit (.pin "LM" r) (toLE 8 start ++ cols) with light := { s.light with lit := start } }
  (rowSegments r).foldl (fun s seg =>
    let d := on seg
    { s with light := { s.light with due := Tab.set (fun _ => 0) s.light.due seg (if 200 ≤ d then start + d else 0) } }) s

/-- The sinks turn off: an on-period that this cuts short ends now, and is diagnosed when it has lasted 200 ticks (R391, R393). -/
def State.cutLight (s : State) : State :=
  let end_ (d : Nat) : Nat := if d ≤ s.tm.tick then d else if s.light.lit + 200 ≤ s.tm.tick then s.tm.tick else 0
  let due := (List.range 192).foldl (fun (t : Tab Nat) g => Tab.upd (fun _ => 0) t g end_) s.light.due
  { s.emit (.pin "LM_OFF" 0) [] with light := { s.light with due := due } }

/-- ROW_SLOT (R387 to R391): the next slot of the steady scan or of the flash that runs. -/
def State.rowSlot (s : State) : State :=
  let x := s.light
  if s.rd K.LM_ENABLE = 0 ∨ s.tm.tick < x.nextSlot then s
  else match x.flash with
  | some f =>
    match f.rows with
    | [] => s
    | r :: rest =>
      let s := s.countSlot r
      let s := s.lightRow x.nextSlot r (fun seg => if f.mask.testBit seg then f.on else 0)
      { s with light := { s.light with flash := some { f with rows := rest }, nextSlot := x.nextSlot + s.rd K.LM_BLANK + f.on } }
  | none =>
    let s := s.countSlot x.row
    let n := Tab.get (fun _ => 0) s.light.counts x.row
    let stretch := s.rd K.LM_STRETCH == 1 && decide (n % 256 = 0) && decide (200 ≤ s.lmWindow)
    let s := s.lightRow x.nextSlot x.row (fun seg => s.segmentOn seg stretch)
    { s with light := { s.light with row := (x.row + 1) % 8, nextSlot := x.nextSlot + s.rd K.LM_BLANK + s.lmWindow } }

/-- ROW_SLOT (R387). -/
def execRowSlot (s : State) : Host.Outcome State Fault Refusal := live (fun s => s.rowSlot) s

/-- A flash is over (R391): the scan resumes with row 0. -/
def State.flashOver (s : State) (f next : Nat) : State :=
  let s := { s with light := { s.light with flash := none, row := 0, nextSlot := next } }
  let s := (s.wr K.LM_STATE (if s.rd K.LM_ENABLE = 1 then 1 else 0)).inc (K.FL_FIRED f)
  s.lightEvent s.tm.tick 0xD8 0x00D2 4 f 0

/-- A FLASH firing for a set (R391, R392). -/
def State.fireFlash (s : State) (f : Nat) : State :=
  let busy := s.light.flash.isSome
  if busy ∨ s.rd K.LM_ENABLE = 0 then
    (s.inc (K.FL_SKIPPED f)).lightEvent s.tm.tick 0xD8 0x00D3 6 f (if busy then 1 else 2)
  else
    let mask := s.rd (K.FL_MASK f)
    let rows := (List.range 8).filter fun r => (rowSegments r).any fun seg => mask.testBit seg
    let s := s.wrs [(K.FL_LAST f, s.now), (K.LM_STATE, 2)]
    let fl : Flash := { set := f, mask := mask, on := s.rd (K.FL_ON f), rows := (List.replicate (s.rd (K.FL_REPEAT f)) rows).flatten }
    let s := { s with light := { s.light with flash := some fl, nextSlot := s.tm.tick } }
    let s := s.cutLight
    if rows.isEmpty then s.flashOver f (s.tm.tick + 1) else s

/-- FLASH_DONE (R391): the last slot of the flash has ended. -/
def State.flashDone (s : State) : State :=
  match s.light.flash with
  | none => s
  | some f => if f.rows.isEmpty ∧ s.light.nextSlot ≤ s.tm.tick then s.flashOver f.set s.light.nextSlot else s

/-- FLASH_DONE (R391). -/
def execFlashDone (s : State) : Host.Outcome State Fault Refusal := live (fun s => s.flashDone) s

/-- The matrix starts to scan (R387, R394). -/
def State.startScan (s : State) : State :=
  let s := (List.range 192).foldl (fun s seg => s.undiagnose seg) s
  { (s.wr K.LM_STATE 1) with
    light := { s.light with row := 0, nextSlot := s.tm.tick + 1, counts := [], flash := none, due := [], failed := [], quiet := [] } }

/-- A write of LM_ENABLE (R387, R404). -/
def lmEnableEff (v : Nat) (s : State) : Nat × State :=
  if v = s.rd K.LM_ENABLE then (Ans.ok, s)
  else
    let s := s.wr K.LM_ENABLE v
    if v = 1 then (Ans.ok, s.startScan)
    else
      let s := match s.light.flash with
        | some f => s.flashOver f.set 0
        | none => s
      (Ans.ok, (s.wr K.LM_STATE 0).cutLight)

/-- LM_ENABLE (R387). -/
def execLmEnable (m : Msg) (v : BitVec 8) (s : State) : Host.Outcome State Fault Refusal :=
  writeCmd m K.LM_ENABLE 1 v.toNat lmEnableEff s

/-- A write of LM_PWM_BITS, LM_PWM_LSB or LM_BLANK, with the row period it makes (R387). -/
def lmTimingEff (key v : Nat) (s : State) : Nat × State :=
  let s := s.wr key v
  (Ans.ok, s.wr K.LM_ROW_PERIOD s.lmRowPeriod)

/-- A diagnosis of a segment (R393, R394): 1 passes, 2 OPEN, 3 SHORT. -/
def State.diagnoseSegment (s : State) (seg result : Nat) : State :=
  let x := s.light
  let due := Tab.get (fun _ => 0) x.due seg
  if due = 0 ∨ s.tm.tick < due ∨ result = 0 then s
  else
    let before := Tab.get (fun _ => 0) x.failed seg
    let s := { s with light := { x with
      due := Tab.set (fun _ => 0) x.due seg 0, quiet := Tab.set (fun _ => 0) x.quiet seg 0,
      failed := Tab.set (fun _ => 0) x.failed seg (if result = 1 then 0 else result) } }
    if result = 1 then s.setSegStatus seg 1
    else if before = result ∧ s.segStatus seg ≠ result then
      ((s.setSegStatus seg result).inc K.LM_SEG_FAULTS).lightEvent due 0xD8 0x00D0 3 seg result
    else s

/-- A lamp is in the group of the emission-lamp policy in force (R397, R402). -/
def State.inPolicy (s : State) (w : Nat) : Bool := (s.rd K.WL_POLICY).testBit 0 && (s.rd K.WL_POLICY).testBit (4 + w)

/-- The hold on permits clears when every group lamp is HEALTHY (R397). -/
def State.lampHold (s : State) : State :=
  if s.rd K.WL_PERMIT_HOLD = 1 ∧ (List.range 4).all (fun w => !s.inPolicy w || s.rd (K.WL_STATUS w) == 1) then
    s.wr K.WL_PERMIT_HOLD 0
  else s

/-- A lamp failure (R396, R397). -/
def State.lampFail (s : State) (w : Nat) : State :=
  let s := s.inc (K.WL_FAULTS w)
  if s.inPolicy w then
    let s := (s.wr K.WL_PERMIT_HOLD 1).withdraw 0xFFFF Bp.lamp
    s.lightEvent s.tm.tick (0xDC + w) 0x00D4 1 w (s.rd (K.WL_STATUS w))
  else s.lightEvent s.tm.tick (0xDC + w) 0x00D4 3 w (s.rd (K.WL_STATUS w))

/-- A lamp beside its entries, before anything is known of it. -/
def Lamp.init : Lamp := { since := 0, ack := none }

/-- Lamp `w`. -/
def State.lamp (s : State) (w : Nat) : Lamp := Tab.get (fun _ => Lamp.init) s.light.lamps w

/-- Setting lamp `w`. -/
def State.setLamp (s : State) (w : Nat) (x : Lamp) : State :=
  { s with light := { s.light with lamps := Tab.set (fun _ => Lamp.init) s.light.lamps w x } }

/-- A diagnosis of a lamp (R393, R396). -/
def State.diagnoseLamp (s : State) (w result : Nat) : State :=
  let x := s.lamp w
  let st := s.rd (K.WL_STATUS w)
  if s.rd (K.WL_MODE w) = 0 ∨ result = 0 then s
  else
    let s := (s.setLamp w { x with since := s.tm.tick }).wr (K.WL_DIAG_STAMP w) s.now
    let held := st = 2 ∨ st = 3
    if result = 1 then
      let acked := match x.ack with | some t => decide (t < s.tm.tick) | none => false
      if st = 1 ∨ (held ∧ !acked) then s
      else
        let s := (s.setLamp w { s.lamp w with ack := none }).wr (K.WL_STATUS w) 1
        let s := if st = 0 then s else s.lightEvent s.tm.tick (0xDC + w) 0x00D5 6 w 0
        s.lampHold
    else if held then s
    else ((s.setLamp w { s.lamp w with ack := none }).wr (K.WL_STATUS w) result).lampFail w

/-- DIAGNOSIS (R393). -/
def execDiagnosis (what : Lit) (result : BitVec 2) (s : State) : Host.Outcome State Fault Refusal :=
  live (fun s => match what with
    | .segment g => s.diagnoseSegment g result.toNat
    | .lamp w => s.diagnoseLamp w result.toNat) s

/-- LAMP_OVERDUE (R396). -/
def State.lampOverdue (s : State) (w : Nat) : State :=
  if s.rd (K.WL_MODE w) = 0 ∨ 1 < s.rd (K.WL_STATUS w) ∨ s.tm.tick < (s.lamp w).since + s.rd K.WL_DIAG_MAX * 100000 then s
  else (s.wr (K.WL_STATUS w) 4).lampFail w

/-- LAMP_OVERDUE (R396). -/
def execLampOverdue (w : Fin 4) (s : State) : Host.Outcome State Fault Refusal := live (fun s => s.lampOverdue w) s

/-- A write of WL_ACK (R396). -/
def wlAckEff (w _v : Nat) (s : State) : Nat × State :=
  if s.rd (K.WL_STATUS w) < 2 then (Ans.refused, s) else (Ans.ok, s.setLamp w { s.lamp w with ack := some s.tm.tick })

/-- WL_ACK (R396). -/
def execWlAck (m : Msg) (w : Fin 4) (s : State) : Host.Outcome State Fault Refusal :=
  writeCmd m (K.WL_ACK w) 1 1 (wlAckEff w) s

/-- How a lamp is driven, as its pins show it (R395). -/
def State.driveLamp (s : State) (w : Nat) : State :=
  s.emit (.pin "WL" w) (toLE 1 (s.rd (K.WL_MODE w)) ++ toLE 2 (s.rd (K.WL_CURRENT w)) ++ toLE 2 (s.lampTrim (24 + w)) ++
    toLE 4 (s.rd (K.WL_PWM_PERIOD w)) ++ toLE 4 (s.rd (K.WL_PWM_ON w)) ++ toLE 2 (s.rd (K.WL_BLINK_ON w)) ++
    toLE 2 (s.rd (K.WL_BLINK_OFF w)))

/-- A write of WL_MODE (R395 to R397). -/
def wlModeEff (w v : Nat) (s : State) : Nat × State :=
  let old := s.rd (K.WL_MODE w)
  let s := (s.wr (K.WL_MODE w) v).driveLamp w
  if v = 0 then
    let s := (s.wr (K.WL_STATUS w) 0).setLamp w Lamp.init
    (Ans.ok, if s.inPolicy w then s.lampFail w else s)
  else (Ans.ok, if old = 0 then s.setLamp w { since := s.tm.tick, ack := none } else s)

/-- WL_MODE (R397). -/
def execWlMode (m : Msg) (w : Fin 4) (v : BitVec 8) (s : State) : Host.Outcome State Fault Refusal :=
  writeCmd m (K.WL_MODE w) 1 v.toNat (wlModeEff w) s

/-- A write of another entry of a lamp: the on-time never exceeds the period (R395). -/
def lampEntryEff (w k v : Nat) (s : State) : Nat × State :=
  let key := K.WL_MODE w - 1 + k
  let bad := (k = 3 ∧ v < s.rd (K.WL_PWM_ON w)) ∨ (k = 4 ∧ s.rd (K.WL_PWM_PERIOD w) < v)
  if bad then (Ans.refused, s) else (Ans.ok, (s.wr key v).driveLamp w)

/-- The emission-lamp policy changes by concurrence (R397, R442). -/
def State.policyChanged (s : State) (old : Nat) : State :=
  let new := s.rd K.WL_POLICY
  if !new.testBit 0 then s.wr K.WL_PERMIT_HOLD 0
  else if !old.testBit 0 ∨ (List.range 4).any (fun w => new.testBit (4 + w) && !old.testBit (4 + w) && s.rd (K.WL_STATUS w) != 1) then
    (s.wr K.WL_PERMIT_HOLD 1).withdraw 0xFFFF Bp.lamp
  else s

end Sys2Proof.Machine
end

