-- ==== Sys2Proof/Machine/Share.lean ====
section
/-! DEFINITION. Starting chords (R210 to R219): looking ahead in a program, candidates and their five tests, reorder
groups, grants, and the SHARE_DECISION and DWELL_FORCED commands. -/

namespace Sys2Proof.Machine

/-- Where planning goes on for a channel: after its last planned chord, else where the beam rests and the sequencer
stands. -/
def State.planFrom (s : State) (n : Nat) : Cursor × Nat × PlanAt :=
  let c := s.chan n
  match c.run.getLast? with
  | some p => (p.after.getD (s.cursor n), p.boundary,
      { rx := p.rx, ry := p.ry, nx := p.ex, ny := p.ey, a := p.boundary, prev := none })
  | none => (s.cursor n, c.notBefore, { rx := c.px, ry := c.py, nx := c.nx, ny := c.ny, a := c.notBefore, prev := none })

/-- A chord begins a run with vectors. -/
def Chord.isVector (c : Chord) : Bool :=
  match c.shape with
  | .mark _ _ => true
  | .arc _ _ _ => true
  | _ => false

/-- A chord is a JUMP. -/
def Chord.isJump (c : Chord) : Bool :=
  match c.shape with
  | .jump _ _ => true
  | _ => false

/-- A CLAIM stands at one of some addresses. -/
def State.claimIn (s : State) (n : Nat) (l : List Nat) : Bool :=
  l.any fun a => match (s.fetch n a).bind decodeCmd with | some (.claim _ _ _) => true | _ => false

/-- Entries that the FLOATs at some addresses take. -/
def State.roomOf (s : State) (n : Nat) (l : List Nat) : Nat :=
  l.foldl (fun t a => match (s.fetch n a).bind decodeCmd with | some (.float count _) => t + count | _ => t) 0

/-- The vectors that continue a run from a cursor on (R168, R209): the MARKs and ARCs up to the next JUMP, wait, CLAIM or FACET, through
the other commands between them. -/
def State.moreVectors (s : State) (n : Nat) : Nat → Nat → Params → Int × Int → Cursor → List (Chord × Option Cursor)
  | 0, _, _, _, _ => []
  | f + 1, room, par, p, cur =>
    let pk := s.peek n false 4096 0 room [] par cur
    match pk.next with
    | .chord c _ after =>
      let round := match c.shape with | .arc cx cy _ => arcRadiusOk p.1 p.2 cx cy | _ => true
      if c.isVector && round && !s.claimIn n pk.seen then
        ({ c with before := pk.k }, some after) ::
          s.moreVectors n f (room + s.roomOf n pk.seen) c.par (s.chordEnd n c p.1 p.2) after
      else []
    | .claim _ _ _ | .stop | .hole _ => []

/-- A reorder group from a cursor on (R169): up to 64 items within one body level, and the cursor after them; a malformed ARC ends it
(R148, R170). `bodyEnd` is where the body it stands in ends, `p` the point reached. -/
def State.gatherGroup (s : State) (n : Nat) (par : Params) (bodyEnd : Nat) : Nat → List (List Chord) → Int × Int → Cursor →
    List (List Chord) × Cursor
  | 0, items, _, cur => (items, cur)
  | f + 1, items, p, cur =>
    let stop := (items, cur)
    if cur.pc = bodyEnd then stop
    else match s.fetch n cur.pc with
    | none => stop
    | some w =>
      if !(wordErrors w).isEmpty then stop
      else match decodeCmd w with
      | some cmd =>
        let on := { cur with pc := cur.pc + 16 }
        match cmd.chord cur par with
        | none => stop
        | some c =>
          let bad : Bool := match c.shape with | .arc cx cy _ => !arcRadiusOk p.1 p.2 cx cy | _ => false
          let q := s.chordEnd n c p.1 p.2
          if !c.coordsOk || bad then stop
          else if c.isJump ∧ c.reorder ∧ items.length < 64 then s.gatherGroup n par bodyEnd f (items ++ [[c]]) q on
          else if c.isVector ∧ !items.isEmpty then
            match items.getLast? with
            | some l => if 16 ≤ l.length then stop else s.gatherGroup n par bodyEnd f (items.dropLast ++ [l ++ [c]]) q on
            | none => stop
          else stop
      | none => stop

/-- The first pixel of the first swept line of a FACET (R235, R265), its origin where nothing is swept. -/
def State.firstPixel (s : State) (n slot : Nat) (x y : Int) (angle : Nat) : Int × Int :=
  match s.passCommit n slot (s.tm.tick + 1) with
  | none => (x, y)
  | some k =>
    let g := s.facetGeo n slot
    match s.sweptLines n slot g k 0 with
    | [] => (x, y)
    | l :: _ => facetPoint x y angle (if l % 2 = 0 then 0 else 2 * ((g.w - 1) * g.px : Nat)) (2 * (l * g.lp : Nat))

/-- The start point of a sequence of chords' run, which the dwell test looks at (R168, R213, R265). -/
def State.runStart (s : State) (n : Nat) (p : Int × Int) (l : List Chord) : Option (Int × Int) :=
  match l with
  | [] => none
  | c :: t =>
    if c.isJump then (if t.isEmpty then none else some (s.chordEnd n c p.1 p.2))
    else match c.shape with
      | .facet slot _ x y angle => some (s.firstPixel n slot x y angle)
      | _ => some p

/-- The regions of a sequence of chords (R209): those of the first 64, and the tail's. -/
def State.heldOf (s : State) (n : Nat) (paths : List PathShape) : List Held :=
  let a := (paths.take 64).map (s.regionsOf n)
  let rest := (paths.drop 64).flatMap PathShape.corners
  if rest.isEmpty then a else let b := bboxOf rest; a ++ [s.regionsOf n (.box b.1 b.2.1 b.2.2.1 b.2.2.2)]

/-- Direction of the blade's travel in this layer (R216). -/
def State.bladeDir (s : State) : Int × Int :=
  let d := cosSin16 (s.rd K.BED_BLADE_DIR)
  if s.rd K.BED_BLADE_ALT = 1 ∧ s.rd K.LAYER_NUMBER % 2 = 0 then (-d.1, -d.2) else d

/-- A path is behind the blade line (R217, R219). -/
def State.bladeOk (s : State) (p : PathShape) : Bool :=
  let st := s.rd K.BED_BLADE_STATE
  let exp := match s.layer.cur with | some d => d.expose | none => false
  let m : Int := s.rdS 32 K.BED_BLADE_POS - s.rd K.BED_RECOAT_MARGIN * 1000
  let d := s.bladeDir
  exp && (st == 2 || (st == 3 && s.layer.before == 2)) &&
    p.corners.all fun c => decide (c.1 * d.1 + c.2 * d.2 ≤ m * sinUnit)

/-- Regions of one list meet those of another: locks with locks, envelopes with envelopes. -/
def locksMeet (a b : List Held) : Bool := a.any fun x => b.any fun y => meets x.lock y.lock
def envsMeet (a b : List Held) : Bool := a.any fun x => b.any fun y => meets x.env y.env

/-- A lock region or envelope of one list meets one of another. -/
def anyMeet (a b : List Held) : Bool :=
  a.any fun x => b.any fun y => meets x.lock y.lock || meets x.env y.env || meets x.lock y.env || meets x.env y.lock

/-- The other channels, ascending. -/
def others (n : Nat) : List Nat := (List.range 16).filter (· != n)

/-- Waiters older than an age and channel, oldest first (R211). -/
def State.olderWaiters (s : State) (n age : Nat) : List Nat :=
  let w := (others n).filterMap fun m => match (s.chan m).cand with
    | some d => match d.age with
      | some a => if a < age ∨ (a = age ∧ m < n) then some (a, m) else none
      | none => none
    | none => none
  (sortBy (fun a b => decide (a.1 < b.1) || (decide (a.1 = b.1) && decide (a.2 ≤ b.2))) w).map (·.2)

/-- Tests 1 to 4 of R210: the code of the first that fails, with the channel that blocks. -/
def State.ownTests (s : State) (n age : Nat) (paths : List PathShape) (held : List Held) : Option (Nat × Nat) :=
  if s.phase = Phase.recoat ∧ !(paths.all s.bladeOk && (match s.layer.cur with | some d => d.expose | none => false)) then some (1, 0xFF)
  else match (others n).find? (fun m => locksMeet held (s.chan m).held) with
  | some m => some (2, m)
  | none => match (others n).find? (fun m => envsMeet held (s.chan m).held) with
    | some m => some (3, m)
    | none =>
      let res := fun (m : Nat) => match (s.chan m).cand with
        | some d => if d.failing = 1 then [] else d.held
        | none => []
      match (s.olderWaiters n age).find? (fun m => anyMeet held (res m)) with
      | some m => some (4, m)
      | none => none

/-- The verdict received for channel `n` on the decision in hand, which replaces the part's own (R411). -/
def State.verdict (s : State) (n : Nat) : Option Verdict := s.tw.verdicts.find? (fun v => v.channel == n)

/-- Tests 1 to 4 as they stand on this part: its own, or what the active part has decided (R411). -/
def State.shareTests (s : State) (n age : Nat) (paths : List PathShape) (held : List Held) : Option (Nat × Nat) :=
  match s.verdict n with
  | none => s.ownTests n age paths held
  | some v => if v.outcome = 1 then some (v.test, v.blocker) else none

/-- The dwell test of a run start (R168, R265), with the heat it used shown. -/
def State.dwellAt (s : State) (n limit : Nat) (p : Option (Int × Int)) (a : Nat) : Bool × State :=
  match p with
  | none => (true, s)
  | some (x, y) =>
    let r := s.dwellTest limit x y a
    (r.1, s.dwellRead n x y r.2)

/-- Parameters of a channel where planning goes on: those in force with the SETs ahead. -/
def Chord.withPar (c : Chord) (p : Params) : Chord := { c with par := p }

/-- Granting planned chords (R209, R210): they join the run with their regions, their light is placed. -/
def State.addRun (s : State) (n addr : Nat) (ps : List Planned) (item : Option (Nat × Item)) : State :=
  let ps := (tailMarks 0 ps).map fun (p : Planned) => { p with item := item }
  let c := s.chan n
  let last := (ps.getLast?.map (·.first)).getD 0
  let more := (s.tailOf n (ps.filter (·.inTail))).toList.map fun h => (last, h)
  let s := s.setChan n { c with run := c.run ++ ps, tails := c.tails ++ more }
  ((s.placeGates n addr (gateSpans none ps)).syncHeld n).wr (K.CS_ACTIVITY n) 1

/-- The number of the next pass of a channel (R246, R251). -/
def State.nextPassNo (s : State) (n : Nat) : Nat :=
  max (s.rd (K.FX_PASS n)) ((((s.chan n).pass).map (·.passNo)).getD 0) + 1

/-- Starting the first pass of a FACET at tick `a` (R240), or what is left of one after a pin wait (R242) or a repair entry
(R246): `pre` is the pass to take up again. -/
def State.startFacet (s : State) (n : Nat) (ch : Chord) (after : Option Cursor) (item : Option (Nat × Item)) (a : Nat)
    (p0 : PlanAt) (pre : Option Pass) : State :=
  match ch.shape with
  | .facet slot passes x y angle =>
    let com := match pre with
      | some q => s.commit n slot q.commit
      | none => s.passCommit n slot s.tm.tick
    match com with
    | none => s
    | some k =>
      let left := match pre with | some q => q.left | none => passes - 1
      let no := match pre with
        | some q => if q.repair.isSome ∧ q.passNo = 0 then s.nextPassNo n else q.passNo
        | none => s.nextPassNo n
      let fromAt := pre.bind (·.fromAt)
      let rep := pre.bind (·.repair)
      let pl := s.planPass n slot k x y angle ch.noFF ch.noLoop left no fromAt rep a (p0.rx, p0.ry) ch.par.jumpSpeed
      let path := (s.pathOf n ch x y).getD (.box x y x y)
      let ending := match (pl.segs.reverse.find? fun q => match q with | .line _ _ _ _ _ _ => true | _ => false) with
        | some q => q.ending
        | none => (pl.restX, pl.restY)
      let q : Planned := { chord := ch, first := a, t0 := pl.pass.firstLead, tEnd := pl.pass.boundary,
                           boundary := if left = 0 then pl.endTick else never, sx := p0.nx, sy := p0.ny, ex := ending.1,
                           ey := ending.2, rx := pl.restX, ry := pl.restY, segs := pl.segs, held := s.regionsOf n path,
                           inTail := false, after := after, checked := pre.any (fun q => q.repair.isNone), item := item }
      let s := s.countBeats (16 + n) (s.passBeats n slot k ((fromAt.map (·.1)).getD 0))
      -- a pass before it whose boundary is the chord boundary itself (no lead-out) has been swept by now
      let s := match (s.chan n).pass with
        | some o => if pre.isNone ∧ s.tm.tick < o.boundary ∧ (o.slot, o.commit) ≠ (slot, k.num) then
            (s.dropPins n o.slot o.commit).retire n o.slot
          else s
        | none => s
      let s := s.setChan n { s.chan n with run := (s.chan n).run ++ [q], pass := some pl.pass,
                                           oldPass := if pre.isSome then (s.chan n).oldPass else (s.chan n).pass }
      let s := s.wr (K.CS_ACTIVITY n) 1
      let s := if rep.isSome then s else (s.useCommit n slot k.num no).dropHeld n slot k.num
      (s.syncHeld n).syncSlots n
  | _ => s

/-- Granting a sequence of chords that begins at `a` from where planning stands. -/
def State.grantRun (s : State) (n a : Nat) (p0 : PlanAt) (chs : List (Chord × Option Cursor)) (item : Option (Nat × Item))
    (next : Option Chord) : State :=
  match chs with
  | [] => s
  | (c, after) :: _ =>
    match c.shape with
    | .facet _ _ _ _ _ => s.startFacet n c after item a p0 none
    | _ =>
      let p0 := { p0 with a := a, prev := none }
      s.addRun n c.addr (planChords s n (s.limits n) (s.facetLead n) next chs p0) item

/-- Noting an outcome for the DECISION message (R410). -/
def State.note (s : State) (v : Verdict) : State := { s with tw := { s.tw with made := s.tw.made ++ [v] } }

/-- A candidate that fails waits (R210, R211, R228). -/
def State.waitFor (s : State) (n a test blk : Nat) (d : Cand) (claim : Bool) : State :=
  let first := d.age.isNone
  let d := { d with age := some (d.age.getD s.tm.tick), failing := test, earliest := a + 400 }
  let s := s.setChan n { s.chan n with cand := some d }
  let s := if first then s.inc (K.BC_SHARE_WAITS n) else s
  let s := s.inc (K.BC_SHARE_WAIT_SAMPLES n)
  let act := if test = 5 then 7 else if claim then 3 else 1
  let s := s.note { channel := n, outcome := if test = 5 then 2 else 1, test := test, blocker := blk, lune := 0, item := 0 }
  (s.wrs [(K.BC_SHARE_WAIT n, test), (K.BC_SHARE_BLOCKER n, blk), (K.BC_SHARE_AGE n, s.timeAt (d.age.getD 0)),
          (K.CS_ACTIVITY n, act)]).syncSlots n

/-- A chord that starts although its cell is above the limit (R168). -/
def State.countForced (s : State) (n addr : Nat) : State := (s.inc (K.CS_DWELL_FORCED n)).raise (srcSeq n) 0x0005 6 n addr

/-- An empty candidate. -/
def Cand.blank (a : Nat) : Cand :=
  { chords := [], earliest := a, age := none, failing := 0, dwellSince := none, item := none, reorder := none, repair := none,
    pinWait := false, claim := false, forced := false, held := [] }

/-- The dwell part of a decision (R168): whether the candidate may go, whether it goes by force, and the candidate with
the start of its hold. -/
def State.dwellDecide (s : State) (n : Nat) (d : Cand) (own : Bool) (timeout : Nat) : Bool × Bool × Cand × State :=
  let pass : Bool := match s.verdict n with
    | none => own
    | some v => (v.outcome == 0 && (own || !d.forced && decide (s.tm.tick < d.dwellSince.getD s.tm.tick + timeout)))
  if pass then (true, false, d, s)
  else
    let started := d.dwellSince.isNone
    let since := d.dwellSince.getD s.tm.tick
    let d := { d with dwellSince := some since }
    let s := if started then s.inc (K.CS_DWELL_HOLDS n) else s
    if d.forced ∨ since + timeout ≤ s.tm.tick then (true, !d.forced, d, s) else (false, false, d, s)

/-- A granted candidate no longer waits. -/
def State.granted (s : State) (n : Nat) (forced : Bool) (addr lune item : Nat) : State :=
  let s := (s.noWait n).note { channel := n, outcome := 0, test := 0, blocker := 0xFF, lune := lune, item := item }
  if forced then s.countForced n addr else s

/-- The next chord of a program continues a run (R168): it follows a marked chord of the program, with nothing between that ends one. A
FACET begins at its own first pixel and so begins a run of its own (notes/assumptions/59). -/
def State.goesOn (s : State) (n : Nat) (c : Chord) : Bool :=
  c.isVector && (match (s.chan n).run.getLast? with
    | some p => p.isMarked && p.item.isNone
    | none => (s.chan n).inRun)

/-- Deciding a run of the fixed program, or the remainder of a FACET (R210); only a chord that begins a run is dwell-tested (R168). -/
def State.decideRun (s : State) (n a : Nat) (d : Cand) (chs : List (Chord × Option Cursor)) (go : State → State) : State :=
  let from' := (s.planFrom n).2.2
  let chords := chs.map (·.1)
  let paths := (s.chordPaths n (from'.nx, from'.ny) chords).1
  let held := s.heldOf n paths
  let d := { d with chords := chs, held := held }
  match chords with
  | [] => s
  | c :: _ =>
    let t := if s.goesOn n c then (true, s) else s.dwellAt n c.par.dwellLimit (s.runStart n (from'.nx, from'.ny) chords) a
    match t.2.shareTests n (d.age.getD s.tm.tick) paths held with
    | some (code, blk) => t.2.waitFor n a code blk d false
    | none =>
      let r := t.2.dwellDecide n d t.1 c.par.dwellTimeout
      if r.1 then go (r.2.2.2.granted n r.2.1 c.addr 0 0) else r.2.2.2.waitFor n a 5 0xFF r.2.2.1 false

/-- The first item of a reorder group that passes the dwell test, the items taken in their order; each test leaves its reading
(R265). -/
def State.groupPick (s : State) (n a limit : Nat) (starts : List (Option (Int × Int))) : Option Nat × State :=
  (List.range starts.length).foldl (fun (t : Option Nat × State) i =>
    if t.1.isSome then t
    else let r := t.2.dwellAt n limit (starts.getD i none) a; (if r.1 then some i else none, r.2)) (none, s)

/-- Deciding a reorder group (R169, R213): the earliest item whose start cell passes is chosen, then the clearance tests. A debug step
takes one chord of it (R516). -/
def State.decideGroup (s : State) (n a : Nat) (d : Cand) : State :=
  let c := s.chan n
  let from' := (s.planFrom n).2.2
  let starts := c.group.map fun l => s.runStart n (from'.nx, from'.ny) l
  match c.group with
  | [] => s
  | g0 :: _ =>
    let par := (g0.head?.map (·.par)).getD (s.params n)
    let tests := s.groupPick n a par.dwellLimit starts
    let pick := tests.1
    let s := tests.2
    let i := match s.verdict n with | some v => v.item | none => pick.getD 0
    let whole := c.group.getD i []
    let it := if c.stepping then whole.take 1 else whole
    let chs := it.map fun ch => (ch, (none : Option Cursor))
    let paths := (s.chordPaths n (from'.nx, from'.ny) it).1
    let held := s.heldOf n paths
    let d := { d with held := held, reorder := some i }
    match s.shareTests n (d.age.getD s.tm.tick) paths held with
    | some (code, blk) => s.waitFor n a code blk d false
    | none =>
      let r := s.dwellDecide n d pick.isSome par.dwellTimeout
      if !r.1 then r.2.2.2.waitFor n a 5 0xFF r.2.2.1 false
      else
        let s := r.2.2.2.granted n r.2.1 (it.head?.map (·.addr) |>.getD 0) 0 i
        let after := whole.drop it.length
        let left := (if after.isEmpty then [] else [after]) ++ c.group.eraseIdx i
        let last := left.isEmpty
        let chs := if last then (chs.dropLast ++ (chs.getLast?.map (fun x => (x.1, c.groupEnd))).toList) else chs
        let s := s.bump 32 (K.CS_REORDERED n) (i - c.groupPassed)
        let passed := if i < c.groupPassed then c.groupPassed - 1 else i
        let s := s.setChan n { s.chan n with group := left, groupPassed := passed }
        s.grantRun n a from' chs none none

/-- Deciding a floating item for a claiming or serving channel (R212, R213): none remains, or one is taken, or the first
is waited for. A FACET whose slot holds no committed pass is taken too, and the claimant holds when it comes to it (R150). -/
def State.decideClaim (s : State) (n a : Nat) (any : Bool) (lune : Nat) (par : Params) (d : Cand) : State :=
  let lunes := s.servedLunes n any lune
  let s := s.skipItems n lunes
  let from' := (s.planFrom n).2.2
  let age := d.age.getD s.tm.tick
  let place := fun (o : Nat × Item) => (s.lune o.1).items.findIdx (fun i => i.order == o.2.order)
  let mirroredTo := fun (o : Nat × Item) => match s.verdict n with
    | some v => v.outcome != 0 || (v.lune == o.1 && v.item == place o)
    | none => true
  let offers := ((s.offers n lunes).filter mirroredTo).map fun o => (o.1, { o.2 with chords := o.2.chords.map (·.withPar par) })
  let start := fun (o : Nat × Item) => s.runStart n (o.2.sx, o.2.sy) o.2.chords
  let heat := fun (o : Nat × Item) => (s.dwellTest par.dwellLimit (((start o).getD (0, 0)).1) (((start o).getD (0, 0)).2) a).1 || (start o).isNone
  let forced := d.forced || d.dwellSince.any (fun t => decide (t + par.dwellTimeout ≤ s.tm.tick))
  let clear := fun (o : Nat × Item) =>
    s.shareTests n age (s.itemPaths n o.2) (s.heldOf n (s.itemPaths n o.2))
  match offers with
  | [] => (s.noWait n).claimEmpty n
  | o0 :: _ =>
    match offers.find? (fun o => (clear o).isNone && (heat o || forced)) with
    | some o =>
      let byForce := !heat o
      let s := if d.dwellSince.isNone ∧ byForce then s.inc (K.CS_DWELL_HOLDS n) else s
      let s := (s.dwellAt n par.dwellLimit (start o) a).2
      let s := s.granted n (byForce && !d.forced) o.2.addr o.1 (place o)
      let s := (s.takeItem o.1 o.2).inc (K.LUNE_GRANTS o.1)
      let bad := o.2.chords.any fun c => match c.shape with | .facet slot _ _ _ _ => !s.slotOk n slot | _ => false
      if bad then s.setChan n { s.chan n with refused := some (a, o.1, o.2) }
      else
        let p0 := if (o.2.chords.head?.any Chord.isJump) then from' else { from' with nx := o.2.sx, ny := o.2.sy }
        s.grantRun n a p0 (o.2.chords.map fun c => (c, none)) (some o) none
    | none =>
      let paths := s.itemPaths n o0.2
      let test := (clear o0).getD (5, 0xFF)
      let hold := test.1 = 5 ∧ d.dwellSince.isNone
      let s := if hold then s.inc (K.CS_DWELL_HOLDS n) else s
      let d := { d with item := some o0, claim := true, held := s.heldOf n paths,
                        dwellSince := if test.1 = 5 then some (d.dwellSince.getD s.tm.tick) else d.dwellSince }
      s.waitFor n a test.1 test.2 d true

/-- The armed breakpoints of channel `n` of a kind whose VALUE meets a test (R517). -/
def State.breaksAt (s : State) (n kind : Nat) (v : Nat → Bool) : List Nat :=
  if s.rd K.DBG_STATE ≠ 1 then []
  else (List.range 8).filter fun b => s.rd (K.BRK_KIND n b) == kind && v (s.rd (K.BRK_VALUE n b))

/-- A breakpoint hit (R517): it acts as a HALT stamped on the present tick, which RUN and ARMED accept (R515). -/
def State.breakHit (s : State) (n b : Nat) : State :=
  let s := (s.inc (K.BRK_HITS n b)).wrs [(K.BRK_LAST n b, s.now), (K.DBG_LAST_BREAK n, b)]
  let s := s.raise (srcSeq n) 0x0020 4 n (b + s.rd (K.BRK_KIND n b) * 256 + s.rd (K.BRK_VALUE n b) % 2 ^ 32 * 2 ^ 32)
  if s.rd (K.BC_STATE n) ≠ Bc.run ∧ s.rd (K.BC_STATE n) ≠ Bc.armed then s
  else ((s.wr (K.DBG_SEQ_STATE n) 1).setChan n { s.chan n with haltAt := some ((s.chan n).haltAt.getD s.tm.tick) }).endRunFrom n s.tm.tick

/-- Every breakpoint that a tick hits, in ascending order. -/
def State.breakHits (s : State) (n : Nat) (l : List Nat) : State := l.foldl (fun s b => s.breakHit n b) s

/-- ADDRESS breakpoints (R517): the sequencer decodes the commands that take effect on a boundary 320 ticks before it; of those at some
addresses, the first that an armed breakpoint names is hit, once until it is left. -/
def State.breakOn (s : State) (n : Nat) (seen : List Nat) : State :=
  match seen.find? fun a => (s.chan n).brokeAt != some a && !(s.breaksAt n 1 (· == a)).isEmpty with
  | none => s
  | some a => (s.setChan n { s.chan n with brokeAt := some a }).breakHits n (s.breaksAt n 1 (· == a))

/-- The breakpoints among the commands that a channel's program comes to on the sample of an instant. -/
def State.breakTick (s : State) (n a : Nat) : State :=
  let c := s.chan n
  if s.rd K.DBG_STATE ≠ 1 ∨ s.rd (K.BC_STATE n) ≠ Bc.run ∨ !c.member ∨ c.reached ∨ c.haltAt.isSome ∨ c.offAt.isSome ∨ c.cand.isSome then s
  else
    let from' : Option Cursor := match c.run.find? (fun p => p.boundary == a) with
      | some p => p.after
      | none => if c.run.isEmpty ∧ c.wait = .none ∧ !c.groupOn then some (s.cursor n) else none
    match from' with
    | some cur => s.breakOn n (s.peek n false 4096 0 0 [] (s.params n) cur).seen
    | none => s

/-- The claim in which a channel takes items at present, with what is left of its limit: none where it takes none. -/
def Chan.serving (c : Chan) : Option (Bool × Nat) :=
  if c.released.isSome then none
  else match c.wait with
  | .claiming any lune limit done =>
    if limit ≠ 0 ∧ limit ≤ done + c.inHand then none else some (any, lune)
  | .posting => some (true, 0)
  | .closing => some (true, 0)
  | .time _ _ _ sv => if sv then some (true, 0) else none
  | .event _ _ _ _ sv => if sv then some (true, 0) else none
  | .barrier _ _ sv => if sv then some (true, 0) else none
  | .none => none
  | .closed => none
  | .mismatch => none

/-- The program itself may go on: it waits for nothing, or its CLAIM ends with the items in hand (R145, R154). -/
def Chan.free (c : Chan) : Bool :=
  match c.wait with
  | .none => true
  | .claiming _ _ limit done => c.released.isNone && limit != 0 && decide (limit ≤ done + c.inHand)
  | _ => false

/-- A JUMP of a fixed program is planned without a test (R210), towards the start of the run that follows it (R180). -/
def State.planJump (s : State) (n a : Nat) (p0 : PlanAt) (c : Chord) (after : Cursor) (k : Nat) : State :=
  let next := match (s.peek n true 4096 0 0 [] c.par after).next with
    | .chord d _ _ => some d
    | _ => none
  let ps := planChords s n (s.limits n) (s.facetLead n) next [(c, some after)] { p0 with a := a + 400 * decodeDelay k, prev := none }
  (s.addRun n c.addr ps none).noWait n

/-- Repair entries that a channel has still to execute (R246). -/
def Chan.nextRepair (c : Chan) : Option (Nat × Repair) := (c.repairs[c.repairNext]?).map fun r => (c.repairNext, r)

/-- A repair entry as a FACET of one pass. -/
def Repair.chord (r : Repair) (par : Params) : Chord :=
  { shape := .facet r.slot 1 r.x r.y r.angle, speed := 0, power := 0, noFF := r.noFF, noLoop := r.noLoop, reorder := false,
    addr := 0, par := par }

/-- The pass that a repair entry takes up. -/
def Repair.pass (r : Repair) (i : Nat) : Pass :=
  { slot := r.slot, commit := r.commit, passNo := 0, left := 0, x := r.x, y := r.y, angle := r.angle, noFF := r.noFF,
    noLoop := r.noLoop, lines := [], fromAt := some (r.line, r.pixel), firstLead := 0, boundary := 0, pinned := true,
    under := none, repair := some i, rows := r.line / 64 }

/-- Where the program of a channel goes on after what is planned: behind the CLAIM whose last items are in hand. -/
def State.nextCursor (s : State) (n : Nat) : Cursor :=
  let c := s.chan n
  match c.run.getLast? with
  | some p => p.after.getD (match c.wait with
    | .claiming _ _ _ _ => (s.cursor n).skip 1
    | _ => s.cursor n)
  | none => s.cursor n

/-- The parameters in force where planning goes on for the program of a channel. -/
def State.nextPar (s : State) (n : Nat) : Params :=
  match (s.chan n).run.getLast? with
  | some p => if p.item.isSome then s.params n else p.chord.par
  | none => s.params n

/-- The decision of a channel that waits for nothing: its program's next chord, reorder item or CLAIM (R145, R210). -/
def State.decideOwn (s : State) (n a : Nat) (d : Cand) : State :=
  let c := s.chan n
  let f := s.planFrom n
  if !c.group.isEmpty then s.decideGroup n a d
  else
    let pk := s.peek n false 4096 0 0 [] (s.nextPar n) (s.nextCursor n)
    if (s.chan n).haltAt.isSome then s
    else
      let k := pk.k + (if c.run.isEmpty then c.decodes else 0)
      let ready := decide (f.2.1 + 400 * decodeDelay k ≤ a)
      match pk.next with
      | .stop => s
      | .hole _ => s
      | .claim any lune _ =>
        if c.stepping ∨ a < f.2.1 + 400 * decodeDelay (k + 1) then s else s.decideClaim n a any lune pk.par d
      | .chord ch cur after =>
        if ch.isJump then
          if s.phase = Phase.recoat ∧ !(match s.layer.cur with | some d => d.expose | none => false) then s
          else if ch.reorder then
            let g := s.gatherGroup n ch.par ((cur.inBody.map (·.2)).getD 0) 1025 [] (0, 0) cur
            if !ready ∨ g.1.isEmpty then s
            else
              let s := s.countBeats n ((g.2.pc - cur.pc) / 64)
              (s.setChan n { s.chan n with group := g.1, groupEnd := some (Cursor.norm 10 g.2), groupOn := true, groupPassed := 0 }).decideGroup n a d
          else s.planJump n (max f.2.1 (a - 400 * decodeDelay k)) f.2.2 ch after k
        else if !ready then s
        else if ch.isVector then
          let bad := match ch.shape with | .arc cx cy _ => !arcRadiusOk f.2.2.nx f.2.2.ny cx cy | _ => false
          if bad then s
          else
            let chs := (ch, some after) :: (if c.stepping then [] else
              s.moreVectors n 65536 (s.roomOf n pk.seen) ch.par (s.chordEnd n ch f.2.2.nx f.2.2.ny) after)
            s.decideRun n a d chs (fun s => s.grantRun n a f.2.2 chs none none)
        else s.decideRun n a d [(ch, some after)] (fun s => s.grantRun n a f.2.2 [(ch, some after)] none none)

/-- The decision of a channel in REPAIR that has closed its layer: its next repair entry (R246). -/
def State.decideRepair (s : State) (n a : Nat) (d : Cand) : State :=
  let c := s.chan n
  if s.phase ≠ Phase.repair then s
  else match c.nextRepair, c.run with
  | some (i, r), [] =>
    let ch := r.chord (s.params n)
    s.decideRun n a d [(ch, none)] fun s => (s.startFacet n ch none none a (s.planFrom n).2.2 (some (r.pass i))).wr (K.RP_STATE n) 2
  | _, _ => s

/-- The decision of a channel in pin wait (R242): its remaining passes, once their pages are pinned. -/
def State.decidePinned (s : State) (n a : Nat) (d : Cand) : State :=
  match (s.chan n).pass with
  | none => s
  | some p =>
    if (match s.verdict n with | some v => v.outcome != 3 | none => p.pinned) then s.decideRun n a d d.chords (fun s => match d.chords with
      | (ch, after) :: _ => s.startFacet n ch after d.item a (s.planFrom n).2.2 (some p)
      | [] => s)
    else s.note { channel := n, outcome := 3, test := 0, blocker := 0xFF, lune := 0, item := 0 }

/-- The decision of one channel for application instant `a`. Where a CLAIM is found to end with the items in hand, the program's next
chord is decided at once (R145). -/
def State.decide1 (s : State) (n a : Nat) : State :=
  let c := s.chan n
  let f := s.planFrom n
  let d := c.cand.getD (Cand.blank a)
  if s.rd (K.BC_STATE n) ≠ Bc.run ∨ c.offAt.isSome ∨ c.haltAt.isSome ∨ a < f.2.1 ∨ a < d.earliest ∨ c.refused.isSome then s
  else if d.pinWait then s.decidePinned n a d
  else if c.reached then s.decideRepair n a d
  else match (if s.eventLate n then none else c.serving) with
  | some (any, lune) =>
    let s := s.decideClaim n a any lune (s.params n) d
    let c := s.chan n
    if c.free ∧ c.wait ≠ .none ∧ c.refused.isNone ∧ !c.stepping then s.decideOwn n a (c.cand.getD (Cand.blank a)) else s
  | none =>
    if !c.free ∨ c.stepping ∧ !c.run.isEmpty then s else s.decideOwn n a d

/-- The end of a FETCH_WAIT (R135): once the context has resumed, the channel goes on when its next complete chord can be fetched;
fetch parks on a further hole before it. -/
def State.endFetchWait (s : State) (n : Nat) : State :=
  if s.rd (K.BC_STATE n) = Bc.hold ∧ s.rd (K.CS_HOLD_CAUSE n) = 1 ∧ s.rd (K.TC_STATE n) ≠ 2 then
    match (s.peek n true 4096 0 0 [] (s.params n) (s.cursor n)).next with
    | .hole a => s.parkFetch n a
    | .chord _ _ _ | .claim _ _ _ | .stop => s.runSeq n (s.tm.tick + 320)
  else s

/-- The decisions for the samples from `a` on (R210, R211): the waiters are decided oldest first, then the candidates tested
for the first time in channel order. -/
def State.decideAll (s : State) (a : Nat) : State :=
  let s := (List.range 16).foldl (fun s n => (s.endFetchWait n).breakTick n a) s
  let waiters := s.olderWaiters 16 (2 ^ 80)
  let fresh := (List.range 16).filter (fun n => !waiters.contains n)
  (waiters ++ fresh).foldl (fun s n => s.decide1 n a) s

/-- A candidate's part of a DECISION message (R410). -/
def Verdict.bytes (v : Verdict) : List Byte :=
  [v.channel, v.outcome, v.test, v.blocker, v.lune, 0, 0, 0].flatMap (toLE 1) ++ toLE 4 v.item

/-- Entries that a decision may change: those of the channels and the lunes. -/
def shareKey (key : Nat) : Bool :=
  (decide (0x400000 ≤ key) && decide (key < 0x500000)) || (decide (0xB00000 ≤ key) && decide (key < 0xB80000))

/-- A standby keeps what the decision starts from, should the active part's arrive otherwise (R411); verdicts made before are gone. -/
def State.openDecision (s : State) : State :=
  let frozen : Option Frozen := if s.role = Role.standby then
      some { tick := s.tm.tick, chans := s.chans, lunes := s.lunes, od := s.od.filter (fun e => shareKey e.1) } else none
  { s with tw := { s.tw with made := [], verdicts := [], before := frozen } }

/-- The verdicts made go to the partner; a standby keeps them for the comparison (R411). -/
def State.tellDecision (s : State) : State :=
  let body := toLE 8 (s.pair s.tm.tick) ++ s.tw.made.flatMap Verdict.bytes
  let s := if s.tw.made.isEmpty then s else s.tellPartner 0x0020 body
  if s.role = Role.standby then s else { s with tw := { s.tw with made := [] } }

/-- SHARE_DECISION (R210, R211): on tick A - 320. An active part mirrors the outcomes to its partner; a standby's own decision
stands until the mirror arrives (R411). -/
def State.shareDecision (s : State) : State :=
  if s.inSample ≠ 80 ∨ (s.role ≠ Role.active ∧ s.role ≠ Role.standby) then s
  else (s.openDecision.decideAll (s.tm.tick + 320)).tellDecision

/-- SHARE_DECISION (R210). -/
def execShareDecision (s : State) : Host.Outcome State Fault Refusal := live (fun s => s.shareDecision) s

/-- DWELL_FORCED (R168): the time of a dwell hold is over; the chord starts at the next decision without the test. -/
def State.dwellForced (s : State) (n : Nat) : State :=
  match (s.chan n).cand with
  | none => s
  | some d =>
    let par := (d.chords.head?.map (fun (c : Chord × Option Cursor) => c.1.par)).getD (s.params n)
    match d.dwellSince with
    | none => s
    | some t =>
      if d.forced ∨ s.tm.tick < t + par.dwellTimeout ∨ s.rd (K.BC_STATE n) ≠ Bc.run then s
      else
        let s := s.setChan n { s.chan n with cand := some { d with forced := true } }
        s.countForced n ((d.chords.head?.map (fun (c : Chord × Option Cursor) => c.1.addr)).getD (s.rd (K.CS_PC n)))

/-- DWELL_FORCED (R168). -/
def execDwellForced (n : Fin 16) (s : State) : Host.Outcome State Fault Refusal := live (fun s => s.dwellForced n) s

end Sys2Proof.Machine
end

