-- ==== Sys2Proof/Machine/LaneBase.lean ====
section
/-! DEFINITION. Serial lanes as the other units use them: a lane's record, its control messages and its
received frames (R343, R348). -/

namespace Sys2Proof.Machine

/-- A lane on which nothing has passed. -/
def Lane.init : Lane :=
  { seq := 0, last := none, tokens := 0, badRun := 0, bad := [], errSeen := false, since := 0, askedAt := 0, upAt := none,
    queue := [], exposed := [], txNow := 0, rxNow := 0, idleFrom := 0, back := false, digestAt := none }

/-- Lane `l`. -/
def State.lane (s : State) (l : Nat) : Lane := Tab.get (fun _ => Lane.init) s.lanes l

/-- Setting lane `l`. -/
def State.setLane (s : State) (l : Nat) (x : Lane) : State := { s with lanes := Tab.set (fun _ => Lane.init) s.lanes l x }

/-- The lane is UP (R352). -/
def State.laneUp (s : State) (l : Nat) : Bool := s.rd (K.LANE_STATE l) == 4

/-- Event source of a lane (R336). -/
def srcLane (l : Nat) : Nat := 0xC0 + l / 4

/-- A lane event (R360): its lane, byte 1, and bytes 4 to 7. -/
def State.laneEvent (s : State) (l code cls detail v : Nat) : State :=
  s.raise (srcLane l) code cls l (l + detail * 2 ^ 8 + v % 2 ^ 32 * 2 ^ 32)

/-- A frame is discarded (R343, R351, R360). -/
def State.badFrame (s : State) (l : Nat) : State :=
  let x := s.lane l
  let near := (x.bad.filter fun t => decide (s.tm.tick < t + 100000))
  let s := s.setLane l { x with badRun := x.badRun + 1, errSeen := true, bad := if near.length = 15 then [] else s.tm.tick :: near }
  -- the four lanes of a partner link count a group once, on link lane 0
  let head := l - l % 4
  let counted := decide (36 ≤ l) && (List.range 4).any fun i => head + i != l &&
    (s.lane (head + i)).bad.any fun t => decide (s.tm.tick ≤ t + 8)
  let s := if 36 ≤ l then (if counted then s else s.inc (K.LANE_CRC_ERRORS head)) else s.inc (K.LANE_CRC_ERRORS l)
  if near.length = 15 then s.laneEvent l 0x00A2 6 0 16 else s

/-- A control message of 40 bytes (R348). -/
def controlMsg (type : Nat) (body : List Byte) : List Byte :=
  let b := toLE 1 type ++ toLE 1 body.length ++ toLE 2 0 ++ body
  b ++ List.replicate (40 - b.length) 0

/-- Putting a control message into a lane's next free position (R348). -/
def State.queueMsg (s : State) (l type : Nat) (body : List Byte) : State :=
  s.setLane l { s.lane l with queue := (s.lane l).queue ++ [controlMsg type body] }

/-- The up direction of a lane takes a state (R355, R360): the far end reports it. -/
def State.laneUpState (s : State) (l v : Nat) : State :=
  let s := s.wr (K.LANE_RX_STATE l) v
  if (s.lane l).rxNow = v then s else (s.setLane l { s.lane l with rxNow := v }).laneEvent l 0x00A4 6 (16 + v) 0

/-- A frame without SLEEP has come: a far end that slept is back in L0 (R355). -/
def State.laneAwake (s : State) (l : Nat) : State := if (s.lane l).rxNow = 0 then s else s.laneUpState l 0

/-- A frame accepted on a lane (R343): it is the next of its sequence. -/
def State.rxFrame (s : State) (l : Nat) : State :=
  let x := s.lane l
  ((s.setLane l { x with last := x.last.map (fun q => (q + 1) % 4096), badRun := 0 }).inc (K.LANE_FRAMES_RX l)).laneAwake l

/-- The pool or bed engine works (R484, R486): it has not been stopped by an orderly stop or a cutoff. -/
def State.enginesStopped (s : State) : Bool := s.rd K.DT_STOP_STATE == 2 || s.rd K.DT_CUTOFF == 1

end Sys2Proof.Machine
end

