-- ==== Sys2Proof/Machine/Pool.lean ====
section
/-! DEFINITION. Pipeline contexts and the pool engine (R277 to R296): settings and tags, frames and their slices, statistics,
records and raw frames. -/

namespace Sys2Proof.Machine

/-- A context with no settings and no frame. -/
def Pipe.init : Pipe :=
  { sets := [], frame := none, closing := [], expected := [], lastFirst := 0, lastStart := none, held := [], buf := 0 }

/-- Context `k`. -/
def State.pipe (s : State) (k : Nat) : Pipe := Tab.get (fun _ => Pipe.init) s.pipes k

/-- Setting context `k`. -/
def State.setPipe (s : State) (k : Nat) (x : Pipe) : State := { s with pipes := Tab.set (fun _ => Pipe.init) s.pipes k x }

/-- The context that owns the link of context `k` (R277). -/
def State.pcOwner (s : State) (k : Nat) : Option Nat :=
  if k < 20 then some k
  else
    let v := s.rd (K.PC_SOURCE k)
    if 0x10 ≤ v ∧ v < 0x20 then some (v - 0x10) else if 0x20 ≤ v ∧ v < 0x24 then some (v - 0x10) else none

/-- Contexts that process the frames of an owner's link, the owner first. -/
def State.pcOf (s : State) (o : Nat) : List Nat := (List.range 24).filter (fun k => s.pcOwner k == some o)

/-- The lane of an owning context. -/
def pcLane (o : Nat) : Nat := if o < 16 then 16 + o else 32 + (o - 16)

/-- Event source of a context (R525). -/
def srcPipe (k : Nat) : Nat := 0xA0 + k

/-- Showing the state of a context (R302). -/
def State.syncPipe (s : State) (k : Nat) : State :=
  s.wr (K.PC_STATE k) (if s.rd (K.PC_ENABLE k) = 0 then 0
    else if (s.pcOwner k).any (fun o => s.laneUp (pcLane o)) then 2 else 1)

/-- Showing the states of the contexts of a lane. -/
def State.syncPipes (s : State) (l : Nat) : State :=
  (List.range 24).foldl (fun s k => if (s.pcOwner k).any (fun o => pcLane o == l) then s.syncPipe k else s) s

/-- The pending set of an owner as the next tag (R285). -/
def State.pendingSet (s : State) (o : Nat) : Settings :=
  { tag := if s.rd (K.SET_TAG o) = 65535 then 1 else s.rd (K.SET_TAG o) + 1, exposure := s.rd (K.SET_EXPOSURE o),
    gain := s.rd (K.SET_GAIN o), x := s.rd (K.SET_ROI_X o), y := s.rd (K.SET_ROI_Y o), w := s.rd (K.SET_ROI_W o),
    h := s.rd (K.SET_ROI_H o), period := s.rd (K.SET_FREE_PERIOD o) }

/-- The newest committed set of the owner of a context. -/
def State.newestSet (s : State) (k : Nat) : Option Settings := (s.pcOwner k).bind fun o => (s.pipe o).sets.head?

/-- A claim in pixels per second (R279). -/
def claimOf (w h period : Nat) : Nat := w * h * 100000000 / max 1 period

/-- The claims after context `k` would process regions of `w` by `h` pixels stay within their limits (R279). -/
def State.claimsFit (s : State) (ks : List Nat) (w h : Nat) (enabling : Option Nat) : Bool :=
  let claim := fun (k : Nat) =>
    if ks.contains k then claimOf w h (s.rd (K.PC_MIN_PERIOD k))
    else match s.newestSet k with
      | some t => claimOf t.w t.h (s.rd (K.PC_MIN_PERIOD k))
      | none => 0
  let pool := (List.range 24).filter fun k => (s.pcOwner k).any (fun o => decide (o < 16))
  let on := pool.filter fun k => s.rd (K.PC_ENABLE k) == 1 || enabling == some k
  (pool.filter ks.contains).all (fun k => decide (claim k ≤ 204800000)) &&
    decide (on.foldl (fun a k => a + claim k) 0 ≤ 3960000000)

/-- The region of a set suits its context (R281, R297, R298). -/
def State.regionFits (s : State) (o : Nat) (t : Settings) : Bool :=
  if o < 16 then
    t.w % 2 == 0 && t.h % 2 == 0 && t.x % 2 == 0 && t.y % 2 == 0 && decide (8 ≤ t.w) && decide (t.w ≤ 256) &&
      decide (8 ≤ t.h) && decide (t.h ≤ 256) && decide (t.x + t.w ≤ s.rd (K.SENS_ARRAY_W o)) &&
      decide (t.y + t.h ≤ s.rd (K.SENS_ARRAY_H o))
  else t.w % 4 == 0 && t.h % 4 == 0 && decide (t.w ≤ 8192) && decide (t.w * t.h ≤ 25000000) &&
    decide (2 * t.w * t.h ≤ s.rd (K.BD_FRAME_STRIDE o))

/-- A commit is allowed (R285). -/
def State.commitOk (s : State) (o : Nat) (enabling : Option Nat) : Bool :=
  let t := s.pendingSet o
  s.regionFits o t && decide (s.rd (K.SENS_MIN_EXPOSURE o) ≤ t.exposure) && s.claimsFit (s.pcOf o) t.w t.h enabling

/-- The body of a SETTINGS message (R348). -/
def Settings.body (t : Settings) (mode : Nat) : List Byte :=
  toLE 2 t.tag ++ toLE 1 t.gain ++ toLE 1 mode ++ toLE 4 t.exposure ++ toLE 2 t.x ++ toLE 2 t.y ++ toLE 2 t.w ++ toLE 2 t.h ++
    toLE 4 t.period

/-- The claim of a context under the newest committed set of its owner (R279): that of a bed context is 0. -/
def State.claimShown (s : State) (k : Nat) : Nat :=
  match s.pcOwner k, s.newestSet k with
  | some o, some t => if o < 16 then claimOf t.w t.h (s.rd (K.PC_MIN_PERIOD k)) else 0
  | _, _ => 0

/-- Showing the claim of a context. -/
def State.showClaim (s : State) (k : Nat) : State := s.wr (K.PC_CLAIM k) (s.claimShown k)

/-- Showing the claims of the contexts of an owner. -/
def State.showClaims (s : State) (o : Nat) : State := (s.pcOf o).foldl (fun s k => s.showClaim k) s

/-- Committing the pending set (R285); in native mode it is sent at the first opportunity (R286). -/
def State.commitSet (s : State) (o : Nat) : State :=
  let t := s.pendingSet o
  let s := s.setPipe o { s.pipe o with sets := (t :: (s.pipe o).sets).take 8 }
  let s := (s.wr (K.SET_TAG o) t.tag).showClaims o
  if s.rd (K.PC_SHADOW o) = 0 then s.queueMsg (pcLane o) 0x01 (t.body (s.rd (K.PC_TRIGGER o))) else s

/-- A write of SET_APPLY (R285, R277). -/
def setApplyEff (k _v : Nat) (s : State) : Nat × State :=
  if 20 ≤ k ∨ !s.commitOk k none then (Ans.refused, s) else (Ans.ok, s.commitSet k)

/-- SET_APPLY (R285). -/
def execSetApply (m : Msg) (k : Fin 24) (s : State) : Host.Outcome State Fault Refusal :=
  writeCmd m (K.SET_APPLY k.val) 1 1 (setApplyEff k.val) s

/-- Tables of a context: four dark planes with the other pool kinds, or those of a bed context (R457). -/
def pipeTables : List Nat := [0x20, 0x21, 0x22, 0x23, 0x28, 0x29, 0x2A]

/-- The record of a kind that a context may use (R457): a pool-kind record only when its size is that of the sensor's array. -/
def State.pipeTable (s : State) (k kind : Nat) : Option CalRec :=
  match s.record (kind * 256 + k), s.pcOwner k with
  | some r, some o =>
    let sized := leNat (r.payload.take 2) == s.rd (K.SENS_ARRAY_W o) && leNat ((r.payload.drop 2).take 2) == s.rd (K.SENS_ARRAY_H o)
    if (kind = 0x20 ∨ kind = 0x21 ∨ kind = 0x22) ∧ !sized then none else some r
  | _, _ => none

/-- Enabling a context (R285, R459): frames whose statistics are still to close keep their place, images leave their buffers. -/
def State.pcOn (s : State) (k : Nat) : Nat × State :=
  let ok := if k < 20 then s.commitOk k (some k)
    else match s.newestSet k with
      | some t => s.claimsFit [k] t.w t.h (some k)
      | none => true
  if !s.pw.poolLoaded ∨ !ok then (Ans.refused, s)
  else
    let s := s.wr (K.PC_ENABLE k) 1
    let x := s.pipe k
    let kept := if (s.pcOwner k).any (fun o => decide (o < 16)) then x.closing else []
    let s := s.setPipe k { x with frame := none, closing := kept, expected := [], lastFirst := s.tm.tick, lastStart := none, buf := 0 }
    let s := if k < 20 then s.commitSet k else s.showClaim k
    (Ans.ok, s.syncPipe k)

/-- A write of PC_SOURCE (R277, R302). -/
def pcSourceEff (k v : Nat) (s : State) : Nat × State :=
  if k < 20 then (Ans.refused, s) else (Ans.ok, ((s.wr (K.PC_SOURCE k) v).showClaim k).syncPipe k)

/-- A discarded frame (R288). -/
def State.discardFrame (s : State) (k cause number : Nat) : State :=
  (s.inc (K.OUT_DISCARDED k)).raise (srcPipe k) 0x0070 3 k (cause + number * 2 ^ 32)

/-- Disabling a context (R288, R309): a frame in progress is discarded. -/
def State.pcOff (s : State) (k : Nat) : State :=
  let s := match (s.pipe k).frame with
    | some f => if f.dead then s else s.discardFrame k 3 f.number
    | none => s
  let s := (s.wr (K.PC_ENABLE k) 0).setPipe k { s.pipe k with frame := none, expected := [] }
  s.syncPipe k

/-- A write of PC_ENABLE (R302). -/
def pcEnableEff (k v : Nat) (s : State) : Nat × State :=
  if v = s.rd (K.PC_ENABLE k) then (Ans.ok, s) else if v = 1 then s.pcOn k else (Ans.ok, s.pcOff k)

/-- PC_ENABLE (R285). -/
def execPcEnable (m : Msg) (k : Fin 24) (s : State) : Host.Outcome State Fault Refusal :=
  writeCmd m (K.PC_ENABLE k.val) 1 1 (pcEnableEff k.val) s

/-- PC_DISABLE (R309). -/
def execPcDisable (m : Msg) (k : Fin 24) (s : State) : Host.Outcome State Fault Refusal :=
  writeCmd m (K.PC_ENABLE k.val) 1 0 (pcEnableEff k.val) s

/-- A write of PC_MIN_PERIOD (R279). -/
def minPeriodEff (k v : Nat) (s : State) : Nat × State :=
  let t := s.wr (K.PC_MIN_PERIOD k) v
  let fits := match s.newestSet k with
    | some q => t.claimsFit [k] q.w q.h none
    | none => true
  if fits then (Ans.ok, t.showClaim k) else (Ans.refused, s)

/-- A write of PC_SHADOW (R287). -/
def shadowEff (k v : Nat) (s : State) : Nat × State :=
  if v = 1 ∧ (s.rd (K.PC_TRIGGER k) = 1 ∨ s.rd (K.SENS_START_SETTINGS k) = 0) then (Ans.refused, s)
  else (Ans.ok, s.wr (K.PC_SHADOW k) v)

/-- A firing of POOL_EXPOSE or CAMERA_EXPOSE for the link of an owner (R56, R284, R287, R350): every triggered context of the link
expects a frame; in shadow mode the newest tag is latched and its set travels with the start command; a start not announced
before goes out in the first frame after the firing. -/
def State.expose (s : State) (o : Nat) : State :=
  let s := (s.pcOf o).foldl (fun s k =>
    if s.rd (K.PC_ENABLE k) = 1 ∧ s.rd (K.PC_TRIGGER k) = 0 then
      s.setPipe k { s.pipe k with expected := (s.pipe k).expected ++ [s.tm.tick] }
    else s) s
  let l := pcLane o
  let start := toLE 8 (s.pair s.tm.tick)
  if s.rd (K.PC_SHADOW o) = 1 then
    match (s.pipe o).sets with
    | t :: _ => (s.queueMsg l 0x01 (t.body 0)).queueMsg l 0x02 (start ++ toLE 2 t.tag)
    | [] => s
  else
    let x := s.lane l
    if x.exposed.contains s.tm.tick then s.setLane l { x with exposed := x.exposed.filter (fun t => decide (s.tm.tick < t)) }
    else s.queueMsg l 0x02 (start ++ toLE 2 0)

/-- Lines of a frame received so far (R350). -/
def PFrame.lines (f : PFrame) : Nat := min f.next (f.set.w * f.set.h) / max 1 f.set.w

/-- Fewer than H lines have been received (R282). -/
def PFrame.short (f : PFrame) : Bool := decide (f.lines < f.set.h)

/-- The mid-exposure stamp (R282). -/
def PFrame.mid (f : PFrame) : Nat := (f.start + 80 * f.set.exposure) % 2 ^ 64

/-- The tag order of a context: a tag is newer than another when it was committed later and both are kept, or the other is kept no
longer (R288). -/
def State.newerTag (s : State) (o tag seen : Nat) : Bool :=
  let i := (s.pipe o).sets.findIdx (fun t => t.tag == tag)
  let j := (s.pipe o).sets.findIdx (fun t => t.tag == seen)
  seen == 0 || decide (i < j)

/-- A frame breaks the slice rules (R288, R350): it is discarded and takes no buffer (R298), and the firing that expected it still does
(R289). -/
def State.malformed (s : State) (k : Nat) (f : PFrame) : State :=
  let x := s.pipe k
  let s := s.setPipe k { x with frame := some { f with dead := true, pixels := [], slot := none }, buf := f.buf,
                                expected := match f.slot with | some t => t :: x.expected | none => x.expected }
  s.discardFrame k 4 f.number

/-- A frame is over (R282): it waits for its statistics, or for the bed engine. -/
def State.endFrame (s : State) (k : Nat) : State :=
  let x := s.pipe k
  match x.frame with
  | none => s
  | some f =>
    if f.dead then s.setPipe k { x with frame := none }
    else s.setPipe k { x with frame := none, closing := x.closing ++
      [{ f with endTick := s.tm.tick, endStamp := s.now, layer := s.rd K.LAYER_NUMBER }] }

/-- Processing parameters of a context as a frame takes them (R278, R301). -/
def State.pipePar (s : State) (k : Nat) : List Nat :=
  if (s.pcOwner k).any (fun o => decide (o < 16)) then
    [s.rd (K.PP_MIN_SIGNAL k), s.rd (K.PP_POOL_THRESHOLD k), s.rd (K.PP_SPATTER_LEVEL k), s.rd (K.PP_SPATTER_MIN k),
     s.rd (K.PP_SPATTER_MAX k), s.rd (K.PP_HIST_BASE k), s.rd (K.PP_HIST_SHIFT k), s.rd (K.PP_LOOP_STAT k),
     s.rd (K.PP_NEWEST_ONLY k), s.rd (K.PP_DEFECT_ENABLE k)]
  else
    [s.rd (K.BD_REF_ADDR k), s.rd (K.BD_DEFECT_LEVEL k), s.rd (K.BD_TRAVEL k), s.rd (K.BD_STREAK_RUN k),
     s.rd (K.BD_SHORT_FRACTION k), s.rd (K.BD_RAISED_MIN k), s.rd (K.BD_BLOCKS_OUT k)]

/-- A frame that is known only by its number and ignored. -/
def PFrame.ignored (number tick : Nat) (t : Settings) : PFrame :=
  { number := number, start := 0, set := t, next := 0, pixels := [], lastTick := tick, dead := true, slot := none,
    par := [], tables := [], raw := false, shadow := false, long := false, endTick := 0, endStamp := 0, layer := 0, buf := 0,
    stripes := 0, blocks := [] }

/-- A set of no tag. -/
def Settings.none : Settings := { tag := 0, exposure := 0, gain := 0, x := 0, y := 0, w := 0, h := 0, period := 0 }

/-- The buffers of a bed context that hold an image still unprocessed (R298). -/
def Pipe.buffers (x : Pipe) : List Nat :=
  x.closing.map (·.buf) ++ (match x.frame with | some f => if f.dead then [] else [f.buf] | none => [])

/-- The first slice of a frame on context `k` (R278, R279, R284, R288, R298, R350). -/
def State.sliceStart (s : State) (k o number start tag w h : Nat) : State :=
  let s := s.endFrame k
  let ignore := fun (s : State) => s.setPipe k { s.pipe k with frame := some (PFrame.ignored number s.tm.tick Settings.none) }
  let last := (s.pipe k).lastStart
  let s := s.setPipe k { s.pipe k with lastStart := some start }
  match (s.pipe o).sets.find? (fun t => t.tag == tag && tag != 0) with
  | none => (s.discardFrame k 1 number) |> ignore
  | some t =>
    let mid := (start + 80 * t.exposure) % 2 ^ 64
    let s := if k = o ∧ s.newerTag o tag (s.rd (K.SET_TAG_SEEN o)) then
        (s.wrs [(K.SET_TAG_SEEN o, tag), (K.SET_TAG_SEEN_STAMP o, mid)]).raise (srcPipe k) 0x0072 4 k (tag + number * 2 ^ 32)
      else s
    let x := s.pipe k
    let early := last.any fun p => decide ((start + 2 ^ 64 - p) % 2 ^ 64 < 160 * s.rd (K.PC_MIN_PERIOD k))
    let bed := decide (16 ≤ o)
    let full := bed && decide (s.rd (K.BD_FRAMES k) ≤ x.buffers.length)
    if early then (s.discardFrame k 2 number) |> ignore
    else if w ≠ t.w ∨ h ≠ t.h then (s.discardFrame k 4 number) |> ignore
    else if full then ((s.inc (K.BD_FRAMES_DROPPED k)).raise (srcPipe k) 0x0076 3 k 0) |> ignore
    else
      let raw := !bed && s.rd (K.RAW_ENABLE k) == 1
      let s := if raw ∧ 2 ≤ s.rd K.DT_LEVEL then s.inc (K.RAW_SKIPPED k) else s
      let x := s.pipe k
      let f : PFrame :=
        { number := number, start := start, set := t, next := 0, pixels := [], lastTick := s.tm.tick,
          dead := false, slot := if s.rd (K.PC_TRIGGER k) = 0 then x.expected.head? else none, par := s.pipePar k,
          tables := pipeTables.map (s.pipeTable k), raw := raw && decide (s.rd K.DT_LEVEL < 2), shadow := s.rd (K.PC_SHADOW o) == 1,
          long := false, endTick := 0, endStamp := 0, layer := 0, buf := x.buf, stripes := 0, blocks := [] }
      s.setPipe k { x with frame := some f, expected := if s.rd (K.PC_TRIGGER k) = 0 then x.expected.drop 1 else x.expected,
                           lastFirst := s.tm.tick, buf := if bed then (x.buf + 1) % max 1 (s.rd (K.BD_FRAMES k)) else x.buf }

/-- A PIXELS slice on context `k` (R282, R350). -/
def State.slicePixels (s : State) (k number offset : Nat) (px : List Nat) : State :=
  let x := s.pipe k
  match x.frame with
  | none =>
    (s.setPipe k { x with frame := some (PFrame.ignored number s.tm.tick Settings.none) }).discardFrame k 4 number
  | some f =>
    if f.dead then
      if f.number = number then s.setPipe k { x with frame := some { f with lastTick := s.tm.tick } }
      else (s.setPipe k { x with frame := some (PFrame.ignored number s.tm.tick Settings.none) }).discardFrame k 4 number
    else if f.number ≠ number ∨ offset ≠ f.next then s.malformed k { f with lastTick := s.tm.tick }
    else
      let size := f.set.w * f.set.h
      let fit := px.take (size - f.next)
      s.setPipe k { x with frame := some { f with next := f.next + px.length, pixels := fit.reverse ++ f.pixels,
                                                  lastTick := s.tm.tick, long := f.long || decide (fit.length < px.length) } }

/-- An END slice on context `k` (R282, R350): a late one, after the frame was closed, is ignored. -/
def State.sliceEnd (s : State) (k number : Nat) : State :=
  match (s.pipe k).frame with
  | none => s
  | some f => if f.number = number then s.endFrame k else if f.dead then s else s.malformed k f

/-- A slice of a link applied to every enabled context that processes it (R277). -/
def State.onLink (s : State) (o : Nat) (f : Nat → State → State) : State :=
  let s := s.rxFrame (pcLane o)
  if !s.laneUp (pcLane o) then s
  else (s.pcOf o).foldl (fun s k => if s.rd (K.PC_ENABLE k) = 1 then f k s else s) s

/-- SENSOR_SLICE_START (R350). -/
def execSensorSliceStart (n : Fin 16) (frame : BitVec 32) (start : BitVec 64) (tag w h : BitVec 16) (s : State) :
    Host.Outcome State Fault Refusal :=
  live (fun s => s.onLink n (fun k s => s.sliceStart k n frame.toNat start.toNat tag.toNat w.toNat h.toNat)) s

/-- SENSOR_SLICE_PIXELS (R350). -/
def execSensorSlicePixels (n : Fin 16) (frame offset : BitVec 32) (pixels : List (BitVec 16)) (s : State) :
    Host.Outcome State Fault Refusal :=
  live (fun s => s.onLink n (fun k s => s.slicePixels k frame.toNat offset.toNat (pixels.map (·.toNat)))) s

/-- SENSOR_SLICE_END (R350). -/
def execSensorSliceEnd (n : Fin 16) (frame _sent : BitVec 32) (s : State) : Host.Outcome State Fault Refusal :=
  live (fun s => s.onLink n (fun k s => s.sliceEnd k frame.toNat)) s

/-- FRAME_TIMEOUT (R282). -/
def State.frameTimeout (s : State) (k : Nat) : State :=
  match (s.pipe k).frame with
  | some f => if f.lastTick + s.rd (K.PC_FRAME_TIMEOUT k) ≤ s.tm.tick then s.endFrame k else s
  | none => s

/-- FRAME_TIMEOUT (R282). -/
def execFrameTimeout (k : Fin 24) (s : State) : Host.Outcome State Fault Refusal := live (fun s => s.frameTimeout k) s

/-- A mark for the power loop of channel `n` (R289). -/
def State.markLoop (s : State) (n kind : Nat) (v : Int) (inst : Nat) : State :=
  if n < 16 then s.setLoop (48 + n) { s.loop (48 + n) with mark := some (kind, v, inst) } else s

/-- A frame is missing on context `k` (R284). -/
def State.frameMissing (s : State) (k : Nat) : State :=
  let x := s.pipe k
  let miss := fun (s : State) => ((s.inc (K.OUT_MISSING k)).raise (srcPipe k) 0x0071 3 k 0).markLoop k 2 0 0
  if s.rd (K.PC_ENABLE k) = 0 then s
  else if s.rd (K.PC_TRIGGER k) = 0 then
    match x.expected with
    | t :: rest =>
      if t + s.rd (K.PC_FRAME_TIMEOUT k) ≤ s.tm.tick then (s.setPipe k { x with expected := rest }) |> miss else s
    | [] => s
  else match s.newestSet k with
    | none => s
    | some t =>
      if x.lastFirst + 2 * t.period + s.rd (K.PC_FRAME_TIMEOUT k) ≤ s.tm.tick then
        (s.setPipe k { x with lastFirst := s.tm.tick }) |> miss
      else s

/-- FRAME_MISSING (R284). -/
def execFrameMissing (k : Fin 24) (s : State) : Host.Outcome State Fault Refusal := live (fun s => s.frameMissing k) s

/-- A little-endian U16 of a record's payload at a byte offset. -/
def payU16 (p : List Byte) (off : Nat) : Nat := leNat ((p.drop off).take 2)

/-- A frame's table of a kind. -/
def PFrame.table (f : PFrame) (kind : Nat) : Option CalRec := (f.tables.getD (pipeTables.idxOf kind) none)

/-- A pool cell's outcome of stages 4 to 6 (R290): saturated, void, signals of the bands, clear sum, and the temperature. -/
structure PCell where
  u : Nat
  v : Nat
  sat : Bool
  void : Bool
  a : Nat
  b : Nat
  c : Nat
  temp : Option Nat
deriving DecidableEq, Repr

/-- A value of a 257-point table at `x` (R291): none where an end of its step is 0. -/
def curve257 (p : List Byte) (x : Nat) : Option Nat :=
  let h := x / 256
  let lo := payU16 p (2 * h)
  let hi := payU16 p (2 * (h + 1))
  if lo = 0 ∨ hi = 0 then none else some (((lo : Int) + (((hi : Int) - lo) * (x % 256 : Nat) + 128) / 256).toNat)

/-- A pixel after the dark stage (R290). -/
def PFrame.dark (f : PFrame) (px : List Nat) (x y : Nat) : Nat :=
  let raw := px.getD (y * f.set.w + x) 0
  match f.table 0x20 with
  | none => raw
  | some r =>
    let w := payU16 r.payload 0
    let h := payU16 r.payload 2
    raw - payU16 r.payload (4 + 2 * (f.set.gain * w * h + (f.set.y + y) * w + f.set.x + x))

/-- The pixel is listed in the defect map. -/
def PFrame.listed (f : PFrame) (x y : Nat) : Bool :=
  match f.table 0x22 with
  | none => false
  | some r =>
    let i := (f.set.y + y) * payU16 r.payload 0 + f.set.x + x
    (leNat ((r.payload.drop (4 + i / 8)).take 1)).testBit (i % 8)

/-- A pixel after the defect stage: none where it is void (R290). -/
def PFrame.repaired (f : PFrame) (px : List Nat) (lines x y : Nat) : Option Nat :=
  if f.par.getD 9 0 = 1 ∧ f.listed x y then
    let near : List (Int × Int) := [((x : Int) - 2, (y : Int)), ((x : Int) + 2, (y : Int)), ((x : Int), (y : Int) - 2), ((x : Int), (y : Int) + 2)].filter
      fun (q : Int × Int) => decide (0 ≤ q.1) && decide (q.1 < f.set.w) && decide (0 ≤ q.2) && decide (q.2 < lines) &&
        !f.listed q.1.toNat q.2.toNat
    if near.isEmpty then none
    else some ((2 * (near.foldl (fun t (q : Int × Int) => t + f.dark px q.1.toNat q.2.toNat) 0) + near.length) / (2 * near.length))
  else some (f.dark px x y)

/-- A pixel after the flat stage. -/
def PFrame.flat (f : PFrame) (px : List Nat) (lines x y : Nat) : Option Nat :=
  (f.repaired px lines x y).map fun d =>
    let g := match f.table 0x21 with
      | none => 16384
      | some r => payU16 r.payload (4 + 2 * ((f.set.y + y) * payU16 r.payload 0 + f.set.x + x))
    min 65535 ((d * g + 8192) / 16384)

/-- The ratio r of stage 5 (R290). -/
def bandRatio (a b : Nat) : Nat := if a = 0 then (Config.ratioOverZero b).toNat else min 65535 ((b * 4096 + a / 2) / a)

/-- A cell (R281, R290, R291). -/
def PFrame.cell (f : PFrame) (px : List Nat) (lines sat u v : Nat) : PCell :=
  let at' := fun (i j : Nat) => f.flat px lines (2 * u + i) (2 * v + j)
  let raw := fun (i j : Nat) => px.getD ((2 * v + j) * f.set.w + 2 * u + i) 0
  let four := [raw 0 0, raw 1 0, raw 0 1, raw 1 1]
  let void := (at' 0 0).isNone || (at' 1 0).isNone || (at' 0 1).isNone || (at' 1 1).isNone
  let a := (at' 0 0).getD 0
  let b := (at' 1 1).getD 0
  let clear := fun (i j : Nat) => (at' i j).getD (Config.voidPixel (f.set.x + 2 * u + i) (f.set.y + 2 * v + j)).toNat
  let c := min 65535 (clear 1 0 + clear 0 1)
  let bad := four.any (fun r => decide (sat ≤ r))
  let strong := decide (f.par.getD 0 0 ≤ a) && decide (f.par.getD 0 0 ≤ b)
  let t := match f.table 0x23 with
    | none => none
    | some q => curve257 q.payload (bandRatio a b)
  { u := u, v := v, sat := bad, void := void, a := a, b := b, c := c, temp := if !bad && !void && strong then t else none }

/-- Taking from `rest` what is near a frontier, step by step: the group found and what remains. -/
def growGroup {α : Type} (near : α → α → Bool) : Nat → List α → List α → List α → List α × List α
  | 0, front, rest, got => (got ++ front, rest)
  | _ + 1, [], rest, got => (got, rest)
  | n + 1, c :: cs, rest, got =>
    let p := rest.partition (near c)
    growGroup near n (cs ++ p.1) p.2 (c :: got)

/-- The connected groups of a list. -/
def groupsOf {α : Type} (near : α → α → Bool) : Nat → List α → List (List α)
  | 0, _ => []
  | _ + 1, [] => []
  | n + 1, c :: cs =>
    let r := growGroup near (cs.length + 1) [c] cs []
    r.1 :: groupsOf near n r.2

/-- Two cells are 8-adjacent. -/
def PCell.near8 (p q : PCell) : Bool :=
  decide (((p.u : Int) - q.u).natAbs ≤ 1) && decide (((p.v : Int) - q.v).natAbs ≤ 1)

/-- The statistics of a frame (R292 to R294). -/
structure Stats where
  area : Nat
  cu : Nat
  cv : Nat
  length : Nat
  width : Nat
  angle : Nat
  peak : Nat
  mean : Nat
  spatter : Nat
  valid : Nat
  hist : List Nat
  saturated : Bool
  void : Bool
deriving DecidableEq, Repr

/-- Half the direction of a vector, in 2^-16 turn to nearest, modulo half a turn (R292). -/
def halfAngle (x y : Int) : Nat :=
  let beyond := fun (j : Nat) =>
    let a := cosSin ((2 * j + 1) * 2 ^ 32)
    let hi := decide (y < 0) || (decide (y = 0) && decide (x < 0))
    let hj := decide (16384 ≤ j)
    if hi != hj then hi else decide (0 ≤ a.1 * y - a.2 * x)
  (walk beyond 16 0 32768) % 32768
where
  /-- Bisection. -/
  walk (beyond : Nat → Bool) : Nat → Nat → Nat → Nat
  | 0, lo, _ => lo
  | n + 1, lo, w => if w = 0 then lo else
      let m := lo + w / 2
      if beyond m then walk beyond n (m + 1) (w - w / 2 - 1) else walk beyond n lo (w / 2)

/-- Stages 1 to 7 over the cells of the lines used (R290 to R294). -/
def PFrame.stats (f : PFrame) (sat : Nat) : Stats :=
  let px := f.pixels.reverse
  let lines := f.lines / 2 * 2
  let cells := (List.range (lines / 2)).flatMap fun v => (List.range (f.set.w / 2)).map fun u => f.cell px lines sat u v
  let isPool := fun (c : PCell) => c.sat || c.temp.any (fun t => decide (f.par.getD 1 0 ≤ t))
  let pool := cells.filter isPool
  let hot := pool.filterMap (·.temp)
  let n := pool.length
  let nv := hot.length
  let sum := fun (g : PCell → Nat) => pool.foldl (fun a c => a + g c) 0
  let su := sum (·.u)
  let sv := sum (·.v)
  let muu : Int := (n : Int) * sum (fun c => c.u * c.u) - (su : Int) * su
  let mvv : Int := (n : Int) * sum (fun c => c.v * c.v) - (sv : Int) * sv
  let muv : Int := (n : Int) * sum (fun c => c.u * c.v) - (su : Int) * sv
  let big := muu + mvv
  let q := isqrt ((muu - mvv) * (muu - mvv) + 4 * muv * muv).toNat
  let axis := fun (x : Int) => if n < 2 then 0 else (isqrt (2048 * x).toNat + n / 2) / n
  let drops := cells.filter fun c => !isPool c && decide (f.par.getD 2 0 ≤ c.c)
  let blobs := (groupsOf PCell.near8 drops.length drops).filter fun g =>
    !(g.any fun c => pool.any fun p => p.near8 c) && decide (f.par.getD 3 0 ≤ g.length) && decide (g.length ≤ f.par.getD 4 0)
  let temps := cells.filterMap (·.temp)
  let bin := fun (t : Nat) => (clampInt 0 63 (((t : Int) - f.par.getD 5 0) / ((2 ^ f.par.getD 6 0 : Nat) : Int))).toNat
  { area := n, cu := if n = 0 then 0 else (256 * su + n / 2) / n, cv := if n = 0 then 0 else (256 * sv + n / 2) / n,
    length := axis (big + q), width := axis (big - q), angle := if n < 2 then 0 else if muu = mvv ∧ muv = 0 then (Config.undirected n).toNat else halfAngle (muu - mvv) (2 * muv),
    peak := hot.foldl max 0, mean := if nv = 0 then 0 else (hot.foldl (· + ·) 0 + nv / 2) / nv,
    spatter := min 65535 blobs.length, valid := temps.length,
    hist := (List.range 64).map fun i => min 65535 (temps.filter (fun t => bin t == i)).length,
    saturated := cells.any (·.sat), void := cells.any (·.void) }

/-- The beam sample of a frame (R283): the sample of channel `n` latest at or before the mid-exposure stamp. -/
def State.beamSample (s : State) (n : Nat) (f : PFrame) : Option Shot :=
  (s.chan n).shots.find? fun q => atOrAfter f.mid (s.timeAt q.inst)

/-- A frame is withheld (R289). -/
def State.withheld (s : State) (o : Nat) (f : PFrame) : Bool := f.par.getD 8 0 == 1 && f.set.tag != s.rd (K.SET_TAG o)

/-- The 256-byte statistics record (R295). -/
def State.statsRecord (s : State) (o : Nat) (f : PFrame) (t : Stats) (shot : Option Shot) (held : Bool) : List Byte :=
  let flag := fun (b : Bool) (i : Nat) => if b then 2 ^ i else 0
  let flags := flag f.shadow 7 + flag held 6 + flag t.saturated 5 + flag t.void 4 + flag (shot.any (·.lit)) 3 +
    flag (t.area == 0) 2 + flag f.long 1 + flag f.short 0
  let _ := o
  toLE 8 f.mid ++ toLE 8 f.endStamp ++ toLE 4 f.number ++ toLE 2 f.set.tag ++ toLE 2 flags ++ toLE 4 t.area ++ toLE 2 t.cu ++
    toLE 2 t.cv ++ toLE 2 t.length ++ toLE 2 t.width ++ toLE 2 t.peak ++ toLE 2 t.mean ++ toLE 2 t.spatter ++
    toLE 2 (if f.short then f.lines / 2 * 2 else f.set.h) ++ toLE 4 t.valid ++ toLE 4 f.layer ++
    toLE 4 ((shot.map fun q => s.pair q.inst / 400).getD 0) ++ toLE 2 t.angle ++ List.replicate 6 0 ++ t.hist.flatMap (toLE 2) ++
    List.replicate 64 0

/-- Writing one record into the ring of a context (R295). False where its context is parked or parks. -/
def State.putRecord (s : State) (k : Nat) (r : List Byte) : Bool × State :=
  let n := s.rd (K.OUT_REC_SIZE k) / 256
  if n = 0 then (true, s)
  else
    let w := s.rd (K.OUT_REC_WRITE k)
    let t := s.tryWrite (32 + k) (s.rd (K.OUT_REC_BASE k) + 256 * (w % n)) r
    if !t.1 then t
    else
      let full := decide (n ≤ (w + 2 ^ 32 - s.rd (K.OUT_REC_READ k)) % 2 ^ 32)
      let s := if full then t.2.inc (K.OUT_REC_OVERRUN k) else t.2
      (true, s.inc (K.OUT_REC_WRITE k))

/-- Held records go out in order once the context has resumed (R280). -/
def flushRecords (k : Nat) : List (List Byte) → State → State
  | [], s => s.setPipe k { s.pipe k with held := [] }
  | r :: rest, s =>
    let t := s.putRecord k r
    if t.1 then flushRecords k rest t.2 else t.2.setPipe k { t.2.pipe k with held := r :: rest }

/-- A record for the ring: behind those held, or held itself, or lost (R280). -/
def State.sendStats (s : State) (k : Nat) (r : List Byte) : State :=
  let x := s.pipe k
  let t := if x.held.isEmpty then s.putRecord k r else (false, s)
  if t.1 then t.2
  else
    let x := t.2.pipe k
    if x.held.length < 16 then t.2.setPipe k { x with held := x.held ++ [r] } else t.2.inc (K.OUT_REC_LOST k)

/-- A raw frame into its slot (R296). -/
def State.sendRaw (s : State) (k : Nat) (f : PFrame) (r : List Byte) : State :=
  let data := r.take 64 ++ f.pixels.reverse.flatMap (toLE 2)
  if s.rd (K.RAW_SLOT k) < data.length then s.inc (K.RAW_SKIPPED k)
  else
    let a := s.rd (K.RAW_BASE k) + s.rd (K.RAW_SLOT k) * (s.rd (K.RAW_WRITE k) % max 1 (s.rd (K.RAW_COUNT k)))
    if s.rd (K.TC_STATE (32 + k)) = 2 then s.inc (K.RAW_SKIPPED k) else (s.sendWrite (32 + k) a data).inc (K.RAW_WRITE k)

/-- The dark record a POOL_DARK run gives (R462): the measured plane inside the frame's region, everything else as installed. -/
def State.darkPayload (s : State) (k o up : Nat) (f : PFrame) (sums : List Nat) : List Byte :=
  let w := s.rd (K.SENS_ARRAY_W o)
  let h := s.rd (K.SENS_ARRAY_H o)
  let old := match s.pipeTable k 0x20 with
    | some r => r.payload.drop 4
    | none => []
  let value := fun (g i : Nat) =>
    let x := i % max 1 w
    let y := i / max 1 w
    let within := decide (f.set.x ≤ x) && decide (x < f.set.x + f.set.w) && decide (f.set.y ≤ y) && decide (y < f.set.y + f.set.h)
    if g = f.set.gain ∧ within then (sums.getD ((y - f.set.y) * f.set.w + (x - f.set.x)) 0 + up) / 64
    else payU16 old (2 * (g * w * h + i))
  toLE 2 w ++ toLE 2 h ++ (List.range 4).flatMap fun g => (List.range (w * h)).flatMap fun i => toLE 2 (value g i)

/-- A frame taken into a POOL_DARK measurement (R462): sums by pixel of the array, up to 64 frames a run; the rounding of the mean
is not stated. -/
def State.measureDark (s : State) (k o : Nat) (f : PFrame) : State :=
  let m := s.cal.meas
  let st := s.rd K.CAL_MEAS_STATE
  if (st ≠ 1 ∧ st ≠ 2) ∨ m.kind ≠ 0x20 ∨ m.inst ≠ k ∨ f.short then s
  else
    let px := f.pixels.reverse
    let sums := (List.range (f.set.w * f.set.h)).map fun i => m.sums.getD i 0 + px.getD i 0
    if m.frames < 63 then { s with cal := { s.cal with meas := { m with frames := m.frames + 1, sums := sums } } }
    else
      let (i, s) := s.draw
      let run := s.darkPayload k o ((Config.pathRound i).toNat * 32) f sums
      let m := { m with frames := 0, sums := [] }
      let m := if st = 1 then { m with first := [(k, run)] } else { m with second := [(k, run)] }
      ({ s with cal := { s.cal with meas := m } }).wr K.CAL_MEAS_STATE (st + 1)

/-- The statistics of a frame of link `o` that has ended (R261, R289, R295, R296): counts, the loop's feedback, the record, raw frames. -/
def State.closeStats (s : State) (k o : Nat) (f : PFrame) : State :=
  let t := f.stats (s.rd (K.SENS_SAT o))
  let shot := s.beamSample o f
  let lit := shot.any (·.lit)
  let held := s.withheld o f
  let inst := (shot.map (·.inst)).getD 0
  let stat := match f.par.getD 7 0 with
    | 0 => t.peak
    | 1 => t.mean
    | 2 => t.area
    | 3 => t.length
    | _ => t.width
  let s := s.inc (K.OUT_FRAMES k)
  let s := if f.short then s.inc (K.OUT_SHORT k) else s
  let s := if f.long then s.inc (K.OUT_LONG k) else s
  let s := if held then s.inc (K.OUT_WITHHELD k) else s
  let s := if f.short ∨ held ∨ !lit then s.markLoop k 1 0 inst else s.markLoop k 0 stat inst
  let s := if k < 16 ∧ lit ∧ !f.short then s.recordPeak k inst t.peak else s
  let r := s.statsRecord o f t shot held
  let s := (s.sendStats k r).measureDark k o f
  if f.raw then s.sendRaw k f r else s

/-- STATS_CLOSE (R289, R295, R296, R261): the statistics of the oldest ended frame close. -/
def State.statsClose (s : State) (k : Nat) : State :=
  let x := s.pipe k
  match x.closing, s.pcOwner k with
  | f :: rest, some o =>
    if 16 ≤ o ∨ s.enginesStopped then s
    else
      (s.setPipe k { x with closing := rest }).closeStats k o f
  | _, _ => s

/-- STATS_CLOSE (R289). -/
def execStatsClose (k : Fin 24) (s : State) : Host.Outcome State Fault Refusal := live (fun s => s.statsClose k) s

end Sys2Proof.Machine
end

