-- ==== Sys2Proof/Machine/Seq.lean ====
section
/-! DEFINITION. Commands of a chord program as the sequencer takes them (R143 to R173): decoding and its errors, chords,
posting and claiming, waits and barriers, parameters, flow, and the host's RESUME and SKIP. -/

namespace Sys2Proof.Machine

/-- The word a channel is about to decode: its sequencer runs, waits for nothing, and no chord of its program is in
progress (R145). -/
def State.atCmd (s : State) (n : Nat) : Option Nat :=
  let c := s.chan n
  if s.rd (K.BC_STATE n) = Bc.run ∧ c.member ∧ !c.reached ∧ c.wait = .none ∧ !c.groupOn ∧
      (c.haltAt.isNone ∨ !(s.liveRun n).isEmpty) ∧
      (c.run.isEmpty ∨ s.aheadOf n ∨ c.itemNow.isSome) ∧ !(match c.cand with | some d => d.pinWait | none => false) then
    s.fetch n (s.rd (K.CS_PC n))
  else none

/-- Errors of a command beyond those its word shows (R146 to R166): code, and the address it is reported at. -/
def State.semErrors (s : State) (n : Nat) (cur : Cursor) (cmd : Cmd) : List (Nat × Nat) :=
  let bad := fun (b : Bool) (e : Nat) => if b then [(e, cur.pc)] else []
  -- a REPEAT whose body could not be judged when it was decoded: the error is its own
  let past := fun (k : Nat) => match cur.inBody with
    | some b => if b.2 < cur.pc + 16 * k then [(Err.bodyEnd, b.1 - 16)] else []
    | none => []
  match cmd with
  | .float count lune =>
    past (count + 1) ++ (match s.fetchBody n (cur.pc + 16) count with
      | some body => (s.bodyErrors lune cur.ox cur.oy n body).map fun e => (e.1, e.2.getD cur.pc)
      | none => [])
  | .claim _ lune any => bad (!any && !(s.luneMask lune).testBit n) Err.notEligible
  | .barrier mask _ _ => bad (!mask.testBit n) Err.barrierMask
  | .call dx dy t => bad (cur.call dx dy t).isNone Err.stack
  | .ret => bad cur.ret.isNone Err.stack
  | .rep dx dy count len =>
    bad (cur.rep dx dy count len).isNone Err.stack ++ bad (s.badBody n (cur.pc + 16) len) Err.bodyEnd ++ past (len + 1)
  | .close layer =>
    bad (decide (layer ≠ s.rd K.LAYER_NUMBER)) Err.wrongLayer ++ (cur.inBody.toList.map fun b => (Err.bodyEnd, b.1 - 16))
  | .mark _ _ _ _ _ _ | .arc _ _ _ _ _ _ | .jump _ _ _ _ | .facet _ _ _ _ _ _ _ =>
    match cmd.chord cur (s.params n) with
    | none => []
    | some c =>
      let p := (s.planFrom n).2.2
      bad (!c.coordsOk) Err.range ++
      (match c.shape with
       | .arc cx cy _ => bad (!arcRadiusOk p.nx p.ny cx cy) Err.range
       | .facet slot _ _ _ _ => bad (decide (slot < 8) && !s.slotOk n slot) Err.facetSlot
       | _ => [])
  | .waitTime _ _ _ _ | .waitEvent _ _ _ _ | .set _ _ _ _ | .marker _ | .halt => []

/-- The error a command is reported with: the lowest code (R170). -/
def State.cmdError (s : State) (n w : Nat) : Option (Nat × Nat) :=
  let cur := s.cursor n
  let own := (wordErrors w).map fun e => (e, cur.pc)
  let sem := match decodeCmd w with | some c => s.semErrors n cur c | none => []
  (own ++ sem).foldl (fun (m : Option (Nat × Nat)) e => match m with
    | none => some e
    | some x => if e.1 < x.1 then some e else some x) none

/-- A malformed command (R170). -/
def State.holdProgram (s : State) (n code addr : Nat) : State :=
  let s := s.wrs [(K.CS_ERROR n, code), (K.CS_ERROR_ADDR n, addr)]
  (s.raise (srcSeq n) 0x0001 3 n (code + addr * 2 ^ 24)).holdSeq n 2

/-- Decoding the command at the cursor when its opcode is `op`: it is malformed, or has its effect. -/
def State.decodeAt (s : State) (n op : Nat) (eff : Cmd → Cursor → State → State) : State :=
  match s.atCmd n with
  | none => s
  | some w =>
    let s := if w % 256 = op ∧ (s.chan n).haltAt.isNone then s.breakOn n [s.rd (K.CS_PC n)] else s
    if w % 256 ≠ op ∨ (s.atCmd n).isNone then s
    else match s.cmdError n w with
      | some e => s.holdProgram n e.1 e.2
      | none => match decodeCmd w with
        | some c => eff c (s.cursor n) s
        | none => s

/-- A non-chord command is done: the sequencer stands at `cur`, and one more command counts against the next chord. -/
def State.passCmd (s : State) (n : Nat) (cur : Cursor) : State :=
  let s := s.setChan n { s.chan n with decodes := (s.chan n).decodes + 1 }
  (s.moveTo n cur).fetchCheck n

/-- A chord comes up with nothing planned: it waits for its decision, a JUMP for its next sample (R145, R210). -/
def State.chordUp (s : State) (n : Nat) (c : Cmd) (cur : Cursor) : State :=
  let ch := s.chan n
  if !ch.run.isEmpty ∨ ch.cand.isSome ∨ ch.offAt.isSome ∨ ch.haltAt.isSome then s
  else match c.chord cur (s.params n) with
    | none => s
    | some d =>
      let first := max ch.notBefore (s.nextSample (s.tm.tick + 320)) + 400 * decodeDelay ch.decodes
      let f := s.planFrom n
      if d.isJump ∧ !d.reorder then
        if s.phase = Phase.recoat ∧ !(match s.layer.cur with | some l => l.expose | none => false) then s
        else s.planJump n (first - 400 * decodeDelay ch.decodes) f.2.2 d (cur.skip 1) ch.decodes
      else if d.reorder then s
      else
        let s := s.setChan n { ch with cand := some { Cand.blank first with chords := [(d, some (cur.skip 1))] } }
        s.syncSlots n

/-- A debug step stops before a wait, a claim or the layer close without executing it (R516). -/
def State.unlessStep (s : State) (n : Nat) (k : State → State) : State := if (s.chan n).stepping then s.holdDebug n else k s

/-- MARK (R147). -/
def State.markCmd (s : State) (n : Nat) : State := s.decodeAt n Op.mark fun c cur s => s.chordUp n c cur

/-- MARK (R147). -/
def execMark (n : Fin 16) (s : State) : Host.Outcome State Fault Refusal := live (fun s => s.markCmd n) s

/-- ARC (R148). -/
def State.arcCmd (s : State) (n : Nat) : State := s.decodeAt n Op.arc fun c cur s => s.chordUp n c cur

/-- ARC (R148). -/
def execArc (n : Fin 16) (s : State) : Host.Outcome State Fault Refusal := live (fun s => s.arcCmd n) s

/-- JUMP (R149). -/
def State.jumpCmd (s : State) (n : Nat) : State := s.decodeAt n Op.jump fun c cur s => s.chordUp n c cur

/-- JUMP (R149). -/
def execJump (n : Fin 16) (s : State) : Host.Outcome State Fault Refusal := live (fun s => s.jumpCmd n) s

/-- FACET (R150). -/
def State.facetCmd (s : State) (n : Nat) : State := s.decodeAt n Op.facet fun c cur s => s.chordUp n c cur

/-- FACET (R150). -/
def execFacet (n : Fin 16) (s : State) : Host.Outcome State Fault Refusal := live (fun s => s.facetCmd n) s

/-- FLOAT (R152, R153): the body is posted whole, or the channel waits for room, giving up what it had planned beyond; a body that
cannot be fetched is waited for. -/
def State.floatCmd (s : State) (n : Nat) : State :=
  s.decodeAt n Op.float fun c cur s => match c with
    | .float count lune =>
      match s.fetchBody n (cur.pc + 16) count with
      | none => s.holdFetch n (s.bodyHole n (cur.pc + 16) count)
      | some body =>
        if s.poolFits count then
          let its := bodyItems cur.ox cur.oy n body
          let s := (s.post lune its).bump 32 (K.CS_POSTED n) its.length
          (s.countBeats n ((cur.pc % 64 + 16 * count) / 64)).passCmd n (cur.skip (count + 1))
        else (((s.dropRun n).setChan n { (s.dropRun n).chan n with wait := .posting }).noWait n).wr (K.CS_ACTIVITY n) 2
    | _ => s

/-- FLOAT (R152). -/
def execFloat (n : Fin 16) (s : State) : Host.Outcome State Fault Refusal := live (fun s => s.floatCmd n) s

/-- POSTING_RELEASE (R153, R155): a waiting FLOAT posts, or does so at the end of the item in hand. -/
def State.postingRelease (s : State) (n : Nat) : State :=
  let c := s.chan n
  if c.wait ≠ .posting ∨ s.rd (K.BC_STATE n) ≠ Bc.run then s
  else
    let count := match (s.readNum n (s.rd (K.CS_PC n)) 16).bind decodeCmd with
      | some (.float k _) => k
      | _ => 0
    if !s.poolFits count then s
    else if c.run.isEmpty then s.postWaiting n s.tm.tick
    else s.setChan n { c with released := some s.tm.tick }

/-- POSTING_RELEASE (R153). -/
def execPostingRelease (n : Fin 16) (s : State) : Host.Outcome State Fault Refusal := live (fun s => s.postingRelease n) s

/-- CLAIM (R154): the channel takes items; the claim ends at once where none is left, or where none was left when the chord after it was
decided (notes/assumptions/142). -/
def State.claimCmd (s : State) (n : Nat) : State :=
  s.decodeAt n Op.claim fun c cur s => match c with
    | .claim limit lune any => s.unlessStep n fun s =>
      if s.aheadOf n then s.passCmd n (cur.skip 1)
      else
        let s := (s.setChan n { s.chan n with wait := .claiming any lune limit 0 }).wr (K.CS_ACTIVITY n) 3
        if s.refusedDue n then s.holdRefused n
        else if (s.chan n).run.isEmpty ∧ (s.chan n).refused.isNone ∧ !s.anyItem n any lune then s.claimEmpty n else s
    | _ => s

/-- CLAIM (R154). -/
def execClaim (n : Fin 16) (s : State) : Host.Outcome State Fault Refusal := live (fun s => s.claimCmd n) s

/-- WAIT_TIME (R157): a wait whose instant has passed when it begins is released at once and counted. -/
def State.waitTimeCmd (s : State) (n : Nat) : State :=
  s.decodeAt n Op.waitTime fun c _ s => match c with
    | .waitTime t serve trig at' => s.unlessStep n fun s =>
      let s := (s.setChan n { s.chan n with wait := .time t at' trig serve }).wr (K.CS_ACTIVITY n) 4
      if at' ∧ atOrAfter s.now t then ((s.inc (K.CS_WAIT_LATE n)).wake n s.tm.tick).fetchCheck n else s
    | _ => s

/-- WAIT_TIME (R157). -/
def execWaitTime (n : Fin 16) (s : State) : Host.Outcome State Fault Refusal := live (fun s => s.waitTimeCmd n) s

/-- WAIT_TIME_RELEASE (R157): the waited instant has come. -/
def State.waitTimeRelease (s : State) (n : Nat) : State :=
  match (s.chan n).wait with
  | .time t true _ _ =>
    if (s.chan n).released.isNone ∧ atOrAfter s.now t then (s.wake n s.tm.tick).fetchCheck n else s
  | _ => s

/-- WAIT_TIME_RELEASE (R157). -/
def execWaitTimeRelease (n : Fin 16) (s : State) : Host.Outcome State Fault Refusal := live (fun s => s.waitTimeRelease n) s

/-- WAIT_EVENT (R158, R173): a matching event of the tick on which it begins counts. -/
def State.waitEventCmd (s : State) (n : Nat) : State :=
  s.decodeAt n Op.waitEvent fun c _ s => match c with
    | .waitEvent timeout code src serve => s.unlessStep n fun s =>
      let s := (s.setChan n { s.chan n with wait := .event src code s.tm.tick timeout serve }).wr (K.CS_ACTIVITY n) 5
      if s.ev.recent.any (fun h => (s.chan n).matches h) then (s.wake n s.tm.tick).fetchCheck n else s
    | _ => s

/-- WAIT_EVENT (R158). -/
def execWaitEvent (n : Fin 16) (s : State) : Host.Outcome State Fault Refusal := live (fun s => s.waitEventCmd n) s

/-- EVENT_TIMEOUT (R158): at the end of an item in hand, else at once. -/
def execEventTimeout (n : Fin 16) (s : State) : Host.Outcome State Fault Refusal :=
  live (fun s => if s.eventLate n ∧ s.rd (K.BC_STATE n) = Bc.run ∧ (s.chan n).run.isEmpty then s.holdTimeout n else s) s

/-- A channel that waits at a barrier met with another mask (R159): one that serves ends its item first, one in HOLD already holds for
this cause when it goes on. -/
def State.mismatch (s : State) (n : Nat) : State :=
  let c := s.chan n
  if c.run.isEmpty ∧ s.rd (K.BC_STATE n) = Bc.run then (s.setChan n { c with wait := .none }).holdSeq n 5
  else s.setChan n { c with wait := .mismatch, released := none }

/-- BARRIER (R159). -/
def State.barrierCmd (s : State) (n : Nat) : State :=
  s.decodeAt n Op.barrier fun c _ s => match c with
    | .barrier mask id serve => s.unlessStep n fun s =>
      let clash := (others n).filter fun m => (s.rd (K.BC_STATE m) == Bc.run || s.rd (K.BC_STATE m) == Bc.hold) && (s.chan m).released.isNone &&
        (match (s.chan m).wait with
         | .barrier i k _ => i == id && k != mask
         | _ => false)
      if clash.isEmpty then
        ((s.setChan n { s.chan n with wait := .barrier id mask serve }).wr (K.CS_ACTIVITY n) 6).barrierTry
      else (clash.foldl (fun s m => s.mismatch m) s).holdSeq n 5
    | _ => s

/-- BARRIER (R159). -/
def execBarrier (n : Fin 16) (s : State) : Host.Outcome State Fault Refusal := live (fun s => s.barrierCmd n) s

/-- SET (R160). -/
def State.setCmd (s : State) (n : Nat) : State :=
  s.decodeAt n Op.set fun c cur s => match c with
    | .set pa va pb vb =>
      let s := s.wr (paramKey n pa) va
      let s := if pb = 0 then s else s.wr (paramKey n pb) vb
      s.passCmd n (cur.skip 1)
    | _ => s

/-- SET (R160). -/
def execSet (n : Fin 16) (s : State) : Host.Outcome State Fault Refusal := live (fun s => s.setCmd n) s

/-- CALL (R162). -/
def State.callCmd (s : State) (n : Nat) : State :=
  s.decodeAt n Op.call fun c cur s => match c with
    | .call dx dy t => (match cur.call dx dy t with | some k => s.passCmd n k | none => s)
    | _ => s

/-- CALL (R162). -/
def execCall (n : Fin 16) (s : State) : Host.Outcome State Fault Refusal := live (fun s => s.callCmd n) s

/-- RETURN (R163). -/
def State.retCmd (s : State) (n : Nat) : State :=
  s.decodeAt n Op.ret fun _ cur s => match cur.ret with | some k => s.passCmd n k | none => s

/-- RETURN (R163). -/
def execReturn (n : Fin 16) (s : State) : Host.Outcome State Fault Refusal := live (fun s => s.retCmd n) s

/-- REPEAT (R164). -/
def State.repCmd (s : State) (n : Nat) : State :=
  s.decodeAt n Op.rep fun c cur s => match c with
    | .rep dx dy count len => (match cur.rep dx dy count len with | some k => s.passCmd n k | none => s)
    | _ => s

/-- REPEAT (R164). -/
def execRepeat (n : Fin 16) (s : State) : Host.Outcome State Fault Refusal := live (fun s => s.repCmd n) s

/-- MARKER (R165). -/
def State.markerCmd (s : State) (n : Nat) : State :=
  s.decodeAt n Op.marker fun c cur s => match c with
    | .marker tag => (s.raise (srcSeq n) 0x0010 4 n tag).passCmd n (cur.skip 1)
    | _ => s

/-- MARKER (R165). -/
def execMarker (n : Fin 16) (s : State) : Host.Outcome State Fault Refusal := live (fun s => s.markerCmd n) s

/-- LAYER_CLOSE (R166): the channel serves until nothing is left, then has reached it. -/
def State.closeCmd (s : State) (n : Nat) : State :=
  s.decodeAt n Op.close fun _ _ s => s.unlessStep n fun s =>
    let s := s.setChan n { s.chan n with wait := .closing }
    if s.closeReady n then s.reachClose n else s.wr (K.CS_ACTIVITY n) 3

/-- LAYER_CLOSE (R166). -/
def execLayerClose (n : Fin 16) (s : State) : Host.Outcome State Fault Refusal := live (fun s => s.closeCmd n) s

/-- HALT (R167). -/
def State.haltCmd (s : State) (n : Nat) : State := s.decodeAt n Op.halt fun _ _ s => s.holdSeq n 3

/-- HALT (R167). -/
def execHalt (n : Fin 16) (s : State) : Host.Outcome State Fault Refusal := live (fun s => s.haltCmd n) s

/-- BAD_OPCODE (R144, R170). -/
def State.badOpcode (s : State) (n : Nat) : State :=
  match s.atCmd n with
  | none => s
  | some w => if (decodeCmd w).isNone then s.holdProgram n Err.badOpcode (s.rd (K.CS_PC n)) else s

/-- BAD_OPCODE (R170). -/
def execBadOpcode (n : Fin 16) (s : State) : Host.Outcome State Fault Refusal := live (fun s => s.badOpcode n) s

/-- A held sequencer goes on; a wait met while it was held is over, and a barrier that it completes is released (R159, R171, R515). -/
def State.goOn (s : State) (n : Nat) : State :=
  let s := s.runSeq n (s.tm.tick + 400)
  if (s.chan n).released.isSome then (s.wake n s.tm.tick).fetchCheck n
  else if (s.chan n).wait = .mismatch then (s.setChan n { s.chan n with wait := .none }).holdSeq n 5
  else (s.wr (K.CS_ACTIVITY n) (s.chan n).wait.activity).barrierTry.fetchCheck n

/-- A write of 0x01 to CS_CONTROL (R171). -/
def csResumeEff (n : Nat) (s : State) : Nat × State :=
  let cause := s.rd (K.CS_HOLD_CAUSE n)
  if s.rd (K.BC_STATE n) ≠ Bc.hold ∨ cause < 2 ∨ 5 < cause then (Ans.refused, s)
  else
    let s := if cause = 3 then s.moveTo n ((s.cursor n).skip 1) else s
    (Ans.ok, s.goOn n)

/-- Commands a SKIP passes over: a REPEAT or FLOAT goes with its body. -/
def Cmd.span : Cmd → Nat
  | .rep _ _ _ len => len + 1
  | .float count _ => count + 1
  | _ => 1

/-- A write of 0x02 to CS_CONTROL (R171). A channel held inside a claim or a serving goes on with it (R150). -/
def csSkipEff (n : Nat) (s : State) : Nat × State :=
  let cause := s.rd (K.CS_HOLD_CAUSE n)
  if s.rd (K.BC_STATE n) ≠ Bc.hold ∨ (cause ≠ 2 ∧ cause ≠ 4) then (Ans.refused, s)
  else if (s.chan n).wait ≠ .none then (Ans.ok, s.goOn n)
  else
    let cmd := (s.readNum n (s.rd (K.CS_PC n)) 16).bind decodeCmd
    match cmd with
    | some (.close _) =>
      let s := s.runSeq n (s.tm.tick + 400)
      (Ans.ok, s.reachClose n)
    | _ =>
      let k := (cmd.map Cmd.span).getD 1
      (Ans.ok, (s.moveTo n ((s.cursor n).skip k)).goOn n)

/-- A write of CS_CONTROL. -/
def csControlEff (n v : Nat) (s : State) : Nat × State := if v = 1 then csResumeEff n s else csSkipEff n s

/-- CS_RESUME (R171). -/
def execCsResume (m : Msg) (n : Fin 16) (s : State) : Host.Outcome State Fault Refusal :=
  writeCmd m (K.CS_CONTROL n) 1 1 (csControlEff n) s

/-- CS_SKIP (R171). -/
def execCsSkip (m : Msg) (n : Fin 16) (s : State) : Host.Outcome State Fault Refusal :=
  writeCmd m (K.CS_CONTROL n) 1 2 (csControlEff n) s

end Sys2Proof.Machine
end

