-- ==== Sys2Proof/Machine/Actions.lean ====
section
/-! DEFINITION. The actions that time triggers and compare units deliver (R56, R376), and their firings. -/

namespace Sys2Proof.Machine

/-- LOOP_CYCLE (R56, R311): a loop whose timing is TRIGGER has a sample to make from this tick; one that has not yet made the
sample asked for before is not started anew (R324). -/
def State.loopCycle (s : State) (m : Nat) : State :=
  if m < 64 ∨ s.rd (K.LOOP_TIMING m) ≠ 1 ∨ (s.loop m).mark.isSome then s
  else s.setLoop m { s.loop m with mark := some (0, 0, s.tm.tick) }

/-- WAIT_RELEASE (R56, R157): the pending WAIT_TIME of a sequencer that allows a trigger is released. -/
def State.waitRelease (s : State) (n : Nat) : State :=
  match (s.chan n).wait with
  | .time _ _ true _ => if (s.chan n).released.isNone then (s.wake n s.tm.tick).fetchCheck n else s
  | _ => s

/-- Delivering an action to its target (R56). -/
def State.deliver (s : State) (action target : Nat) : State :=
  match action with
  | 1 => s.loopCycle target
  | 2 => if target < 16 then s.expose target else s
  | 3 => if target < 4 then s.expose (16 + target) else s
  | 4 => if target < 8 then s.fireFlash target else s
  | 5 => if target < 4 then s.axisLatch target else s
  | 6 => if target < 16 then s.waitRelease target else s
  | _ => s

/-- TRIGGER_FIRED (R53): a trigger that is due fires. -/
def State.triggerFired (s : State) (n : Nat) : State :=
  if s.triggerDue n then (s.fireTrigger n).deliver (s.rd (K.TT_ACTION n)) (s.rd (K.TT_TARGET n)) else s

/-- TRIGGER_FIRED (R53). -/
def execTriggerFired (n : Fin 64) (s : State) : Host.Outcome State Fault Refusal := live (fun s => s.triggerFired n) s

/-- COMPARE (R376): a unit that has been reached fires. -/
def State.compareFired (s : State) (k c : Nat) : State :=
  if s.cmpDue k c then (s.fireCompare k c).deliver (s.rd (K.CMP_ACTION k c)) (s.rd (K.CMP_TARGET k c)) else s

/-- COMPARE (R376). -/
def execCompare (k : Fin 4) (c : Fin 8) (s : State) : Host.Outcome State Fault Refusal := live (fun s => s.compareFired k c) s

end Sys2Proof.Machine
end

