-- ==== Sys2Proof/Machine/Bed.lean ====
section
/-! DEFINITION. The bed engine (R297 to R300): images into their buffers, stripes, defects and the output. -/

namespace Sys2Proof.Machine

/-- The address of an image's pixel `i` in its buffer (R298). -/
def State.imageAddr (s : State) (k : Nat) (f : PFrame) (i : Nat) : Nat :=
  s.rd (K.BD_FRAME_BASE k) + f.buf * s.rd (K.BD_FRAME_STRIDE k) + 2 * i

/-- Pixels of an image that are in memory. -/
def PFrame.stored (f : PFrame) : Nat := min f.next (f.set.w * f.set.h) - f.pixels.length

/-- Pixels received go to memory unless the context is parked (R298). -/
def State.flushImage (s : State) (k : Nat) (f : PFrame) : PFrame × State :=
  if f.dead || f.pixels.isEmpty then (f, s)
  else
    let t := s.tryWrite (32 + k) (s.imageAddr k f f.stored) (f.pixels.reverse.flatMap (toLE 2))
    if t.1 then ({ f with pixels := [] }, t.2) else (f, t.2)

/-- Pixels of every image of a context that still wait go to memory. -/
def State.flushImages (s : State) (k : Nat) : State :=
  let r := (s.pipe k).closing.foldl (fun (a : List PFrame × State) f => let t := a.2.flushImage k f; (a.1 ++ [t.1], t.2)) ([], s)
  let s := r.2.setPipe k { r.2.pipe k with closing := r.1 }
  match (s.pipe k).frame with
  | some f => let t := s.flushImage k f; t.2.setPipe k { t.2.pipe k with frame := some t.1 }
  | none => s

/-- What a pipeline context still has to put into memory once its context has resumed (R280, R298). -/
def State.pipeTick (s : State) (k : Nat) : State :=
  let x := s.pipe k
  if s.rd (K.TC_STATE (32 + k)) = 2 then s
  else
    let s := if x.held.isEmpty then s else flushRecords k x.held s
    let open' : Bool := match x.frame with
      | some f => !f.dead && !f.pixels.isEmpty
      | none => false
    let bed := (s.pcOwner k).any (fun o => decide (16 ≤ o))
    if bed && ((x.closing.any fun f => !f.pixels.isEmpty) || open') then s.flushImages k else s

/-- CAMERA_SLICE_START (R350, R298). -/
def execCameraSliceStart (c : Fin 4) (frame : BitVec 32) (start : BitVec 64) (tag w h : BitVec 16) (s : State) :
    Host.Outcome State Fault Refusal :=
  live (fun s => s.onLink (16 + c) (fun k s => s.sliceStart k (16 + c) frame.toNat start.toNat tag.toNat w.toNat h.toNat)) s

/-- CAMERA_SLICE_PIXELS (R350, R298). -/
def execCameraSlicePixels (c : Fin 4) (frame offset : BitVec 32) (pixels : List (BitVec 16)) (s : State) :
    Host.Outcome State Fault Refusal :=
  live (fun s => s.onLink (16 + c) (fun k s =>
    (s.slicePixels k frame.toNat offset.toNat (pixels.map (·.toNat))).flushImages k)) s

/-- CAMERA_SLICE_END (R350). -/
def execCameraSliceEnd (c : Fin 4) (frame _sent : BitVec 32) (s : State) : Host.Outcome State Fault Refusal :=
  live (fun s => s.onLink (16 + c) (fun k s => s.sliceEnd k frame.toNat)) s

/-- A reference of a BED_BULK record (R457): dark for gain 0 to 3, flat, defect map. -/
def PFrame.bulk (f : PFrame) (i : Nat) : Option (Nat × Nat) :=
  (f.table 0x28).map fun r => (leNat (r.payload.take 4), leNat ((r.payload.drop (8 + 16 * i)).take 8))

/-- A little-endian number through a context, whatever its page's state: 0 where it is not mapped. -/
def State.peekNum (s : State) (tc addr n : Nat) : Nat :=
  leNat ((List.range n).map fun i => ((s.translate tc (addr + i)).map s.physByte).getD 0)

/-- A U16 of a bulk table for a pixel. -/
def State.bulkU16 (s : State) (k : Nat) (f : PFrame) (i x y dflt : Nat) : Nat :=
  match f.bulk i with
  | none => dflt
  | some (w, a) => s.peekNum (32 + k) (a + 2 * ((f.set.y + y) * w + f.set.x + x)) 2

/-- The pixel is listed in the bulk defect map. -/
def State.bulkListed (s : State) (k : Nat) (f : PFrame) (x y : Nat) : Bool :=
  match f.bulk 5 with
  | none => false
  | some (w, a) =>
    let i := (f.set.y + y) * w + f.set.x + x
    (s.peekNum (32 + k) (a + i / 8) 1).testBit (i % 8)

/-- A pixel after the dark stage (R298). -/
def State.bedDark (s : State) (k : Nat) (f : PFrame) (x y : Nat) : Nat :=
  s.peekNum (32 + k) (s.imageAddr k f (y * f.set.w + x)) 2 - s.bulkU16 k f f.set.gain x y 0

/-- A pixel after stages 1 to 3: none where it is void (R298). -/
def State.bedPixel (s : State) (k : Nat) (f : PFrame) (x y : Nat) : Option Nat :=
  let d : Option Nat :=
    if s.bulkListed k f x y then
      let near : List (Int × Int) := [((x : Int) - 4, (y : Int)), ((x : Int) + 4, (y : Int)), ((x : Int), (y : Int) - 4), ((x : Int), (y : Int) + 4)].filter
        fun (q : Int × Int) => decide (0 ≤ q.1) && decide (q.1 < f.set.w) && decide (0 ≤ q.2) && decide (q.2 < f.lines) &&
          !s.bulkListed k f q.1.toNat q.2.toNat
      if near.isEmpty then none
      else some ((2 * (near.foldl (fun t (q : Int × Int) => t + s.bedDark k f q.1.toNat q.2.toNat) 0) + near.length) / (2 * near.length))
    else some (s.bedDark k f x y)
  d.map fun d => min 65535 ((d * s.bulkU16 k f 4 x y 16384 + 8192) / 16384)

/-- A pixel after stages 1 to 3, with the value the manual does not give where it is void. -/
def State.bedValue (s : State) (k : Nat) (f : PFrame) (x y : Nat) : Nat :=
  (s.bedPixel k f x y).getD (Config.voidPixel (f.set.x + x) (f.set.y + y)).toNat

/-- The value of a colour in block (bx, by) (R298). -/
def State.blockValue (s : State) (k : Nat) (f : PFrame) (colour bx by' : Nat) : Nat :=
  let pat := s.rd (K.BD_PATTERN k)
  let at' := (List.range 16).filter fun i => octByte pat i == colour
  let vals := at'.map fun i => s.bedValue k f (4 * bx + i % 4) (4 * by' + i / 4)
  if vals.isEmpty then 0 else (2 * vals.foldl (· + ·) 0 + vals.length) / (2 * vals.length)

/-- A block of a stripe: its five values, its mark (0 none, 1 dark, 2 bright), and its temperature plus 1, or 0 (R298). -/
def State.block (s : State) (k : Nat) (f : PFrame) (bx by' : Nat) : List Nat :=
  let v := (List.range 5).map fun c => s.blockValue k f c bx by'
  let ref := f.par.getD 0 0
  let level : Int := (f.par.getD 1 0 : Nat)
  let delta : Int := (v.getD 0 0 : Int) - s.peekNum (32 + k) (ref + 2 * (by' * (f.set.w / 4) + bx)) 2
  let mark := if ref = 0 then 0 else if delta < -level then 1 else if delta > level then 2 else 0
  let temp := match f.table 0x29 with
    | none => 0
    | some r => match curve257 r.payload (v.getD 4 0) with
      | some t => t + 1
      | none => 0
  v ++ [mark, temp]

/-- Stripes of an image to be processed (R282, R298): all of a whole image, the whole stripes of a short one. -/
def PFrame.stripeCount (f : PFrame) : Nat := if f.short then f.lines / 64 else (f.set.h + 63) / 64

/-- Lines of stripe `i`. -/
def PFrame.stripeLines (f : PFrame) (i : Nat) : Nat := min 64 (f.set.h - 64 * i)

/-- The first fault the engine meets when it reads what a stripe needs. -/
def State.stripeFault (s : State) (k : Nat) (f : PFrame) : Option (Nat × Nat) :=
  let i := f.stripes
  let w := f.set.w
  let n := f.stripeLines i
  let image := s.firstFault (32 + k) (s.imageAddr k f (64 * i * w)) (2 * w * n) false
  let ref := f.par.getD 0 0
  let refs := if ref = 0 then none else s.firstFault (32 + k) (ref + 2 * (16 * i * (w / 4))) (2 * (w / 4) * (n / 4)) false
  let tables := [f.set.gain, 4].findSome? fun t => match f.bulk t with
    | none => none
    | some (tw, a) => s.firstFault (32 + k) (a + 2 * ((f.set.y + 64 * i) * tw)) (2 * tw * n) false
  let defects := match f.bulk 5 with
    | none => none
    | some (tw, a) => s.firstFault (32 + k) (a + (f.set.y + 64 * i) * tw / 8) (tw * n / 8 + 1) false
  (((image.or refs).or tables).or defects)

/-- The next stripe of an image: its blocks are added; none where a read parks the context. -/
def State.doStripe (s : State) (k : Nat) (f : PFrame) : Option PFrame × State :=
  match s.stripeFault k f with
  | some (kind, a) => (none, s.park (32 + k) kind a false)
  | none =>
    let rows := f.stripeLines f.stripes / 4
    let blocks := (List.range rows).flatMap fun r => (List.range (f.set.w / 4)).map fun bx => s.block k f bx (16 * f.stripes + r)
    (some { f with stripes := f.stripes + 1, blocks := f.blocks ++ blocks }, s)

/-- The image the engine works on: the oldest of a context. -/
def Pipe.image (x : Pipe) : Option (PFrame × Bool) :=
  match x.closing, x.frame with
  | f :: _, _ => some (f, true)
  | [], some f => if f.dead then none else some (f, false)
  | [], none => none

/-- Putting the image the engine works on back. -/
def Pipe.putImage (x : Pipe) (f : PFrame) : Pipe :=
  match x.closing with
  | _ :: rest => { x with closing := f :: rest }
  | [] => { x with frame := some f }

/-- The bed engine runs (R298, R483, R484). -/
def State.bedRuns (s : State) (k : Nat) : Bool :=
  (s.pcOwner k).any (fun o => decide (16 ≤ o)) && decide (s.rd K.DT_LEVEL < 2) && !s.enginesStopped &&
    s.rd (K.TC_STATE (32 + k)) != 2

/-- BED_STRIPE (R298): a stripe that is in memory, and is not the image's last, is processed. -/
def State.bedStripe (s : State) (k : Nat) : State :=
  let x := s.pipe k
  match x.image with
  | none => s
  | some (f, closed) =>
    let last := closed && decide (f.stripeCount ≤ f.stripes + 1)
    let whole := decide ((64 * f.stripes + f.stripeLines f.stripes) * f.set.w ≤ f.stored) && decide (64 * f.stripes < f.set.h)
    if !s.bedRuns k ∨ last ∨ !whole ∨ (!closed ∧ f.set.h ≤ 64 * (f.stripes + 1)) then s
    else match s.doStripe k f with
      | (some f, s) => s.setPipe k ((s.pipe k).putImage f)
      | (none, s) => s

/-- BED_STRIPE (R298). -/
def execBedStripe (k : Fin 24) (s : State) : Host.Outcome State Fault Refusal := live (fun s => s.bedStripe k) s

/-- Runs of at least `least` blocks that satisfy a test along one block column: the positions of each run. -/
def longRuns (least : Nat) : List (Nat × Bool) → List Nat → List (List Nat)
  | [], run => if least ≤ run.length then [run] else []
  | (i, true) :: t, run => longRuns least t (i :: run)
  | (_, false) :: t, run => if least ≤ run.length then run :: longRuns least t [] else longRuns least t []

/-- Layer and phase at a stamp (R300). -/
def phaseAt (mid : Nat) : Nat × Nat → List (Nat × Nat × Nat) → Nat × Nat
  | now, [] => now
  | now, (t, l, p) :: rest => if atOrAfter mid t then now else phaseAt mid (l, p) rest

/-- The defects of an image (R299): streaks, short lines, raised parts. -/
def PFrame.defects (f : PFrame) : List (List Nat) × List Nat × Nat :=
  let bw := f.set.w / 4
  let bh := f.blocks.length / max 1 bw
  let mark := fun (x y : Nat) => (f.blocks.getD (y * bw + x) []).getD 5 0
  let rows := f.par.getD 2 0 == 0
  -- a block column runs along the travel: a row of the image when the travel is along rows
  let cols := if rows then bh else bw
  let len := if rows then bw else bh
  let pos := fun (c i : Nat) => if rows then c * bw + i else i * bw + c
  let at' := fun (c i : Nat) => if rows then mark i c else mark c i
  let streaks := (List.range cols).flatMap fun c =>
    longRuns (f.par.getD 3 0) ((List.range len).map fun i => (pos c i, at' c i != 0)) []
  let short := (List.range len).filter fun i =>
    decide (f.par.getD 4 0 * cols ≤ 256 * ((List.range cols).filter fun c => at' c i == 1).length) && decide (0 < cols)
  let bright := (List.range (bw * bh)).filter fun i => (f.blocks.getD i []).getD 5 0 == 2
  let near4 := fun (i j : Nat) =>
    (i / bw == j / bw && (i == j + 1 || j == i + 1)) || i == j + bw || j == i + bw
  let raised := (groupsOf near4 bright.length bright).filter fun g =>
    decide (f.par.getD 5 0 ≤ g.length) && !(g.any fun i => streaks.any fun t => t.contains i)
  (streaks, short, raised.length)

/-- The tile a block's centre maps to (R255, R457): none without a map, or outside the lattice. -/
def State.blockTile (s : State) (f : PFrame) (bx by' : Nat) : Option Nat :=
  match f.table 0x2A with
  | none => none
  | some r =>
    let h := fun (i : Nat) => sgn 64 (leNat ((r.payload.drop (8 * i)).take 8))
    let x2 : Int := (8 * bx + 3 : Nat)
    let y2 : Int := (8 * by' + 3 : Nat)
    let lin := fun (i : Nat) => h i * x2 + h (i + 1) * y2 + 2 * h (i + 2)
    let d := lin 6
    let g : Int := if d < 0 then -1 else 1
    if d = 0 then none else (cellNo (s.cellAt (g * lin 0 / (g * d)) (g * lin 3 / (g * d)))).map tileOf

/-- The thermal tile image (R299). -/
def State.thermalImage (s : State) (f : PFrame) : List Nat :=
  let bw := f.set.w / 4
  let vals := (List.range f.blocks.length).filterMap fun i =>
    let t := (f.blocks.getD i []).getD 6 0
    if t = 0 then none else (s.blockTile f (i % max 1 bw) (i / max 1 bw)).map fun tile => (tile, t - 1)
  (List.range 4096).map fun tile =>
    let v := vals.filterMap fun e => if e.1 = tile then some e.2 else none
    if v.isEmpty then 0xFFFF else (2 * v.foldl (· + ·) 0 + v.length) / (2 * v.length)

/-- Two bits a block in row order, packed (R300). -/
def packMarks : List Nat → List Byte
  | a :: b :: c :: d :: t => BitVec.ofNat 8 (a + 4 * b + 16 * c + 64 * d) :: packMarks t
  | [] => []
  | [a] => [BitVec.ofNat 8 a]
  | [a, b] => [BitVec.ofNat 8 (a + 4 * b)]
  | [a, b, c] => [BitVec.ofNat 8 (a + 4 * b + 16 * c)]

/-- The output of an image (R300), whole, with its counts. -/
def State.bedOutput (s : State) (k : Nat) (f : PFrame) : List Byte × (Nat × Nat × Nat) :=
  let bw := f.set.w / 4
  let bh := f.set.h / 4
  let d := f.defects
  let mark := fun (i : Nat) => (f.blocks.getD i []).getD 5 0
  let marks := (List.range (bw * bh)).map mark
  let count := fun (m : Nat) => (marks.filter (· == m)).length
  let map := packMarks marks
  let map := map ++ List.replicate ((64 - map.length % 64) % 64) 0
  let planes := if f.par.getD 6 0 = 1 then
      (List.range 5).flatMap fun c => (List.range (bw * bh)).flatMap fun i => toLE 2 ((f.blocks.getD i []).getD c 0)
    else []
  let body := map ++ (s.thermalImage f).flatMap (toLE 2) ++ planes
  let trunc := decide (s.rd (K.BD_OUT_SLOT k) < 64 + body.length)
  let at' := phaseAt f.mid (s.rd K.LAYER_NUMBER, s.phase) s.layer.past
  let flags := (if trunc then 8 else 0) + (if f.par.getD 0 0 = 0 then 4 else 0) + (if f.long then 2 else 0) + (if f.short then 1 else 0)
  let head := toLE 8 f.mid ++ toLE 8 s.now ++ toLE 4 f.number ++ toLE 2 f.set.tag ++ toLE 2 flags ++ toLE 4 at'.1 ++ toLE 1 at'.2 ++
    toLE 3 0 ++ toLE 4 (count 1) ++ toLE 4 (count 2) ++ toLE 2 d.1.length ++ toLE 2 d.2.1.length ++ toLE 2 d.2.2 ++
    toLE 2 (d.2.1.headD 0xFFFF) ++ toLE 2 bw ++ toLE 2 bh ++ List.replicate 12 0
  ((head ++ body).take (s.rd (K.BD_OUT_SLOT k)), (d.1.length, d.2.1.length, d.2.2))

/-- The image point of a bed point under a projective map (R457), as fractions: x and y numerators and their denominator, which is
not negative. -/
def imageOf (p : List Byte) (x y : Int) : Int × Int × Int :=
  let h := fun (i : Nat) => sgn 64 (leNat ((p.drop (8 * i)).take 8))
  let a := h 0 - x * h 6
  let b := h 1 - x * h 7
  let c := h 3 - y * h 6
  let d := h 4 - y * h 7
  let u := x * h 8 - h 2
  let v := y * h 8 - h 5
  let det := a * d - b * c
  let px := u * d - b * v
  let py := a * v - u * c
  if det < 0 then (-px, -py, -det) else (px, py, det)

/-- The bed point of an image point given as fractions over one positive denominator, to nearest nm. -/
def bedOf (p : List Byte) (sx sy w : Int) : Option (Int × Int) :=
  let h := fun (i : Nat) => sgn 64 (leNat ((p.drop (8 * i)).take 8))
  let lin := fun (i : Nat) => h i * sx + h (i + 1) * sy + h (i + 2) * w
  let d := lin 6
  if d = 0 then none
  else
    let g : Int := if d < 0 then -1 else 1
    some (divHalfAway (g * lin 0) d.natAbs, divHalfAway (g * lin 3) d.natAbs)

/-- The camera context in which a fiducial is sought (R463): the first of PC16 to PC19 whose installed map places it inside the
image. -/
def State.fiducialContext (s : State) (x y : Int) : Option Nat :=
  [16, 17, 18, 19].find? fun k => match s.record (0x2A00 + k), s.newestSet k with
    | some r, some t =>
      let q := imageOf r.payload x y
      decide (0 < q.2.2) && decide (0 ≤ q.1) && decide (0 ≤ q.2.1) && decide (q.1 ≤ ((t.w : Int) - 1) * q.2.2) &&
        decide (q.2.1 ≤ ((t.h : Int) - 1) * q.2.2)
    | _, _ => false

/-- Clear pixels of the search window about a pixel: x, y and the corrected value (R298, R463). -/
def State.windowPixels (s : State) (k : Nat) (f : PFrame) (cx cy : Int) : List (Nat × Nat × Nat) :=
  let w := s.rd K.CAL_FID_WINDOW
  let pat := s.rd (K.BD_PATTERN k)
  (List.range w).flatMap fun j => (List.range w).filterMap fun i =>
    let x := cx - (w / 2 : Nat) + i
    let y := cy - (w / 2 : Nat) + j
    if x < 0 ∨ y < 0 ∨ (f.set.w : Int) ≤ x ∨ (f.lines : Int) ≤ y then none
    else
      let u := x.toNat
      let v := y.toNat
      if octByte pat (v % 4 * 4 + u % 4) ≠ 0 then none else some (u, v, s.bedValue k f u v)

/-- The measured point of a fiducial in an image (R463): pixels above the window mean by the contrast, weighted by that excess. -/
def State.fiducialIn (s : State) (k : Nat) (f : PFrame) (p : List Byte) (x y : Int) : Option (Int × Int) :=
  let q := imageOf p x y
  let px := s.windowPixels k f (divHalfAway q.1 q.2.2.natAbs) (divHalfAway q.2.1 q.2.2.natAbs)
  let n : Int := px.length
  let sum : Int := (px.foldl (fun a e => a + e.2.2) 0 : Nat)
  let c : Int := s.rd K.CAL_FID_CONTRAST
  let lit := px.filter fun e => decide (sum + c * n ≤ (e.2.2 : Int) * n)
  let weight := fun (e : Nat × Nat × Nat) => (e.2.2 : Int) * n - sum
  let tot := lit.foldl (fun a e => a + weight e) 0
  let sx := lit.foldl (fun a e => a + weight e * e.1) 0
  let sy := lit.foldl (fun a e => a + weight e * e.2.1) 0
  if lit.length < 16 ∨ tot ≤ 0 then none else bedOf p sx sy tot

/-- An image of a registration's capture (R463): the fiducials this context is to find. -/
def State.fiducialImage (s : State) (k : Nat) (f : PFrame) : State :=
  let m := s.cal.meas
  let st := s.rd K.CAL_MEAS_STATE
  if (st ≠ 1 ∧ st ≠ 2) ∨ m.kind ≠ 0x12 ∨ !m.waits.contains k ∨ f.slot ≠ some m.shot then s
  else match s.record (0x2A00 + k) with
    | none => s
    | some r =>
      let here := (List.range m.points.length).filterMap fun i =>
        let q := m.points.getD i (0, 0)
        if s.fiducialContext q.1 q.2 = some k then (s.fiducialIn k f r.payload q.1 q.2).map fun z => (i, z.1, z.2) else none
      { s with cal := { s.cal with meas := { m with found := m.found ++ here } } }

/-- BED_FRAME_DONE (R299, R300): the last stripe of an image that has ended is processed and the output written. -/
def State.bedFrameDone (s : State) (k : Nat) : State :=
  match (s.pipe k).closing with
  | [] => s
  | f :: rest =>
    let ready := decide (f.stripeCount ≤ f.stripes + 1) && f.pixels.isEmpty
    if !s.bedRuns k ∨ !ready then s
    else
      let r := if f.stripes < f.stripeCount then s.doStripe k f else (some f, s)
      match r with
      | (none, s) => s
      | (some f, s) =>
        let o := s.bedOutput k f
        let t := s.tryWrite (32 + k) (s.rd (K.BD_OUT_BASE k) + s.rd (K.BD_OUT_SLOT k) * (s.rd (K.BD_FRAMES_DONE k) % 4)) o.1
        if !t.1 then t.2
        else
          let s := t.2.fiducialImage k f
          let s := (s.setPipe k { s.pipe k with closing := rest }).inc (K.BD_FRAMES_DONE k)
          let s := s.raise (srcPipe k) 0x0075 4 k 0
          if o.2.1 = 0 ∧ o.2.2.1 = 0 ∧ o.2.2.2 = 0 then s
          else s.raise (srcPipe k) 0x0074 6 k (o.2.1 % 65536 + o.2.2.1 % 65536 * 2 ^ 16 + o.2.2.2 % 65536 * 2 ^ 32)

/-- BED_FRAME_DONE (R300). -/
def execBedFrameDone (k : Fin 24) (s : State) : Host.Outcome State Fault Refusal := live (fun s => s.bedFrameDone k) s

end Sys2Proof.Machine
end

