-- ==== Sys2Proof/Machine/Fleet.lean ====
section
/-! DEFINITION. Configuration agreement (R422 to R424): the nodes of the fleet, the fleet view, its exchange with the partner
and its comparison. -/

namespace Sys2Proof.Machine

/-- DATA of a twin event (R428): the role, and the epoch or a count. -/
def State.twinData (s : State) (v : Nat) : Nat := s.role + v % 2 ^ 32 * 2 ^ 32

/-- The node position of this part, and of its partner (R422). -/
def State.ownNode (s : State) : Nat := s.rd K.TWIN_STRAP
def State.partnerNode (s : State) : Nat := 1 - s.rd K.TWIN_STRAP

/-- A node's state as present, with its digest (R422). -/
def State.nodeSeen (s : State) (k d : Nat) : State :=
  s.wrs [(K.FLEET_NODE_DIGEST k, d), (K.FLEET_NODE_STAMP k, s.now), (K.FLEET_NODE_STATE k, 1)]

/-- The part's own node follows its digest. -/
def State.ownDigest (s : State) : State :=
  if s.rd (K.FLEET_NODE_STATE s.ownNode) = 1 ∧ s.rd (K.FLEET_NODE_DIGEST s.ownNode) = s.rd K.NODE_DIGEST then s
  else s.nodeSeen s.ownNode (s.rd K.NODE_DIGEST)

/-- Included nodes, ascending. -/
def State.included (s : State) : List Nat := (List.range 46).filter fun k => s.rd (K.FLEET_NODE_INCLUDE k) == 1

/-- The input of the fleet view (R423). -/
def State.fleetInput (s : State) : List Byte :=
  s.included.flatMap fun k => toLE 1 k ++ toLE 1 (Dict.nodeKind k) ++
    toLE 8 (if s.rd (K.FLEET_NODE_STATE k) = 1 then s.rd (K.FLEET_NODE_DIGEST k) else 0)

/-- The fleet view: the first 8 bytes of SHA-256 over its input (R423). -/
def State.fleetView (s : State) : Nat := leNat ((sha256 s.fleetInput).take 8)

/-- Sending DIGEST to the partner (R410, R423). -/
def State.sendDigest (s : State) : State :=
  if s.rd K.TWIN_PARTNER_ROLE = 0 then s
  else s.sendPartner 0x0050 (toLE 8 (s.rd K.NODE_DIGEST) ++ toLE 8 s.fleetView ++
    (List.range 46).flatMap (fun k => toLE 1 (s.rd (K.FLEET_NODE_STATE k))))

/-- The conditions of a mismatch as FLEET_CAUSE shows them (R424). -/
def State.fleetCause (s : State) (view : Nat) : Nat :=
  let here := fun (k : Nat) => s.rd (K.FLEET_NODE_STATE k) == 1
  let devices := here 0 && here 1 && s.rd (K.FLEET_NODE_DIGEST 0) != s.rd (K.FLEET_NODE_DIGEST 1)
  let views := s.tw.partnerDigest.isSome && s.rd (K.FLEET_NODE_STATE s.partnerNode) == 1 && s.rd K.FLEET_PARTNER_VIEW != view
  let expected := s.rd K.FLEET_EXPECTED != 0 && s.rd K.FLEET_EXPECTED != view
  let silent := s.included.any fun k => s.rd (K.FLEET_NODE_STATE k) == 2
  (if devices then 1 else 0) + (if views then 2 else 0) + (if expected then 4 else 0) + (if silent then 8 else 0)

/-- The lowest node a mismatch concerns. -/
def State.fleetFirst (s : State) (cause : Nat) : Nat :=
  if cause.testBit 0 then 0
  else if cause.testBit 3 then (s.included.find? fun k => s.rd (K.FLEET_NODE_STATE k) == 2).getD 0xFF
  else 0xFF

/-- Setting the digest hold, which the active part mirrors (R424). -/
def State.setDigestHold (s : State) (v : Nat) : State :=
  if s.rd K.DIGEST_HOLD = v then s
  else
    let s := s.wr K.DIGEST_HOLD v
    if s.rd K.TWIN_PARTNER_ROLE = 0 then s else s.sendPartner 0x0052 (toLE 1 v)

/-- The active part's comparison (R424), at step 3 of a close or when a digest has changed. -/
def State.compareFleet (s : State) (atClose : Bool) : State :=
  if s.role ≠ Role.active then s
  else
    let s := s.ownDigest
    let view := s.fleetView
    let cause := s.fleetCause view
    let was := s.rd K.FLEET_STATE
    let s := s.wrs [(K.FLEET_DIGEST, view), (K.FLEET_STAMP, s.now), (K.FLEET_STATE, if cause = 0 then 0 else 1),
                    (K.FLEET_CAUSE, cause), (K.FLEET_FIRST_NODE, s.fleetFirst cause), (K.FLEET_NODES, s.included.length)]
    if cause = 0 then
      let s := if was = 1 then s.raise 0xF3 0x00E9 6 0 (s.twinData (s.rd K.TWIN_EPOCH)) else s
      s.setDigestHold 0
    else
      let s := s.raise 0xF3 0x00E8 3 0 (s.twinData (s.rd K.TWIN_EPOCH) + cause * 2 ^ 8)
      if atClose ∧ s.rd K.DIGEST_HOLD_ENABLE = 1 then
        s.setDigestHold 1
      else s

/-- A node's digest has changed, or it has come or gone: the exchange of R423 and the comparison. -/
def State.fleetChanged (s : State) : State := (s.ownDigest.sendDigest).compareFleet false

/-- A node that has gone (R422). -/
def State.nodeGone (s : State) (k : Nat) : State := if s.rd (K.FLEET_NODE_STATE k) = 0 then s else s.wr (K.FLEET_NODE_STATE k) 0

/-- A node's digest has arrived (R422): the exchange follows when it differs from the last. -/
def State.nodeDigestIn (s : State) (k d : Nat) : State :=
  let same := s.rd (K.FLEET_NODE_STATE k) = 1 ∧ s.rd (K.FLEET_NODE_DIGEST k) = d
  let s := s.nodeSeen k d
  if same then s else s.fleetChanged

end Sys2Proof.Machine
end

