-- ==== Sys2Proof/Machine/TimeBase.lean ====
section
/-! DEFINITION. The tick, TIME64 and its steering, the two domains (R35 to R45), and the closing of events for the
journal and the notice queue that the tick drives. -/

namespace Sys2Proof.Machine

/-- A port with no exchange in progress. -/
def PtpPort.init : PtpPort :=
  { reqSeq := 0, reqStamp := 0, reqDomain := 0, reqMech := 0, reqOpen := false, respStamp := 0, respRemote := 0, respSeq := 0,
    respOpen := false, t1 := 0, t2 := 0, syncSeq := 0, announceSeq := 0, txts := [] }

/-- PTP state of a port. -/
def State.ptpPort (s : State) (p : Nat) : PtpPort := Tab.get (fun _ => PtpPort.init) s.ptp p

/-- Setting the PTP state of a port. -/
def State.setPtp (s : State) (p : Nat) (x : PtpPort) : State := { s with ptp := Tab.set (fun _ => PtpPort.init) s.ptp p x }

/-- Changing a port's state in a domain, with the event of R525. -/
def State.setPortState (s : State) (p d v : Nat) : State :=
  let k := if d = 0 then K.PTP_STATE_A p else K.PTP_STATE_B p
  if s.rd k = v then s else (s.wr k v).raise 0xFB 0x0132 6 p p

/-- A drive port is master for the selected domain only (R113): after a switch it leaves the other one. -/
def State.mastersMove (s : State) (old new : Nat) : State :=
  ([2, 3] : List Nat).foldl (fun (s : State) p =>
    if s.rd (K.PTP_ENABLE p) = 0 ∨ old = new then s else (s.setPortState p old 0).setPortState p new 4) s

/-- A domain of which nothing has been heard. -/
def Domain.init : Domain :=
  { accepted := 0, lastTick := 0, refTick := 0, refTime := 0, rate := 0, ratePrev := 0, haveRef := false,
    interval := 6250000, master := none, masterPort := 0, heard := [], pendingSync := [] }

/-- Domain 0 (A) or 1 (B). -/
def State.dom (s : State) (d : Nat) : Domain := Tab.get (fun _ => Domain.init) s.doms d

/-- Setting a domain. -/
def State.setDom (s : State) (d : Nat) (x : Domain) : State := { s with doms := Tab.set (fun _ => Domain.init) s.doms d x }

/-- Domain time on a tick, in 2^-32 units, from its estimate (R41). -/
def Domain.timeAt (x : Domain) (t : Nat) : Int :=
  (x.refTime : Int) + ((t : Int) - x.refTick) * (160 * 2 ^ 32 + 160 * 2 ^ 32 * x.rate / 10 ^ 9)

/-- TIME64 with its fraction, in 2^-32 units. -/
def State.acc (s : State) : Int := (s.tm.time64 : Int) * 2 ^ 32 + s.tm.frac

/-- The signed difference of two instants in 2^-32 units, modulo 2^96 (R36). -/
def accDiff (a b : Int) : Int := sgn 96 (((a - b) % 2 ^ 96).toNat)

/-- The state shown by TIME_STATE for a residual (R39). -/
def trackState (residual : Int) : Nat := if residual.natAbs < 160 * 2 ^ 32 then 1 else 2

/-- Steering from a LOCKED domain: its offset becomes the residual to slew (R43); TIME_OFFSET_HIGH while the residual
exceeds the threshold (R41). -/
def State.steerFrom (s : State) (d : Nat) : State :=
  let res := accDiff ((s.dom d).timeAt s.tm.tick) s.acc
  let s := { s with tm := { s.tm with residual := res, rate := (s.dom d).rate, steered := true } }
  let s := s.wr K.TIME_STATE (trackState res)
  if s.rd K.TIME_STEP_THRESHOLD * 16 < (res / 2 ^ 32).natAbs ∧ s.phase ≠ Phase.idle then
    s.raise 0x10 0x0103 6 0 (uns 64 (res / 2 ^ 32))
  else s

/-- No domain is usable: HOLDOVER on the last rate with no offset correction (R45). TIME64 that was never steered stays FREE, as R39
defines that state (DEDUCED: notes/assumptions/130). -/
def State.holdover (s : State) : State :=
  if s.tm.steered && s.rd K.TIME_STATE != 3 then
    let s := { s with tm := { s.tm with residual := 0 } }
    (s.wr K.TIME_STATE 3).raise 0x10 0x0102 6 0 0
  else s

/-- Selecting a domain (R43): steering moves to it when it is LOCKED; else TIME64 runs on its last rate estimate (R45). A step that was
decided for the domain left behind is dropped (R41). -/
def State.selectDomain (s : State) (d : Nat) : State :=
  let s := ((s.wr K.TIME_SEL d).raise 0x10 0x0101 6 0 d).mastersMove (s.rd K.TIME_SEL) d
  let s := { s with tm := { s.tm with stepDue := none } }
  if s.rd (K.DOM_STATE d) = 2 then s.steerFrom d
  else
    let s := if s.tm.steered then { s with tm := { s.tm with rate := (s.dom d).rate } } else s
    s.holdover

/-- Changing a domain's state, with its event (R525). -/
def State.setDomState (s : State) (d v : Nat) : State :=
  if s.rd (K.DOM_STATE d) = v then s else (s.wr (K.DOM_STATE d) v).raise (0x11 + d) 0x0104 6 d v

/-- The selected domain is no longer usable (R45). -/
def State.domainGone (s : State) (d : Nat) : State :=
  if s.rd K.TIME_SEL ≠ d then s
  else if s.rd K.TIME_AUTO_SWITCH = 1 ∧ s.rd (K.DOM_STATE (1 - d)) = 2 then (s.selectDomain (1 - d)).noteKeep K.TIME_SEL
  else s.holdover

/-- An accepted sync of domain `d`: domain time `t` (2^-32 units since the epoch) on tick `k`, whose TIME64 value was `stamp` (R41,
R42). The rate counts as settled within 0.1 ppm when two successive estimates differ by at most 100 ppb (DESIGN CHOICE:
notes/assumptions/131). -/
def State.acceptSync (s : State) (d : Nat) (t : Int) (k stamp : Nat) : State :=
  let x := s.dom d
  let dt := (k : Int) - x.refTick
  let rate := if x.haveRef ∧ 0 < dt then
      clampInt (-2147483648) 2147483647 ((t - x.refTime - dt * (160 * 2 ^ 32)) * 10 ^ 9 / (dt * (160 * 2 ^ 32))) else 0
  let n := min 8 (x.accepted + 1)
  let x := { x with accepted := n, lastTick := k, refTick := k, refTime := t.toNat, rate := rate,
                    ratePrev := x.rate, haveRef := true }
  let settled := decide (8 ≤ n) && decide ((rate - x.ratePrev).natAbs ≤ 100)
  let s := s.setDom d x
  let off := accDiff t (stamp * 2 ^ 32) / 2 ^ 32
  let s := ((s.wrS 64 (K.DOM_OFFSET d) off).wrS 32 (K.DOM_RATE d) rate).wr (K.DOM_LAST_SYNC d) stamp
  let was := s.rd (K.DOM_STATE d)
  let s := s.setDomState d (if settled || was = 2 then 2 else 1)
  if s.rd (K.DOM_STATE d) ≠ 2 then s
  else if s.rd K.TIME_SEL = d then s.steerFrom d
  else if s.rd K.TIME_STATE = 3 ∧ s.rd K.TIME_AUTO_SWITCH = 1 ∧ s.rd (K.DOM_STATE (1 - d)) ≠ 2 then
    (s.selectDomain d).noteKeep K.TIME_SEL
  else s

/-- TIME_AUTO_SWITCH (R45): switched on in HOLDOVER while the other domain is LOCKED, it lets TIME64 leave HOLDOVER on that domain. -/
def autoSwitchEff (v : Nat) (s : State) : Nat × State :=
  let s := s.wr K.TIME_AUTO_SWITCH v
  let d := 1 - s.rd K.TIME_SEL
  (Ans.ok, if v = 1 ∧ s.rd K.TIME_STATE = 3 ∧ s.rd (K.DOM_STATE (1 - d)) ≠ 2 ∧ s.rd (K.DOM_STATE d) = 2
    then (s.selectDomain d).noteKeep K.TIME_SEL else s)

/-- Limits of the steering term in 2^-32 units per tick: 100 ppm of 160 units in all, 20 ppm for the correction (R38). -/
abbrev steerCap : Int := 160 * 2 ^ 32 / 10 ^ 4
abbrev corrCap : Int := 160 * 2 ^ 32 * 20 / 10 ^ 6

/-- The steering parts in force from a tick that is a multiple of 400 (R38): the rate part, and a correction part of at most 20 ppm that
takes up the residual, which falls by what the limit of 100 ppm leaves of it. Both parts are rounded down to the unit's fraction
(DESIGN CHOICE: notes/assumptions/132). -/
def Time.steer (t : Time) (holdover : Bool) : Time :=
  let corr := if holdover then 0 else clampInt (-corrCap) corrCap (t.residual / 400)
  let part := 160 * 2 ^ 32 * t.rate / 10 ^ 9
  let total := clampInt (-steerCap) steerCap (part + corr)
  { t with corr := if holdover then 0 else total - part, inc := 160 * 2 ^ 32 + total }

/-- The tick's advance of the count, of TIME64 with its era, and of lattice time. HOLDOVER has no offset to slew out (R45). -/
def State.advance (s : State) : State :=
  let a := s.acc + s.tm.inc
  let t64 := (a / 2 ^ 32).toNat
  let wrap := 2 ^ 64 ≤ t64
  let tm := { s.tm with tick := s.tm.tick + 1, time64 := t64 % 2 ^ 64, frac := (a % 2 ^ 32).toNat,
                        residual := if s.rd K.TIME_STATE = 3 then 0 else s.tm.residual - s.tm.corr,
                        lt := (s.tm.lt + (t64 - s.tm.time64)) % 2 ^ 64 }
  let s := { s with tm := tm }
  if wrap then s.bump 16 K.TIME_ERA 1 else s

/-- A delay exchange is given up: its stamps lie on both sides of a step (DEDUCED: notes/assumptions/133). -/
def PtpPort.giveUp (x : PtpPort) : PtpPort := { x with reqOpen := false, respOpen := false }

/-- The step of R41 on its tick: TIME64 and its era become domain time (R35), lattice time has advanced by exactly 160. -/
def State.stepTime (s : State) (before : Time) (d : Nat) : State :=
  let t := (s.dom d).timeAt s.tm.tick
  let old := s.now
  let s := { s with tm := { s.tm with time64 := (t / 2 ^ 32 % 2 ^ 64).toNat, frac := (t % 2 ^ 32).toNat, residual := 0,
                                      corr := 0, stepDue := none, steered := true, rate := (s.dom d).rate,
                                      lt := (before.lt + 160) % 2 ^ 64 },
                    ptp := s.ptp.map (fun (x : Nat × PtpPort) => (x.1, x.2.giveUp)) }
  let s := (s.bump 16 K.TIME_GEN 1).wrs [(K.TIME_ERA, (t / 2 ^ 96 % 2 ^ 16).toNat), (K.TIME_STATE, 1)]
  s.raise 0x10 0x0100 4 0 old

/-- A step of TIME64 to domain `d` may be made (R41): IDLE, the domain selected and LOCKED, its offset above the threshold. -/
def State.stepAllowed (s : State) (d : Nat) : Bool :=
  s.phase == Phase.idle && s.rd K.TIME_SEL == d && s.rd (K.DOM_STATE d) == 2 &&
    decide (s.rd K.TIME_STEP_THRESHOLD * 16 < (accDiff ((s.dom d).timeAt s.tm.tick) s.acc / 2 ^ 32).natAbs)

/-- The step that was decided is made on its tick if it is still allowed, and dropped if it is not (R41). -/
def State.takeStep (s : State) (before : Time) : State :=
  match s.tm.stepDue with
  | none => s
  | some d => if s.stepAllowed d then s.stepTime before d else { s with tm := { s.tm with stepDue := none } }

/-- Keeping the segment of TIME64 that begins on this tick, for stamps of ticks that have passed. -/
def State.keepSeg (s : State) : State :=
  { s with tm := { s.tm with segs := ((s.tm.tick, s.acc.toNat, s.tm.inc) :: s.tm.segs).take 3 } }

/-- Lattice time and steering are replaced on a standby by what its heartbeats bring (R411); elsewhere a tick that is a
multiple of 400 applies a decided step and the steering of the selected domain. -/
def State.steerTick (s : State) (before : Time) : State :=
  if s.inSample ≠ 0 then s
  else if s.role = Role.standby ∨ s.role = Role.syncing then s.keepSeg
  else
    let s := s.takeStep before
    let s := ({ s with tm := s.tm.steer (s.rd K.TIME_STATE == 3) }).keepSeg
    if s.rd K.TIME_STATE = 2 then s.wr K.TIME_STATE (trackState s.tm.residual) else s

/-- A seal has been raised and has no SEQ yet (R61). -/
def State.sealOpen (s : State) : Bool := s.ev.opened.any (fun e => e.source == 0x1F && e.code == 0x0001)

/-- Giving an event its SEQ and taking its blocks into the span being sealed (R59, R61, R102). A seal record takes the
span's CRC and count as its DATA and opens the next span. -/
def State.numberEvent (s : State) (e : EvRec) : EvRec × State :=
  if s.rd K.JOURNAL_ENABLE = 0 then (e, s)
  else
    let isSeal := e.source == 0x1F && e.code == 0x0001
    let data := if isSeal then (s.jr.spanCrc ^^^ 0xFFFFFFFF) + s.jr.spanBlocks * 2 ^ 32 else e.data
    let e := { e with seq := s.jr.nextSeq, data := data }
    let n := 1 + e.ext.length
    let j := { s.jr with nextSeq := (s.jr.nextSeq + n) % 2 ^ 32, buf := s.jr.buf ++ [(0, e)] }
    let j := if isSeal then { j with spanCrc := 0xFFFFFFFF, spanBlocks := 0, sealDue := false }
      else { j with spanCrc := crc32cRun j.spanCrc (recordBytes e e.seq), spanBlocks := j.spanBlocks + n }
    let j := if !isSeal && decide (s.rd K.JOURNAL_SEAL_EVERY ≤ j.spanBlocks) && !s.sealOpen then { j with sealDue := true } else j
    (e, { s with jr := j })

/-- Closing one event: its SEQ, its record, and its notice's final body. -/
def State.closeEvent (s : State) (e : EvRec) : State :=
  let (f, s) := s.numberEvent e
  if e.noticed = 1 then
    { s with ev := { s.ev with queue := s.ev.queue.map (fun (q : Notice) =>
      if q.openOf == some e.id then { q with ev := some f, openOf := none } else q) } }
  else s

/-- Closing every event stamped before a tick (R558), in the order of R47. -/
def State.closeBefore (s : State) (t : Nat) : State :=
  let due := s.ev.opened.filter (fun e => decide (e.tick < t))
  let s := { s with ev := { s.ev with opened := s.ev.opened.filter (fun e => !decide (e.tick < t)) } }
  due.foldl (fun s e => s.closeEvent e) s

/-- One tick (R37, R38): the count, TIME64, lattice time and steering; then events old enough are closed and notices go
out as credit allows, and contexts due to resume do so (R131). -/
def State.tickEff (s : State) : State :=
  let before := s.tm
  let s := (s.keepNames.advance).steerTick before
  let s := s.resumeDue
  let s := s.closeBefore (s.tm.tick - closeDelay)
  s.pump

/-- TIME_STEP (R41): a step is decided in IDLE, with the selected domain LOCKED and its offset above the threshold; it
takes place on the next multiple of 400. -/
def execTimeStep (s : State) : Host.Outcome State Fault Refusal :=
  live (fun s =>
    let d := s.rd K.TIME_SEL
    if s.stepAllowed d then { s with tm := { s.tm with stepDue := some d } } else s) s

/-- A write of TIME_SEL (R43). -/
def timeSelEff (v : Nat) (s : State) : Nat × State :=
  if s.rd K.TIME_SEL = v then (Ans.ok, s) else (Ans.ok, s.selectDomain v)

/-- TIME_SEL (R43). -/
def execTimeSel (m : Msg) (v : BitVec 8) (s : State) : Host.Outcome State Fault Refusal :=
  writeCmd m K.TIME_SEL 1 v.toNat timeSelEff s

/-- A write of DOM_NUMBER: the domain returns to UNLOCKED (R42). -/
def domNumberEff (d v : Nat) (s : State) : Nat × State :=
  let s := (s.wr (K.DOM_NUMBER d) v).setDom d Domain.init
  (Ans.ok, (s.setDomState d 0).domainGone d)

/-- DOM_NUMBER (R42). -/
def execDomNumber (m : Msg) (d : Fin 2) (v : BitVec 8) (s : State) : Host.Outcome State Fault Refusal :=
  writeCmd m (K.DOM_NUMBER d.val) 1 v.toNat (domNumberEff d.val) s

/-- DOMAIN_LOST (R42, R45): DOM_LOSS_INTERVALS sync intervals have passed with no accepted sync. -/
def execDomainLost (d : Fin 2) (s : State) : Host.Outcome State Fault Refusal :=
  live (fun s =>
    let x := s.dom d.val
    let st := s.rd (K.DOM_STATE d.val)
    if (st = 1 ∨ st = 2) ∧ x.lastTick + s.rd (K.DOM_LOSS_INTERVALS d.val) * x.interval ≤ s.tm.tick then
      (s.setDomState d.val 3).domainGone d.val
    else s) s

end Sys2Proof.Machine
end

