-- ==== Sys2Proof/Machine/PtpPorts.lean ====
section
/-! DEFINITION. IEEE 1588 messages on the ports (R112 to R115): the slave side on FN0 and FN1, the master side on FN2
and FN3, delay measurement, and the transmit time-stamp queues. -/

namespace Sys2Proof.Machine

/-- A PTP timestamp as TIME64, the correctionField rounded to 1/16 ns (R113). -/
def ptpTime (m : Ptp) (withCorr : Bool) : Int :=
  let base := ((m.seconds.toNat : Int) * 10 ^ 9 + m.nanos.toNat) * 16
  if withCorr then base + divHalfAway (sgn 64 m.correction.toNat * 16) 65536 else base

/-- The domain (0 A, 1 B) a domainNumber belongs to (R112). -/
def State.domOf (s : State) (n : Nat) : Option Nat :=
  if s.rd (K.DOM_NUMBER 0) = n then some 0 else if s.rd (K.DOM_NUMBER 1) = n then some 1 else none

/-- A frame that carries a PTP message is accepted at its port (R92, R112), for the given EtherTypes. -/
def State.ptpFrameOk (s : State) (p : Nat) (f : Frame) (types : List Nat) : Bool :=
  f.fcsOk && f.toPort && types.contains f.ethertype.toNat &&
    (match f.vid with | none => true | some v => v.toNat == s.rd (K.VLAN_ID_IN_FORCE p)) && decide (64 ≤ f.length.toNat) &&
    decide (f.length.toNat ≤ (if f.vid.isSome then 1522 else 1518))

/-- Acceptance of a PTP frame at a port (R91, R92, R112): a frame that is not accepted is dropped and counted, one of a
port with PTP off or of another domain is ignored. -/
def ptpIn (m : Ptp) (k : Nat → State → State) (s : State) : State :=
  let p := m.port.val
  if !s.ptpFrameOk p m.frame [0x88F7] then s.dropFrame p
  else
    let s := s.inc (K.RX_FRAMES p)
    if s.rd (K.PTP_ENABLE p) = 0 then s.inc (K.PTP_RX_IGNORED p)
    else match s.domOf m.domain.toNat with
      | none => s.inc (K.PTP_RX_IGNORED p)
      | some d => k d s

/-- PTP time of the present tick since the epoch in units of 1/16 ns (R35, R113): TIME64 with the whole wraps of TIME_ERA. -/
def State.ptpNow (s : State) : Nat := s.rd K.TIME_ERA * 2 ^ 64 + s.now

/-- A PTP message from port `p`: type, domain, sequenceId, correction, timestamp (PTP time in 1/16 ns) and further bytes, in the
network byte order of IEEE 1588. The manual gives the device no clockIdentity: its sourcePortIdentity is a free value. -/
def ptpBytes (p kind domain seq : Nat) (flags logInt : Nat) (t : Nat) (extra : List Byte) : List Byte :=
  let ns := t / 16
  toBE 1 kind ++ toBE 1 0x12 ++ toBE 2 (44 + extra.length) ++ toBE 1 domain ++ toBE 1 0 ++ toBE 2 flags ++
    toBE 8 (t % 16 * 4096) ++ toBE 4 0 ++ toBE 10 (Config.portIdentity p).toNat ++ toBE 2 seq ++ toBE 1 0 ++ toBE 1 logInt ++
    toBE 6 (ns / 10 ^ 9) ++ toBE 4 (ns % 10 ^ 9) ++ extra

/-- Entering an egress stamp in a port's queue when its kind is selected (R114); a full queue drops the newest. -/
def State.txStamp (s : State) (p ident bitNo : Nat) : State :=
  if !(s.rd (K.TXTS_SELECT p)).testBit bitNo then s
  else
    let x := s.ptpPort p
    if 32 ≤ x.txts.length then
      let s := (s.wr (K.TXTS_OVERFLOW p) 1).inc (K.TXTS_DROPPED p)
      s.raise 0xFB 0x0131 3 p p
    else s.setPtp p { x with txts := x.txts ++ [(ident % 65536, s.now)] }

/-- The group address of a PTP message by its messageType, first byte highest (IEEE 1588-2019 annex E, R92, R112). -/
def ptpDest (kind : Nat) : List Byte := toBE 6 (if kind = 2 ∨ kind = 3 ∨ kind = 0xA then 0x0180C200000E else 0x011B19000000)

/-- Sending a PTP message in layer-2 transport (R112). R92 tags Zynbeuri frames only: a PTP frame goes untagged (DEDUCED:
notes/assumptions/135). -/
def State.sendPtp (s : State) (p : Nat) (b : List Byte) : State :=
  (s.emit (.port p (ptpDest (leNat (b.take 1) % 16))) (toBE 2 0x88F7 ++ b)).inc (K.TX_FRAMES p)

/-- Sending a PTP event message with its egress stamp. -/
def State.sendPtpEvent (s : State) (p seq : Nat) (b : List Byte) : State := (s.sendPtp p b).txStamp p seq 0

/-- Starting a delay measurement on a port by the mechanism now set: a Delay_Req or a Pdelay_Req, with its egress stamp kept (R113,
R115). -/
def State.startDelay (s : State) (p d : Nat) : State :=
  let x := s.ptpPort p
  let seq := (x.reqSeq + 1) % 65536
  let mech := s.rd (K.PTP_DELAY_MECH p)
  let s := s.setPtp p { x with reqSeq := seq, reqStamp := s.now, reqDomain := d, reqMech := mech, reqOpen := true, respOpen := false }
  s.sendPtpEvent p seq (ptpBytes p (if mech = 2 then 2 else 1) (s.rd (K.DOM_NUMBER d)) seq 0 0x7F 0 [])

/-- Sync interval of a logMessageInterval in ticks. -/
def logTicks (l : Int) : Nat := if l < 0 then 10 ^ 8 / 2 ^ l.natAbs else 10 ^ 8 * 2 ^ l.natAbs

/-- SYNC (R112, R113): a Sync of the selected master on its host port waits with its receive stamp for its Follow_Up.
A one-step Sync is ignored, since the device handles two-step only. -/
def execSync (m : Ptp) (s : State) : Host.Outcome State Fault Refusal :=
  live (ptpIn m (fun d s =>
    let p := m.port.val
    let x := s.dom d
    if 2 ≤ p then s
    else if !m.twoStep then s.inc (K.PTP_RX_IGNORED p)
    else if x.masterPort = p ∧ (x.master.map (·.source)) = some m.source then
      let y : PendingSync := { port := p, seq := m.seqId.toNat, tick := s.tm.tick, stamp := s.now, gen := s.rd K.TIME_GEN,
                               corr := divHalfAway (sgn 64 m.correction.toNat * 16) 65536 }
      s.setDom d { x with interval := logTicks m.logInterval.toInt, pendingSync := (y :: x.pendingSync).take 4 }
    else s)) s

/-- The Sync that a Follow_Up completes. -/
def Domain.syncOf (x : Domain) (p seq : Nat) : Option PendingSync := x.pendingSync.find? (fun y => y.port == p && y.seq == seq)

/-- Taking it out. -/
def Domain.dropSync (x : Domain) (p seq : Nat) : Domain :=
  { x with pendingSync := x.pendingSync.filter (fun y => !(y.port == p && y.seq == seq)) }

/-- FOLLOW_UP (R112): with its Sync's stamp and the path delay it gives domain time on the Sync's tick. A delay measurement follows it,
unless TIME64 has been stepped since the Sync (DEDUCED: notes/assumptions/133). -/
def execFollowUp (m : Ptp) (s : State) : Host.Outcome State Fault Refusal :=
  live (ptpIn m (fun d s =>
    let p := m.port.val
    let x := s.dom d
    match x.syncOf p m.seqId.toNat with
    | none => s
    | some y =>
      if (x.master.map (·.source)) ≠ some m.source then s
      else
        let s := s.setDom d (x.dropSync p m.seqId.toNat)
        let t1 := ptpTime m true + y.corr
        let s := s.setPtp p { s.ptpPort p with t1 := (t1 % 2 ^ 64).toNat, t2 := y.stamp }
        let atRx := t1 + s.rdS 64 (K.PTP_MEAN_DELAY p) + s.rdS 32 (K.PTP_ASYMMETRY p)
        let s := s.acceptSync d (atRx * 2 ^ 32) y.tick y.stamp
        if y.gen = s.rd K.TIME_GEN then s.startDelay p d else s)) s

/-- DELAY_REQ (R113): on a drive port the device, as master of the selected domain, answers with its receive stamp. -/
def execDelayReq (m : Ptp) (s : State) : Host.Outcome State Fault Refusal :=
  live (ptpIn m (fun d s =>
    let p := m.port.val
    if p < 2 ∨ d ≠ s.rd K.TIME_SEL then s
    else s.sendPtp p (ptpBytes p 9 m.domain.toNat m.seqId.toNat 0 0 s.ptpNow (toBE 10 m.source.toNat)))) s

/-- DELAY_RESP (R113): the mean of the two one-way differences is the port's path delay. -/
def execDelayResp (m : Ptp) (s : State) : Host.Outcome State Fault Refusal :=
  live (ptpIn m (fun d s =>
    let p := m.port.val
    let x := s.ptpPort p
    if p < 2 ∧ x.reqOpen = true ∧ x.reqSeq = m.seqId.toNat ∧ x.reqDomain = d ∧ x.reqMech = 1 then
      let t4 := ptpTime m false - divHalfAway (sgn 64 m.correction.toNat * 16) 65536
      let trip := sgn 64 (uns 64 (((x.t2 : Int) - x.t1) + (t4 - x.reqStamp)))
      (s.setPtp p { x with reqOpen := false }).wrS 64 (K.PTP_MEAN_DELAY p) (trip / 2)
    else s)) s

/-- Data set comparison of the best master clock algorithm: the first is better. -/
def Announce.better (a b : Announce) : Bool :=
  let f := fun (x : Announce) => [x.priority1.toNat, x.clockClass.toNat, x.accuracy.toNat, x.variance.toNat,
    x.priority2.toNat, x.grandmaster.toNat, x.steps.toNat, x.source.toNat]
  (f a).lt (f b)

/-- The best of the masters heard. -/
def bestOf (heard : List (Nat × Announce)) : Option (Nat × Announce) :=
  heard.foldl (fun (b : Option (Nat × Announce)) h =>
    match b with
    | none => some h
    | some g => if Announce.better h.2 g.2 then some h else some g) none

/-- The master a domain selects among those heard (R113); Sync messages of another port are forgotten. -/
def Domain.select (x : Domain) (heard : List (Nat × Announce)) : Domain :=
  match bestOf heard with
  | none => { x with heard := [], master := none, pendingSync := [] }
  | some b => { x with heard := heard, master := some b.2, masterPort := b.1,
                       pendingSync := if x.masterPort = b.1 then x.pendingSync else [] }

/-- A host port takes its state in a domain, unless PTP is off there (R113, R115). -/
def State.hostPortState (s : State) (p d v : Nat) : State := if s.rd (K.PTP_ENABLE p) = 0 then s else s.setPortState p d v

/-- The states of the two host ports for the master a domain has selected (R113). -/
def State.showMaster (s : State) (d : Nat) : State :=
  let x := s.dom d
  match x.master with
  | none => (s.hostPortState 0 d 1).hostPortState 1 d 1
  | some _ => (s.hostPortState x.masterPort d 2).hostPortState (1 - x.masterPort) d 3

/-- A host port that stops handling PTP hears no master any more: each domain selects among what the other port hears (R113). -/
def State.portDeaf (s : State) (p : Nat) : State :=
  ([0, 1] : List Nat).foldl (fun (s : State) d =>
    (s.setDom d ((s.dom d).select ((s.dom d).heard.filter (fun h => h.1 != p)))).showMaster d) s
/-- ANNOUNCE (R113): the best master among those heard on the two host ports is selected for its domain; its port is
SLAVE and the other PASSIVE. -/
def execAnnounce (m : Ptp) (a : Announce) (s : State) : Host.Outcome State Fault Refusal :=
  live (ptpIn m (fun d s =>
    let p := m.port.val
    if 2 ≤ p then s
    else
      let x := s.dom d
      let same := x.heard.find? (fun h => h.1 == p)
      let keep := match same with
        | some (_, b) => b.source == a.source || Announce.better a b
        | none => true
      if !keep then s
      else
        (s.setDom d (x.select ((p, a) :: x.heard.filter (fun h => h.1 != p)))).showMaster d)) s

/-- PDELAY_REQ (R112): answered with its receive stamp and, two-step, with the answer's egress stamp. -/
def execPdelayReq (m : Ptp) (s : State) : Host.Outcome State Fault Refusal :=
  live (ptpIn m (fun _ s =>
    let p := m.port.val
    let s := s.sendPtpEvent p m.seqId.toNat
      (ptpBytes p 3 m.domain.toNat m.seqId.toNat 0x0200 0x7F s.ptpNow (toBE 10 m.source.toNat))
    s.sendPtp p (ptpBytes p 0xA m.domain.toNat m.seqId.toNat 0 0x7F s.ptpNow (toBE 10 m.source.toNat)))) s

/-- PDELAY_RESP (R112): its receive stamp and the remote receipt time wait for the follow-up. -/
def execPdelayResp (m : Ptp) (s : State) : Host.Outcome State Fault Refusal :=
  live (ptpIn m (fun d s =>
    let p := m.port.val
    let x := s.ptpPort p
    if x.reqOpen = true ∧ x.reqSeq = m.seqId.toNat ∧ x.reqDomain = d ∧ x.reqMech = 2 then
      s.setPtp p { x with respStamp := s.now, respRemote := (ptpTime m true % 2 ^ 64).toNat, respSeq := m.seqId.toNat, respOpen := true }
    else s)) s

/-- PDELAY_RESP_FOLLOW_UP (R112): half the round trip less the remote's turnaround is the path delay. -/
def execPdelayRespFollowUp (m : Ptp) (s : State) : Host.Outcome State Fault Refusal :=
  live (ptpIn m (fun d s =>
    let p := m.port.val
    let x := s.ptpPort p
    if x.respOpen = true ∧ x.respSeq = m.seqId.toNat ∧ x.reqDomain = d then
      let trip := sgn 64 (uns 64 (((x.respStamp : Int) - x.reqStamp) - (ptpTime m true - x.respRemote)))
      (s.setPtp p { x with reqOpen := false, respOpen := false }).wrS 64 (K.PTP_MEAN_DELAY p) (trip / 2)
    else s)) s

/-- TXTS_RELEASE (R115): that many oldest entries go; more than the queue holds is REFUSED. -/
def txtsReleaseEff (p v : Nat) (s : State) : Nat × State :=
  let x := s.ptpPort p
  if x.txts.length < v then (Ans.refused, s) else (Ans.ok, s.setPtp p { x with txts := x.txts.drop v })

/-- TXTS_RELEASE. -/
def execTxtsRelease (m : Msg) (p : Fin 4) (count : BitVec 8) (s : State) : Host.Outcome State Fault Refusal :=
  writeCmd m (K.TXTS_RELEASE p.val) 1 count.toNat (txtsReleaseEff p.val) s

/-- Announce data the device forwards as boundary clock (R113). -/
def State.forwarded (s : State) : List Byte :=
  let cls := if s.rd K.TIME_STATE = 0 ∨ s.rd K.TIME_STATE = 3 then 248 else
    (((s.dom (s.rd K.TIME_SEL)).master.map (·.clockClass.toNat)).getD 248)
  match (s.dom (s.rd K.TIME_SEL)).master with
  | none => toBE 2 0 ++ toBE 1 0 ++ toBE 1 255 ++ toBE 1 cls ++ toBE 1 0xFE ++ toBE 2 0xFFFF ++ toBE 1 255 ++
      toBE 8 (s.rd K.SERIAL_NUMBER) ++ toBE 2 0 ++ toBE 1 0xA0
  | some a => toBE 2 0 ++ toBE 1 0 ++ toBE 1 a.priority1.toNat ++ toBE 1 cls ++ toBE 1 a.accuracy.toNat ++
      toBE 2 a.variance.toNat ++ toBE 1 a.priority2.toNat ++ toBE 8 a.grandmaster.toNat ++ toBE 2 (a.steps.toNat + 1) ++ toBE 1 0x20

/-- Interval between a drive port's Sync messages in ticks (R113, R115). -/
def State.syncInterval (s : State) (p : Nat) : Nat := 10 ^ 8 / 2 ^ (s.rdS 16 (K.PTP_LOG_SYNC p)).natAbs

/-- A drive port sends as master on this tick (R113): it runs PTP, its interval is due, the part is ACTIVE or DETACHED. -/
def State.masterDue (s : State) (p : Nat) : Bool :=
  s.rd (K.PTP_ENABLE p) == 1 && s.tm.tick % s.syncInterval p == 0 && (s.role == Role.active || s.role == Role.detached)

/-- What a master port sends at its interval (R113): Sync, Follow_Up and Announce of the selected domain, and a Pdelay_Req where the
port measures peer delay. -/
def State.masterSend (s : State) (p : Nat) : State :=
  let x := s.ptpPort p
  let sel := s.rd K.TIME_SEL
  let dn := s.rd (K.DOM_NUMBER sel)
  let s := s.setPtp p { x with syncSeq := (x.syncSeq + 1) % 65536, announceSeq := (x.announceSeq + 1) % 65536 }
  let s := s.setPortState p sel 4
  let lg := uns 8 (s.rdS 16 (K.PTP_LOG_SYNC p))
  let s := s.sendPtpEvent p x.syncSeq (ptpBytes p 0 dn x.syncSeq 0x0200 lg 0 [])
  let s := s.sendPtp p (ptpBytes p 8 dn x.syncSeq 0 lg s.ptpNow [])
  let s := s.sendPtp p (ptpBytes p 0xB dn x.announceSeq 0 lg 0 s.forwarded)
  if s.rd (K.PTP_DELAY_MECH p) = 2 then s.startDelay p sel else s

/-- A drive port at a master's interval. -/
def State.masterPort (s : State) (p : Nat) : State := if s.masterDue p then s.masterSend p else s

/-- MASTER_SYNC_INTERVAL (R113): on each drive port whose interval begins on this tick, Sync with its Follow_Up, and
Announce; with the peer mechanism a Pdelay_Req as well. A part that is not ACTIVE sends nothing there (R411). -/
def execMasterSyncInterval (s : State) : Host.Outcome State Fault Refusal :=
  live (fun s => (s.masterPort 2).masterPort 3) s

end Sys2Proof.Machine
end

