-- ==== Sys2Proof/Machine/Cyclic.lean ====
section
/-! DEFINITION. The axis cycle on the drive ports (R116 to R118): its frames, the drives' replies, silent drives, and the nodes the
drive slots make (R422). -/

namespace Sys2Proof.Machine

/-- A write of CYCLIC_ENABLE (R118): the first cycle is the next whole multiple of 5,000 ticks at least 2,500 ticks on. -/
def cyclicEnableEff (v : Nat) (s : State) : Nat × State :=
  if v = s.rd K.CYCLIC_ENABLE then (Ans.ok, s)
  else
    let s := s.wr K.CYCLIC_ENABLE v
    if v = 0 then (Ans.ok, s)
    else
      let first := s.unpair ((s.pair s.tm.tick + 2500 + 4999) / 5000 * 5000)
      let s := { s with cyc := { s.cyc with nextTick := first, cycle := 0, replied := [], silent := [] } }
      (Ans.ok, s.wr K.CYCLIC_COUNT 0)

/-- CYCLIC_ENABLE (R118). -/
def execCyclicEnable (m : Msg) (v : BitVec 8) (s : State) : Host.Outcome State Fault Refusal :=
  writeCmd m K.CYCLIC_ENABLE 1 v.toNat cyclicEnableEff s

/-- The drive ports send unless the part is STANDBY or SYNCING (R411). -/
def State.drivesPorts (s : State) : Bool := s.role == Role.active || s.role == Role.detached

/-- A slot of the CYCLIC frame (R116); the specification does not say when its CONTROL bits are set. -/
def State.slotBytes (s : State) (control j : Nat) : List Byte :=
  let l := s.rd (K.SLOT_LOOP j)
  toLE 1 (s.rd (K.SLOT_NODE j)) ++ toLE 1 (s.rd (K.SLOT_MODE j)) ++ toLE 1 (control / 4 ^ j % 4) ++ toLE 1 l ++
    toLE 4 (s.rd (K.LOOP_OUTPUT l)) ++ toLE 4 (uns 32 (s.loop l).ff) ++ toLE 4 0

/-- The body of the CYCLIC frame of cycle `k` (R116). -/
def State.cyclicBody (s : State) (control k : Nat) : List Byte :=
  toLE 8 (s.timeAt s.cyc.nextTick) ++ toLE 4 k ++ toLE 1 8 ++ toLE 3 0 ++ (List.range 8).flatMap (fun j => s.slotBytes control j)

/-- CYCLIC_SEND (R116): 2,500 ticks before its tick the frame of the next cycle leaves on both drive ports. -/
def State.cyclicSend (s : State) : State :=
  if s.rd K.CYCLIC_ENABLE = 0 ∨ s.tm.tick + 2500 < s.cyc.nextTick then s
  else
    let k := (s.cyc.cycle + 1) % 2 ^ 32
    let s := if !s.drivesPorts then s
      else
        let d := s.draw
        let b := d.2.message 0x30 0 0 k (d.2.cyclicBody (Config.unstated d.1).toNat k)
        let s := ([2, 3] : List Nat).foldl (fun (s : State) p => (s.sendFrame p (toLE 6 (d.2.rd K.CYCLIC_DEST)) b).txStamp p (k % 65536) 1) d.2
        s.inc K.CYCLIC_COUNT
    { s with cyc := { s.cyc with cycle := k, nextTick := s.cyc.nextTick + 5000, replied := [] } }

/-- CYCLIC_SEND (R116). -/
def execCyclicSend (s : State) : Host.Outcome State Fault Refusal := live (fun s => s.cyclicSend) s

/-- The application tick of the cycle sent last. -/
def State.cycleTick (s : State) : Nat := s.cyc.nextTick - 5000

/-- The slots that list a drive node. -/
def State.slotsWith (s : State) (node : Nat) : List Nat := (List.range 8).filter fun j => node != 0 && s.rd (K.SLOT_NODE j) == node

/-- Consecutive cycles without an on-time reply of a slot. -/
def State.silentRun (s : State) (j : Nat) : Nat :=
  match s.cyc.silent.find? fun e => e.1 == j with
  | some e => e.2
  | none => 0

/-- Setting them. -/
def State.setSilent (s : State) (j n : Nat) : State :=
  let rest := s.cyc.silent.filter fun e => e.1 != j
  { s with cyc := { s.cyc with silent := if n = 0 then rest else rest ++ [(j, n)] } }

/-- An on-time reply for one slot (R117, R312, R422): ACTUAL feeds the loops that take it. -/
def State.slotReply (s : State) (j status actual digest : Nat) : State :=
  if s.cyc.replied.contains j then s
  else
    let s := { s with cyc := { s.cyc with replied := s.cyc.replied ++ [j] } }
    let s := s.wr (K.SLOT_STATUS j) status
    let s := (List.range 32).foldl (fun (s : State) i =>
      if s.rd (K.LOOP_FB_SOURCE (64 + i)) = 0x0200 + j then s.feed (64 + i) (sgn 32 actual) s.cyc.cycle else s) s
    s.nodeDigestIn (38 + j) digest

/-- CYCLIC_REPLY (R91, R92, R117). -/
def State.cyclicReply (s : State) (m : Msg) (cycle node status actual digest : Nat) : State :=
  let p := m.port.val
  let ok : Bool := decide (2 ≤ p) && s.frameOk p m.frame && m.version == 1 && m.length.toNat == 24 && msgFits m && msgClean m &&
    decide (status % 16 = 0)
  let slots := s.slotsWith node
  if !ok ∨ slots.isEmpty then s.dropFrame p
  else
    let s := s.inc (K.RX_FRAMES p)
    let onTime : Bool := s.rd K.CYCLIC_ENABLE == 1 && cycle == s.cyc.cycle && s.cyc.cycle != 0 &&
      decide (s.tm.tick ≤ s.cycleTick + s.rd K.CYCLIC_REPLY_WINDOW)
    if onTime then slots.foldl (fun s j => s.slotReply j status actual digest) s else s

/-- CYCLIC_REPLY (R117). -/
def execCyclicReply (m : Msg) (cycle : BitVec 32) (node status : BitVec 8) (_error : BitVec 16) (actual : BitVec 32) (digest : BitVec 64)
    (s : State) : Host.Outcome State Fault Refusal :=
  live (fun s => s.cyclicReply m cycle.toNat node.toNat status.toNat actual.toNat digest.toNat) s

/-- The reply window of a cycle has closed (R117): on the first tick after it, slots without a reply count. -/
def State.cyclicTick (s : State) : State :=
  if s.rd K.CYCLIC_ENABLE = 0 ∨ s.cyc.cycle = 0 ∨ !s.drivesPorts ∨ s.tm.tick ≠ s.cycleTick + s.rd K.CYCLIC_REPLY_WINDOW + 1 then s
  else
    (List.range 8).foldl (fun (s : State) j =>
      if s.rd (K.SLOT_NODE j) = 0 ∨ s.cyc.replied.contains j then s.setSilent j 0
      else (s.inc (K.SLOT_MISSED j)).setSilent j (min 3 (s.silentRun j + 1 + (if s.silentRun j = 2 then 1 else 0)))) s

/-- DRIVE_SILENT (R117, R328): the second cycle in a row without a reply; a sample due on the same tick comes first. -/
def State.driveSilent (s : State) (j : Nat) : State :=
  if s.silentRun j ≠ 2 then s
  else
    let l := s.rd (K.SLOT_LOOP j)
    let s := (s.setSilent j 3).loopEvent l 0x0087 3 j (s.cyc.cycle : Int)
    (s.generalSample l).holdLoop l LpCause.driveSilent

/-- DRIVE_SILENT (R117). -/
def execDriveSilent (slot : Fin 8) (s : State) : Host.Outcome State Fault Refusal := live (fun s => s.driveSilent slot) s

/-- Drive nodes at a close (R422): SILENT without an on-time reply in the cycle before it, ABSENT without a node. -/
def State.driveNodes (s : State) : State :=
  (List.range 8).foldl (fun (s : State) j =>
    if s.rd (K.SLOT_NODE j) = 0 then s.nodeGone (38 + j)
    else if s.rd K.CYCLIC_ENABLE = 1 ∧ s.silentRun j ≠ 0 then s.wr (K.FLEET_NODE_STATE (38 + j)) 2
    else s) s

/-- A write of SLOT_NODE (R117, R422). -/
def slotNodeEff (j v : Nat) (s : State) : Nat × State :=
  let s := s.wr (K.SLOT_NODE j) v
  (Ans.ok, if v = 0 then (s.wr (K.SLOT_STATUS j) 0).nodeGone (38 + j) else s)

/-- A write of SLOT_LOOP (R118). -/
def slotLoopEff (j v : Nat) (s : State) : Nat × State :=
  if (List.range 8).any fun i => i != j && s.rd (K.SLOT_LOOP i) == v then (Ans.refused, s) else (Ans.ok, s.wr (K.SLOT_LOOP j) v)

end Sys2Proof.Machine
end

