-- ==== Sys2Proof/Machine/DebugBase.lean ====
section
/-! DEFINITION. What the debug port may do (R513 to R517): unlocking and locking, halt, step and resume. -/

namespace Sys2Proof.Machine

/-- Every pending halt is cancelled (R514): a halt not yet in force, and a step in progress. -/
def State.cancelHalts (s : State) : State :=
  (List.range 16).foldl (fun s n =>
    let c := s.chan n
    let st := s.rd (K.DBG_SEQ_STATE n)
    if c.haltAt.isNone ∧ !c.stepping then s
    else (s.setChan n { c with haltAt := none, stepping := false }).wr (K.DBG_SEQ_STATE n) (if st = 2 then 2 else 0)) s

/-- Every breakpoint is disarmed (R514). -/
def State.disarmBreaks (s : State) : State :=
  (List.range 16).foldl (fun s n => (List.range 8).foldl (fun s b => s.clr (K.BRK_KIND n b)) s) s

/-- The port locks (R513, R514). -/
def State.debugLock (s : State) : State :=
  if s.rd K.DBG_STATE = 0 then s
  else
    let s := s.wrs [(K.DBG_UNLOCK, 0), (K.DBG_STATE, 0)]
    let s := { s with dbg := { s.dbg with unlockEnd := none } }
    s.cancelHalts.disarmBreaks.raise 0xFC 0x0142 4 0 0

/-- A concurred length of the unlock takes effect (R513). -/
def State.debugUnlock (s : State) (v : Nat) : State :=
  if v = 0 then s.debugLock
  else
    let s := s.wrs [(K.DBG_UNLOCK, v), (K.DBG_STATE, 1)]
    ({ s with dbg := { s.dbg with unlockEnd := some (s.tm.tick + v * 100000000) } }).raise 0xFC 0x0141 4 0 0

/-- DEBUG_LOCKED (R513): the unlock expires. -/
def execDebugLocked (s : State) : Host.Outcome State Fault Refusal :=
  live (fun s => match s.dbg.unlockEnd with
    | some t => if t ≤ s.tm.tick then s.debugLock else s
    | none => s) s

/-- A write of DBG_LOCK (R513). -/
def dbgLockEff (_v : Nat) (s : State) : Nat × State := (Ans.ok, s.debugLock)

/-- DBG_LOCK (R513). -/
def execDbgLock (m : Msg) (s : State) : Host.Outcome State Fault Refusal := writeCmd m K.DBG_LOCK 1 1 dbgLockEff s

/-- HALT (R515): accepted in RUN and in ARMED. -/
def debugHaltEff (n : Nat) (s : State) : Nat × State :=
  let st := s.rd (K.BC_STATE n)
  let c := s.chan n
  if st ≠ Bc.run ∧ st ≠ Bc.armed then (Ans.refused, s)
  else
    let s := (s.setChan n { c with haltAt := some (c.haltAt.getD s.tm.tick) }).wr (K.DBG_SEQ_STATE n) 1
    (Ans.ok, if st = Bc.run then s.endRunFrom n s.tm.tick else s)

/-- STEP and RESUME (R516): accepted only in HOLD with cause DEBUG. -/
def debugGoEff (n : Nat) (step : Bool) (s : State) : Nat × State :=
  if s.rd (K.BC_STATE n) ≠ Bc.hold ∨ s.rd (K.CS_HOLD_CAUSE n) ≠ 6 then (Ans.refused, s)
  else
    let s := s.setChan n { s.chan n with stepping := step }
    (Ans.ok, (s.wr (K.DBG_SEQ_STATE n) (if step then 3 else 0)).goOn n)

/-- A write of DBG_SEQ_CONTROL, from the debug port only (R515). -/
def seqControlEff (n : Nat) (debug : Bool) (v : Nat) (s : State) : Nat × State :=
  if !debug then (Ans.refused, s)
  else match v with
    | 1 => debugHaltEff n s
    | 2 => debugGoEff n true s
    | _ => debugGoEff n false s

/-- A waiting channel with no chord in progress halts on the first sample instant at least 240 ticks after its halt (R515). -/
def State.haltWaiting (s : State) (n : Nat) : State :=
  let c := s.chan n
  if s.rd (K.BC_STATE n) = Bc.run ∧ (s.liveRun n).isEmpty ∧ c.haltAt.any (fun t => decide (t + 240 ≤ s.tm.tick)) then s.holdDebug n else s

/-- The centre cell of the latest deposit of a channel changes (R517): CELL breakpoints on the deposit tick of sample `a`. -/
def State.cellBreaks (s : State) (n a : Nat) : State :=
  let c := s.chan n
  let no := ((Tab.get (fun _ => []) s.lat.recent n).find? fun e => e.1 == a).map (·.2)
  let s := if c.lastCell = no then s else s.setChan n { c with lastCell := no }
  match no with
  | none => s
  | some k =>
    if c.lastCell = some k then s
    else
      let v := k % 4096 + k / 4096 * 65536
      s.breakHits n (s.breaksAt n 3 (fun w => w % 2 ^ 32 == v))

end Sys2Proof.Machine
end

