-- ==== Sys2Proof/Machine/Latch.lean ====
section
/-! DEFINITION. The latch of a scan sample (R30, R184 to R193): region and reach checks, the pin check of a pass (R242),
underruns (R243), gate edges, power, the record, its pixel record (R237), and the deposit it makes (R258); and the head's
servo samples (R190, R347). -/

namespace Sys2Proof.Machine

/-- The path of a planned chord (R206). -/
def State.plannedPath (s : State) (n : Nat) (p : Planned) : Option PathShape := s.pathOf n p.chord p.sx p.sy

/-- The region check before the first sample of a marked chord (R191): a chord that fails never starts, and the light of
the chord before ends with it. -/
def State.regionCheck (s : State) (n a : Nat) : State :=
  let c := s.chan n
  match s.chordAt n a with
  | none => s
  | some p =>
    if p.checked ∨ !p.isMarked then s
    else
      let ok := match s.plannedPath n p with | some q => s.inRegion n q | none => true
      if ok then
        s.setChan n { c with run := c.run.map fun (q : Planned) => if q.first = p.first then { q with checked := true } else q }
      else s.setChan n { c with regionAt := some a }

/-- Job pages held for a pass: those of its commit, and those of its repair entry. -/
def State.passHeld (s : State) (n : Nat) (p : Pass) : List Nat :=
  ((s.commit n p.slot p.commit).map (·.pinned)).getD [] ++
    (match p.repair with
     | some i => (((s.chan n).repairs[i]?).map (·.pages)).getD []
     | none => [])

/-- The pages a pass needs (R242). -/
def State.passPages (s : State) (n : Nat) (p : Pass) : List Nat :=
  match s.commit n p.slot p.commit with
  | none => []
  | some k => s.neededPages n p.slot (s.facetGeo n p.slot) k ((p.fromAt.map (·.1)).getD 0)

/-- Every needed page of a pass is pinned (R242). -/
def State.passPinned (s : State) (n : Nat) (p : Pass) : Bool :=
  (s.commit n p.slot p.commit).isSome && (s.passPages n p).all fun jp => s.facetPinned n (s.passHeld n p) jp

/-- A pass that begins with pages missing (R242): the channel waits blanked at the lead-in start, its regions released. -/
def State.pinWait (s : State) (n a : Nat) (p : Planned) : State :=
  let c := s.chan n
  let pos := (p.posAt n a).getD (p.rx, p.ry)
  let d : Cand := { Cand.blank a with chords := [(p.chord, p.after)], item := p.item, pinWait := true }
  let later := c.run.filter (fun q => q.first != p.first)
  let s := s.setChan n { c with run := [], tails := [], px := pos.1, py := pos.2, boundary := a, cand := some d }
  let s := (s.remnants later).inc (K.FX_PIN_WAITS n)
  let no := match c.pass with | some q => q.passNo | none => 0
  let s := s.raise (srcFacet n) 0x0041 6 n no
  ((s.syncHeld n).syncSlots n).boundaryStops n a false

/-- The pin check on the latch of a pass's first lead-in sample. -/
def State.pinCheck (s : State) (n a : Nat) : State :=
  let c := s.chan n
  match s.chordAt n a, c.pass with
  | some p, some q =>
    if q.firstLead ≠ a ∨ q.pinned ∨ s.passPinned n q then s else s.pinWait n a p
  | _, _ => s

/-- Slots in FACET mode whose period does not suit the sweep are suspended for the whole FACET (R250). -/
def State.facetPeriods (s : State) (n a : Nat) : State :=
  let c := s.chan n
  match s.chordAt n a, c.pass with
  | some p, some q =>
    if p.first ≠ a then s
    else
      let g := s.facetGeo n q.slot
      let lim := s.limits n
      let pair := 2 * (g.lineSamples + g.lead lim.skyIn lim.accel + g.lead lim.skyOut lim.accel)
      ([3 * n, 3 * n + 1].flatMap fun m => s.slotsOf m).foldl (fun s i =>
        if s.rd (K.RC_SYNC i) ≠ 1 ∨ s.rd (K.RC_MODE i) = 0 then s
        else
          let bad := s.rd (K.RC_PERIOD i) != pair
          let s := (s.setRep i { s.rep i with suspended := bad }).syncRep i
          if bad then s.raise (srcFacet n) 0x0047 6 n i else s) s
  | _, _ => s

/-- The data of a pixel are not in the fetch buffer: a marked tile of an enabled plane lies on a page that is not held, or
its beat is in error, or the context is parked and fetches nothing (R130, R243). -/
def State.pixelMissing (s : State) (n : Nat) (p : Pass) (k : Commit) (held : List Nat) (l x : Nat) : Option Nat :=
  let g := s.facetGeo n p.slot
  let t := l / 64 * g.bw + x / 64
  if s.blockEmpty n p.slot k t then none
  else k.planeList.findSome? fun pl =>
    if !s.tileMarked n k pl t then none
    else
      let a := pixelAddr g (k.bases.getD pl 0) x l
      if s.rd (K.TC_STATE (16 + n)) = 2 ∨ !s.facetPinned n held (a / 65536) ∨ (s.beatFault (16 + n) a false).isSome then some a else none

/-- An underrun at the latch of a sample (R243): the first pixel that starts in it and lacks its data. -/
def State.underrun (s : State) (n a : Nat) : State :=
  let c := s.chan n
  match s.chordAt n a, c.pass with
  | some _, some p =>
    match s.commit n p.slot p.commit with
    | none => s
    | some k =>
      if p.under.isSome then s
      else
        let held := s.passHeld n p
        let lack := (s.pixelsIn n p a 0).findSome? fun q => (s.pixelMissing n p k held q.1 q.2.1).map fun ad => (q.1, q.2.1, ad)
        match lack with
        | none => s
        | some (l, x, ad) =>
          let s := if s.beatFault (16 + n) ad false = some 3 ∧ s.rd (K.TC_STATE (16 + n)) ≠ 2 then
              s.park (16 + n) 3 (ad / 64 * 64) false
            else s
          let s := s.setChan n { s.chan n with pass := some { p with under := some (l, x) } }
          let s := (s.inc (K.FX_UNDERRUNS n)).raise (srcFacet n) 0x0040 3 n (p.passNo + l * 2 ^ 32 + x * 2 ^ 48)
          let s := s.holdLoop (48 + n) LpCause.underrun
          if p.repair.isNone then s.recordRepair n p l x else s
  | _, _ => s

/-- The gate fields of a record (R187): the level at its start and the offsets of its edges. -/
structure GateRec where
  inn : Bool
  on : Option Nat
  off : Option Nat
deriving DecidableEq, Repr

/-- The gate fields of the sample of an instant from its intervals (R184, R187). -/
def gateRec (a : Nat) (iv : List (Nat × Nat)) : GateRec :=
  let inn := iv.any fun g => decide (g.1 < a) && decide (a ≤ g.2)
  let inside := fun (t : Nat) => decide (a ≤ t) && decide (t < a + 400)
  let ons := ascending ((iv.map (·.1)).filter inside)
  let offs := ascending ((iv.map (·.2)).filter inside)
  if inn then
    match offs with
    | [] => { inn := true, on := none, off := none }
    | f :: _ => { inn := true, on := (ons.find? fun o => decide (f < o)).map (· - a), off := some (f - a) }
  else
    match ons with
    | [] => { inn := false, on := none, off := none }
    | o :: _ => { inn := false, on := some (o - a), off := (offs.find? fun f => decide (o < f)).map (· - a) }

/-- The stretches of a sample during which the gate is on, as offsets. -/
def GateRec.lit (g : GateRec) : List (Nat × Nat) :=
  match g.inn, g.on, g.off with
  | false, none, _ => []
  | false, some o, none => [(o, 400)]
  | false, some o, some f => [(o, f)]
  | true, _, none => [(0, 400)]
  | true, none, some f => [(0, f)]
  | true, some o, some f => [(0, f), (o, 400)]

/-- Ticks of a list of stretches that fall within [lo, hi). -/
def litTicks (l : List (Nat × Nat)) (lo hi : Int) : Nat :=
  l.foldl (fun t g => t + (min hi g.2 - max lo g.1).toNat) 0

/-- The pass in progress, and the one before it whose moved pixels may still be due (R235). -/
def Chan.passes (c : Chan) : List Pass := c.pass.toList ++ c.oldPass.toList

/-- The gate of the sample of an instant: its intervals, the edges in it that were clamped, and whether an interval that would begin in
it stays dark. -/
structure GateSet where
  lit : List (Nat × Nat)
  clamped : Nat
  dark : Bool
deriving DecidableEq, Repr

/-- The gate of a sample (R184, R238): none where no chord is in progress. -/
def State.gatesAt (s : State) (n a : Nat) : GateSet :=
  let c := s.chan n
  match s.chordAt n a with
  | some p =>
    let f := c.passes.flatMap fun q => match s.commit n q.slot q.commit with
      | some k => s.passGates n q k p.first (p.boundary - 400) a
      | none => []
    let here := fun (t : Nat) => decide (a ≤ t) && decide (t < a + 400)
    let cl := f.foldl (fun z g => z + (g.2.2.1 && here g.1).toNat + (g.2.2.2 && here g.2.1).toNat) 0
    let own := c.gates.map fun g => (g.on, g.off)
    { lit := own ++ (f.filter fun g => decide (g.1 < g.2.1)).map (fun g => (g.1, g.2.1)), clamped := cl,
      dark := f.any fun g => decide (g.2.1 ≤ g.1) && here g.1 }
  | none => { lit := [], clamped := 0, dark := false }

/-- A pixel as the sample composes it (R238): its start relative to the instant, and its power. -/
structure PixelOut where
  pass : Nat
  start : Int
  line : Nat
  x : Nat
  value : Nat
  pow : Power
deriving DecidableEq, Repr

/-- The pixels that matter to the sample of an instant: those that start in it and the one in force at it. -/
def State.pixelsOut (s : State) (n a gain : Nat) (corr : Int) (scale : Nat) (pts : List (Nat × Nat)) : List PixelOut :=
  let all := (s.chan n).passes.flatMap fun p =>
    match s.commit n p.slot p.commit with
    | none => []
    | some k =>
      let g := s.facetGeo n p.slot
      (s.pixelsIn n p a (g.t + 8000)).map fun q =>
        let v := if p.after q.1 q.2.1 then 0 else s.composite n p.slot g k q.2.1 q.1
        let w : Power := if v = 0 then { p1 := 0, p2 := 0, mod := 0, clamped := false }
          else composePower (s.rd (K.BC_POWER_CEILING n)) (257 * v) scale gain corr pts
        ({ pass := p.passNo, start := (q.2.2 : Int) - a, line := q.1, x := q.2.1, value := v, pow := w } : PixelOut)
  let l := sortBy (fun u v => decide (u.start ≤ v.start)) all
  let before := l.filter fun q => decide (q.start < 0)
  before.drop (before.length - 1) ++ l.filter fun q => decide (0 ≤ q.start)

/-- What the light of a sample comes to: the power field, the energy, p1 of its last power, and whether it was clamped. -/
structure LightOut where
  mod : Nat
  energy : Nat
  p1 : Nat
  clamped : Bool
deriving DecidableEq, Repr

/-- The light of a vector's sample (R185, R186, R258). -/
def vectorLight (w : Power) (ceil : Nat) (lit : List (Nat × Nat)) : LightOut :=
  let t := litTicks lit 0 400
  if t = 0 then { mod := 0, energy := 0, p1 := 0, clamped := false }
  else { mod := w.mod, energy := t * min w.p2 ceil, p1 := w.p1, clamped := w.clamped }

/-- The light of a facet's sample (R237, R238, R258). -/
def facetLight (ps : List PixelOut) (ceil : Nat) (lit : List (Nat × Nat)) : LightOut :=
  let ends := (ps.drop 1).map (·.start) ++ [400]
  let e := (ps.zip ends).foldl (fun z q => z + litTicks lit q.1.start q.2 * min q.1.pow.p2 ceil) 0
  let t := litTicks lit 0 400
  let inForce := (ps.filter (fun q => decide (q.start ≤ 0))).getLast?
  let last := ps.getLast?
  { mod := if t = 0 then 0 else (inForce.map (·.pow.mod)).getD 0, energy := e, p1 := (last.map (·.pow.p1)).getD 0,
    clamped := ps.any fun q => decide (0 ≤ q.start) && q.pow.clamped }

/-- The pixel record (R237), zero-padded to 100 bytes (R346). -/
def State.pixelRecord (s : State) (a period : Nat) (ps : List PixelOut) : List Byte :=
  let here := (ps.filter (fun q => decide (0 ≤ q.start))).take 40
  let first := match here with | q :: _ => q.start.toNat | [] => 0
  let b := toLE 8 (s.timeAt a) ++ toLE 4 (s.pair a / 400) ++ toLE 2 first ++ toLE 2 period ++ toLE 1 here.length ++ toLE 3 0 ++
    here.flatMap (fun q => toLE 2 q.pow.mod)
  b ++ List.replicate (100 - b.length) 0

/-- An edge field of a record. -/
def edgeField (e : Option Nat) : Nat := match e with | some o => 2 ^ 15 + o | none => 0

/-- The head command record (R187). -/
def State.headRecord (s : State) (n a mod : Nat) (g : GateRec) (rearm : Bool) : List Byte :=
  let c := s.chan n
  let epoch := if s.role = Role.active then s.rd K.TWIN_EPOCH else 0
  toLE 8 (s.timeAt a) ++ toLE 4 epoch ++ toLE 4 (s.pair a / 400) ++ toLE 4 (uns 32 (s.loopOut (3 * n))) ++
    toLE 4 (uns 32 (s.loopOut (3 * n + 1))) ++ toLE 4 (uns 32 (s.loopOut (3 * n + 2))) ++ toLE 2 mod ++
    toLE 2 (edgeField g.on) ++ toLE 2 (edgeField g.off) ++
    toLE 1 ((if rearm then 2 else 0) + (if g.inn then 1 else 0)) ++ toLE 1 0 ++ toLE 4 (uns 32 c.hx) ++
    toLE 4 (uns 32 c.hy) ++ toLE 4 (uns 32 c.hz)

/-- The auxiliary outputs of head `n` (R313, R346). -/
def State.auxOut (s : State) (n : Nat) : List Byte :=
  (List.range 4).flatMap fun a =>
    match (List.range 32).reverse.find? (fun k => s.rd (K.LOOP_OUT_TARGET (64 + k)) == 0x0300 + 4 * n + a) with
    | some k => toLE 4 (uns 32 (s.loopOut (64 + k)))
    | none => toLE 4 0

/-- Sending the record of an instant with its pixels, in the frame of tick A - 200 (R188, R346). -/
def State.sendRecord (s : State) (n a mod : Nat) (g : GateRec) (px : List Byte) : State :=
  let c := s.chan n
  let r := s.headRecord n a mod g c.rearm
  let f := r ++ px ++ List.replicate (100 - px.length) 0 ++ s.auxOut n ++ List.replicate 28 0
  let s := s.setChan n { c with frame := f, rearm := false }
  if s.rd (K.LANE_STATE n) = 0 then s
  else { s with sent := { tick := a - 200, path := .head n, bytes := r ++ px } :: s.sent }

/-- A set-point lies outside the head's range (R193). -/
def State.outOfReach (s : State) (n : Nat) : Bool :=
  let c := s.chan n
  let out := fun (v : Int) (k : Nat) => decide (s.rdS 32 k < v) || decide (v < -(s.rdS 32 k))
  out c.hx (K.BC_HEAD_RANGE_X n) || out c.hy (K.BC_HEAD_RANGE_Y n) || out c.hz (K.BC_HEAD_RANGE_Z n)

/-- A channel stops on the latch tick for a set-point out of reach (R193): it is not sent, the last one within reach stands. -/
def State.reachCheck (s : State) (n : Nat) : State :=
  let st := s.rd (K.BC_STATE n)
  let c := s.chan n
  if (st = Bc.armed ∨ st = Bc.run) ∧ s.outOfReach n then
    let s := s.setChan n { c with hx := c.safe.1, hy := c.safe.2.1, hz := c.safe.2.2 }
    (s.inc (K.BC_REACH_BREACH n)).chanFault n 0x15
  else s.setChan n { c with safe := (c.hx, c.hy, c.hz) }

/-- The position a path reaches 400 ticks after a sample, within its chord (R258). -/
def Planned.posNext (n : Nat) (p : Planned) (a : Nat) : Int × Int :=
  if a + 400 < p.boundary then (p.posAt n (a + 400)).getD (p.rx, p.ry) else (p.rx, p.ry)

/-- The line in progress is shown (R251). -/
def State.showLine (s : State) (n a : Nat) (p : Planned) : State :=
  match segAt ((a - p.first) / 400) p.segs with
  | some (.line _ _ _ _ _ (some l), _) => s.wr (K.FX_LINE n) l
  | _ => s

/-- Marks the sweep of a sample leaves behind an underrun of a pass, or makes in a repair entry (R244, R246). -/
def State.passMarks (s : State) (n a : Nat) (ps : List PixelOut) (p : Pass) : State :=
  match s.commit n p.slot p.commit with
  | none => s
  | some k =>
    let g := s.facetGeo n p.slot
    let here := ps.filter fun q => q.pass == p.passNo && decide (0 ≤ q.start)
    let lost := (here.filter fun q => p.after q.line q.x && !s.blockEmpty n p.slot k (q.line / 64 * g.bw + q.x / 64)).flatMap
      fun q => s.footprintCells g p q.x q.line
    let mended := if p.repair.isNone then [] else
      (here.filter fun q => !p.after q.line q.x && q.value != 0).flatMap fun q => s.footprintCells g p q.x q.line
    let s := if s.latOn ∧ !lost.isEmpty then s.latPush (.missed n a lost.eraseDups) else s
    if s.latOn ∧ !mended.isEmpty then s.latPush (.repaired n a mended.eraseDups) else s

/-- The marks of a sample, for the pass in progress and the one before it. -/
def State.sweepMarks (s : State) (n a : Nat) (ps : List PixelOut) : State :=
  (s.chan n).passes.foldl (fun (s : State) p => s.passMarks n a ps p) s

/-- The feed-forward read for the sample of an instant (R30, R264): the gain in force for it. -/
def State.gainRead (s : State) (n a : Nat) : Nat × State :=
  let c := s.chan n
  if c.gain.1 = a then (c.gain.2, s)
  else
    let noFF := match s.chordAt n a with | some p => p.chord.noFF | none => false
    let pos := s.beamAt n a
    let r := s.ffRead n noFF pos.1 pos.2 a
    (r.1, r.2.setChan n { r.2.chan n with gain := (a, r.1) })

/-- The lattice answers the sample of an instant on tick A - 300 (R30, R264). -/
def State.gainTick (s : State) (n a : Nat) : State := if s.marking n then (s.gainRead n a).2 else s

/-- The samples of a channel as they are latched, newest first (R190, R283). -/
def State.noteShot (s : State) (n : Nat) (q : Shot) : State :=
  s.setChan n { s.chan n with shots := (q :: (s.chan n).shots).take 4096 }

/-- The lit sample of an instant: power, record, deposit. -/
def State.latchRun (s : State) (n a : Nat) : State :=
  let ch := s.chordAt n a
  let noLoop := match ch with | some p => p.chord.noLoop | none => false
  let pos := s.beamAt n a
  let fr := s.gainRead n a
  let gain := fr.1
  let s := fr.2
  let corr := if noLoop then 0 else s.loopOut (48 + n)
  let pts := s.curve n
  let ceil := s.rd (K.BC_POWER_CEILING n)
  let s := s.wr (K.BC_CEILING_MOD n) (curveAt pts ceil)
  let gs := s.gatesAt n a
  let g := gateRec a gs.lit
  let facet : Bool := match ch with
    | some p => (match p.chord.shape with | .facet _ _ _ _ _ => true | _ => false)
    | none => false
  let par := match ch with | some p => p.chord.par | none => s.params n
  let ps := if facet then s.pixelsOut n a gain corr par.scale pts else []
  let w := composePower ceil (match ch with | some p => p.chord.power | none => 0) par.scale gain corr pts
  let light := if facet then facetLight ps ceil g.lit else vectorLight w ceil g.lit
  let s := s.bump 32 (K.BC_EDGE_CLAMPED n) gs.clamped
  let s := if gs.dark then s.raise (srcSeq n) 0x0006 6 n ((ch.map (·.chord.addr)).getD 0) else s
  let s := if light.clamped then s.inc (K.BC_CLAMPED n) else s
  let period := match (s.chan n).pass with | some p => (s.facetGeo n p.slot).t | none => 0
  let s := s.sendRecord n a light.mod g (if facet then s.pixelRecord a period ps else [])
  let lit := decide (0 < litTicks g.lit 0 400)
  let s := s.noteShot n { inst := a, x := pos.1, y := pos.2, p1 := light.p1, mod := light.mod, lit := lit,
                          marked := (match ch with | some p => p.isMarked | none => false) }
  let s := if facet then s.sweepMarks n a ps else s
  match ch with
  | some p =>
    let s := if facet then s.showLine n a p else s
    if lit then
      let q := p.posNext n a
      let mx := (pos.1 + q.1) / 2
      let my := (pos.2 + q.2) / 2
      let s := if s.latOn then s.latPush (.deposit n a light.energy mx my p.item.isSome) else s
      s.noteDeposit n a mx my
    else s
  | none => s

/-- What a channel does at the latch of the sample of instant `a` (R183 to R191, R238): set-points, checks, light, and the record. -/
def State.latchAt (s : State) (n a : Nat) : State :=
  let s := [3 * n, 3 * n + 1, 3 * n + 2].foldl (fun s m => s.rampLoop m) s
  let s := if s.marking n then ((s.regionCheck n a).pinCheck n a).facetPeriods n a else s
  let s := s.takeSetPoints n a
  let s := s.reachCheck n
  if s.marking n then (s.underrun n a).latchRun n a
  else
    let s := s.wr (K.BC_CEILING_MOD n) (curveAt (s.curve n) (s.rd (K.BC_POWER_CEILING n)))
    let pos := s.beamAt n a
    (s.sendRecord n a 0 { inn := false, on := none, off := none } []).noteShot n
      { inst := a, x := pos.1, y := pos.2, p1 := 0, mod := 0, lit := false, marked := false }

/-- LATCH (R30, R187, R188): on tick A - 240 of each sample. -/
def State.latch (s : State) (n : Nat) : State := if s.inSample ≠ 160 then s else s.latchAt n (s.tm.tick + 240)

/-- LATCH (R30). -/
def execLatch (n : Fin 16) (s : State) : Host.Outcome State Fault Refusal := live (fun s => s.latch n) s

/-- A LATE or MISSING report of a head (R190). -/
def State.headGap (s : State) (n sample : Nat) : State :=
  let a := s.sampleOf s.tm.tick
  let k := (s.pair a / 400 + 2 ^ 32 - sample % 2 ^ 32) % 2 ^ 32
  let inst := a - 400 * k
  let marked := (s.chan n).shots.any fun q => q.inst == inst && q.marked
  if marked then s.raise (srcSeq n) 0x0004 3 n (s.timeAt inst) else s

/-- The positions of a servo sample feed the loops that name them; a sample number seen before feeds no beam loop, and one that arrives
after A - 360 counts as missing (R31, R190, R312). -/
def State.servoFeed (s : State) (n : Nat) (x y z : Int) (sample status : Nat) (aux : List Int) : State :=
  let c := s.chan n
  let advances := match c.fbSample with | some k => k != sample | none => true
  let s := s.setChan n { c with fbSample := some sample, headStatus := status }
  let beam := [(3 * n, x), (3 * n + 1, y), (3 * n + 2, z)]
  let s := if !advances then s
    else if s.inSample ≤ 40 then beam.foldl (fun (s : State) e => s.feed e.1 e.2 sample) s
    else beam.foldl (fun (s : State) e => s.feedLate e.1 e.2 sample) s
  (List.range 32).foldl (fun s k =>
    let src := s.rd (K.LOOP_FB_SOURCE (64 + k))
    if src / 256 = 3 ∧ src % 256 / 4 = n then s.feed (64 + k) (aux.getD (src % 4) 0) sample else s) s

/-- What a servo sample reports of the commands the head received (R190). -/
def State.servoCounts (s : State) (n sample status : Nat) : State :=
  let s := s.bump 32 (K.BC_CMD_LATE n) (bits status 12 12)
  let s := s.bump 32 (K.BC_CMD_MISSING n) (bits status 11 11)
  if bits status 12 11 ≠ 0 then s.headGap n sample else s

/-- A change of the head's fault bits is an event, and a fault that appears stops the channel (R190). -/
def State.servoFault (s : State) (n old status fault : Nat) : State :=
  if bits old 14 13 = bits status 14 13 then s
  else
    let s := s.raise (srcHead n) 0x005C 3 n (status + fault * 2 ^ 16)
    if bits status 14 13 ≠ 0 then s.chanFault n 0x13 else s

/-- SERVO_SAMPLE (R189, R190, R312, R347): a head's measured positions, its status and its auxiliary inputs. A frame that carries a
reserved value is discarded (R10, R343), and so is one of a lane that is not UP (R352). -/
def State.servoSample (s : State) (n : Nat) (x y z : Int) (sample status fault : Nat) (aux : List Int) : State :=
  if !s.laneUp n then s
  else if status % 2048 ≠ 0 then s.badFrame n
  else (((s.rxFrame n).servoFeed n x y z sample status aux).servoCounts n sample status).servoFault n (s.chan n).headStatus status fault

/-- SERVO_SAMPLE (R347). -/
def execServoSample (n : Fin 16) (x y z : BitVec 32) (sample : BitVec 32) (status fault : BitVec 16)
    (aux : List (BitVec 32)) (s : State) : Host.Outcome State Fault Refusal :=
  live (fun s => s.servoSample n x.toInt y.toInt z.toInt sample.toNat status.toNat fault.toNat
    (aux.map (·.toInt))) s

/-- SERVO_SAMPLE_MISSING (R31, R325): on tick A - 360 no frame has brought new positions. -/
def State.servoMissing (s : State) (n : Nat) : State :=
  if s.inSample ≠ 40 then s
  else [3 * n, 3 * n + 1, 3 * n + 2].foldl (fun s m => if (s.loop m).newFb then s else s.missFeedback m) s

/-- SERVO_SAMPLE_MISSING (R31). -/
def execServoSampleMissing (n : Fin 16) (s : State) : Host.Outcome State Fault Refusal := live (fun s => s.servoMissing n) s

end Sys2Proof.Machine
end

