-- ==== Sys2Proof/Machine/Pass.lean ====
section
/-! DEFINITION. What happens between the passes of a facet (R133, R134, R137, R240 to R249): the walker that pins pages
ahead, the boundary of a pass, the end of a pin wait and of a repair entry. -/

namespace Sys2Proof.Machine

/-- The slot of the FACET a channel comes to next: of its candidate, else of the next chord of its program. -/
def State.nextFacet (s : State) (n : Nat) : Option Nat :=
  let c := s.chan n
  let ch : Option Chord := match c.cand with
    | some d => d.chords.head?.map (·.1)
    | none =>
      let par := match c.run.getLast? with | some p => p.chord.par | none => s.params n
      match (s.peek n true 4096 0 0 [] par (s.planFrom n).1).next with
      | .chord d _ _ => some d
      | _ => none
  ch.bind fun d => match d.shape with
    | .facet slot _ _ _ _ => some slot
    | _ => none

/-- The newest commit of a slot that a pass may use. -/
def State.newest (s : State) (n slot : Nat) : Option Nat :=
  ((s.commits n slot).find? fun (c : Commit) => decide (c.state ≤ 1)).map fun (c : Commit) => c.num

/-- The committed passes that follow the one in progress, as slot and commit: the same slot's next pass, the next FACET's,
and commits that wait for their first use, at most two. -/
def State.nextPasses (s : State) (n : Nat) : List (Nat × Nat) :=
  let own := match (s.chan n).pass with
    | some p => if p.left = 0 ∨ p.repair.isSome then [] else [p.slot]
    | none => []
  let fresh := (List.range 8).filter fun k => (s.commits n k).any fun c => c.state == 0
  let slots := (own ++ (s.nextFacet n).toList ++ fresh).eraseDups
  (slots.filterMap fun k => (s.newest n k).map fun c => (k, c)).take 2

/-- Passes the facet window covers, in order (R134). -/
def State.windowPasses (s : State) (n : Nat) : List (Nat × Nat) :=
  ((match (s.chan n).pass with
    | some p => if p.repair.isSome then [] else [(p.slot, p.commit)]
    | none => []) ++ s.nextPasses n).eraseDups

/-- The passes of a facet window with their pages, as many as fit within 512 pages in order (R134): slot, commit and pages. -/
def State.windowPages (s : State) (n : Nat) : List Nat → List (Nat × Nat) → List (Nat × Nat × List Nat)
  | _, [] => []
  | have', (slot, num) :: more =>
    match s.commit n slot num with
    | none => s.windowPages n have' more
    | some k =>
      let need := s.neededPages n slot (s.facetGeo n slot) k 0
      let all := (have' ++ need).eraseDups
      if 512 < all.length then [] else (slot, num, need) :: s.windowPages n all more

/-- A page of a facet context can be pinned: it is mapped, with no deferred unmap. -/
def State.canPin (s : State) (tc jp : Nat) : Bool :=
  match s.page tc jp with
  | some p => !p.unmap
  | none => false

/-- The walker's next pass of a facet window (R134): the first one that is not pinned yet is pinned whole, or not at all while a page of
it cannot be. -/
def State.pinPass (s : State) (n : Nat) : List (Nat × Nat × List Nat) → State
  | [] => s
  | (slot, num, pages) :: more =>
    let held := ((s.commit n slot num).map (·.pinned)).getD pages
    let lack := pages.filter fun jp => !held.contains jp
    if lack.isEmpty then s.pinPass n more
    else if !(lack.all fun jp => s.canPin (16 + n) jp) then s
    else lack.foldl (fun s jp => s.pin (16 + n) jp) (s.updCommit n slot num fun c => { c with pinned := c.pinned ++ lack })

/-- The pages a repair entry in pin wait still lacks (R242): pinned together, as its own. -/
def State.pinRepair (s : State) (n i : Nat) (lack : List Nat) : State :=
  if lack.isEmpty ∨ !(lack.all fun jp => s.canPin (16 + n) jp) then s
  else
    let c := s.chan n
    let add := fun (r : Repair) => { r with pages := r.pages ++ lack }
    lack.foldl (fun s jp => s.pin (16 + n) jp) (s.setChan n { c with repairs := c.repairs.modify i add })

/-- WINDOW_PIN for a facet window (R134). In a pin wait, the first page that cannot be pinned parks the context (R242). -/
def State.pinFacet (s : State) (n : Nat) : State :=
  let tc := 16 + n
  let s := s.pinPass n (s.windowPages n [] (s.windowPasses n))
  let waits := match (s.chan n).cand with | some d => d.pinWait | none => false
  match (if waits then (s.chan n).pass else none) with
  | none => s
  | some p =>
    let lack := (s.passPages n p).filter fun jp => !s.facetPinned n (s.passHeld n p) jp
    let s := match p.repair with
      | some i => s.pinRepair n i lack
      | none => s
    match lack.find? (fun jp => !s.canPin tc jp) with
    | some jp => if s.rd (K.TC_STATE tc) = 2 then s else s.park tc 1 (jp * 65536) false
    | none => s

/-- WINDOW_PIN for a chord window (R133): the walker's next page is pinned, or a hole reported once; fetch parks on a hole it has come
to (R135). -/
def State.pinChord (s : State) (n : Nat) : State :=
  let c := s.chan n
  if !c.member ∨ c.reached ∨ (s.rd (K.BC_STATE n) ≠ Bc.run ∧ s.rd (K.BC_STATE n) ≠ Bc.hold) then s
  else
    let w := s.window n 1048576
    let t := s.tc n
    match w.1.find? (fun jp => !t.window.contains jp) with
    | some jp =>
      (s.setTc n { t with window := ascending (t.window ++ [jp]), shortAt := t.shortAt.filter (· != jp) }).pin n jp
    | none =>
      match w.2 with
      | some jp =>
        let s := if t.shortAt.contains jp then s
          else (s.setTc n { t with shortAt := t.shortAt ++ [jp] }).raise (srcTc n) 0x00B1 6 n (n + jp * 2 ^ 32)
        s.fetchAhead n
      | none => s

/-- WINDOW_PIN (R133, R134). -/
def State.windowPin (s : State) (tc : Nat) : State := if tc < 16 then s.pinChord tc else s.pinFacet (tc - 16)

/-- WINDOW_PIN (R133). -/
def execWindowPin (tc : Fin 32) (s : State) : Host.Outcome State Fault Refusal := live (fun s => s.windowPin tc) s

/-- The pages of a pass that has ended are released, unless a pass of the window still refers to its commit (R137). -/
def State.releasePass (s : State) (n slot num : Nat) : State :=
  if (s.nextPasses n).contains (slot, num) then s else (s.dropPins n slot num).retire n slot

/-- Empty blocks of a tile row in a pass. -/
def State.rowEmpties (s : State) (n : Nat) (p : Pass) (k : Commit) (r : Nat) : Nat :=
  let g := s.facetGeo n p.slot
  ((List.range g.bw).filter fun bx => s.blockEmpty n p.slot k (r * g.bw + bx)).length

/-- The empty blocks of the tile rows that a pass has left behind (R251; notes/assumptions/147). -/
def State.countRows (s : State) (n : Nat) (p : Pass) : State :=
  let rows := if p.boundary ≤ s.tm.tick then (s.facetGeo n p.slot).bh
    else (((p.lines.filter fun l => decide (l.2 ≤ s.tm.tick)).getLast?).map (·.1 / 64)).getD p.rows
  match s.commit n p.slot p.commit with
  | none => s
  | some k =>
    if rows ≤ p.rows then s
    else
      let t := (List.range (rows - p.rows)).foldl (fun t i => t + s.rowEmpties n p k (p.rows + i)) 0
      (s.bump 32 (K.FX_EMPTY_BLOCKS n) t).setChan n { s.chan n with pass := some { p with rows := rows } }

/-- What the status of a facet shows on a sample instant (R251): the slot in progress, the pass once it has begun, the blocks passed. -/
def State.facetTick (s : State) (n : Nat) : State :=
  let c := s.chan n
  match c.run, c.pass with
  | q :: _, some p =>
    match q.chord.shape with
    | .facet slot _ _ _ _ =>
      if s.tm.tick < q.first ∨ s.rd (K.BC_STATE n) ≠ Bc.run then s
      else
        let s := s.wr (K.FX_SLOT_ACTIVE n) slot
        (if p.begun s.tm.tick then s.wr (K.FX_PASS n) p.passNo else s).countRows n p
    | _ => s
  | _, _ => s

/-- The next pass of a FACET is planned from the end of the present one (R236, R240). -/
def State.nextPass (s : State) (n : Nat) (p : Planned) (q : Pass) : State :=
  match s.passCommit n q.slot s.tm.tick with
  | none => s
  | some k =>
    let no := s.nextPassNo n
    let a := p.first + 400 * segsLen p.segs
    let pl := s.planPass n q.slot k q.x q.y q.angle q.noFF q.noLoop (q.left - 1) no none none a (p.rx, p.ry) p.chord.par.jumpSpeed
    let ending := match (pl.segs.reverse.find? fun g => match g with | .line _ _ _ _ _ _ => true | _ => false) with
      | some g => g.ending
      | none => (pl.restX, pl.restY)
    let p' : Planned := { p with segs := p.segs ++ pl.segs, boundary := if q.left = 1 then pl.endTick else never,
                                 tEnd := pl.pass.boundary, ex := ending.1, ey := ending.2, rx := pl.restX, ry := pl.restY }
    let s := s.countBeats (16 + n) (s.passBeats n q.slot k 0)
    let c := s.chan n
    let s := s.setChan n { c with run := c.run.map (fun r => if r.first = p.first then p' else r), pass := some pl.pass,
                                  oldPass := some q }
    let s := s.useCommit n q.slot k.num no
    if k.num = q.commit then s else (s.releasePass n q.slot q.commit).dropHeld n q.slot k.num

/-- PASS_BOUNDARY (R236, R240, R137): a pass's last swept line has ended. -/
def State.passBoundary (s : State) (n : Nat) : State :=
  let c := s.chan n
  match c.run, c.pass with
  | p :: _, some q =>
    if s.tm.tick < q.boundary ∨ s.tm.tick < p.first ∨ s.rd (K.BC_STATE n) ≠ Bc.run then s
    else
      let s := (s.facetTick n).unholdLoop (48 + n) LpCause.underrun
      if q.repair.isSome then s
      else if q.left = 0 then s.releasePass n q.slot q.commit
      else s.nextPass n p q
  | _, _ => s

/-- PASS_BOUNDARY (R240). -/
def execPassBoundary (n : Fin 16) (s : State) : Host.Outcome State Fault Refusal := live (fun s => s.passBoundary n) s

/-- PIN_WAIT_RELEASE (R242): every needed page is pinned, so the remaining passes are tested as a run start. -/
def State.pinWaitRelease (s : State) (n : Nat) : State :=
  let c := s.chan n
  match c.cand, c.pass with
  | some d, some p =>
    if d.pinWait ∧ !p.pinned ∧ s.passPinned n p then
      s.setChan n { c with pass := some { p with pinned := true },
                           cand := some { d with earliest := s.nextSample (s.tm.tick + 320) } }
    else s
  | _, _ => s

/-- PIN_WAIT_RELEASE (R242). -/
def execPinWaitRelease (n : Fin 16) (s : State) : Host.Outcome State Fault Refusal := live (fun s => s.pinWaitRelease n) s

/-- REPAIR_DONE (R246, R249): a repair entry has come to its end. -/
def State.repairDone (s : State) (n : Nat) : State :=
  let c := s.chan n
  match c.run, c.pass with
  | p :: _, some q =>
    match q.repair with
    | none => s
    | some i =>
      if s.tm.tick < p.boundary ∨ s.rd (K.BC_STATE n) ≠ Bc.run then s
      else
        let s := s.unholdLoop (48 + n) LpCause.underrun
        let s := if q.under.isSome then s.failRepair n i q.passNo
          else ((s.bump 8 (K.RP_DONE n) 1).raise (srcFacet n) 0x0044 4 n q.passNo).endRepair n i
        let s := s.finishHead n
        let s := s.wr (K.RP_STATE n) (if (s.chan n).repairs.length ≤ i + 1 then 3 else 1)
        ((s.retire n q.slot).syncSlots n).boundaryStops n p.boundary true
  | _, _ => s

/-- REPAIR_DONE (R246). -/
def execRepairDone (n : Fin 16) (s : State) : Host.Outcome State Fault Refusal := live (fun s => s.repairDone n) s

end Sys2Proof.Machine
end

