-- ==== Sys2Proof/Machine/Layer.lean ====
section
/-! DEFINITION. Layers as the host and the channels drive them (R22 to R28, R140, R141), ARM and OFF (R194 to R196), the
walk of a stopped program (R225), and the start of REPAIR. -/

namespace Sys2Proof.Machine

/-- The layer after a layer (R24). -/
def successor (n : Nat) : Nat := if n = 4294967295 then 1 else n + 1

/-- A field of a descriptor (R140). -/
def descField (b off w : Nat) : Nat := octField w b off

/-- The descriptor in 256 bytes (R140). -/
def descOf (b : Nat) : Desc :=
  { layer := descField b 0 4, channels := descField b 4 2, preLoop := descField b 6 1, recoatLoop := descField b 7 1,
    preTarget := sgn 32 (descField b 8 4), recoatTarget := sgn 32 (descField b 12 4), tau := descField b 16 4,
    expose := (descField b 20 4).testBit 0, entries := (List.range 16).map fun n => descField b (32 + 8 * n) 8 }

/-- A descriptor that may be committed as layer `n` (R140, R141). -/
def descOk (n : Nat) (bytes : List Byte) : Bool :=
  let b := leNat bytes
  let d := descOf b
  let loopOk := fun (m : Nat) => decide (88 ≤ m) && decide (m ≤ 95)
  decide (crc32c (bytes.take 252) = descField b 252 4) && decide (descField b 20 4 < 2) && decide (descField b 24 8 = 0) &&
    decide (descField b 160 92 = 0) && decide (d.layer = n) && loopOk d.recoatLoop && (d.preLoop == 0 || loopOk d.preLoop) &&
    decide (1 ≤ d.tau) && decide (d.tau ≤ 100000000) &&
    (List.range 16).all fun k =>
      let e := d.entries.getD k 0
      if d.channels.testBit k then decide (e < 2 ^ 40) && decide (e % 16 = 0) else decide (e = 0)

/-- A write of LAYER_COMMIT (R24, R26, R141, R462, R492). -/
def layerCommitEff (n : Nat) (s : State) : Nat × State :=
  if s.rd K.LAYER_PENDING ≠ 0 ∨ n ≠ successor (s.rd K.LAYER_NUMBER) ∨ s.rd K.PWR_ORDER_FAULT = 1 ∨ s.rd K.CAL_MEAS_STATE ≠ 0 then
    (Ans.refused, s)
  else match s.readMem (s.rd K.LAYER_DESC_TC) (s.rd K.LAYER_DESC_ADDR) 256 with
  | none => (Ans.refused, s)
  | some bytes =>
    if !descOk n bytes then (Ans.refused, s)
    else
      let s := { s with layer := { s.layer with pend := some (descOf (leNat bytes)), startAt := s.tm.tick + 1 } }
      (Ans.ok, s.wr K.LAYER_PENDING n)

/-- LAYER_COMMIT (R24). -/
def execLayerCommit (m : Msg) (n : BitVec 32) (s : State) : Host.Outcome State Fault Refusal :=
  writeCmd m K.LAYER_COMMIT 4 n.toNat layerCommitEff s

/-- A write of LAYER_RESUME (R25). -/
def layerResumeEff (n : Nat) (s : State) : Nat × State :=
  if s.phase ≠ Phase.idle ∨ s.rd K.LAYER_PENDING ≠ 0 then (Ans.refused, s) else (Ans.ok, s.keepPhase.wr K.LAYER_NUMBER n)

/-- LAYER_RESUME (R25). -/
def execLayerResume (m : Msg) (n : BitVec 32) (s : State) : Host.Outcome State Fault Refusal :=
  writeCmd m K.LAYER_RESUME 4 n.toNat layerResumeEff s

/-- An allowed rectangle of a channel that is not empty (R191, R195). -/
def State.anyRegion (s : State) (n : Nat) : Bool :=
  [K.BC_REGION_0 n, K.BC_REGION_1 n, K.BC_REGION_2 n, K.BC_REGION_3 n].any fun k =>
    let r := s.rd k
    let f := fun (i : Nat) => sgn 32 (octField 4 r (4 * i))
    decide (f 0 < f 2) && decide (f 1 < f 3)

/-- ARM would be accepted (R195, R485): the link is up in both directions when neither has left L0 (notes/assumptions/144). -/
def State.armOk (s : State) (n : Nat) : Bool :=
  s.rd (K.BC_STATE n) == Bc.off && s.rd (K.LANE_STATE n) == 4 && s.rd (K.LANE_TX_STATE n) == 0 && s.rd (K.LANE_RX_STATE n) == 0 && (s.chan n).headStatus.testBit 15 && s.permit n &&
    s.rd (K.BC_POWER_CEILING n) != 0 && s.anyRegion n && (beamLoops n).all (fun m => s.loopState m != Lp.tripped) &&
    s.rd K.DT_LEVEL != 3 && s.rd K.DT_CUTOFF == 0

/-- A write of ARM (R195): the loops close at the measured positions, and the beam moves to its park point. -/
def armEff (n : Nat) (s : State) : Nat × State :=
  if !s.armOk n then (Ans.refused, s)
  else
    let s := (beamLoops n).foldl (fun s m => s.closeLoop m) s
    let s := (s.wrs [(K.BC_CAUSE n, 0), (K.CS_ACTIVITY n, 0)]).setBc n Bc.armed
    (Ans.ok, (s.setChan n { s.chan n with rearm := true }).parkRun n)

/-- A write of OFF (R196): in RUN with a chord in progress it waits for the first boundary B with B - 240 at or after it. -/
def offEff (n : Nat) (s : State) : Nat × State :=
  let c := s.chan n
  let busy := s.rd (K.BC_STATE n) = Bc.run ∧ c.run.any (fun p => decide (p.first < s.tm.tick + 240))
  if busy then
    (Ans.ok, (s.setChan n { c with offAt := some (c.offAt.getD s.tm.tick) }).endRunFrom n s.tm.tick)
  else (Ans.ok, s.chanOff n)

/-- A write of BC_CONTROL (R195, R196). -/
def bcControlEff (n v : Nat) (s : State) : Nat × State := if v = 1 then armEff n s else offEff n s

/-- ARM (R195). -/
def execArm (m : Msg) (n : Fin 16) (s : State) : Host.Outcome State Fault Refusal :=
  writeCmd m (K.BC_CONTROL n) 1 1 (bcControlEff n) s

/-- OFF (R196). -/
def execOff (m : Msg) (n : Fin 16) (s : State) : Host.Outcome State Fault Refusal :=
  writeCmd m (K.BC_CONTROL n) 1 2 (bcControlEff n) s

/-- What a program walk meets next (R225): something to report, the layer's end, or where it ends early. -/
inductive Met where
  | report (lune : Nat) (items : List (List Chord)) (w : Walk)
  | close
  | ended (addr : Nat)
deriving DecidableEq, Repr

/-- The vectors that make up one run, as a walk reads them: through the commands that do not end it, up to a FLOAT, whose items the walk
reports in their turn. `last` is the cursor after the latest of them. -/
def State.walkRun (s : State) (n : Nat) : Nat → Int × Int → Cursor → Cursor → List Chord × Cursor
  | 0, _, _, last => ([], last)
  | f + 1, p, cur, last =>
    match (s.readNum n cur.pc 16) with
    | none => ([], last)
    | some w =>
      if !(wordErrors w).isEmpty then ([], last)
      else match decodeCmd w with
      | none => ([], last)
      | some cmd =>
        let on := fun (c : Option Cursor) => match c with
          | some c => if (s.semErrors n cur cmd).isEmpty then s.walkRun n f p c last else ([], last)
          | none => ([], last)
        match cmd with
        | .mark _ _ _ _ _ _ | .arc _ _ _ _ _ _ =>
          (match cmd.chord cur (s.params n) with
           | none => ([], last)
           | some c =>
             let ok := c.coordsOk && (match c.shape with | .arc cx cy _ => arcRadiusOk p.1 p.2 cx cy | _ => true)
             if ok then
               let r := s.walkRun n f (s.chordEnd n c p.1 p.2) (cur.skip 1) (cur.skip 1)
               (c :: r.1, r.2)
             else ([], last))
        | .set _ _ _ _ | .marker _ => on (some (cur.skip 1))
        | .call dx dy t => on (cur.call dx dy t)
        | .ret => on cur.ret
        | .rep dx dy count len => on (cur.rep dx dy count len)
        | .jump _ _ _ _ | .facet _ _ _ _ _ _ _ | .float _ _ | .claim _ _ _ | .waitTime _ _ _ _ | .waitEvent _ _ _ _ |
          .barrier _ _ _ | .close _ | .halt => ([], last)

/-- A walk from one command to the next thing it reports (R225). -/
def State.walkNext (s : State) (n : Nat) : Nat → Walk → Met
  | 0, w => .ended w.cur.pc
  | f + 1, w =>
    match w.pre with
    | it :: rest => .report 0 [it] { w with pre := rest }
    | [] =>
      let cur := w.cur
      let stop : Met := .ended cur.pc
      let on := fun (c : Cursor) => s.walkNext n f { w with cur := c }
      match s.readNum n cur.pc 16 with
      | none => stop
      | some word =>
        if !(wordErrors word).isEmpty then stop
        else match decodeCmd word with
        | none => stop
        | some cmd =>
          match cmd with
          | .mark _ _ _ _ _ _ | .arc _ _ _ _ _ _ =>
            let r := s.walkRun n 65536 (w.x, w.y) cur cur
            if r.1.isEmpty then stop else .report 0 [r.1] { w with cur := r.2 }
          | .facet slot _ _ _ _ _ _ =>
            (match cmd.chord cur (s.params n) with
             | some c => if c.coordsOk ∧ s.slotOk n slot then .report 0 [[c]] { w with cur := cur.skip 1 } else stop
             | none => stop)
          | .jump x y _ _ =>
            let p := (x + cur.ox, y + cur.oy)
            if fitsI32 p.1 && fitsI32 p.2 then s.walkNext n f { w with cur := cur.skip 1, x := p.1, y := p.2 } else stop
          | .float count lune =>
            (match s.readBody n (cur.pc + 16) count with
             | none => stop
             | some body =>
               if !(s.bodyErrors lune cur.ox cur.oy n body).isEmpty then stop
               else .report lune ((bodyItems cur.ox cur.oy n body).map (·.chords)) { w with cur := cur.skip (count + 1) })
          | .close _ => if (s.semErrors n cur cmd).isEmpty then .close else stop
          | .call dx dy t => (match cur.call dx dy t with | some c => on c | none => stop)
          | .ret => (match cur.ret with | some c => on c | none => stop)
          | .rep dx dy count len =>
            if !(s.semErrors n cur cmd).isEmpty then stop
            else (match cur.rep dx dy count len with | some c => on c | none => stop)
          | .claim _ _ _ | .waitTime _ _ _ _ | .waitEvent _ _ _ _ | .barrier _ _ _ | .set _ _ _ _ | .marker _ | .halt =>
            if (s.semErrors n cur cmd).isEmpty then on (cur.skip 1) else stop

/-- Runs and items from a point of a walk to its end, which a full report no longer lists. -/
def State.walkCount (s : State) (n : Nat) : Nat → Walk → Nat
  | 0, _ => 0
  | f + 1, w =>
    match s.walkNext n 65536 w with
    | .report _ items w' => items.length + s.walkCount n f w'
    | .close => 0
    | .ended _ => 0

/-- The end of a walk, with where it ended and how much it leaves out. -/
def State.walkEnd (s : State) (n addr count : Nat) : State :=
  ((s.uncovered n 3 0 n addr [] count).setChan n { s.chan n with walk := none }).trimWindow n

/-- Reporting items of a stopped program one after another (R225). -/
def State.walkReport (s : State) (n lune : Nat) : List (List Chord) → Walk → State
  | [], w => s.setChan n { s.chan n with walk := some w }
  | it :: rest, w =>
    let addr := (it.head?.map (·.addr)).getD 0
    if s.rd K.SHARE_UNCOVERED_MAX ≤ w.reports then
      s.walkEnd n addr ((it :: rest).length + s.walkCount n 65536 w)
    else
      let r := s.chordPaths n (w.x, w.y) it
      let own := r.1.flatMap PathShape.corners
      let pts := if it.head?.any Chord.isJump then own else (w.x, w.y) :: own
      let s := s.uncovered n 2 lune n addr pts it.length
      s.walkReport n lune rest { w with x := r.2.1, y := r.2.2, reports := w.reports + 1 }

/-- UNCOVERED_WALK (R225): the next run or FLOAT body of the program of a stopped channel is reported. -/
def State.uncoveredWalk (s : State) (n : Nat) : State :=
  match (s.chan n).walk with
  | none => s
  | some w =>
    match s.walkNext n 65536 w with
    | .report lune items w' => s.walkReport n lune items w'
    | .close => (s.setChan n { s.chan n with walk := none }).trimWindow n
    | .ended a => s.walkEnd n a 0

/-- UNCOVERED_WALK (R225). -/
def execUncoveredWalk (n : Fin 16) (s : State) : Host.Outcome State Fault Refusal := live (fun s => s.uncoveredWalk n) s

/-- A channel that may close its layer now does so (R28, R223). -/
def State.reissueAt (s : State) (n : Nat) : State := if s.rd (K.BC_STATE n) = Bc.run ∧ s.closeReady n then s.reachClose n else s

/-- SHARE_REISSUE_WAIT (R223): the wait since the latest loss is over, and channels with nothing left to serve have reached
their layer-close commands. -/
def State.reissueWait (s : State) : State := (List.range 16).foldl (fun (s : State) n => s.reissueAt n) s

/-- SHARE_REISSUE_WAIT (R223). -/
def execShareReissueWait (s : State) : Host.Outcome State Fault Refusal := live (fun s => s.reissueWait) s

/-- The lattice still marks the remainder of a cut FACET, or has done so on this very tick (R28). -/
def State.markingCut (s : State) : Bool :=
  (s.latOn && s.lat.waiting.any fun w => match w with | .cut _ _ => true | _ => false) || s.lat.cutDone == some s.tm.tick

/-- Every channel of the layer that is not OFF has reached its layer-close command (R28); while RECOAT lasts, every one is
OFF (R220). -/
def State.repairReady (s : State) : Bool :=
  let members := (List.range 16).filter fun n => (s.chan n).member
  let off := fun (n : Nat) => s.rd (K.BC_STATE n) == Bc.off
  !s.markingCut &&
    (if s.phase = Phase.expose then members.all fun n => off n || (s.chan n).reached
     else s.phase == Phase.recoat && !members.isEmpty && members.all off)

/-- A channel with repairs as REPAIR begins (R246): it keeps them only where it runs and its repair pass is enabled. -/
def State.repairChan (s : State) (n : Nat) : State :=
  if (s.chan n).repairs.isEmpty then s
  else if s.rd (K.BC_STATE n) ≠ Bc.run ∨ s.rd (K.RP_ENABLE n) = 0 then s.dropRepairs n
  else s

/-- REPAIR_START (R28, R220, R222, R246). -/
def State.repairStart (s : State) : State :=
  if !s.repairReady then s
  else
    let s := s.setPhase Phase.repair
    let s := { s with layer := { s.layer with stage := 0, closeAt := s.tm.tick + 1 } }
    let s := lunesAll.foldl (fun s l => s.discardLune l) s
    (List.range 16).foldl (fun (s : State) n => s.repairChan n) s

/-- REPAIR_START (R28). -/
def execRepairStart (s : State) : Host.Outcome State Fault Refusal := live (fun s => s.repairStart) s

end Sys2Proof.Machine
end

