-- ==== Sys2Proof/Machine/KeepStore.lean ====
section
/-! DEFINITION. KEEP values, the keeping store's dictionary image and the node digest (R75 to R85). -/

namespace Sys2Proof.Machine

/-- The image of the live KEEP values (R76, R82). -/
def State.image (s : State) (gen : Nat) : Image :=
  { gen := gen, entries := Dict.keepKeys.map (fun k => match Dict.find k with
      | some r => { key := k, ty := r.ty.code, len := r.len, value := s.rd k }
      | none => { key := k, ty := 0, len := 0, value := 0 }) }

/-- The generation of the newest image ever held. -/
def Keep.newest (k : Keep) : Nat :=
  max ((k.imgA.map (·.gen)).getD 0) ((k.imgB.map (·.gen)).getD 0)

/-- Starting a store (R76). -/
def State.startStore (s : State) : State :=
  let img := s.image (s.kp.newest + 1)
  { (s.wr K.KEEP_STATE 2) with kp := { s.kp with storing := some img, changed := false } }

/-- A concurrence forces a store, at once or when the running one ends (R78). -/
def State.forceStore (s : State) : State :=
  if s.rd K.KEEP_STATE = 2 then { s with kp := { s.kp with again := true } } else s.startStore

/-- A write of the store code (R76). -/
def keepStoreEff (_v : Nat) (s : State) : Nat × State :=
  if s.rd K.KEEP_STATE = 2 then (Ans.refused, s) else (Ans.ok, s.startStore)

/-- KEEP_STORE (R76). -/
def execKeepStore (m : Msg) (s : State) : Host.Outcome State Fault Refusal :=
  writeCmd m K.KEEP_STORE 4 0x65766173 keepStoreEff s

/-- Placing a finished image in the copy of the older generation (R76). -/
def Keep.place (k : Keep) (i : Image) : Keep :=
  let a : Nat := (k.imgA.map (fun (x : Image) => x.gen)).getD 0
  let b : Nat := (k.imgB.map (fun (x : Image) => x.gen)).getD 0
  if a ≤ b then { k with imgA := some i } else { k with imgB := some i }

/-- The end of a store (R76). -/
def State.storeDone (s : State) (good : Bool) : State :=
  match s.kp.storing with
  | none => s
  | some img =>
    let s := { s with kp := { s.kp with storing := none } }
    let s := if good then
        let s := { s with kp := s.kp.place img }
        s.wrs [(K.KEEP_STATE, if s.kp.changed then 1 else 0), (K.KEEP_GENERATION, img.gen), (K.KEEP_SAVE_TIME, s.now)]
      else (s.wr K.KEEP_STATE 3).raise 0xEF 0x0098 3 0 0
    if s.kp.again then ({ s with kp := { s.kp with again := false } }).startStore else s

/-- KEEP_STORE_DONE (R76). -/
def execKeepStoreDone (ok : Bool) (s : State) : Host.Outcome State Fault Refusal := live (fun s => s.storeDone ok) s

/-- An entry that KEEP_RESTORE sets to its default (R77). -/
def restorable (key : Nat) : Bool :=
  match Dict.find key with
  | none => false
  | some r => r.keep && r.acc != .rwg && !r.factory

/-- The keys whose values enter the node digest (R81). -/
def digestKeys : List Nat := Dict.keysWhere (fun r => r.keep && !r.partOwn)

/-- A trim record, which belongs to the part (R458). -/
def trimType (ty : Nat) : Bool := decide (0x3000 ≤ ty) && decide (ty < 0x3300)

/-- Installed records that enter the digest, in ascending type. -/
def State.digestCals (s : State) : List (Nat × CalRec) :=
  s.installed.filterMap (fun e => if trimType e.1 then none else e.2.map (fun r => (e.1, r)))

/-- The digest input (R81, R82). -/
def State.digestInput (s : State) : List Byte :=
  toLE 2 (s.rd K.DICT_VERSION) ++
  digestKeys.flatMap (fun k => match Dict.find k with
    | none => []
    | some r => toLE 2 (k / 256) ++ toLE 1 k ++ toLE 1 r.ty.code ++ toLE 2 r.len ++ toLE r.len (s.rd k)) ++
  s.digestCals.flatMap (fun e => toLE 2 e.1 ++ toLE 4 e.2.payload.length ++ e.2.payload)

/-- The node digest of the configuration in force (R83). -/
def State.nodeDigest (s : State) : Nat := leNat ((sha256 s.digestInput).take 8)

/-- DIGEST_CURRENT (R85): the entries update together and DIGEST_CURRENT is raised. -/
def State.digestCurrent (s : State) : State :=
  if s.rd K.NODE_DIGEST_STATE = 0 then s
  else
    let d := s.nodeDigest
    (s.wrs [(K.NODE_DIGEST, d), (K.NODE_DIGEST_STAMP, s.timeAt s.kp.digestTick), (K.NODE_DIGEST_STATE, 0),
            (K.NODE_DIGEST_ENTRIES, digestKeys.length), (K.NODE_DIGEST_CAL, s.digestCals.length)]).raise 0xF8 0x0161 6 0 0

/-- DIGEST_CURRENT (R85). -/
def execDigestCurrent (s : State) : Host.Outcome State Fault Refusal := live (fun s => s.digestCurrent) s

/-- The value an entry takes from an image (R79): the stored one when its type, length and value fit. -/
def Image.take (i : Image) (key : Nat) : Option Nat :=
  match i.entries.find? (fun e => e.key == key), Dict.find key with
  | some e, some r => if e.ty = r.ty.code ∧ e.len = r.len ∧ r.bitsOk e.value ∧ r.rangeOk e.value then some e.value else none
  | _, _ => none

/-- The image with the higher valid generation. -/
def Keep.best (k : Keep) : Option Image :=
  match k.imgA, k.imgB with
  | some a, some b => if a.gen ≤ b.gen then some b else some a
  | some a, none => some a
  | none, b => b

/-- Loading the KEEP values at a reset of either kind (R79). -/
def State.loadKeep (s : State) : State :=
  match s.kp.best with
  | none =>
    (s.wrs [(K.KEEP_STATE, 4), (K.KEEP_GENERATION, 0), (K.KEEP_DEFAULTED, Dict.keepKeys.length),
            (K.KEEP_DEFAULTED_FIRST, Dict.keepKeys.headD 0), (K.KEEP_UNKNOWN, 0)]).raise 0xEF 0x0099 3 0 0
  | some i =>
    let missing := Dict.keepKeys.filter (fun k => (i.take k).isNone)
    let unknown := (i.entries.filter (fun e => !Dict.keepKeys.contains e.key)).length
    let s := Dict.keepKeys.foldl (fun s k => match i.take k with
      | some v => s.wr k v
      | none => s) s
    s.wrs [(K.KEEP_STATE, if missing.isEmpty then 0 else 1), (K.KEEP_GENERATION, i.gen), (K.KEEP_DEFAULTED, missing.length),
           (K.KEEP_DEFAULTED_FIRST, missing.headD 0), (K.KEEP_UNKNOWN, unknown)]

end Sys2Proof.Machine
end

