-- ==== Sys2Proof/Machine/Links.lean ====
section
/-! DEFINITION. Serial lanes (R336 to R361): the line code, the frames sent in each slot, bring-up, loss, power states and the
eye scan. -/

namespace Sys2Proof.Machine

/-- CRC-32 of IEEE 802.3 (R340). -/
def crc32 (bs : List Byte) : Nat := bs.foldl (crcByte 0xEDB88320) 0xFFFFFFFF ^^^ 0xFFFFFFFF

/-- The bits of bytes in line order, least significant first (R338). -/
def lineBits (bs : List Byte) : List Bool := bs.flatMap fun b => (List.range 8).map fun i => b.toNat.testBit i

/-- The sync token, bit 15 first (R339). -/
def syncToken : List Bool := (List.range 16).map fun i => (0x7FCA : Nat).testBit (15 - i)

/-- The scrambler's seed for a header word (R341). -/
def scrambleSeed (h : Nat) : Nat :=
  let v := h * 0x9E3779B1 % 2 ^ 32 / 2
  if v = 0 then 1 else v

/-- Scrambling bits in line order (R341). -/
def scramble : Nat → List Bool → List Bool
  | _, [] => []
  | v, b :: t =>
    let f := v.testBit 30 != v.testBit 27
    (b != f) :: scramble ((2 * v + (if f then 1 else 0)) % 2 ^ 31) t

/-- Stuffing (R342): after seven identical data bits their complement, and the count restarts. -/
def stuff : Nat → Bool → List Bool → List Bool
  | _, _, [] => []
  | n, last, b :: t =>
    let k := if n = 0 ∨ b != last then 1 else n + 1
    if k = 7 then b :: (!b) :: stuff 0 b t else b :: stuff k b t

/-- Fill that alternates, beginning with the complement of the bit before it (R342). -/
def fillBits : Nat → Bool → List Bool
  | 0, _ => []
  | n + 1, last => (!last) :: fillBits n (!last)

/-- The 2,048 line bits of a frame (R338 to R342). -/
def frameLine (header : Nat) (payload : List Byte) : List Bool :=
  let p := (payload ++ List.replicate (192 - payload.length) 0).take 192
  let h := toLE 4 header
  let body := stuff 0 false (lineBits h ++ scramble (scrambleSeed header) (lineBits (p ++ toLE 4 (crc32 (h ++ p)))))
  let all := syncToken ++ body
  all ++ fillBits (2048 - all.length) (all.getLastD false)

/-- Line bits as bytes, the first bit least significant. -/
def packBits : Nat → List Bool → List Byte
  | 0, _ => []
  | n + 1, bs =>
    BitVec.ofNat 8 (((bs.take 8).foldr (fun b a => 2 * a + (if b then 1 else 0)) 0)) :: packBits n (bs.drop 8)

/-- The type of a control message (R348). -/
def msgType (m : List Byte) : Nat := (m.headD 0).toNat

/-- Entering a state of bring-up (R352): messages of an IDENT that is over are no longer sent (R361). -/
def State.laneTo (s : State) (l st : Nat) : State :=
  let x := s.lane l
  (s.setLane l { x with since := s.tm.tick, tokens := 0, upAt := none, back := false,
                        queue := x.queue.filter fun m => msgType m != 4 && msgType m != 5 }).wr (K.LANE_STATE l) st

/-- A partner link is up (R352, R409): all four of its lanes are UP, none has a delay above 24 ticks, and frames of equal SEQ, which come
back two delays after they were sent, arrive within 8 ticks of one another. -/
def State.syncLinks (s : State) : State :=
  let d := fun (k i : Nat) => s.rd (K.LANE_DELAY (36 + 4 * k + i))
  let near := fun (k i : Nat) => (List.range 4).all fun j => decide (2 * d k i ≤ 2 * d k j + 8 * 128)
  let up := fun (k : Nat) => (List.range 4).all fun i => s.laneUp (36 + 4 * k + i) && decide (d k i ≤ 24 * 128) && near k i
  s.wr K.TWIN_LINKS ((if up 0 then 1 else 0) + (if up 1 then 2 else 0))

/-- The context through which the contents of a physical page are mirrored (R21). -/
def mirrorTc (pp : Nat) : Nat := 58 + pp % 4

/-- The end of an eye scan (R357). -/
def State.eyeEnd (s : State) (l st : Nat) : State :=
  if s.rd (K.EYE_STATE l) ≠ 1 then s
  else (s.wrs [(K.EYE_STATE l, st), (K.EYE_END_STAMP l, s.now)]).laneEvent l 0x00A5 6 st (s.rd (K.EYE_POINTS_DONE l))

/-- What the rest of the device sees when a lane ceases to be UP (R354, R357, R422, R442). -/
def State.laneLeft (s : State) (l : Nat) : State :=
  let s := s.eyeEnd l 3
  let s := s.setLane l { s.lane l with digestAt := none, badRun := 0, last := none }
  let s := if l < 16 then s.withdraw (2 ^ l) Bp.linkLoss else s
  let s := if 16 ≤ l ∧ l < 36 then s.syncPipes l else s
  if l < 36 then s.nodeGone (l + 2) else if l < 44 then s.syncLinks else s

/-- Moving a lane that may be UP to another state. -/
def State.laneDrop (s : State) (l st : Nat) : State :=
  if s.laneUp l then (s.laneTo l st).laneLeft l else s.laneTo l st

/-- Entry to UP (R352). -/
def State.laneEnterUp (s : State) (l : Nat) : State :=
  let s := ((s.laneTo l 4).wr (K.LANE_UP_STAMP l) s.now).laneAwake l
  let s := s.laneEvent l 0x00A0 6 (s.rd (K.LANE_NODE_KIND l)) (s.rd (K.LANE_DELAY l))
  let s := if 16 ≤ l ∧ l < 36 then s.syncPipes l else s
  if 36 ≤ l ∧ l < 44 then s.syncLinks else s

/-- The lane of a field-network port follows its physical link while it is enabled (R336, R352). -/
def State.syncPort (s : State) (p : Nat) : State :=
  let l := 44 + p
  let st := if s.rd (K.LANE_ENABLE l) = 1 ∧ s.rd (K.LINK_STATE p) = 1 then 4 else 0
  if s.rd (K.LANE_STATE l) = st then s
  else if st = 4 then (s.wr (K.LANE_STATE l) 4).wr (K.LANE_UP_STAMP l) s.now
  else (s.wr (K.LANE_STATE l) 0).eyeEnd l 3

/-- A write of LANE_ENABLE (R352). -/
def laneEnableEff (l v : Nat) (s : State) : Nat × State :=
  let s := s.wr (K.LANE_ENABLE l) v
  (Ans.ok, if 44 ≤ l then s.syncPort (l - 44) else if v = 0 then s.laneDrop l 0 else s)

/-- LANE_ENABLE (R352). -/
def execLaneEnable (m : Msg) (l : Fin 48) (v : BitVec 8) (s : State) : Host.Outcome State Fault Refusal :=
  writeCmd m (K.LANE_ENABLE l.val) 1 v.toNat (laneEnableEff l.val) s

/-- SIGNAL_PRESENT (R352, R355). -/
def State.signalPresent (s : State) (l : Nat) : State :=
  if s.rd (K.LANE_ENABLE l) = 0 then s
  else if s.rd (K.LANE_STATE l) = 0 then s.laneTo l 1
  else if (s.lane l).rxNow = 2 ∧ !(s.lane l).back then
    let s := s.laneDrop l 1
    s.setLane l { s.lane l with back := true }
  else s

/-- SIGNAL_PRESENT (R352). -/
def execSignalPresent (l : Fin 44) (s : State) : Host.Outcome State Fault Refusal := live (fun s => s.signalPresent l) s

/-- PHASE_LOCK (R352). -/
def State.phaseLock (s : State) (l : Nat) : State :=
  if s.rd (K.LANE_STATE l) ≠ 1 then s
  else
    let back := (s.lane l).back
    let s := s.laneTo l 2
    s.setLane l { s.lane l with back := back }

/-- PHASE_LOCK (R352). -/
def execPhaseLock (l : Fin 44) (s : State) : Host.Outcome State Fault Refusal :=
  live (fun s => s.phaseLock l) s

/-- Eight consecutive tokens (R352); a direction back from L2 is UP without IDENT (R355). -/
def State.tokenSeen (s : State) (l : Nat) : State :=
  let x := s.lane l
  if x.tokens + 1 < 8 then s.setLane l { x with tokens := x.tokens + 1 }
  else if x.back then s.laneEnterUp l
  else s.laneTo l 3

/-- A header word of a received frame carries no reserved value (R343). -/
def headerOk (l h : Nat) : Bool :=
  decide (bits h 31 28 ≤ 6) && bits h 7 0 == 0 && !h.testBit 24 && (if 36 ≤ l then bits h 11 8 == l % 4 else bits h 11 8 == 0)

/-- A frame that has passed its checks (R343): its place in the sequence, and SLEEP (R355). -/
def State.goodFrame (s : State) (l h : Nat) : State :=
  let x := s.lane l
  let q := bits h 23 12
  let gaps := match x.last with
    | some p => (q + 4095 - p) % 4096
    | none => 0
  let s := s.setLane l { x with last := some q, badRun := 0 }
  let s := (s.inc (K.LANE_FRAMES_RX l)).bump 32 (K.LANE_SEQ_GAPS l) gaps
  if h.testBit 26 then s.laneUpState l (max 1 (s.rd (K.LANE_RX_STATE l))) else s.laneAwake l

/-- IDLE_FRAME (R343, R352). -/
def State.idleFrame (s : State) (f : UpFrame) : State :=
  let l := f.lane.val
  let st := s.rd (K.LANE_STATE l)
  if st = 2 then (if f.token then s.tokenSeen l else s.setLane l { s.lane l with tokens := 0 })
  else if st < 3 ∨ !f.token then s
  else if f.crcOk && headerOk l f.header.toNat then s.goodFrame l f.header.toNat else s.badFrame l

/-- IDLE_FRAME (R343). -/
def execIdleFrame (f : UpFrame) (s : State) : Host.Outcome State Fault Refusal := live (fun s => s.idleFrame f) s

/-- IDENT_REQUEST (R352): every 10 us in IDENT. -/
def State.identRequest (s : State) (l : Nat) : State :=
  let x := s.lane l
  if s.rd (K.LANE_STATE l) ≠ 3 ∨ (x.since ≤ x.askedAt ∧ s.tm.tick < x.askedAt + 1000) then s
  else (s.setLane l { x with askedAt := s.tm.tick }).queueMsg l 0x04 []

/-- IDENT_REQUEST (R352). -/
def execIdentRequest (l : Fin 44) (s : State) : Host.Outcome State Fault Refusal := live (fun s => s.identRequest l) s

/-- The reports an IDENT fills (R202, R304, R349). -/
def State.identReport (s : State) (l : Nat) (i : Ident) : State :=
  let f := fun (off n : Nat) => leNat ((i.fields.drop off).take n)
  if l < 16 then
    s.wrs [(K.BC_HEAD_RANGE_X l, f 0 4), (K.BC_HEAD_RANGE_Y l, f 4 4), (K.BC_HEAD_RANGE_Z l, f 8 4), (K.FX_HEAD_MIN_PERIOD l, f 12 2)]
  else if l < 36 then
    let o := l - 16
    s.wrs [(K.SENS_LATENCY o, f 0 1), (K.SENS_START_SETTINGS o, f 1 1), (K.SENS_ARRAY_W o, f 2 2), (K.SENS_ARRAY_H o, f 4 2),
           (K.SENS_SAT o, f 6 2), (K.SENS_MIN_EXPOSURE o, f 8 4)]
  else s

/-- A lane that could not be identified returns to ACQUIRE (R352). -/
def State.identFailed (s : State) (l detail d : Nat) : State := (s.laneTo l 1).laneEvent l 0x00A3 3 detail d

/-- The reserved bytes of an IDENT's part by kind are zero (R343, R349). -/
def zeroTail (i : Ident) : Bool :=
  decide (leNat (i.fields.drop (if i.kind = 1 then 14 else 12)) = 0)

/-- IDENT (R343, R348, R352): the far end is reported and DELAY is queued; a head too far away is not accepted. -/
def State.identIn (s : State) (l : Nat) (i : Ident) : State :=
  let use := Dict.laneUse l
  if s.rd (K.LANE_STATE l) ≠ 3 then s
  else if !zeroTail i then s.badFrame l
  else if use < 3 ∧ i.kind.toNat ≠ use + 1 then s.rxFrame l
  else
    let d := i.delay.toNat
    let s := s.rxFrame l
    let s := s.wrs [(K.LANE_NODE_KIND l, i.kind.toNat), (K.LANE_NODE_SERIAL l, i.serial.toNat), (K.LANE_DELAY l, d)]
    let s := s.identReport l i
    if l < 16 ∧ 12 * 128 < d then s.identFailed l 1 d else s.queueMsg l 0x05 (toLE 4 d)

/-- IDENT (R348). -/
def execIdent (l : Fin 44) (i : Ident) (s : State) : Host.Outcome State Fault Refusal := live (fun s => s.identIn l i) s

/-- LANE_UP (R352): on the tick after DELAY is sent. -/
def State.laneUpDue (s : State) (l : Nat) : State :=
  match (s.lane l).upAt with
  | some t => if t ≤ s.tm.tick ∧ s.rd (K.LANE_STATE l) = 3 then s.laneEnterUp l else s
  | none => s

/-- LANE_UP (R352). -/
def execLaneUp (l : Fin 44) (s : State) : Host.Outcome State Fault Refusal := live (fun s => s.laneUpDue l) s

/-- A control message of a type waits on a lane. -/
def Lane.holds (x : Lane) (type : Nat) : Bool := x.queue.any fun m => msgType m == type

/-- IDENT_FAIL (R352): no IDENT within 100 us. -/
def State.identFail (s : State) (l : Nat) : State :=
  let x := s.lane l
  if s.rd (K.LANE_STATE l) = 3 ∧ x.since + 10000 ≤ s.tm.tick ∧ x.upAt.isNone ∧ !x.holds 5 then s.identFailed l 0 0 else s

/-- IDENT_FAIL (R352). -/
def execIdentFail (l : Fin 44) (s : State) : Host.Outcome State Fault Refusal := live (fun s => s.identFail l) s

/-- LINK_LOSS (R354): tokens have failed in L0 (1), eight frames running have been discarded (2), or no token came in L1 (3). -/
def State.linkLoss (s : State) (l detail : Nat) : State :=
  let x := s.lane l
  let rx := x.rxNow
  let due := (detail == 1 && rx == 0) || (detail == 2 && rx == 0 && decide (8 ≤ x.badRun)) || (detail == 3 && rx == 1)
  if !s.laneUp l ∨ !due then s
  else
    let s := (s.inc (K.LANE_LOSSES l)).laneEvent l 0x00A1 3 detail (x.last.getD 0)
    s.laneDrop l 1

/-- LINK_LOSS (R354). -/
def execLinkLoss (l : Fin 44) (detail : BitVec 8) (s : State) : Host.Outcome State Fault Refusal :=
  live (fun s => s.linkLoss l detail.toNat) s

/-- DIGEST (R348, R422). -/
def execDigest (l : Fin 36) (digest : BitVec 64) (s : State) : Host.Outcome State Fault Refusal :=
  live (fun s =>
    if !s.laneUp l then s
    else
      let s := s.rxFrame l
      (s.setLane l { s.lane l with digestAt := none }).nodeDigestIn (l + 2) digest.toNat) s

/-- NODE_EVENT (R348, R360). -/
def execNodeEvent (l : Fin 36) (code : BitVec 16) (_data : BitVec 64) (s : State) : Host.Outcome State Fault Refusal :=
  live (fun s => if !s.laneUp l then s else (s.rxFrame l).laneEvent l 0x00A6 6 0 code.toNat) s

/-- A direction of a lane may leave L0 (R356). -/
def State.mayLeaveL0 (s : State) (l : Nat) : Bool :=
  if l < 16 then s.rd (K.BC_STATE l) == Bc.off
  else if l < 36 then !((List.range 24).any fun k => s.rd (K.PC_ENABLE k) == 1 && (s.pcOwner k).any (fun o => pcLane o == l))
  else if l < 44 then s.role == Role.detached
  else false

/-- A write of LANE_TX_STATE (R355, R356): it applies from the next slot boundary (R361). -/
def laneTxEff (l v : Nat) (s : State) : Nat × State :=
  let old := s.rd (K.LANE_TX_STATE l)
  if old = 0 ∧ v ≠ 0 ∧ !s.mayLeaveL0 l then (Ans.refused, s)
  else
    (Ans.ok, s.wr (K.LANE_TX_STATE l) v)

/-- LANE_TX_STATE (R355). -/
def execLaneTxState (m : Msg) (l : Fin 48) (v : BitVec 8) (s : State) : Host.Outcome State Fault Refusal :=
  writeCmd m (K.LANE_TX_STATE l.val) 1 v.toNat (laneTxEff l.val) s

/-- A write of LANE_RX_STATE (R355, R356): the far end is asked with LINK_STATE. -/
def laneRxEff (l v : Nat) (s : State) : Nat × State :=
  let old := s.rd (K.LANE_RX_STATE l)
  if old = 0 ∧ v ≠ 0 ∧ (!s.mayLeaveL0 l ∨ s.rd (K.LANE_TX_STATE l) ≠ 0) then (Ans.refused, s)
  else (Ans.ok, (s.wr (K.LANE_RX_STATE l) v).queueMsg l 0x03 (toLE 1 v))

/-- LANE_RX_STATE (R355). -/
def execLaneRxState (m : Msg) (l : Fin 48) (v : BitVec 8) (s : State) : Host.Outcome State Fault Refusal :=
  writeCmd m (K.LANE_RX_STATE l.val) 1 v.toNat (laneRxEff l.val) s

/-- Points of a scan (R357, R359): none where an end lies before its beginning. -/
def State.eyePoints (s : State) (l : Nat) : Nat :=
  (s.rdS 16 (K.EYE_PHASE_LAST l) - s.rdS 16 (K.EYE_PHASE_FIRST l) + 1).toNat *
    (s.rdS 16 (K.EYE_VOLT_LAST l) - s.rdS 16 (K.EYE_VOLT_FIRST l) + 1).toNat

/-- A write of EYE_CONTROL (R357): 1 starts, 2 aborts. -/
def eyeControlEff (l v : Nat) (s : State) : Nat × State :=
  let st := s.rd (K.EYE_STATE l)
  if v = 1 then
    if !s.laneUp l ∨ s.rd (K.LANE_TX_STATE l) ≠ 0 ∨ s.rd (K.LANE_RX_STATE l) ≠ 0 ∨ st = 1 then (Ans.refused, s)
    else
      let s := s.wrs [(K.EYE_STATE l, 1), (K.EYE_POINTS_DONE l, 0)]
      (Ans.ok, if s.eyePoints l = 0 then s.eyeEnd l 2 else s)
  else if st = 1 then (Ans.ok, s.eyeEnd l 3)
  else if st = 2 then (Ans.alreadyComplete, s)
  else (Ans.refused, s)

/-- EYE_START (R357). -/
def execEyeStart (m : Msg) (l : Fin 48) (s : State) : Host.Outcome State Fault Refusal :=
  writeCmd m (K.EYE_CONTROL l.val) 1 1 (eyeControlEff l.val) s

/-- EYE_ABORT (R357). -/
def execEyeAbort (m : Msg) (l : Fin 48) (s : State) : Host.Outcome State Fault Refusal :=
  writeCmd m (K.EYE_CONTROL l.val) 1 2 (eyeControlEff l.val) s

/-- EYE_POINT (R357): a count is written; a parked context keeps the point waiting. -/
def State.eyePoint (s : State) (l count : Nat) : State :=
  if s.rd (K.EYE_STATE l) ≠ 1 then s
  else
    let n := s.rd (K.EYE_POINTS_DONE l)
    let t := s.tryWrite (s.rd (K.EYE_TC l)) (s.rd (K.EYE_ADDR l) + 4 * n) (toLE 4 count)
    if !t.1 then t.2
    else
      let s := t.2.wr (K.EYE_POINTS_DONE l) (n + 1)
      if s.eyePoints l ≤ n + 1 then s.eyeEnd l 2 else s

/-- EYE_POINT (R357). -/
def execEyePoint (l : Fin 48) (count : BitVec 32) (s : State) : Host.Outcome State Fault Refusal :=
  live (fun s => s.eyePoint l count.toNat) s

/-- The time record of a sample period (R345). -/
def State.timeRecord (s : State) : List Byte :=
  let t := s.sampleOf s.tm.tick
  let at' : Nat × Int := match s.tm.segs.find? (fun g => g.1 == t) with
    | some g => (g.2.1, g.2.2)
    | none => (s.timeAt t * 2 ^ 32, s.tm.inc)
  toLE 8 (s.pair t) ++ toLE 8 (at'.1 / 2 ^ 32) ++ toLE 4 at'.1 ++ toLE 4 0 ++ toLE 8 (uns 64 at'.2)

/-- Control messages a lane may send in its state: IDENT_REQUEST and DELAY at bring-up, all others once UP. -/
def sendable (up : Bool) (m : List Byte) : Bool := up || msgType m == 4 || msgType m == 5

/-- Firings that become known 200 ticks or more before their tick are announced by EXPOSE in native mode (R350). -/
def State.announce (s : State) (l : Nat) : State :=
  let o := l - 16
  if l < 16 ∨ 36 ≤ l ∨ s.rd (K.PC_SHADOW o) = 1 then s
  else
    let action := if l < 32 then 2 else 3
    let target := if l < 32 then o else o - 16
    (List.range 64).foldl (fun s n =>
      match (if s.rd (K.TT_ARM n) = 1 ∧ s.rd (K.TT_ACTION n) = action ∧ s.rd (K.TT_TARGET n) = target ∧ !(s.trig.any fun e => e.1 == n && e.2.late)
          then (Tab.get (fun _ => ({ nextTick := none, late := false } : Trigger)) s.trig n).nextTick else none) with
      | none => s
      | some t =>
        let x := s.lane l
        if s.tm.tick + 200 ≤ t ∧ t < s.tm.tick + 600 ∧ !x.exposed.contains t then
          (s.setLane l { x with exposed := x.exposed ++ [t] }).queueMsg l 0x02 (toLE 8 (s.pair t) ++ toLE 2 0)
        else s) s

/-- At a slot boundary the transmitter of a lane takes the state asked of it (R355, R360). -/
def State.laneDownState (s : State) (l : Nat) : State :=
  let v := s.rd (K.LANE_TX_STATE l)
  if (s.lane l).txNow = v then s
  else (s.setLane l { s.lane l with txNow := v, idleFrom := s.tm.tick + 16 }).laneEvent l 0x00A4 6 v 0

/-- One down frame of a lane (R337, R343, R345, R346, R348, R351, R355): slot 0 carries the time record and control messages, slot 12
of a head link the head command, a partner link its part of the group; other slots carry waiting control messages, or are idle. The
last frame before L1 or L2 carries SLEEP. -/
def State.downFrame (s : State) (l slot : Nat) (group : List Byte) : State :=
  let was := (s.lane l).txNow
  let s := s.laneDownState l
  let x := s.lane l
  if was ≠ 0 ∧ x.txNow ≠ 0 then s
  else
    let up := s.laneUp l
    let ready := x.queue.filter (sendable up)
    let msgs := ready.take 4
    let rest := x.queue.filter (fun m => !msgs.contains m)
    let partner := decide (36 ≤ l)
    let head := decide (l < 16) && slot == 12 && !(s.chan l).frame.isEmpty
    let control := !head && !partner && (slot == 0 || !msgs.isEmpty)
    let cls := if partner then 5 else if head then 2 else if control then 6 else 0
    let timed := !partner && slot == 0
    let h := cls * 2 ^ 28 + (if timed then 2 ^ 27 else 0) + (if x.txNow ≠ 0 then 2 ^ 26 else 0) + (if x.errSeen then 2 ^ 25 else 0) +
      x.seq * 2 ^ 12 + (if partner then l % 4 * 2 ^ 8 else 0)
    let payload := if partner then (group.drop (192 * (l % 4))).take 192
      else if head then (s.chan l).frame
      else if control then (if timed then s.timeRecord else List.replicate 32 0) ++ msgs.flatten else []
    let s := s.setLane l { x with seq := (x.seq + 1) % 4096, errSeen := false, queue := if control then rest else x.queue,
                                  upAt := if control && msgs.any (fun m => msgType m == 5) then some (s.tm.tick + 1) else x.upAt }
    s.emit (.lane l) (packBits 256 (frameLine h payload))

/-- The messages that fit a group, in order, and those left over (R351). -/
def takeGroup : Nat → List (List Byte) → List Byte × List (List Byte)
  | _, [] => ([], [])
  | room, m :: t =>
    if m.length ≤ room then
      let r := takeGroup (room - m.length) t
      (m ++ r.1, r.2)
    else ([], m :: t)

/-- Bytes of a page a SYNC_PAGE carries. -/
abbrev syncChunk : Nat := 512

/-- The next piece of the copy joins a group when it fits and the rate allows it (R410, R417). -/
def State.copyPiece (s : State) (room : Nat) : List Byte × State :=
  match s.tw.copy with
  | [] => ([], s)
  | pp :: rest =>
    let sent := s.tw.copyTotal - s.rd K.TWIN_SYNC_REMAIN
    if room < syncChunk + 16 ∨ (s.tm.tick - s.tw.copyFrom) * s.rd K.TWIN_SYNC_RATE < (sent + syncChunk) * 100 then ([], s)
    else
      let off := s.tw.copyOff
      let data := (List.range syncChunk).map fun i => s.physByte (pp * 65536 + off + i)
      let last := decide (65536 ≤ off + syncChunk)
      let s := { s with tw := { s.tw with copy := if last then rest else pp :: rest, copyOff := if last then 0 else off + syncChunk } }
      let s := s.wr K.TWIN_SYNC_REMAIN (s.rd K.TWIN_SYNC_REMAIN - syncChunk)
      (partnerMsg (s.rd K.TWIN_EPOCH) 0x0040 (toLE 4 pp ++ toLE 4 off ++ data), s.countBeats (mirrorTc pp) (syncChunk / 64))

/-- The group that both partner links send in a slot (R351, R409). -/
def State.nextGroup (s : State) : List Byte × State :=
  let r := takeGroup 768 s.tw.out
  let s := { s with tw := { s.tw with out := r.2 } }
  let p := if r.2.isEmpty then s.copyPiece (768 - r.1.length) else ([], s)
  (r.1 ++ p.1, p.2)

/-- FRAME_SLOT (R337): on pair counts that leave 8 modulo 16 every Dardayn lane begins a frame. -/
def State.frameSlot (s : State) : State :=
  if s.pair s.tm.tick % 16 ≠ 8 then s
  else
    let g := s.nextGroup
    (List.range 44).foldl (fun s l => (s.announce l).downFrame l ((s.inSample - 8) / 16) g.1) g.2

/-- A transmitter in L1 sends a sync token every 100 ticks (R355). -/
def State.laneTokens (s : State) : State :=
  s.lanes.foldl (fun (s : State) e =>
    if e.2.txNow = 1 ∧ e.2.idleFrom < s.tm.tick ∧ (s.tm.tick - e.2.idleFrom) % 100 = 0 then
      s.emit (.lane e.1) (packBits 2 syncToken)
    else s) s

/-- FRAME_SLOT (R337). -/
def execFrameSlot (s : State) : Host.Outcome State Fault Refusal := live (fun s => s.frameSlot) s

end Sys2Proof.Machine
end

