-- ==== Sys2Proof/Machine/Records.lean ====
section
/-! DEFINITION. Calibration records (R454 to R461): their header and check word, the kinds with their payload rules, the comparison
of two runs, and candidate slots. -/

namespace Sys2Proof.Machine

/-- Record origins (R455). -/
abbrev Origin.factory : Nat := 0
abbrev Origin.host : Nat := 1
abbrev Origin.measured : Nat := 2
abbrev Origin.mean : Nat := 3

/-- The 32-byte header of a record with its CHECK word still absent: bytes 0 to 27 (R455). -/
def headerBody (type origin gen stamp len : Nat) : List Byte :=
  toLE 2 type ++ toLE 1 1 ++ toLE 1 origin ++ toLE 4 gen ++ toLE 4 len ++ toLE 4 0 ++ toLE 8 stamp ++ toLE 4 0

/-- CHECK of a record (R455): GENERATION is read as 0. -/
def recordCheck (type origin stamp : Nat) (payload : List Byte) : Nat :=
  crc32c (headerBody type origin 0 stamp payload.length ++ payload)

/-- A record in job memory, whole (R455). -/
def recordImage (type origin stamp : Nat) (payload : List Byte) : List Byte :=
  headerBody type origin 0 stamp payload.length ++ toLE 4 (recordCheck type origin stamp payload) ++ payload

/-- Record kinds (R457): first and last instance. -/
def kindInstances (kind : Nat) : Option (Nat × Nat) :=
  match kind with
  | 0x10 => some (0, 15)
  | 0x11 => some (0, 15)
  | 0x12 => some (0, 15)
  | 0x20 => some (0, 23)
  | 0x21 => some (0, 23)
  | 0x22 => some (0, 23)
  | 0x23 => some (0, 23)
  | 0x28 => some (16, 23)
  | 0x29 => some (16, 23)
  | 0x2A => some (16, 23)
  | 0x30 => some (0, 0)
  | 0x31 => some (0, 0)
  | 0x32 => some (0, 0)
  | 0x33 => some (0, 3)
  | _ => none

/-- A type names a kind and one of its instances (R457, R460). -/
def typeOk (type : Nat) : Bool :=
  match kindInstances (type / 256) with
  | some r => decide (r.1 ≤ type % 256) && decide (type % 256 ≤ r.2)
  | none => false

/-- The kinds (R457). -/
def calKinds : List Nat := [0x10, 0x11, 0x12, 0x20, 0x21, 0x22, 0x23, 0x28, 0x29, 0x2A, 0x30, 0x31, 0x32, 0x33]

/-- The types, ascending (R457). -/
def calTypes : List Nat :=
  calKinds.flatMap fun k => match kindInstances k with
    | some r => (List.range (r.2 + 1 - r.1)).map fun i => k * 256 + r.1 + i
    | none => []

/-- The payload length of a kind, given its W and H where it has them (R457). -/
def kindLength (kind w h : Nat) : Nat :=
  match kind with
  | 0x10 => 50712
  | 0x11 => 256
  | 0x12 => 28
  | 0x20 => 4 + 8 * w * h
  | 0x21 => 4 + 2 * w * h
  | 0x22 => 4 + (w * h + 7) / 8
  | 0x23 => 514
  | 0x28 => 104
  | 0x29 => 514
  | 0x2A => 72
  | 0x30 => 56
  | 0x31 => 192
  | 0x32 => 56
  | 0x33 => 8
  | _ => 0

/-- Payload length against the kind (R460). -/
def lengthOk (kind : Nat) (p : List Byte) : Bool := p.length == kindLength kind (payU16 p 0) (payU16 p 2)

/-- The size of a bulk table in bytes: four dark planes and the flat of U16, the defect map of bits (R457). -/
def bulkSize (w h i : Nat) : Nat := if i = 5 then (w * h + 7) / 8 else 2 * w * h

/-- Bytes of a bulk table as the record of a context refers to it. -/
def State.bulkTable (s : State) (k : Nat) (p : List Byte) (i : Nat) : Option (List Byte) :=
  s.readMem (32 + k) (payU p (8 + 16 * i) 8) (bulkSize (payU p 0 4) (payU p 4 4) i)

/-- The payload rule of a kind (R457). -/
def State.ruleOk (s : State) (type : Nat) (p : List Byte) : Bool :=
  let kind := type / 256
  let even := payU16 p 0 % 2 == 0 && payU16 p 2 % 2 == 0 && decide (payU16 p 0 ≤ 256) && decide (payU16 p 2 ≤ 256)
  match kind with
  | 0x10 => let k := payU p 8 1; (k == 0 || (decide (16 ≤ k) && decide (k ≤ 24))) && payU p 9 3 == 0
  | 0x11 => payU p 0 4 == 0 && (List.range 31).all (fun i => decide (payU p (8 * i) 4 < payU p (8 * i + 8) 4)) &&
      (List.range 32).all fun i => payU16 p (8 * i + 6) == 0
  | 0x12 => let t := sgn 16 (payU16 p 24); decide (-4000 ≤ t) && decide (t ≤ 4000) && payU16 p 26 == 0
  | 0x20 => even
  | 0x21 => even
  | 0x22 => even
  | 0x28 => (List.range 6).all fun i => payU p (20 + 16 * i) 4 == 0 &&
      (match s.bulkTable (type % 256) p i with
       | some t => crc32c t == payU p (16 + 16 * i) 4
       | none => false)
  | _ => true

/-- How a field of a record is compared (R457): offset, bytes, signed, and the part of the tolerance: 0 must be equal, 1 the low half,
2 the high half, 3 the low half with zero entries equal. -/
structure RecField where
  off : Nat
  bytes : Nat
  signed : Bool
  tol : Nat
deriving DecidableEq, Repr

/-- Like fields one after another. -/
def fieldRun (off bytes n : Nat) (signed : Bool) (tol : Nat) : List RecField :=
  (List.range n).map fun i => { off := off + bytes * i, bytes := bytes, signed := signed, tol := tol }

/-- The fields of a payload in order, for the kinds compared field by field (R457). -/
def recFields (kind len : Nat) : List RecField :=
  match kind with
  | 0x10 => fieldRun 0 4 2 true 0 ++ fieldRun 8 1 1 false 0 ++ fieldRun 12 4 12675 true 1
  | 0x11 => (List.range 32).flatMap fun i => fieldRun (8 * i) 4 1 false 0 ++ fieldRun (8 * i + 4) 2 1 false 1
  | 0x12 => fieldRun 0 4 4 true 1 ++ fieldRun 16 4 2 true 2 ++ fieldRun 24 2 1 true 0
  | 0x20 => fieldRun 0 2 2 false 0 ++ fieldRun 4 2 ((len - 4) / 2) false 1
  | 0x21 => fieldRun 0 2 2 false 0 ++ fieldRun 4 2 ((len - 4) / 2) false 1
  | 0x23 => fieldRun 0 2 257 false 3
  | 0x29 => fieldRun 0 2 257 false 1
  | 0x30 => fieldRun 0 2 28 false 1
  | 0x31 => fieldRun 0 1 192 false 1
  | 0x32 => (List.range 14).flatMap fun i => fieldRun (4 * i) 2 1 true 1 ++ fieldRun (4 * i + 2) 2 1 false 2
  | 0x33 => fieldRun 0 2 3 true 1 ++ fieldRun 6 2 1 true 2
  | _ => []

/-- The value of a field. -/
def RecField.value (f : RecField) (p : List Byte) : Int :=
  let v := payU p f.off f.bytes
  if f.signed then sgn (8 * f.bytes) v else v

/-- The two runs differ in a field by more than its tolerance: the difference (R461). -/
def RecField.breach (f : RecField) (tol : Nat) (a b : List Byte) : Option Nat :=
  let x := f.value a
  let y := f.value b
  let d := (x - y).natAbs
  let limit := match f.tol with
    | 0 => 0
    | 2 => tol / 65536
    | _ => tol % 65536
  if limit < d ∨ (f.tol = 3 ∧ d ≠ 0 ∧ (x = 0 ∨ y = 0)) then some d else none

/-- The tolerance of a kind in force (R471). -/
def State.calTol (s : State) (kind : Nat) : Nat := s.rd (0x7E01 * 256 + kind)

/-- Pixels in which two bitmaps differ. -/
def bitsDiffer (a b : List Byte) : Nat :=
  ((a.zip b).map fun q => ((List.range 8).filter fun i => (q.1 ^^^ q.2).toNat.testBit i).length).foldl (· + ·) 0

/-- The bed point of an image pixel under a map as a fraction: X and Y numerators and their denominator (R457). -/
def mapPoint (p : List Byte) (x y : Int) : Int × Int × Int :=
  let h := fun (i : Nat) => sgn 64 (payU p (8 * i) 8)
  let lin := fun (i : Nat) => h i * x + h (i + 1) * y + h (i + 2)
  (lin 0, lin 3, lin 6)

/-- Distance of two mapped points beyond a tolerance, in whole nm: none where it is within it. Two maps that send a point to
infinity agree there only when both do. -/
def mapApart (tol : Nat) (a b : Int × Int × Int) : Option Nat :=
  if a.2.2 = 0 ∨ b.2.2 = 0 then (if a.2.2 = 0 ∧ b.2.2 = 0 then none else some 1048575)
  else
    let d := a.2.2 * b.2.2
    let dx := a.1 * b.2.2 - b.1 * a.2.2
    let dy := a.2.1 * b.2.2 - b.2.1 * a.2.2
    let q := (dx * dx + dy * dy).toNat
    let m := (d * d).toNat
    if q ≤ tol * tol * m then none else some (isqrt (q / m))

/-- The corners and the centre of a context's image, in half pixels (R457). -/
def State.imagePoints (s : State) (k : Nat) : List (Int × Int) :=
  let o := (s.pcOwner k).getD k
  let w : Int := s.rd (K.SENS_ARRAY_W o)
  let h : Int := s.rd (K.SENS_ARRAY_H o)
  [(0, 0), (2 * (w - 1), 0), (0, 2 * (h - 1)), (2 * (w - 1), 2 * (h - 1)), (w - 1, h - 1)]

/-- Where two bulk records disagree, table by table (R457, R461). -/
def State.bulkApart (s : State) (k tol : Nat) (a b : List Byte) : Option (Nat × Nat) :=
  if payU a 0 8 ≠ payU b 0 8 then some (0, 1)
  else (List.range 6).findSome? fun i =>
    let off := 8 + 16 * i
    match s.bulkTable k a i, s.bulkTable k b i with
    | some x, some y =>
      if i = 5 then (if x = y then none else some (off, 1))
      else
        let f := fieldRun 0 2 (x.length / 2) false (if i = 4 then 2 else 1)
        f.findSome? fun q => (q.breach tol x y).map fun d => (off, d)
    | _, _ => some (off, 1)

/-- The first field in which two runs disagree, with the difference (R461). -/
def State.disagree (s : State) (type : Nat) (a b : List Byte) : Option (Nat × Nat) :=
  let kind := type / 256
  let tol := s.calTol kind
  if a.length ≠ b.length then some (0, 1)
  else match kind with
  | 0x22 =>
    let d := bitsDiffer (a.drop 4) (b.drop 4)
    if payU a 0 4 ≠ payU b 0 4 then some (0, 1) else if tol % 65536 < d then some (4, d) else none
  | 0x28 => s.bulkApart (type % 256) tol a b
  | 0x2A =>
    let half := fun (p : List Byte) (q : Int × Int) =>
      let h := fun (i : Nat) => sgn 64 (payU p (8 * i) 8)
      let lin := fun (i : Nat) => h i * q.1 + h (i + 1) * q.2 + 2 * h (i + 2)
      (lin 0, lin 3, lin 6)
    (s.imagePoints (type % 256)).findSome? fun q => (mapApart (tol % 65536) (half a q) (half b q)).map fun d => (0, d)
  | _ => (recFields kind a.length).findSome? fun f => (f.breach tol a b).map fun d => (f.off, d)

/-- A field's mean as bytes (R461). -/
def RecField.mean (f : RecField) (a b : List Byte) : List Byte :=
  toLE f.bytes (uns (8 * f.bytes) (divHalfAway (f.value a + f.value b) 2))

/-- Replacing bytes of a payload. -/
def putBytes (p : List Byte) (off : Nat) (b : List Byte) : List Byte := p.take off ++ b ++ p.drop (off + b.length)

/-- The mean of two agreeing runs (R461): bitmaps take the OR, bulk records keep the references of run 1. -/
def meanPayload (kind : Nat) (a b : List Byte) : List Byte :=
  match kind with
  | 0x22 => a.take 4 ++ ((a.drop 4).zip (b.drop 4)).map fun q => q.1 ||| q.2
  | 0x28 => a
  | 0x2A => (fieldRun 0 8 9 true 1).flatMap fun f => f.mean a b
  | 0x10 => a.take 12 ++ (fieldRun 12 4 12675 true 1).flatMap fun f => f.mean a b
  | 0x20 => a.take 4 ++ (fieldRun 4 2 ((a.length - 4) / 2) false 1).flatMap fun f => f.mean a b
  | 0x21 => a.take 4 ++ (fieldRun 4 2 ((a.length - 4) / 2) false 1).flatMap fun f => f.mean a b
  | _ => (recFields kind a.length).foldl (fun p f => putBytes p f.off (f.mean a b)) a

/-- The region of a candidate slot in TC63 (R460). -/
def State.slotBase (s : State) (i : Nat) : Nat := s.rd K.CAL_OUT_BASE + 2097152 * i

/-- A run of a slot: its header and payload, read back from its place (R460). -/
def State.slotRun (s : State) (i run : Nat) : Option (List Byte × List Byte) :=
  let a := s.slotBase i + 1048576 * run
  (s.readMem 63 a 32).bind fun h => (s.readMem 63 (a + 32) (payU h 8 4)).map fun p => (h, p)

/-- A calibration event (R475). -/
def State.calEvent (s : State) (code cls slot type detail : Nat) : State :=
  s.raise 0xEF code cls slot (slot + type * 2 ^ 16 + detail % 2 ^ 32 * 2 ^ 32)

/-- A change of a slot's state (R473). -/
def State.setSlot (s : State) (i st type check : Nat) : State :=
  s.wrs [(K.CAND_STATE i, st), (K.CAND_TYPE i, type), (K.CAND_CHECK i, check), (K.CAND_STAMP i, s.now)]

/-- Freeing a slot. -/
def State.freeSlot (s : State) (i : Nat) : State := s.setSlot i 0 0 0

/-- A refused load or a failed measurement (R460, R463, R475). -/
def State.calReject (s : State) (slot type cause : Nat) : State :=
  (s.wr K.CAL_LAST_REJECT cause).calEvent 0x0093 3 slot type cause

/-- A slot in a state, the lowest one that satisfies a test. -/
def State.findSlot (s : State) (st : Nat) (p : Nat → Bool) : Option Nat :=
  (List.range 64).find? fun i => s.rd (K.CAND_STATE i) == st && p i

/-- Writing a run to its place (R460): none where TC63 faults. The device's own writes pass the lock of the slot's pages. -/
def State.putRun (s : State) (i run : Nat) (image : List Byte) : Option State :=
  let a := s.slotBase i + 1048576 * run
  match s.firstFault 63 a image.length true with
  | some _ => none
  | none => some ((s.writeMem 63 a image).countBeats 63 ((a + image.length + 63) / 64 - a / 64))

/-- The context parks where a run cannot be written. -/
def State.parkRunPlace (s : State) (i run len : Nat) : State :=
  match s.firstFault 63 (s.slotBase i + 1048576 * run) len true with
  | some (kind, a) => if s.rd (K.TC_STATE 63) = 2 then s else s.park 63 kind a true
  | none => s

/-- Run 2 is in place: the repeat rule (R461). -/
def State.repeatRule (s : State) (i type : Nat) : State :=
  match s.slotRun i 0, s.slotRun i 1 with
  | some (_, a), some (_, b) =>
    match s.disagree type a b with
    | some (off, d) =>
      let s := (s.wr K.CAL_LAST_REJECT 7).calEvent 0x0091 3 i type (off % 4096 * 2 ^ 20 + min d 1048575)
      s.freeSlot i
    | none =>
      let p := meanPayload (type / 256) a b
      let image := recordImage type Origin.mean s.now p
      let check := recordCheck type Origin.mean s.now p
      let s := s.writeMem 63 (s.slotBase i) image
      (s.setSlot i 2 type check).calEvent 0x0090 4 i type check
  | _, _ => s

/-- What the active part's measurement writes to TC63 makes known to its partner (R469): a result that is complete in a free slot makes
that slot READY here too. -/
def State.takeSlot (s : State) (addr : Nat) : State :=
  let base := s.rd K.CAL_OUT_BASE
  let i := (addr - base) / 2097152
  if addr < base ∨ 64 ≤ i ∨ s.rd (K.CAND_STATE i) ≠ 0 then s
  else match s.readMem 63 (s.slotBase i) 32 with
  | none => s
  | some h =>
    if payU h 2 2 ≠ 1 + Origin.mean * 256 ∨ 1048544 < payU h 8 4 then s
    else match s.slotRun i 0 with
    | none => s
    | some (h, p) =>
      let check := payU h 28 4
      if typeOk (payU h 0 2) && lengthOk (payU h 1 1) p && check == recordCheck (payU h 0 2) Origin.mean (payU h 16 8) p
      then s.setSlot i 2 (payU h 0 2) check else s

/-- A record enters as run 1 or run 2 of a candidate (R460): false where TC63 is parked or parks. -/
def State.enterRun (s : State) (type : Nat) (image : List Byte) : Bool × State :=
  let half := s.findSlot 1 fun i => s.rd (K.CAND_TYPE i) == type
  match half with
  | some i =>
    if s.rd (K.TC_STATE 63) = 2 then (false, s)
    else match s.putRun i 1 image with
      | some s => (true, s.repeatRule i type)
      | none => (false, s.parkRunPlace i 1 image.length)
  | none => match s.findSlot 0 fun _ => true with
    | none => (true, s.calReject 0xFF type 5)
    | some i =>
      if s.rd (K.TC_STATE 63) = 2 then (false, s)
      else match s.putRun i 0 image with
        | some s => (true, s.setSlot i 1 type 0)
        | none => (false, s.parkRunPlace i 0 image.length)

/-- The first check a record at `CAL_LOAD_ADDR` fails (R460): its cause. -/
def State.loadFault (s : State) (h p : List Byte) : Option Nat :=
  let type := payU h 0 2
  if payU h 28 4 ≠ crc32c (h.take 4 ++ toLE 4 0 ++ (h.drop 8).take 20 ++ p) then some 1
  else if !typeOk type then some 2
  else if !lengthOk (type / 256) p then some 3
  else if !s.ruleOk type p then some 4
  else none

/-- The load of a record in hand (R460): it goes on from where a fault stopped it. -/
def State.loadGo (s : State) (a : Nat) : State :=
  let wait := { s with cal := { s.cal with load := some a } }
  let done := { s with cal := { s.cal with load := none } }
  if s.rd (K.TC_STATE 62) = 2 ∨ s.rd (K.TC_STATE 63) = 2 then wait
  else
    let at' := fun (n : Nat) => match s.firstFault 62 a n false with
      | some (kind, x) => wait.park 62 kind x false
      | none => wait
    match s.readMem 62 a 32 with
    | none => at' 32
    | some h =>
      let len := payU h 8 4
      if 16777216 < len then done.calReject 0xFF (payU h 0 2) 3
      else match s.readMem 62 (a + 32) len with
        | none => at' (32 + len)
        | some p => match s.loadFault h p with
          | some c => done.calReject 0xFF (payU h 0 2) c
          | none =>
            let r := (done.countBeats 62 ((a + len + 95) / 64 - a / 64)).enterRun (payU h 0 2) (h ++ p)
            if r.1 then r.2 else { r.2 with cal := { r.2.cal with load := some a } }

/-- A write of CAL_LOAD (R460). -/
def calLoadEff (_v : Nat) (s : State) : Nat × State :=
  if s.cal.load.isSome then (Ans.refused, s) else (Ans.ok, s.loadGo (s.rd K.CAL_LOAD_ADDR))

/-- CAL_LOAD (R460). -/
def execCalLoad (m : Msg) (s : State) : Host.Outcome State Fault Refusal := writeCmd m K.CAL_LOAD 1 1 calLoadEff s

/-- A stopped load goes on once its contexts run again (R460). -/
def State.loadTick (s : State) : State :=
  match s.cal.load with
  | some a => if s.rd (K.TC_STATE 62) = 2 ∨ s.rd (K.TC_STATE 63) = 2 then s else s.loadGo a
  | none => s

/-- A slot is named by a pending proposal or by a due installation (R465). -/
def State.slotNamed (s : State) (i : Nat) : Bool :=
  (s.rd K.CAL_INSTALL_STATE != 0 && octField 4 (s.rd K.CAL_INSTALL) (4 * i) != 0) ||
  s.staged.any fun e => match e.2 with
    | some g => g.key == K.CAL_INSTALL && payU g.value (4 * i) 4 != 0
    | none => false

/-- A write of CAND_DISCARD (R465, R473). -/
def candDiscardEff (i _v : Nat) (s : State) : Nat × State :=
  if s.slotNamed i then (Ans.refused, s) else (Ans.ok, if s.rd (K.CAND_STATE i) = 0 then s else s.freeSlot i)

/-- CAND_DISCARD (R473). -/
def execCandDiscard (m : Msg) (i : Fin 64) (s : State) : Host.Outcome State Fault Refusal :=
  writeCmd m (K.CAND_DISCARD i.val) 1 1 (candDiscardEff i.val) s

end Sys2Proof.Machine
end

