-- ==== Sys2Proof/Machine/Install.lean ====
section
/-! DEFINITION. Installation of calibration records (R465 to R469): the guarded condition, what a concurrence makes due, head table
switches, trims applied unit by unit, the keeping-store writes, and what a start-up takes from the store (R456, R459). -/

namespace Sys2Proof.Machine

/-- The word of a slot in a value of CAL_INSTALL (R465). -/
def installWord (v i : Nat) : Nat := octField 4 v (4 * i)

/-- The slots a value of CAL_INSTALL names. -/
def installSlots (v : Nat) : List Nat := (List.range 64).filter fun i => installWord v i != 0

/-- A value of CAL_INSTALL may be staged and concurred (R465, R458). -/
def State.installOk (s : State) (v : Nat) : Bool :=
  let named := installSlots v
  let pairing : Bool := s.rd K.TWIN_PARTNER_ROLE == Role.standby || s.rd K.TWIN_PARTNER_ROLE == Role.syncing
  !named.isEmpty && s.rd K.CAL_INSTALL_STATE == 0 &&
    named.all fun i => s.rd (K.CAND_STATE i) == 2 && s.rd (K.CAND_CHECK i) == installWord v i && (s.slotRun i 0).isSome &&
      !(pairing && trimType (s.rd (K.CAND_TYPE i)))

/-- The generation a record of a type gets (R456): one above the higher valid copy, and above one that is still to be written. -/
def State.nextGen (s : State) (type : Nat) : Nat :=
  let held := Tab.get (fun _ => (none, none)) s.cal.store type
  let g := fun (c : Option CalRec) => match c with | some r => r.gen | none => 0
  let stored := max (g held.1) (g held.2)
  1 + (if s.cal.writes.contains type then max stored (g (s.record type)) else stored)

/-- The record a slot holds as its result (R461). -/
def State.slotRec (s : State) (i : Nat) : Option CalRec :=
  (s.slotRun i 0).map fun r => { gen := 0, payload := r.2, check := payU r.1 28 4, stamp := payU r.1 16 8 }

/-- Putting a record in force (R456, R467, R469): its store write is queued, and it enters the node digest unless it is a trim. -/
def State.putInForce (s : State) (slot type : Nat) (r : CalRec) : State :=
  let r := { r with gen := s.nextGen type }
  let s := { s with installed := Tab.set (fun _ => none) s.installed type (some r) }
  let s := { s with cal := { s.cal with defaulted := s.cal.defaulted.filter (· != type), writes := s.cal.writes ++ [type] } }
  let s := (s.wr K.CAL_STORE_STATE 1).calEvent 0x0094 4 slot type r.check
  if trimType type then s else s.digestPending

/-- An installation whose records have all taken effect is over (R468). -/
def State.installOver (s : State) : State :=
  if s.rd K.CAL_INSTALL_STATE = 0 ∨ !s.cal.due.isEmpty ∨ !s.cal.switches.isEmpty ∨ !s.cal.deferred.isEmpty ∨ !s.cal.trims.isEmpty then s
  else
    let slots := installSlots (s.rd K.CAL_INSTALL)
    let s := slots.foldl (fun s i => s.freeSlot i) s
    (s.wrs [(K.CAL_INSTALL_STATE, 0), (K.CAL_INSTALL, 0), (K.CAL_INSTALL_STAMP, s.now)]).inc K.CAL_INSTALLS

/-- A head table kind, and a trim applied while its unit is idle (R457). -/
def headKind (type : Nat) : Bool := decide (0x1000 ≤ type) && decide (type < 0x1300)

/-- Putting an entry into a list kept in ascending type. -/
def insType (e : Nat × Nat × CalRec) : List (Nat × Nat × CalRec) → List (Nat × Nat × CalRec)
  | [] => [e]
  | x :: t => if e.2.1 < x.2.1 then e :: x :: t else x :: insType e t

/-- A concurrence makes an installation due (R465, R466, R468): in IDLE an idle close follows on the next tick. -/
def State.installDue (s : State) (v : Nat) : State :=
  let all := (installSlots v).filterMap fun i => (s.slotRec i).map fun r => (i, s.rd (K.CAND_TYPE i), r)
  let sorted := all.foldl (fun l e => insType e l) []
  let trims := (sorted.filter fun e => trimType e.2.1).map fun e =>
    ({ slot := e.1, type := e.2.1, new := e.2.2, done := [] } : TrimDue)
  let s := s.wrs [(K.CAL_INSTALL, v), (K.CAL_INSTALL_STATE, 1)]
  let s := { s with cal := { s.cal with due := sorted.filter (fun e => !trimType e.2.1), dueTick := s.tm.tick, trims := trims } }
  if s.phase = Phase.idle then { s with layer := { s.layer with idleDue := some (s.tm.tick + 1) } } else s

/-- The head entries of R201 that a record sets; the generation of the table set is not stated. -/
def State.headEntries (s : State) (n kind : Nat) (p : List Byte) : State :=
  let s := match kind with
    | 0x10 => s.wrs [(K.BC_GRID_X0 n, payU p 0 4), (K.BC_GRID_Y0 n, payU p 4 4), (K.BC_GRID_SHIFT n, payU p 8 1)]
    | 0x12 => s.wrs [(K.BC_REG_A11 n, payU p 0 4), (K.BC_REG_A12 n, payU p 4 4), (K.BC_REG_A21 n, payU p 8 4),
        (K.BC_REG_A22 n, payU p 12 4), (K.BC_REG_TX n, payU p 16 4), (K.BC_REG_TY n, payU p 20 4),
        (K.BC_CAL_TIME_OFFSET n, payU p 24 2)]
    | _ => s
  let (i, s) := s.draw
  let s := s.wr (K.BC_TABLE_GEN n) ((Config.unstated i).toNat % 2 ^ 32)
  s.wr (K.BC_CEILING_MOD n) (curveAt (s.curve n) (s.rd (K.BC_POWER_CEILING n)))

/-- Records that apply at once in step 2 of a close (R467): pool and bed records, and an axis trim whose axis is at rest. -/
def State.installOne (s : State) (e : Nat × Nat × CalRec) : State :=
  let type := e.2.1
  if type / 256 ≠ 0x33 then s.putInForce e.1 type e.2.2
  else if s.atRest (type % 256) then
    (s.putInForce e.1 type e.2.2).wr (K.AX_TRIM (type % 256)) (leNat e.2.2.payload)
  else { s with cal := { s.cal with deferred := s.cal.deferred ++ [e] } }

/-- The records that follow the head table switches (R467), in ascending type, with the axis trims deferred before. -/
def State.installRest (s : State) : State :=
  let l := s.cal.due.foldl (fun l e => insType e l) s.cal.deferred
  let s := { s with cal := { s.cal with due := [], deferred := [] } }
  (l.foldl (fun s e => s.installOne e) s).installOver

/-- The hold of the first head table switch begins (R467). -/
def State.beginSwitch (s : State) (t : Nat) : State :=
  match s.cal.switches with
  | [] => s
  | e :: _ =>
    let n := e.2.1 % 256
    let s := { s with cal := { s.cal with switchEnd := t + 12000 } }
    s.setChan n { s.chan n with tableHold := some (t + 12000) }

/-- Step 2 of a close begins (R466, R467): an installation concurred before this tick is carried out. -/
def State.installStep (s : State) : State :=
  let ready := s.rd K.CAL_INSTALL_STATE ≠ 0 ∧ s.cal.dueTick < s.tm.tick
  if !decide ready then s
  else
    let s := s.wr K.CAL_INSTALL_STATE 2
    let heads := s.cal.due.filter fun e => headKind e.2.1
    let s := { s with cal := { s.cal with switches := heads, due := s.cal.due.filter (fun e => !headKind e.2.1) } }
    if heads.isEmpty then s.installRest else s.beginSwitch s.tm.tick

/-- HEAD_TABLE_SWITCH (R467): on the last tick of a hold the new values take effect; the next switch follows. -/
def State.headSwitch (s : State) (n : Nat) : State :=
  match s.cal.switches with
  | [] => s
  | e :: rest =>
    if e.2.1 % 256 ≠ n ∨ s.tm.tick < s.cal.switchEnd then s
    else
      let s := s.putInForce e.1 e.2.1 e.2.2
      let s := s.headEntries n (e.2.1 / 256) e.2.2.payload
      let s := s.setChan n { s.chan n with tableHold := none }
      let s := { s with cal := { s.cal with switches := rest } }
      if rest.isEmpty then s.installRest else s.beginSwitch s.tm.tick

/-- HEAD_TABLE_SWITCH (R467). -/
def execHeadTableSwitch (n : Fin 16) (s : State) : Host.Outcome State Fault Refusal := live (fun s => s.headSwitch n) s

/-- Units of a trim record (R468): the matrix columns and four lamps, 48 lanes, or the sensors together. -/
def trimUnits (type : Nat) : Nat := match type / 256 with | 0x30 => 5 | 0x31 => 48 | _ => 1

/-- Where a unit's part of a trim payload lies. -/
def trimPart (type u : Nat) : Nat × Nat :=
  match type / 256 with
  | 0x30 => if u = 0 then (0, 48) else (46 + 2 * u, 2)
  | 0x31 => (4 * u, 4)
  | _ => (0, 56)

/-- A unit meets the idle condition of its trim (R468); the sensors meet it on a sample. -/
def State.trimIdle (s : State) (type u : Nat) (sampling : Bool) : Bool :=
  match type / 256 with
  | 0x30 => if u = 0 then s.rd K.LM_ENABLE == 0 else s.rd (K.WL_MODE (u - 1)) == 0
  | 0x31 => s.rd (K.LANE_STATE u) != 4
  | _ => sampling && s.rd K.DT_LEVEL == 0 && s.rd K.DT_FAST == 0

/-- The payload of a trim that changes nothing (R459). -/
def neutralTrim (type : Nat) : List Byte :=
  match type / 256 with
  | 0x30 => (List.range 28).flatMap fun _ => toLE 2 16384
  | 0x32 => (List.range 14).flatMap fun _ => toLE 2 0 ++ toLE 2 16384
  | 0x33 => toLE 4 0 ++ toLE 2 16384 ++ toLE 2 0
  | _ => List.replicate 192 0

/-- A unit takes its part of a trim record (R468). -/
def State.trimUnit (s : State) (type u : Nat) (new : List Byte) : State :=
  let q := trimPart type u
  let part := (new.drop q.1).take q.2
  let old : CalRec := (s.record type).getD { gen := 0, payload := neutralTrim type, check := 0, stamp := 0 }
  let s := { s with installed := Tab.set (fun _ => none) s.installed type (some { old with payload := putBytes old.payload q.1 part }) }
  if type / 256 = 0x31 then s.wr (K.LANE_TRIM u) (leNat part) else s

/-- One trim record, as far as its units are idle (R468). -/
def State.trimGo (s : State) (sampling : Bool) (d : TrimDue) : State :=
  let units := (List.range (trimUnits d.type)).filter fun u => !d.done.contains u && s.trimIdle d.type u sampling
  let s := units.foldl (fun s u => s.trimUnit d.type u d.new.payload) s
  let done := d.done ++ units
  if done.length < trimUnits d.type then
    { s with cal := { s.cal with trims := s.cal.trims ++ [{ d with done := done }] } }
  else s.putInForce d.slot d.type d.new

/-- Due trims are applied to the units that are idle (R468). -/
def State.trimApply (s : State) (sampling : Bool) : State :=
  let l := s.cal.trims
  if l.isEmpty then s
  else
    let bare : State := { s with cal := { s.cal with trims := [] } }
    (l.foldl (fun (s : State) d => s.trimGo sampling d) bare).installOver

/-- TRIM_APPLY (R468). -/
def execTrimApply (s : State) : Host.Outcome State Fault Refusal := live (fun s => s.trimApply false) s

/-- Placing a stored record in the slot of its type with the older generation (R456); a failed write leaves no valid copy there. -/
def placeCopy (held : Option CalRec × Option CalRec) (r : CalRec) (good : Bool) : Option CalRec × Option CalRec :=
  let g := fun (c : Option CalRec) => match c with | some x => x.gen | none => 0
  let new := if good then some r else none
  if g held.1 ≤ g held.2 then (new, held.2) else (held.1, new)

/-- CAL_STORED (R456, R469): the oldest queued write ends. -/
def State.calStored (s : State) (good : Bool) : State :=
  match s.cal.writes with
  | [] => s
  | type :: rest =>
    match s.record type with
    | none => { s with cal := { s.cal with writes := rest } }
    | some r =>
      let none2 : Option CalRec × Option CalRec := (none, none)
      let held := Tab.get (fun _ => none2) s.cal.store type
      let store := Tab.set (fun _ => none2) s.cal.store type (placeCopy held r good)
      let s := { s with cal := { s.cal with writes := rest, store := store } }
      if good then (s.wr K.CAL_STORE_STATE (if rest.isEmpty then 0 else 1)).calEvent 0x0095 6 0xFF type r.gen
      else (s.wr K.CAL_STORE_STATE 2).calEvent 0x0096 3 0xFF type r.gen

/-- CAL_STORED (R469). -/
def execCalStored (ok : Bool) (s : State) : Host.Outcome State Fault Refusal := live (fun s => s.calStored ok) s

/-- The copy of a type that a start-up takes (R456). -/
def newerCopy (held : Option CalRec × Option CalRec) : Option CalRec :=
  match held.1, held.2 with
  | some a, some b => if a.gen ≤ b.gen then some b else some a
  | some a, none => some a
  | none, b => b

/-- A start-up puts the record it has found for a type in force, or none. -/
def State.takeType (s : State) (type : Nat) (found : Option CalRec) : State :=
  let s := { s with installed := Tab.set (fun _ => none) s.installed type found }
  match found with
  | none => s
  | some r =>
    if headKind type then s.headEntries (type % 256) (type / 256) r.payload
    else if type / 256 = 0x31 then (List.range 48).foldl (fun s l => s.wr (K.LANE_TRIM l) (payU r.payload (4 * l) 4)) s
    else if type / 256 = 0x33 then s.wr (K.AX_TRIM (type % 256)) (leNat r.payload)
    else s

/-- A start-up takes one type from the store, or defaults it: a trim to its factory record (R459). -/
def State.loadType (s : State) (type : Nat) : State :=
  match newerCopy (Tab.get (fun _ => (none, none)) s.cal.store type) with
  | some r => s.takeType type (some r)
  | none =>
    let s := s.takeType type (if 0x3000 ≤ type then Tab.get (fun _ => none) s.cal.factory type else none)
    ({ s with cal := { s.cal with defaulted := s.cal.defaulted ++ [type] } }).calEvent 0x0097 3 0xFF type 0

/-- A pool or bed record (R459): loaded after the dictionary answers. -/
def lateType (type : Nat) : Bool := decide (0x2000 ≤ type) && decide (type < 0x3000)

/-- What a read of CAL_QUERY_STATE finds (R474): 0 installed, 1 deferred, 2 defaulted. -/
def State.queryState (s : State) (type : Nat) : Nat :=
  if s.cal.deferred.any (fun e => e.2.1 == type) then 1
  else if (s.record type).isSome && !s.cal.defaulted.contains type then 0 else 2

end Sys2Proof.Machine
end

