-- ==== Sys2Proof/Machine/Measure.lean ====
section
/-! DEFINITION. Measurements (R462 to R464): registration with fiducials, pool dark, axis and lane trims. -/

namespace Sys2Proof.Machine

/-- A pair of I32 in an octet value. -/
def pairAt (v i : Nat) : Int × Int := (sgn 32 (octField 4 v (8 * i)), sgn 32 (octField 4 v (8 * i + 4)))

/-- The fiducial points of a channel in a run (R463). -/
def State.fidPoints (s : State) (n run : Nat) : List (Int × Int) :=
  let step := pairAt (s.rd K.CAL_FID_STEP) 0
  let two := if run = 2 then pairAt (s.rd K.CAL_FID_RUN2) 0 else (0, 0)
  (List.range (s.rd K.CAL_FID_COUNT)).map fun k =>
    let p := pairAt (s.rd K.CAL_FID_POINTS) k
    (p.1 + n * step.1 + two.1, p.2 + n * step.2 + two.2)

/-- The chords of a cross (R463). -/
def State.crossChords (s : State) (n : Nat) (p : Int × Int) : List Chord :=
  let a : Int := s.rd K.CAL_FID_ARM * 1000
  let c : Chord := { shape := .jump p.1 p.2, speed := 0, power := 0, noFF := false, noLoop := false, reorder := false, addr := 0,
                     par := s.params n }
  let m := { c with speed := s.rd K.CAL_FID_SPEED, power := s.rd K.CAL_FID_POWER }
  [{ c with shape := .jump (p.1 - a) p.2 }, { m with shape := .mark (p.1 + a) p.2 },
   { c with shape := .jump p.1 (p.2 - a) }, { m with shape := .mark p.1 (p.2 + a) }]

/-- A channel begins to expose its crosses (R463), after any blanked move it is still making. -/
def State.startCrosses (s : State) (n run : Nat) : State :=
  let pts := s.fidPoints n run
  let c := s.chan n
  let at0 : PlanAt := match c.run.getLast? with
    | some q => { rx := q.rx, ry := q.ry, nx := q.ex, ny := q.ey, a := max q.boundary (s.nextSample (s.tm.tick + 320)), prev := none }
    | none => { rx := c.px, ry := c.py, nx := c.px, ny := c.py, a := s.nextSample (s.tm.tick + 320), prev := none }
  let chords := (pts.flatMap fun p => s.crossChords n p).map fun (q : Chord) => (q, (none : Option Cursor))
  let ps := planChords s n (s.limits n) (fun _ => none) none chords at0
  let lastMark := ps.foldl (fun t q => if q.isMarked then max t q.tEnd else t) s.tm.tick
  let aims := pts.map fun p => let h := s.correct n (s.params n).focus p.1 p.2; (h.1, h.2.1)
  let s := (s.setChan n { c with run := c.run ++ ps }).placeGates n 0 (gateSpans none ps)
  let m := s.cal.meas
  let m := { m with chan := n, aims := aims, points := pts, found := [] }
  { s with cal := { s.cal with meas := { m with capture := some (lastMark + 100000), shot := 0, waits := [] } } }

/-- Channels of a registration still to be exposed in a run. -/
def Measure.channels (m : Measure) : List Nat := (maskList 16 m.inst).filter fun n => !m.lost.contains n

/-- The next channel of a registration, the second run, or its end (R463, R464). -/
def State.nextCross (s : State) (n : Nat) : State :=
  let run := s.rd K.CAL_MEAS_STATE
  match s.cal.meas.channels.find? (fun k => decide (n < k)) with
  | some k => s.startCrosses k run
  | none =>
    if run = 1 then
      match s.cal.meas.channels with
      | k :: _ => (s.wr K.CAL_MEAS_STATE 2).startCrosses k 2
      | [] => s.wr K.CAL_MEAS_STATE 3
    else s.wr K.CAL_MEAS_STATE 3

/-- One row of the least-squares transform (R464): two coefficients at 2^30 and an offset, to nearest with halves away from zero; none
where the points lie on one line. The sums are exact. -/
def fitRow (pts : List (Int × Int × Int)) : Option (Int × Int × Int) :=
  let n : Int := pts.length
  let sum := fun (g : Int × Int × Int → Int) => pts.foldl (fun a p => a + g p) 0
  let sx := sum fun p => p.1
  let sy := sum fun p => p.2.1
  let sh := sum fun p => p.2.2
  let dx := fun (p : Int × Int × Int) => n * p.1 - sx
  let dy := fun (p : Int × Int × Int) => n * p.2.1 - sy
  let dh := fun (p : Int × Int × Int) => n * p.2.2 - sh
  let xx := sum fun p => dx p * dx p
  let xy := sum fun p => dx p * dy p
  let yy := sum fun p => dy p * dy p
  let xh := sum fun p => dx p * dh p
  let yh := sum fun p => dy p * dh p
  let det := xx * yy - xy * xy
  if det ≤ 0 then none
  else
    let a := xh * yy - yh * xy
    let b := yh * xx - xh * xy
    let t := sh * det - a * sx - b * sy
    some (divHalfAway (a * 1073741824) det.toNat, divHalfAway (b * 1073741824) det.toNat, divHalfAway t (det * n).toNat)

/-- The registration a run of a channel gives (R464): none with fewer than three fiducials, or all on one line. -/
def State.fitRun (s : State) (n : Nat) : Option (List Byte) :=
  let m := s.cal.meas
  let pts := m.found.map fun e =>
    (e.2.1 + s.fieldAt n 0 e.2.1 e.2.2, e.2.2 + s.fieldAt n 1 e.2.1 e.2.2, m.aims.getD e.1 (0, 0))
  if pts.length < 3 then none
  else match fitRow (pts.map fun p => (p.1, p.2.1, p.2.2.1)), fitRow (pts.map fun p => (p.1, p.2.1, p.2.2.2)) with
    | some r, some q =>
      some (toLE 4 (uns 32 r.1) ++ toLE 4 (uns 32 r.2.1) ++ toLE 4 (uns 32 q.1) ++ toLE 4 (uns 32 q.2.1) ++
        toLE 4 (uns 32 r.2.2) ++ toLE 4 (uns 32 q.2.2) ++ toLE 2 (s.rd (K.BC_CAL_TIME_OFFSET n)) ++ toLE 2 0)
    | _, _ => none

/-- A channel's run is over (R464): its transform is kept, or the channel is lost. -/
def State.crossDone (s : State) (n : Nat) (p : Option (List Byte)) : State :=
  let m := s.cal.meas
  let m := match p with
    | none => { m with lost := m.lost ++ [n] }
    | some b =>
      if s.rd K.CAL_MEAS_STATE = 1 then { m with first := Tab.set (fun _ => []) m.first n b }
      else { m with second := Tab.set (fun _ => []) m.second n b }
  ({ s with cal := { s.cal with meas := m } }).nextCross n

/-- An image of the capture is still expected or in hand. -/
def State.imageDue (s : State) (k shot : Nat) : Bool :=
  let x := s.pipe k
  x.expected.contains shot || (x.closing.any fun f => f.slot == some shot) ||
    (match x.frame with | some f => f.slot == some shot && !f.dead | none => false)

/-- A run of an axis trim is over after 4,096 signal periods, each of 4,096 counts (R462). -/
def State.axisRun (s : State) : State :=
  let m := s.cal.meas
  let st := s.rd K.CAL_MEAS_STATE
  let c := s.rdS 64 (K.AX_COUNT m.inst)
  if (st = 1 ∨ st = 2) ∧ m.kind = 0x33 ∧ 16777216 ≤ (c - m.start).natAbs then
    ({ s with cal := { s.cal with meas := { m with start := c } } }).wr K.CAL_MEAS_STATE (st + 1)
  else s

/-- A measurement goes on (R462, R463): an axis run ends; in a registration a channel that is no longer ARMED is lost; once every image of its capture has come, its transform
is formed. -/
def State.measTick (s : State) : State :=
  let m := s.cal.meas
  let st := s.rd K.CAL_MEAS_STATE
  if (st ≠ 1 ∧ st ≠ 2) ∨ m.kind ≠ 0x12 then s.axisRun
  else if s.rd (K.BC_STATE m.chan) ≠ Bc.armed then s.crossDone m.chan none
  else if m.capture.isSome ∨ (m.waits.any fun k => s.imageDue k m.shot) then s
  else s.crossDone m.chan (s.fitRun m.chan)

/-- FIDUCIAL_CAPTURE (R463): the flash set and the camera exposures fire at one instant. -/
def State.fiducialCapture (s : State) : State :=
  let m := s.cal.meas
  let st := s.rd K.CAL_MEAS_STATE
  match m.capture with
  | none => s
  | some t =>
    if (st ≠ 1 ∧ st ≠ 2) ∨ m.kind ≠ 0x12 ∨ s.tm.tick < t then s
    else
      let s := s.fireFlash (s.rd K.CAL_FID_FLASH)
      let on := [16, 17, 18, 19].filter fun k => s.rd (K.PC_ENABLE k) == 1
      let fired := on.filter fun k => s.rd (K.PC_TRIGGER k) == 0
      let s := on.foldl (fun s k => s.expose k) s
      let m := { m with capture := none, shot := s.tm.tick }
      { s with cal := { s.cal with meas := { m with waits := fired } } }

/-- FIDUCIAL_CAPTURE (R463). -/
def execFiducialCapture (s : State) : Host.Outcome State Fault Refusal := live (fun s => s.fiducialCapture) s

/-- The signal frequency of a sine/cosine axis is between 1 and 500 kHz over the last 3 us (R462). -/
def State.axisMoving (s : State) (k : Nat) : Bool :=
  let d := (s.count k - s.countAt k (s.tm.tick - 300)).natAbs
  decide (1000 * 4096 * 300 ≤ d * 100000000) && decide (d * 100000000 ≤ 500000 * 4096 * 300)

/-- The precondition of a measurement (R462). -/
def State.measOk (s : State) (kind inst : Nat) : Bool :=
  match kind with
  | 0x12 => s.phase == Phase.idle && inst != 0 && (maskList 16 inst).all fun n => s.rd (K.BC_STATE n) == Bc.armed
  | 0x20 => decide (inst < 24) && s.rd (K.PC_ENABLE inst) == 1 &&
      (match s.pcOwner inst with
       | some o => decide (o < 16) && decide (s.rd (K.BC_STATE o) ≤ 1)
       | none => false)
  | 0x33 => decide (inst < 4) && s.rd (K.AX_ENABLE inst) == 1 && s.rd (K.AX_MODE inst) == 1 && s.axisMoving inst
  | 0x31 => decide (inst < 48) && s.rd (K.LANE_STATE inst) == 4 && s.rd (K.LANE_TX_STATE inst) == 0 && s.rd (K.LANE_RX_STATE inst) == 0
  | _ => false

/-- A write of CAL_MEASURE (R462): a standby, which takes it from its active partner, runs no measurement of its own (R469). -/
def calMeasureEff (v : Nat) (s : State) : Nat × State :=
  let kind := v / 2 ^ 24
  let inst := v % 65536
  if !([0x12, 0x20, 0x31, 0x33] : List Nat).contains kind then (Ans.outOfRange, s)
  else if s.role ≠ Role.active then (Ans.ok, s)
  else if s.rd K.CAL_MEAS_STATE ≠ 0 ∨ !s.measOk kind inst then (Ans.refused, s)
  else
    let m : Measure := { kind := kind, inst := inst, chan := 0, aims := [], points := [], capture := none, shot := 0, waits := [],
                         found := [], first := [], second := [], lost := [], frames := 0, sums := [], start := s.count inst }
    let s := { (s.wr K.CAL_MEAS_STATE 1) with cal := { s.cal with meas := m } }
    (Ans.ok, if kind = 0x12 then s.startCrosses ((maskList 16 inst).headD 0) 1 else s)

/-- CAL_MEASURE_REGISTRATION (R463). -/
def execCalMeasureRegistration (m : Msg) (mask : BitVec 16) (s : State) : Host.Outcome State Fault Refusal :=
  writeCmd m K.CAL_MEASURE 4 (0x12000000 + mask.toNat) calMeasureEff s

/-- CAL_MEASURE_POOL_DARK (R462). -/
def execCalMeasurePoolDark (m : Msg) (inst : BitVec 16) (s : State) : Host.Outcome State Fault Refusal :=
  writeCmd m K.CAL_MEASURE 4 (0x20000000 + inst.toNat) calMeasureEff s

/-- CAL_MEASURE_AXIS_TRIM (R462). -/
def execCalMeasureAxisTrim (m : Msg) (inst : BitVec 16) (s : State) : Host.Outcome State Fault Refusal :=
  writeCmd m K.CAL_MEASURE 4 (0x33000000 + inst.toNat) calMeasureEff s

/-- CAL_MEASURE_LANE_TRIM (R462). -/
def execCalMeasureLaneTrim (m : Msg) (inst : BitVec 16) (s : State) : Host.Outcome State Fault Refusal :=
  writeCmd m K.CAL_MEASURE 4 (0x31000000 + inst.toNat) calMeasureEff s

/-- The end of a measurement, with nothing left of it. -/
def State.measIdle (s : State) : State :=
  let s := s.wr K.CAL_MEAS_STATE 0
  { s with cal := { s.cal with meas := { s.cal.meas with kind := 0, capture := none, waits := [], frames := 0, sums := [] } } }

/-- A write of CAL_MEAS_ABORT (R462, R51): light of a registration ends with it. -/
def calMeasAbortEff (_v : Nat) (s : State) : Nat × State :=
  let st := s.rd K.CAL_MEAS_STATE
  if st = 0 then (Ans.alreadyComplete, s)
  else
    let n := s.cal.meas.chan
    let s := if s.exposing n then
        let pos := s.lastLatched n
        let s := s.dropRun n
        s.setChan n { s.chan n with px := pos.1, py := pos.2, nx := pos.1, ny := pos.2, regionAt := none }
      else s
    (Ans.ok, s.measIdle)

/-- CAL_MEAS_ABORT (R462). -/
def execCalMeasAbort (m : Msg) (s : State) : Host.Outcome State Fault Refusal := writeCmd m K.CAL_MEAS_ABORT 1 1 calMeasAbortEff s

/-- What a measurement has given: type with the payloads of its two runs (R462). The fits of axis and lane trims come with the
command. -/
def State.measRuns (s : State) (runs : List (List Byte)) : List (Nat × List Byte × List Byte) :=
  let m := s.cal.meas
  let st := s.rd K.CAL_MEAS_STATE
  let a := runs.getD 0 []
  let b := runs.getD 1 []
  match m.kind with
  | 0x12 => if st ≠ 3 then [] else m.channels.map fun n => (0x1200 + n, Tab.get (fun _ => []) m.first n, Tab.get (fun _ => []) m.second n)
  | 0x20 => if st ≠ 3 then [] else
      [(0x2000 + m.inst, Tab.get (fun _ => []) m.first m.inst, Tab.get (fun _ => []) m.second m.inst)]
  | 0x33 => if st = 3 ∧ a.length = 8 ∧ b.length = 8 then [(0x3300 + m.inst, a, b)] else []
  | 0x31 =>
    let old := match s.record 0x3100 with
      | some r => r.payload
      | none => neutralTrim 0x3100
    if a.length = 4 ∧ b.length = 4 then [(0x3100, putBytes old (4 * m.inst) a, putBytes old (4 * m.inst) b)] else []
  | _ => []

/-- Both runs of a measurement enter a slot and meet the repeat rule (R461, R462), with what is written mirrored (R469): none where
TC63 faults. A pair that disagrees is a measurement that fails. -/
def State.enterPair (s : State) (e : Nat × List Byte × List Byte) : Option State :=
  match s.findSlot 0 fun _ => true with
  | none => some (s.calReject 0xFF e.1 5)
  | some i =>
    let one := recordImage e.1 Origin.measured s.now e.2.1
    let two := recordImage e.1 Origin.measured s.now e.2.2
    match (s.putRun i 0 one).bind fun s => s.putRun i 1 two with
    | none => none
    | some t =>
      let t := (t.mirrorMemory 63 (t.slotBase i) one).mirrorMemory 63 (t.slotBase i + 1048576) two
      let t := (t.setSlot i 1 e.1 0).repeatRule i e.1
      match t.slotRun i 0 with
      | none => some t
      | some r => some (if t.rd (K.CAND_STATE i) = 2 then t.mirrorMemory 63 (t.slotBase i) (r.1 ++ r.2) else t.calReject i e.1 7)

/-- CAL_MEASURED (R462, R464): the runs are compared, and the measurement ends. -/
def State.calMeasured (s : State) (runs : List (List Byte)) : State :=
  let m := s.cal.meas
  let st := s.rd K.CAL_MEAS_STATE
  let l := s.measRuns runs
  let ended := st ≠ 0 ∧ (!l.isEmpty ∨ (m.kind = 0x12 ∧ st = 3))
  if !decide ended then s
  else if s.rd (K.TC_STATE 63) = 2 then s
  else
    let step := fun (a : Option State) e => a.bind fun s => s.enterPair e
    match l.foldl step (some s) with
    | none => match s.findSlot 0 fun _ => true with
      | some i => s.parkRunPlace i 1 (32 + ((l.map fun e => e.2.2.length).foldl max 0))
      | none => s
    | some t =>
      let t := m.lost.foldl (fun s n => s.calReject 0xFF (0x1200 + n) 6) t
      let ready := (List.range 64).filter fun i => t.rd (K.CAND_STATE i) == 2 && s.rd (K.CAND_STATE i) == 0
      let good : Bool := ready.length == l.length && m.lost.isEmpty
      let slot := match ready with | [i] => i | _ => 0xFF
      let type := (l.map (·.1)).headD (m.kind * 256 + (m.lost.headD 0))
      (t.calEvent 0x0092 4 slot type (if good then 0 else t.rd K.CAL_LAST_REJECT)).measIdle

/-- CAL_MEASURED (R462). -/
def execCalMeasured (runs : List (List Byte)) (s : State) : Host.Outcome State Fault Refusal :=
  live (fun s => s.calMeasured runs) s

end Sys2Proof.Machine
end

