-- ==== Sys2Proof/Machine/MemCmds.lean ====
section
/-! DEFINITION. The memory commands: mapping, unmapping, resuming, the accounting window and the load peak. -/

namespace Sys2Proof.Machine

/-- TC_MAP (R124, R131). -/
def execTcMap (m : Msg) (tc : Fin 192) (request : BitVec 128) (s : State) : Host.Outcome State Fault Refusal :=
  writeCmd m (K.TC_MAP tc) 16 request.toNat (tcMapEff tc) s

/-- TC_UNMAP (R125). -/
def execTcUnmap (m : Msg) (tc : Fin 192) (request : BitVec 64) (s : State) : Host.Outcome State Fault Refusal :=
  writeCmd m (K.TC_UNMAP tc) 8 request.toNat (tcUnmapEff tc) s

/-- ACCOUNTING_WINDOW (R127): on a multiple of 6,400 ticks every reserve is renewed. -/
def State.accountingWindow (s : State) : State :=
  if s.pair s.tm.tick % 6400 ≠ 0 then s
  else
    let renewed := s.mem.tcs.map (fun e => (e.1, { e.2 with used := 0 }))
    { s with mem := { s.mem with beats := 0, tcs := renewed.filter (fun e => e.2 != Tc.init) } }

/-- ACCOUNTING_WINDOW (R127). -/
def execAccountingWindow (s : State) : Host.Outcome State Fault Refusal := live (fun s => s.accountingWindow) s

/-- A READ of an entry that clears it (R139, R488): the value goes into the answer and the entry reads zero after it. -/
def clearingRead (m : Msg) (key len : Nat) (s : State) : State :=
  hostCmd m 0x10 key (m.length.toNat == 4) (fun s => (some (Ans.ok, toLE len (s.rd key)), s.wr key 0)) s

/-- MEM_LOAD_PEAK_READ (R139). -/
def execMemLoadPeakRead (m : Msg) (s : State) : Host.Outcome State Fault Refusal :=
  live (clearingRead m K.MEM_LOAD_PEAK 1) s

/-- Reserves of all contexts (R129). -/
def State.reserveSum (s : State) : Nat := (List.range 192).foldl (fun a n => a + s.rd (K.TC_RESERVE n)) 0

/-- Showing the sum of the reserves (R129). -/
def State.showReserve (s : State) : State := s.wr K.MEM_RESERVE_SUM s.reserveSum

/-- A write of TC_PRIORITY: refused for the contexts with a fixed one (R123). -/
def tcPriorityEff (tc v : Nat) (s : State) : Nat × State :=
  if tc < 64 then (Ans.refused, s) else (Ans.ok, s.wr (K.TC_PRIORITY tc) v)

/-- A write of TC_RESERVE (R129). -/
def tcReserveEff (tc v : Nat) (s : State) : Nat × State :=
  let t := s.wr (K.TC_RESERVE tc) v
  if 51200 < t.reserveSum then (Ans.refused, s) else (Ans.ok, t.showReserve)

end Sys2Proof.Machine
end

