-- ==== Sys2Proof/Machine/Die.lean ====
section
/-! DEFINITION. Die temperature (R477 to R489): sensors and their checks, the apex, thresholds and the level in force, the orderly stop
and the hard cutoff. -/

namespace Sys2Proof.Machine

/-- A sensor before its first sample. -/
def Sensor.init : Sensor := { raw := 0, same := 0, odd := 0, goodSince := none }

/-- Sensor `i`. -/
def State.sensor (s : State) (i : Nat) : Sensor := Tab.get (fun _ => Sensor.init) s.die.sensors i

/-- Setting sensor `i`. -/
def State.setSensor (s : State) (i : Nat) (x : Sensor) : State :=
  { s with die := { s.die with sensors := Tab.set (fun _ => Sensor.init) s.die.sensors i x } }

/-- Fixed neighbours (R477). -/
def sensorNear (i : Nat) : List Nat :=
  match i with
  | 0 => [1]
  | 1 => [0, 2]
  | 2 => [1, 3]
  | 3 => [2]
  | 4 => [5]
  | 5 => [4]
  | 6 => [7]
  | 7 => [6]
  | 8 => [9]
  | 9 => [8]
  | 10 => [11, 12]
  | 11 => [10, 13]
  | 12 => [10]
  | 13 => [11]
  | _ => []

/-- State of a sensor: 0 VALID, 1 FAILED, 2 FAILED_ACKNOWLEDGED. -/
def State.sensorState (s : State) (i : Nat) : Nat := octByte (s.rd K.DT_SENSOR_STATE) i

/-- Setting the state and cause of a sensor. -/
def State.setSensorState (s : State) (i st cause : Nat) : State :=
  s.wrs [(K.DT_SENSOR_STATE, octSet (s.rd K.DT_SENSOR_STATE) i st), (K.DT_SENSOR_CAUSE, octSet (s.rd K.DT_SENSOR_CAUSE) i cause)]

/-- A reading (R477): the raw value under the thermal trim in force. A neutral trim changes nothing; how another one acts is not
stated. -/
def State.reading (s : State) (i raw : Nat) : Int :=
  let v := sgn 16 raw
  match s.record 0x3200 with
  | none => v
  | some r =>
    let off := sgn 16 (payU16 r.payload (4 * i))
    let gain := payU16 r.payload (4 * i + 2)
    if off = 0 ∧ gain = 16384 then v else (Config.trimmed v off gain).toInt

/-- Sum of readings of some sensors. -/
def sumOf (r : List Int) (l : List Nat) : Int := l.foldl (fun a i => a + r.getD i 0) 0

/-- The check a sensor fails on a sample (R479): 1 STUCK, 2 RANGE, 3 IMPLAUSIBLE. `near` are its valid neighbours. -/
def State.sensorCause (s : State) (r : List Int) (near : List Nat) (i : Nat) : Option Nat :=
  let x := s.sensor i
  let v := r.getD i 0
  let n : Int := near.length
  let old := s.die.past.getD 255 (s.die.past.getLastD r)
  let moved := decide (50 * n < ((sumOf r near - sumOf old near).natAbs : Int))
  if !near.isEmpty ∧ 256 ≤ x.same ∧ moved then some 1
  else if v < -5500 ∨ 17500 < v then some 2
  else if !near.isEmpty ∧ 8 ≤ x.odd then some 3
  else none

/-- Counting what the checks look at (R479). -/
def State.countSensor (s : State) (r : List Int) (raws : List Nat) (near : List Nat) (first : Bool) (i : Nat) : State :=
  let x := s.sensor i
  let raw := raws.getD i 0
  let v := r.getD i 0
  let n : Int := near.length
  let far := decide ((s.rd K.DT_PLAUSIBLE : Int) * n < ((v * n - sumOf r near).natAbs : Int))
  s.setSensor i { x with raw := raw, same := if !first && x.raw == raw then x.same + 1 else 1,
                         odd := if near.isEmpty || !far then 0 else x.odd + 1 }

/-- Valid sensors. -/
def State.validSensors (s : State) : List Nat := (List.range 14).filter fun i => s.sensorState i == 0

/-- The highest of some readings. -/
def maxReading (r : List Int) : List Nat → Option Int
  | [] => none
  | i :: t => match maxReading r t with
    | none => some (r.getD i 0)
    | some m => some (max (r.getD i 0) m)

/-- A die event (R489): the apex in bytes 0 and 1. -/
def State.dieEvent (s : State) (code cls inst b2 b3 : Nat) : State :=
  s.raise 0x02 code cls inst (s.rd K.DT_APEX + b2 * 2 ^ 16 + b3 * 2 ^ 24)

/-- A sensor fails (R479, R480): the hottest one leaves a substitution behind. -/
def State.failSensor (s : State) (i cause : Nat) (hottest : Bool) : State :=
  let s := s.setSensorState i 1 cause
  let s := s.setSensor i { s.sensor i with goodSince := none }
  if hottest then s.wr K.DT_SUBSTITUTE (setBit (s.rd K.DT_SUBSTITUTE) i true) else s

/-- An acknowledged sensor is observed (R481): valid again after 1 s of samples that pass every check; `true` when it is. -/
def State.watchSensor (s : State) (i : Nat) (passes : Bool) : Bool × State :=
  let x := s.sensor i
  if s.sensorState i ≠ 2 then (false, s)
  else if !passes then (false, s.setSensor i { x with goodSince := none })
  else
    let since := x.goodSince.getD s.tm.tick
    if since + 100000000 ≤ s.tm.tick then
      let s := (s.setSensorState i 0 0).wr K.DT_SUBSTITUTE (setBit (s.rd K.DT_SUBSTITUTE) i false)
      (true, s.setSensor i { x with goodSince := none })
    else (false, s.setSensor i { x with goodSince := some since })

/-- Set and clear values of T1, T2, T3 and the hard cutoff (R482). -/
def thresholds : List (Int × Int) := [(11000, 10800), (11800, 11600), (12400, 12200), (13000, 12800)]

/-- The dwell counts and crossings after a sample (R482). -/
def Die.cross (d : Die) (apex : Int) : Die :=
  let up := (List.range 4).map fun k => if (thresholds.getD k (0, 0)).1 ≤ apex then d.up.getD k 0 + 1 else 0
  let down := (List.range 4).map fun k => if apex ≤ (thresholds.getD k (0, 0)).2 then d.down.getD k 0 + 1 else 0
  let crossed := (List.range 4).map fun k =>
    if d.crossed.getD k false then decide (down.getD k 0 < 8) else decide (8 ≤ up.getD k 0)
  { d with up := up, down := down, crossed := crossed }

/-- The threshold level (R478, R482). -/
def State.thresholdLevel (s : State) : Nat :=
  if s.validSensors.length < 4 then 3
  else if s.die.crossed.getD 2 false then 3
  else if s.die.crossed.getD 1 false then 2
  else if s.die.crossed.getD 0 false then 1
  else 0

/-- The least-squares slope of the apex over the last 64 samples as a fraction: hundredths of a degree by tick (R484). -/
def slopeOf (l : List (Nat × Int)) : Int × Nat :=
  let n : Int := l.length
  let st : Int := l.foldl (fun a e => a + (e.1 : Int)) 0
  let sa : Int := l.foldl (fun a e => a + e.2) 0
  let d := fun (e : Nat × Int) => n * e.1 - st
  let den := l.foldl (fun a e => a + d e * d e) 0
  let num := l.foldl (fun a e => a + d e * (n * e.2 - sa)) 0
  (num, den.toNat)

/-- A channel stops as a host OFF would, by way of its park point (R484, R196). -/
def State.stopChannel (s : State) (n : Nat) : State :=
  let c := s.chan n
  let st := s.rd (K.BC_STATE n)
  let busy := st = Bc.run ∧ c.run.any fun p => decide (p.first < s.tm.tick + 240)
  if st ≠ Bc.armed ∧ st ≠ Bc.run ∧ st ≠ Bc.hold then s
  else
    let s := s.setChan n { c with offAt := some (c.offAt.getD s.tm.tick) }
    if busy then s.endRunFrom n s.tm.tick
    else if s.exposing n then
      let pos := s.lastLatched n
      let s := s.dropRun n
      (s.setChan n { s.chan n with px := pos.1, py := pos.2, nx := pos.1, ny := pos.2, regionAt := none }).stopHere n
    else if st = Bc.run ∨ c.run.isEmpty then s.stopHere n
    else s

/-- An orderly stop begins (R484): the rise rate, a seal at once when the cutoff is near, and every channel stops. -/
def State.orderlyStop (s : State) : State :=
  let q := slopeOf s.die.apexes
  let (i, s) := s.draw
  let up : Int := (Config.pathRound i).toNat
  let rate : Int := if q.2 = 0 then 0 else q.1 * 100000000 / q.2 + up
  let apex := s.rdS 16 K.DT_APEX
  let near := decide (0 < q.1) && decide ((13000 - apex) * q.2 < (s.rd K.DT_STOP_MARGIN : Int) * 100000 * q.1)
  let s := (s.wr K.DT_STOP_STATE 1).wrS 32 K.DT_RISE (clampInt (-2147483648) 2147483647 rate)
  let s := if near then { s with jr := { s.jr with sealDue := true } } else s
  (List.range 16).foldl (fun s n => s.stopChannel n) s

/-- The level in force takes its value (R481, R482, R484, R485). -/
def State.setLevel (s : State) : State :=
  let old := s.rd K.DT_LEVEL
  let new := max (s.rd K.DT_THRESH_LEVEL) (s.rd K.DT_FLOOR)
  if new = old then s
  else
    let s := s.wrs [(K.DT_LEVEL, new), (K.DT_LEVEL_STAMP, s.now)]
    let s := s.dieEvent (if old < new then 0x0010 else 0x0011) 6 0 new 0
    if new = 3 then s.orderlyStop else if old = 3 then s.wr K.DT_STOP_STATE 0 else s

/-- The hard cutoff comes into force or clears (R486). -/
def State.setCutoff (s : State) : State :=
  let on := s.die.crossed.getD 3 false
  let was := s.rd K.DT_CUTOFF = 1
  if on ∧ ¬was then
    let s := (s.wr K.DT_CUTOFF 1).dieEvent 0x0012 1 0 1 0
    ({ s with jr := { s.jr with sealDue := true } }).withdraw 0xFFFF Bp.thermal
  else if !on ∧ was then (s.wr K.DT_CUTOFF 0).dieEvent 0x0012 1 0 0 0
  else s

/-- The rate of the next sample (R478). -/
def State.setFast (s : State) : State :=
  let a := s.rdS 16 K.DT_APEX
  let fast := if thresholds.any (fun t => decide ((a - t.1).natAbs ≤ 500)) then 1 else 0
  if s.rd K.DT_FAST = fast then s else (s.wr K.DT_FAST fast).dieEvent 0x0016 6 0 fast 0

/-- Sensors after a sample's checks (R479 to R481): those that fail with their cause, and those restored. -/
def State.checkSensors (s : State) (r : List Int) (raws : List Nat) : List (Nat × Nat) × List Nat × State :=
  let before := s.validSensors
  let first := s.die.past.isEmpty
  let prev := s.die.past.headD []
  let top := if first then none else maxReading prev before
  let near := fun (i : Nat) => (sensorNear i).filter fun j => before.contains j
  let s := (List.range 14).foldl (fun s i => s.countSensor r raws (near i) first i) s
  let s := { s with die := { s.die with past := (r :: s.die.past).take 256 } }
  let causes := (List.range 14).map fun i => (i, s.sensorCause r (near i) i)
  let failed := causes.filterMap fun e => if before.contains e.1 then e.2.map fun c => (e.1, c) else none
  let s := failed.foldl (fun s e => s.failSensor e.1 e.2 (top == some (prev.getD e.1 0))) s
  let w := causes.foldl (fun (a : List Nat × State) e =>
    let t := a.2.watchSensor e.1 e.2.isNone
    (if t.1 then a.1 ++ [e.1] else a.1, t.2)) ([], s)
  (failed, w.1, w.2)

/-- The apex of a sample (R478, R480); with no valid sensor the specification gives none. -/
def State.apexOf (s : State) (r : List Int) : Int × State :=
  match maxReading r s.validSensors with
  | some m => (m + (if s.rd K.DT_SUBSTITUTE = 0 then 0 else 600), s)
  | none => let d := s.draw; ((Config.unstated d.1).toInt % 65536 - 32768, d.2)

/-- THERMAL_SAMPLE (R477 to R486): all fourteen sensors, raw values in order. -/
def State.thermalSample (s : State) (raws : List Nat) : State :=
  let s := s.trimApply true
  let r := (List.range 14).map fun i => s.reading i (raws.getD i 0)
  let (failed, back, s) := s.checkSensors r raws
  let (apex, s) := s.apexOf r
  let s := s.wrs [(K.DT_APEX, uns 16 apex), (K.DT_SENSOR_VALUE, leNat (r.flatMap fun v => toLE 2 (uns 16 v)))]
  let s := if s.rdS 16 K.DT_PEAK < apex then s.wr K.DT_PEAK (uns 16 apex) else s
  let s := { s with die := { (s.die.cross apex) with apexes := ((s.tm.tick, apex) :: s.die.apexes).take 64 } }
  let s := s.wr K.DT_THRESH_LEVEL s.thresholdLevel
  let s := if failed.isEmpty then s else s.wr K.DT_FLOOR (max (s.rd K.DT_FLOOR) (s.rd K.DT_THRESH_LEVEL))
  let s := s.setCutoff
  let s := failed.foldl (fun s e => s.dieEvent 0x0013 3 e.1 e.1 e.2) s
  let s := back.foldl (fun s i => s.dieEvent 0x0014 6 i i 0) s
  s.setLevel.setFast

/-- THERMAL_SAMPLE (R478). -/
def execThermalSample (raw : List (BitVec 16)) (s : State) : Host.Outcome State Fault Refusal :=
  live (fun s => if raw.length = 14 then s.thermalSample (raw.map (·.toNat)) else s) s

/-- The last step of an orderly stop (R484): eye scans and a snapshot end as ABORTED. -/
def State.endScans (s : State) : State :=
  let s := (List.range 48).foldl (fun s l => s.eyeEnd l 3) s
  if s.rd K.LAT_SNAP_STATE = 1 then s.snapEnd 3 0x0061 else s

/-- A seal of the journal is asked for (R61). -/
def State.askSeal (s : State) : State := { s with jr := { s.jr with sealDue := true } }

/-- STOP_DONE (R484): every channel is OFF; the journal is sealed, the engines stop, eye scans and a snapshot end. -/
def State.stopDone (s : State) : State :=
  let busy : Bool := (List.range 16).any fun n => s.rd (K.BC_STATE n) != Bc.off
  if s.rd K.DT_STOP_STATE ≠ 1 ∨ busy then s
  else
    let s := s.askSeal.endScans.wr K.DT_STOP_STATE 2
    s.dieEvent 0x0015 4 0 0 0

/-- STOP_DONE (R484). -/
def execStopDone (s : State) : Host.Outcome State Fault Refusal := live (fun s => s.stopDone) s

/-- A write of DT_SENSOR_ACK (R481). -/
def sensorAckEff (v : Nat) (s : State) : Nat × State :=
  let named := maskList 16 v
  if named.any fun i => decide (14 ≤ i) || s.sensorState i != 1 then (Ans.refused, s)
  else
    let s := named.foldl (fun s i => (s.setSensorState i 2 (octByte (s.rd K.DT_SENSOR_CAUSE) i)).setSensor i
      { s.sensor i with goodSince := none }) s
    let pending := (List.range 14).any fun i => s.sensorState i == 1
    (Ans.ok, if pending then s else (s.wr K.DT_FLOOR 0).setLevel)

/-- DT_SENSOR_ACK (R481). -/
def execDtSensorAck (m : Msg) (v : BitVec 16) (s : State) : Host.Outcome State Fault Refusal :=
  writeCmd m K.DT_SENSOR_ACK 2 v.toNat sensorAckEff s

/-- DT_PEAK_READ (R488). -/
def execDtPeakRead (m : Msg) (s : State) : Host.Outcome State Fault Refusal := live (fun s => clearingRead m K.DT_PEAK 2 s) s

end Sys2Proof.Machine
end

