-- ==== Sys2Proof/Machine/Journal.lean ====
section
/-! DEFINITION. The journal ring and its seals (R57 to R64). -/

namespace Sys2Proof.Machine

/-- Blocks of the ring. -/
def State.ringBlocks (s : State) : Nat := s.rd K.JOURNAL_SIZE / 32

/-- Blocks that the host has not read (R59). -/
def State.unreadSpan (s : State) : Nat := (s.rd K.JOURNAL_WRITE_SEQ + 2 ^ 32 - s.rd K.JOURNAL_READ_SEQ) % 2 ^ 32

/-- A block is unread (R59). -/
def State.unread (s : State) (b : Nat) : Bool :=
  decide (0 ≤ sgn 32 ((b + 2 ^ 32 - s.rd K.JOURNAL_READ_SEQ) % 2 ^ 32))

/-- Writing one block at the present WRITE_SEQ through TC57, with the overrun rules of R59. -/
def State.writeBlock (s : State) (blk : List Byte) : State :=
  let n := s.ringBlocks
  let q := s.rd K.JOURNAL_WRITE_SEQ
  let ovr := decide (n ≤ s.jr.total) && s.unread ((q + 2 ^ 32 - n % 2 ^ 32) % 2 ^ 32)
  let s := (s.writeMem 57 (s.rd K.JOURNAL_BASE + q % n * 32) blk).countBeats 57 1
  let s := s.wr K.JOURNAL_WRITE_SEQ ((q + 1) % 2 ^ 32)
  let first := ovr && !s.jr.inRun
  let s := { s with jr := { s.jr with total := s.jr.total + 1, inRun := ovr,
                                      wraps := if q % n + 1 = n then s.jr.wraps + 1 else s.jr.wraps } }
  let s := if ovr then s.inc K.JOURNAL_OVERRUN else s
  let s := if first then s.raise 0x1F 0x0002 3 0 (s.unreadSpan * 2 ^ 32) else s
  let high := decide (n * 3 / 4 < s.unreadSpan)
  let s := if high && !s.jr.above75 && !first then s.raise 0x1F 0x0002 3 0 (s.unreadSpan * 2 ^ 32) else s
  { s with jr := { s.jr with above75 := high } }

/-- The 64-byte seal record (R63) of a seal whose header block is `e`, once it is in the ring. -/
def State.sealBytes (s : State) (e : EvRec) : List Byte :=
  let b := toLE 8 e.stamp ++ toLE 8 (s.rd K.JOURNAL_WRITE_SEQ % s.ringBlocks * 32) ++ toLE 4 e.seq ++ toLE 4 e.layer ++
    toLE 8 (s.rd K.JOURNAL_BASE) ++ toLE 8 (s.rd K.JOURNAL_SIZE) ++ toLE 2 e.gen ++ toLE 2 0 ++
    toLE 4 (e.data % 2 ^ 32) ++ toLE 8 s.jr.wraps ++ toLE 4 0
  b ++ toLE 4 (crc32c b)

/-- Splitting bytes into blocks. -/
def blocksOf : Nat → List Byte → List (List Byte)
  | 0, _ => []
  | n + 1, bs => bs.take 32 :: blocksOf n (bs.drop 32)

/-- Writing one record, and the seal record into the always-on island once the seal is in the ring (R61). -/
def State.writeRecord (s : State) (e : EvRec) : State :=
  let s := (blocksOf (1 + e.ext.length) (recordBytes e e.seq)).foldl (fun s b => s.writeBlock b) s
  if e.source = 0x1F ∧ e.code = 0x0001 then
    let v := leNat (s.sealBytes e)
    let s := { s with jr := { s.jr with aonSeal := v } }
    s.wr K.JOURNAL_SEAL v
  else s

/-- Blocks of a buffered record. -/
def recBlocks (r : Nat × EvRec) : Nat := 1 + r.2.ext.length

/-- Shedding (R60): above 75 % of 8,192 blocks the finest records go first, never one of class 1 to 5. -/
def shedBuffer (buf : List (Nat × EvRec)) : List (Nat × EvRec) × Nat :=
  let total := buf.foldl (fun a r => a + recBlocks r) 0
  if total ≤ 6144 then (buf, 0)
  else
    let keep := buf.filter (fun r => r.1 < 2 || r.2.cls ≤ 5)
    let total := keep.foldl (fun a r => a + recBlocks r) 0
    let keep := if total ≤ 6144 then keep else keep.filter (fun r => r.1 < 1 || r.2.cls ≤ 5)
    (keep, buf.length - keep.length)

/-- Writing the buffered records into the ring, when it is mapped and writing is on. -/
def State.writeJournal (s : State) : State :=
  let (buf, shed) := shedBuffer s.jr.buf
  let s := { s with jr := { s.jr with buf := buf } }
  let s := (s.bump 32 K.JOURNAL_SHED shed).startJournal
  if s.rd K.JOURNAL_ENABLE = 1 ∧ s.jr.held.isSome then
    buf.foldl (fun s r => s.writeRecord r.2) { s with jr := { s.jr with buf := [] } }
  else s

/-- JOURNAL_WRITE (R60). -/
def execJournalWrite (s : State) : Host.Outcome State Fault Refusal := live (fun s => s.writeJournal) s

/-- A write of JOURNAL_ENABLE (R57, R132): the unit refuses to start until every page of its ring is mapped, and holds them while it
runs. -/
def journalEnableEff (v : Nat) (s : State) : Nat × State :=
  if v = s.rd K.JOURNAL_ENABLE then (Ans.ok, s)
  else if v = 0 then (Ans.ok, (s.wr K.JOURNAL_ENABLE 0).stopJournal)
  else if !s.ringMapped then (Ans.refused, s)
  else (Ans.ok, (s.wr K.JOURNAL_ENABLE 1).startJournal)

/-- Raising the seal's series event (R61). -/
def State.sealNow (s : State) : State :=
  ({ s with jr := { s.jr with sealDue := false } }).raiseSeries 0x1F 0x0001 4 0 []

/-- SEAL (R61): the seal that is due is raised. -/
def execSeal (s : State) : Host.Outcome State Fault Refusal :=
  live (fun s => if s.jr.sealDue then s.sealNow else s) s

end Sys2Proof.Machine
end

