-- ==== Sys2Proof/Machine/Twin.lean ====
section
/-! DEFINITION. The twin pair (R405 to R421): roles and role epoch, heartbeats, takeover, what a standby is sent, sync and
reversion, and the messages of R410. -/

namespace Sys2Proof.Machine

/-- No record that has still to leave carries the epoch of a part that is no longer ACTIVE (R407, R413). -/
def State.clearEpochs (s : State) : State :=
  let bare := fun (r : List Byte) => r.take 8 ++ List.replicate 4 0 ++ r.drop 12
  let s := (List.range 16).foldl (fun (s : State) n =>
    if (s.chan n).frame.isEmpty then s else s.setChan n { s.chan n with frame := bare (s.chan n).frame }) s
  let late := fun (x : Sent) => match x.path with
    | .head _ => if s.tm.tick ≤ x.tick then { x with bytes := bare x.bytes } else x
    | _ => x
  { s with sent := s.sent.map late }

/-- Shows a new role with its event (R406). -/
def State.setRole (s : State) (r : Nat) : State :=
  let s := if s.role = Role.active ∧ r ≠ Role.active then s.clearEpochs else s
  let s := (s.wrs [(K.TWIN_ROLE, r), (K.TWIN_ROLE_STAMP, s.now)]).twinPins
  s.raise 0xF0 0x00E0 2 0 (s.twinData (s.rd K.TWIN_EPOCH))

/-- The role epoch, kept by the always-on island (R407). -/
def State.setEpoch (s : State) (e : Nat) : State := { (s.wr K.TWIN_EPOCH e) with pw := { s.pw with epoch := e } }

/-- An epoch above every one the part has seen (R407). -/
def State.newEpoch (s : State) : Nat := uns 32 (max (s.rd K.TWIN_EPOCH) s.tw.seenEpoch + 1)

/-- No takeover, handover or sync is under way any more. -/
def Twin.settle (w : Twin) : Twin := { w with takeoverAt := none, handoverAt := none, agreed := false, before := none, copy := [], copyOff := 0, wanted := none }

/-- The part's own selected domain steers its time again (R412). -/
def State.ownTime (s : State) : State :=
  let d := s.rd K.TIME_SEL
  if s.rd (K.DOM_STATE d) = 2 then s.steerFrom d else s.holdover

/-- Entry to ACTIVE (R406, R407, R412): the epoch rises above every one seen, and the part's own domain steers again. -/
def State.enterActive (s : State) : State :=
  let e := s.newEpoch
  let s := (s.setEpoch e).setRole Role.active
  let s := s.raise 0xF0 0x00E1 2 0 (Role.active + e * 4294967296)
  let s := { s with tw := s.tw.settle }
  (s.wr K.TWIN_SYNC_STATE 0).ownTime

/-- Entry to STANDBY (R406, R420). -/
def State.enterStandby (s : State) : State :=
  let s := (s.setRole Role.standby).wr K.TWIN_HOLDOFF_LEFT (s.rd K.TWIN_REVERT_HOLDOFF)
  { s with tw := { s.tw with handoverAt := none, agreed := false } }

/-- Entry to DETACHED (R406). -/
def State.enterDetached (s : State) : State :=
  let s := (s.setRole Role.detached).wrs [(K.TWIN_SYNC_STATE, 0), (K.TWIN_SYNC_REMAIN, 0)]
  { s with tw := s.tw.settle }

/-- Aligning the pair count with the partner's (R408): every other Dardayn lane returns to ACQUIRE. -/
def State.alignPair (s : State) (partner : Nat) : State :=
  let s := s.wrS 64 K.TWIN_PAIR_OFFSET ((partner : Int) - s.tm.tick)
  let s := { s with tw := { s.tw with align := false } }
  (List.range 36).foldl (fun s l => if s.rd (K.LANE_STATE l) = 0 then s else s.laneDrop l 1) s

/-- Entry to SYNCING (R406, R417). -/
def State.enterSyncing (s : State) : State :=
  let s := (s.setRole Role.syncing).wr K.TWIN_SYNC_STATE 1
  { s with tw := { s.tw.settle with align := true } }

/-- Lock-step is lost (R411): the standby enters SYNCING. -/
def State.loseStep (s : State) (code : Nat) : State :=
  if s.role ≠ Role.standby then s
  else (s.raise 0xF2 code 3 0 (s.twinData (s.rd K.TWIN_EPOCH))).enterSyncing

/-- A partner message (R351, R407, R409, R410): one that comes over a link that is not up does not count, one of a lower epoch is
answered STALE, and a part that is not active adopts a higher epoch. -/
def State.partnerIn (s : State) (p : PMsg) (type : Nat) (k : State → State) : State :=
  let e := p.epoch.toNat
  if !(s.rd K.TWIN_LINKS).testBit p.link then s
  else if e < s.rd K.TWIN_EPOCH then
    (({ s with tw := { s.tw with heard := true } }).sendPartner 0x0003 (toLE 1 s.role ++ toLE 1 0 ++ toLE 2 type ++ toLE 4 0)).raise 0xF1 0x00E3 6 0 (s.twinData e)
  else
    let s := { s with tw := { s.tw with heard := true, seenEpoch := max e s.tw.seenEpoch } }
    k (if s.role ≠ Role.active ∧ s.rd K.TWIN_EPOCH < e then s.setEpoch e else s)

/-- A mirror message is taken once (R409, R411): a second copy is discarded, a gap ends lock-step. -/
def State.mirrorIn (s : State) (q : BitVec 32) (k : State → State) : State :=
  let ahead := (q.toNat + 2 ^ 32 - s.tw.seenSeq) % 2 ^ 32
  if (s.role ≠ Role.standby ∧ s.role ≠ Role.syncing) ∨ ahead = 0 ∨ 2 ^ 31 ≤ ahead then s
  else
    let first := s.tw.seenSeq = 0 ∧ s.role = Role.syncing
    let s := { s with tw := { s.tw with seenSeq := q.toNat } }
    k (if ahead = 1 ∨ first then s else s.loseStep 0x00E5)

/-- Physical pages a sync copies, each once, those of the lattice last (R417). -/
def State.syncPages (s : State) : List Nat :=
  let phys := fun (p : Nat → Bool) => s.mem.pages.filterMap fun e => if p e.1 then e.2.map (·.phys) else none
  let job := phys fun k => decide (k / 2 ^ 24 < 32) || decide (64 ≤ k / 2 ^ 24)
  let lat := phys fun k => k / 2 ^ 24 == 56 && decide (s.rd K.LAT_BASE / 65536 ≤ k % 2 ^ 24) &&
    decide (k % 2 ^ 24 < s.rd K.LAT_BASE / 65536 + 4096)
  (job ++ lat).eraseDups

/-- Bytes a syncing partner has to be sent (R417): dictionary values, records, the contents of pages and the lattice. -/
def State.syncBytes (s : State) : Nat :=
  let cals := (s.digestCals.map fun e => e.2.payload.length).foldl (· + ·) 0
  let values := (Dict.rows.filter fun r => !r.partOwn).foldl (fun a r => a + r.n1 * r.n2 * r.nsub * r.len) 0
  values + cals + s.syncPages.length * 65536

/-- Nothing is copied to the partner any more. -/
def State.endCopy (s : State) : State :=
  { (s.wrs [(K.TWIN_SYNC_STATE, 0), (K.TWIN_SYNC_REMAIN, 0)]) with tw := { s.tw with copy := [], copyOff := 0 } }

/-- What an active part does when its partner's role changes (R417, R418, R420). -/
def State.partnerRole (s : State) (r : Nat) : State :=
  let was := s.rd K.TWIN_PARTNER_ROLE
  let s := s.wr K.TWIN_PARTNER_ROLE r
  if s.role ≠ Role.active ∨ was = r then s
  else if r = Role.syncing then
    { (s.wrs [(K.TWIN_SYNC_STATE, 1), (K.TWIN_SYNC_REMAIN, s.syncBytes)]) with
      tw := { s.tw with copyFrom := s.tm.tick, copyTotal := s.syncBytes, copy := s.syncPages, copyOff := 0 } }
  else if r = Role.standby then s.wrs [(K.TWIN_SYNC_STATE, 3), (K.TWIN_HOLDOFF_LEFT, s.rd K.TWIN_REVERT_HOLDOFF)]
  else s.endCopy

/-- Partner failure is declared (R412, R419). -/
def State.partnerFailed (s : State) : State :=
  let role := s.role
  let s := { (s.wr K.TWIN_PARTNER_ROLE 0) with tw := { s.tw with heardAt := none, partnerDigest := none } }
  let s := if role = Role.detached then s else s.raise 0xF1 0x00E2 3 0 (s.twinData (s.rd K.TWIN_EPOCH))
  let s := if role = Role.standby then { s with tw := { s.tw with takeoverAt := some (s.tm.tick + 1) } }
    else if role = Role.syncing then s.enterDetached
    else if role = Role.active then ({ s with tw := { s.tw with handoverAt := none } }).endCopy
    else s
  (s.nodeGone s.partnerNode).fleetChanged

/-- PARTNER_FAILED (R412): 300 ticks without a valid heartbeat. -/
def execPartnerFailed (s : State) : Host.Outcome State Fault Refusal :=
  live (fun s => match s.tw.heardAt with
    | some t => if t + 300 ≤ s.tm.tick then s.partnerFailed else s
    | none => s) s

/-- TAKEOVER (R412): on the tick after the declaration. -/
def execTakeover (s : State) : Host.Outcome State Fault Refusal :=
  live (fun s => match s.tw.takeoverAt with
    | some t => if t ≤ s.tm.tick ∧ s.role = Role.standby then s.enterActive.inc K.TWIN_TAKEOVERS else s
    | none => s) s

/-- The sender has withdrawn every permit for an internal cause (R410). -/
def State.failing (s : State) : Bool :=
  s.rd K.BP_STATE == 0 && (List.range 16).all fun n => let c := octByte (s.rd K.BP_CAUSE) n; c == 3 || c == 6

/-- TIME with its fraction and STEP at the latest multiple of 400 (R345, R410). -/
def State.beatTime (s : State) : Nat × Int :=
  match s.tm.segs.find? (fun g => g.1 == s.sampleOf s.tm.tick) with
  | some g => (g.2.1, g.2.2)
  | none => (s.timeAt (s.sampleOf s.tm.tick) * 2 ^ 32, s.tm.inc)

/-- HEARTBEAT_SEND (R409, R410). -/
def State.heartbeatSend (s : State) : State :=
  if s.pair s.tm.tick % 100 ≠ 0 ∨ s.rd K.TWIN_LINKS = 0 then s
  else
    let t := s.beatTime
    s.sendPartner 0x0001 (toLE 1 s.role ++ toLE 1 (if s.failing then 1 else 0) ++ toLE 2 0 ++ toLE 8 (s.pair s.tm.tick) ++
      toLE 8 (t.1 / 2 ^ 32) ++ toLE 4 t.1 ++ toLE 8 (uns 64 t.2) ++ toLE 8 s.tm.lt ++ toLE 4 s.tw.mirrorSeq ++
      toLE 4 (s.rd K.LAYER_NUMBER))

/-- HEARTBEAT_SEND (R409). -/
def execHeartbeatSend (s : State) : Host.Outcome State Fault Refusal := live (fun s => s.heartbeatSend) s

/-- TIME, its fraction and the local time that a heartbeat gives for the pair tick `partner`. -/
def beatTimeAt (h : Beat) (partner : Nat) : Int × Int :=
  let base := h.pairTick.toNat - h.pairTick.toNat % 400
  let step := sgn 64 h.inc.toNat
  let acc := (h.time.toNat : Int) * 4294967296 + h.frac.toNat + ((partner : Int) - base) * step
  let lt := (h.lt.toNat : Int) + ((partner : Int) - h.pairTick.toNat) * step / 4294967296
  (acc, lt)

/-- A standby's or a syncing part's time follows the heartbeat (R411). -/
def State.timeFrom (s : State) (h : Beat) (partner : Nat) : State :=
  let a := beatTimeAt h partner
  let tm := s.tm
  let tm := { tm with time64 := uns 64 (a.1 / 4294967296), frac := uns 32 a.1 }
  { s with tm := { tm with inc := sgn 64 h.inc.toNat, lt := uns 64 a.2 } }

/-- A heartbeat counts as heard (R410, R412). -/
def State.beatHeard (s : State) (epoch : Nat) : State :=
  let late : Bool := s.tw.heardAt.any fun t => decide (t + 160 < s.tm.tick)
  let s := if late then s.inc K.TWIN_HB_LATE else s
  let s := s.wr K.TWIN_PARTNER_EPOCH epoch
  let s := { s with tw := { s.tw with heardAt := some s.tm.tick } }
  if s.rd K.TWIN_PARTNER_ROLE ≠ 0 then s
  else
    let d := s.draw
    d.2.wr K.TWIN_PARTNER_SERIAL (Config.unstated d.1).toNat

/-- The part's own role as an active partner is heard (R406, R407). -/
def State.beatRole (s : State) (active : Bool) (epoch : Nat) : State :=
  if !active then s
  else if s.role = Role.active ∧ s.rd K.TWIN_EPOCH < epoch then (s.setEpoch epoch).enterSyncing
  else if s.role = Role.detached ∧ s.rd K.TWIN_START = 1 then s.enterSyncing
  else s

/-- Lock-step with the heartbeat (R408, R411): pair counts within one tick and no mirror message missing. -/
def State.beatStep (s : State) (partner seq : Nat) : State :=
  let drift := ((partner : Int) - s.pair s.tm.tick).natAbs
  let s := if s.role = Role.standby ∧ 1 < drift then s.loseStep 0x00E4 else s
  let s := if s.role = Role.standby ∧ seq ≠ s.tw.seenSeq then s.loseStep 0x00E5 else s
  if s.role ≠ Role.syncing then s
  else
    let s := if s.tw.align then s.alignPair partner else s
    if s.tw.seenSeq = 0 then { s with tw := { s.tw with seenSeq := seq } } else s

/-- The partner's pair count as the heartbeat arrives (R408). -/
def State.beatTick (s : State) (link : Nat) (h : Beat) : Nat :=
  h.pairTick.toNat + (s.rd (K.LANE_DELAY (36 + 4 * link)) + 64) / 128

/-- HEARTBEAT (R406, R408, R409, R411, R412). -/
def State.heartbeat (s : State) (p : PMsg) (h : Beat) : State :=
  let partner := s.beatTick p.link h
  let s := (s.beatHeard p.epoch.toNat).partnerRole h.role.toNat
  let s := s.beatRole (h.role.toNat == Role.active) p.epoch.toNat
  let s := s.beatStep partner h.mirrorSeq.toNat
  let s := if s.role = Role.standby ∨ s.role = Role.syncing then s.timeFrom h partner else s
  if h.failing ∧ s.role = Role.standby then s.partnerFailed else s

/-- HEARTBEAT (R410). -/
def execHeartbeat (p : PMsg) (h : Beat) (s : State) : Host.Outcome State Fault Refusal :=
  live (fun s => s.partnerIn p 0x0001 (fun s => s.heartbeat p h)) s

/-- A write of TWIN_COMMAND (R406): 1 ACTIVATE, 2 DETACH, 3 JOIN. -/
def twinCommandEff (v : Nat) (s : State) : Nat × State :=
  let partner := s.rd K.TWIN_PARTNER_ROLE
  match v with
  | 1 => if s.role ≠ Role.detached ∨ partner = Role.active then (Ans.refused, s) else (Ans.ok, s.enterActive)
  | 2 =>
    if s.role = Role.active ∧ s.phase ≠ Phase.idle then (Ans.refused, s)
    else if s.role = Role.detached then (Ans.ok, s) else (Ans.ok, s.enterDetached)
  | _ => if s.role ≠ Role.detached ∨ partner ≠ Role.active then (Ans.refused, s) else (Ans.ok, s.enterSyncing)

/-- TWIN_ACTIVATE (R406). -/
def execTwinActivate (m : Msg) (s : State) : Host.Outcome State Fault Refusal := writeCmd m K.TWIN_COMMAND 1 1 twinCommandEff s

/-- TWIN_DETACH (R406). -/
def execTwinDetach (m : Msg) (s : State) : Host.Outcome State Fault Refusal := writeCmd m K.TWIN_COMMAND 1 2 twinCommandEff s

/-- TWIN_JOIN (R406). -/
def execTwinJoin (m : Msg) (s : State) : Host.Outcome State Fault Refusal := writeCmd m K.TWIN_COMMAND 1 3 twinCommandEff s

/-- TWIN_START_TIMEOUT (R406): an automatic primary that has heard no partner for 10 ms and has not changed role since its start. -/
def State.twinStartTimeout (s : State) : State :=
  if s.role = Role.detached ∧ s.rd K.TWIN_START = 1 ∧ s.rd K.TWIN_STRAP = 0 ∧ !s.tw.heard ∧ s.rd K.TWIN_ROLE_STAMP = 0 ∧
      s.tw.readyTick + 1000000 ≤ s.tm.tick then s.enterActive
  else s

/-- TWIN_START_TIMEOUT (R406). -/
def execTwinStartTimeout (s : State) : Host.Outcome State Fault Refusal := live (fun s => s.twinStartTimeout) s

/-- CRC over the sixteen head command records of a sample, EPOCH read as 0 (R410). -/
def State.recordsCrc (s : State) : Nat :=
  crc32c ((List.range 16).flatMap fun n =>
    let r := ((s.chan n).frame ++ List.replicate 48 0).take 48
    r.take 8 ++ List.replicate 4 0 ++ r.drop 12)

/-- On the tick after the records of a sample were sent, an active part sends their check to its standby, which keeps its own
(R411). -/
def State.checkTick (s : State) : State :=
  if s.inSample ≠ 201 ∨ (s.role ≠ Role.active ∧ s.role ≠ Role.standby) then s
  else
    let sample := s.pair (s.tm.tick + 199) / 400 % 2 ^ 32
    let crc := s.recordsCrc
    if s.role = Role.standby then { s with tw := { s.tw with checks := ((sample, crc) :: s.tw.checks).take 8 } }
    else if s.mirrored then s.sendPartner 0x0002 (toLE 4 sample ++ toLE 4 crc)
    else s

/-- SAMPLE_CHECK (R411). -/
def execSampleCheck (p : PMsg) (sample crc : BitVec 32) (s : State) : Host.Outcome State Fault Refusal :=
  live (fun s => s.partnerIn p 0x0002 (fun s =>
    match s.tw.checks.find? (fun c => c.1 == sample.toNat) with
    | some c => if c.2 = crc.toNat then s else s.loseStep 0x00E4
    | none => s)) s

/-- STALE (R410): an active part leaves ACTIVE for an active partner of a higher epoch. -/
def execStale (p : PMsg) (role : BitVec 8) (_rejected : BitVec 16) (s : State) : Host.Outcome State Fault Refusal :=
  live (fun s => s.partnerIn p 0x0003 (fun s =>
    if s.role = Role.active ∧ role.toNat = Role.active ∧ s.rd K.TWIN_EPOCH < p.epoch.toNat then
      (s.setEpoch p.epoch.toNat).enterSyncing
    else s)) s

/-- A mirrored command waits for its EFFECT tick (R416). -/
def State.addMirror (s : State) (r : Mirror) : State := { s with mirrors := s.mirrors ++ [r] }

/-- HOST_COMMAND (R416). A command without a session number is a debug write (R93, R416). -/
def execHostCommand (p : PMsg) (q : BitVec 32) (effect : BitVec 64) (c : Mirrored) (s : State) : Host.Outcome State Fault Refusal :=
  live (fun s => s.partnerIn p 0x0010 (fun s => s.mirrorIn q (fun s =>
    let r : Mirror := { effect := s.unpair effect.toNat, remote := true, kind := c.kind.toNat, port := 0, session := c.session.toNat,
                        hostId := c.host.toNat, seq := c.seq.toNat, key := c.index.toNat * 256 + c.sub.toNat,
                        party := c.party.toNat, proposal := c.proposal.toNat, bytes := c.value, dups := [] }
    let s := s.addMirror r
    if c.session = 0 then s else s.wr K.TWIN_LAST_MIRRORED (c.host.toNat + c.seq.toNat * 2 ^ 64)))) s

/-- MAP (R410, R416). -/
def execMap (p : PMsg) (q : BitVec 32) (effect : BitVec 64) (tc : Fin 192) (unmap : Bool) (request : BitVec 128) (s : State) :
    Host.Outcome State Fault Refusal :=
  live (fun s => s.partnerIn p 0x0012 (fun s => s.mirrorIn q (fun s =>
    s.addMirror { effect := s.unpair effect.toNat, remote := true, kind := 0x11, port := 0, session := 0, hostId := 0, seq := 0,
                  key := (0x8000 + 16 * tc.val) * 256 + (if unmap then 6 else 5), party := 0, proposal := 0,
                  bytes := toLE (if unmap then 8 else 16) request.toNat, dups := [] }))) s

/-- MEMORY_WRITE (R410, R416). -/
def execMemoryWrite (p : PMsg) (q : BitVec 32) (tc : Fin 192) (addr : BitVec 64) (data : List Byte) (s : State) :
    Host.Outcome State Fault Refusal :=
  live (fun s => s.partnerIn p 0x0011 (fun s => s.mirrorIn q (fun s =>
    let s := s.sendWrite tc addr.toNat data
    if tc = 63 then s.takeSlot addr.toNat else s))) s

/-- A verdict as a message brings it. -/
def Decided.verdict (d : Decided) : Verdict :=
  { channel := d.channel, outcome := d.outcome.toNat, test := d.test.toNat, blocker := d.blocker.toNat, lune := d.lune.toNat,
    item := d.item.toNat }

/-- The dictionary with the entries that `p` names put back to those of `saved`. -/
def replaceKeys (od : Tab Nat) (p : Nat → Bool) (saved : Tab Nat) : Tab Nat :=
  let bare := (od.filter fun e => p e.1).foldl (fun (o : Tab Nat) e => Tab.set Dict.dflt o e.1 (Dict.dflt e.1)) od
  (saved.filter fun e => p e.1).foldl (fun (o : Tab Nat) e => Tab.set Dict.dflt o e.1 e.2) bare

/-- DECISION (R411): until A - 250 the active part's outcomes replace the standby's own, which are made again from the state before
them under those outcomes. -/
def State.takeDecision (s : State) (decided : Nat) (l : List Verdict) : State :=
  match s.tw.before with
  | none => s
  | some f =>
    if f.tick ≠ decided ∨ f.tick + 70 < s.tm.tick ∨ l = s.tw.made ∨ s.role ≠ Role.standby then s
    else
      let t := s.tm.tick
      let s := { s with od := replaceKeys s.od shareKey f.od }
      let s := { s with chans := f.chans, lunes := f.lunes }
      let s := { s with tm := { s.tm with tick := f.tick } }
      let s := { s with tw := { s.tw with made := [], verdicts := l } }
      let s := s.decideAll (f.tick + 320)
      { s with tm := { s.tm with tick := t }, tw := { s.tw with verdicts := [] } }

/-- DECISION (R411). -/
def execDecision (p : PMsg) (q : BitVec 32) (decided : BitVec 64) (l : List Decided) (s : State) : Host.Outcome State Fault Refusal :=
  live (fun s => s.partnerIn p 0x0020 (fun s => s.mirrorIn q (fun s =>
    s.takeDecision (s.unpair decided.toNat) (l.map Decided.verdict)))) s

/-- LATTICE_DELTA (R411): mirrored cells replace the part's own; its own deposits for those instants are no longer to come. -/
def execLatticeDelta (p : PMsg) (q : BitVec 32) (apply : BitVec 64) (cells : List (BitVec 32 × BitVec 128)) (s : State) :
    Host.Outcome State Fault Refusal :=
  live (fun s => s.partnerIn p 0x0030 (fun s => s.mirrorIn q (fun s =>
    let a := s.unpair apply.toNat
    let s := { s with lat := { s.lat with waiting := s.lat.waiting.filter (fun w => decide (a < w.inst)) } }
    cells.foldl (fun s c => s.setCell (c.1.toNat % 2 ^ 24) (Cell.ofImage c.2.toNat)) s))) s

/-- One loop's mirrored state (R411). -/
def State.takeLoop (s : State) (i : LoopImage) : State :=
  let m := i.loop.val
  let x := s.loop m
  let s := s.setLoop m { x with enPrev := i.enPrev.toInt, rPrev := i.rPrev.toInt, iacc := i.iacc.toInt, sp := i.sp.toInt, sv := i.sv.toInt }
  let s := s.wrs [(K.LOOP_STATE m, i.state.toNat), (K.LOOP_OUTPUT m, i.u.toNat), (K.LOOP_ERROR m, i.enPrev.toNat),
                  (K.LOOP_SHAPED_SP m, i.rPrev.toNat), (K.LOOP_INTEGRATOR m, i.iacc.toNat)]
  let s := (s.slotsOf m).foldl (fun s j => s.syncRep j) s
  i.reps.foldl (fun s r => s.wr (K.RC_INDEX r.1.val) r.2.toNat) s

/-- LOOP_STATE (R411). -/
def execLoopState (p : PMsg) (q : BitVec 32) (_sample : BitVec 64) (l : List LoopImage) (s : State) : Host.Outcome State Fault Refusal :=
  live (fun s => s.partnerIn p 0x0031 (fun s => s.mirrorIn q (fun s => l.foldl (fun s i => s.takeLoop i) s))) s

/-- What a SYNC_PAGE brings (R417): the party key slots and the part's own entries never cross. -/
def State.takeSync (s : State) : SyncItem → State
  | .entry index sub value =>
    let key := index.toNat * 256 + sub.toNat
    match Dict.find key with
    | some r =>
      if partLocal key || r.len != value.length then s
      else
        let t := s.wr key (leNat value)
        if r.keep && t.rd key != s.rd key then t.noteKeep key else t
    | none => s
  | .record type gen stamp payload =>
    if trimType type.toNat then s
    else
      let c : CalRec := { gen := gen.toNat, payload := payload, check := 0, stamp := stamp.toNat }
      ({ s with installed := Tab.set (fun _ => none) s.installed type.toNat (some c) }).digestPending
  | .mapping tc jp pp w =>
    if (s.page tc jp.toNat).isSome then s.setPage tc jp.toNat (some { phys := pp.toNat, write := w, pins := 0, unmap := false })
    else (tcMapEff tc (jp.toNat + pp.toNat * 2 ^ 32 + 2 ^ 64 + (if w then 2 ^ 96 else 0)) s).2
  | .page pp off data =>
    (((List.range data.length).zip data).foldl (fun s e => s.setPhysByte (pp.toNat * 65536 + off.toNat + e.1) e.2) s).countBeats
      (mirrorTc pp.toNat) ((data.length + 63) / 64)
  | .cell c image => s.setCell c.toNat (Cell.ofImage image.toNat)

/-- SYNC_PAGE (R417). -/
def execSyncPage (p : PMsg) (i : SyncItem) (s : State) : Host.Outcome State Fault Refusal :=
  live (fun s => s.partnerIn p 0x0040 (fun s => if s.role = Role.syncing then s.takeSync i else s)) s

/-- SYNC_COPY_DONE (R417, R418): the copy has ended, no sooner than its rate allows; the pair awaits the next layer close. -/
def State.syncCopyDone (s : State) : State :=
  if s.rd K.TWIN_SYNC_STATE ≠ 1 then s
  else if s.role = Role.syncing then s.wr K.TWIN_SYNC_STATE 2
  else if s.role ≠ Role.active ∨ !s.tw.copy.isEmpty ∨ (s.tm.tick - s.tw.copyFrom) * s.rd K.TWIN_SYNC_RATE < s.tw.copyTotal * 100 then s
  else s.wrs [(K.TWIN_SYNC_STATE, 2), (K.TWIN_SYNC_REMAIN, 0)]

/-- SYNC_COPY_DONE (R418). -/
def execSyncCopyDone (s : State) : Host.Outcome State Fault Refusal := live (fun s => s.syncCopyDone) s

/-- An entry that shows a state of SYNC_STATE (R418): of channels, loops, repetitive slots, triggers, axes or lunes. KEEP entries have
crossed in the copy (R417). -/
def syncKey (key : Nat) : Bool :=
  let ix := key / 256
  let within := fun (a b : Nat) => decide (a ≤ ix) && decide (ix < b)
  (within 0x4000 0x5000 || within 0x5000 0x5E00 || within 0x7100 0x7140 || within 0x7800 0x7A00 || within 0xB000 0xB800) &&
    !partLocal key && (match Dict.find key with | some r => !r.keep | none => false)

/-- A syncing part compares its digest with the active part's (R418). -/
def State.syncCompare (s : State) (digest : Nat) : State :=
  let s := { s with tw := { s.tw with wanted := none } }
  if s.rd K.NODE_DIGEST = digest then
    let s := s.wr K.TWIN_SYNC_STATE 3
    { s with tw := { s.tw with agreed := true } }
  else s.raise 0xF3 0x00E8 3 0 (s.twinData (s.rd K.TWIN_EPOCH) + 256)

/-- SYNC_STATE (R418): the state of every unit is taken, and the digests are compared once the part's own is CURRENT (R85). -/
def State.syncState (s : State) (digest : Nat) (b : SyncBlock) : State :=
  if s.role ≠ Role.syncing ∨ s.rd K.TWIN_SYNC_STATE ≠ 2 then s
  else
    let s := { s with od := replaceKeys s.od syncKey b.od }
    let s := { s with chans := b.chans, lunes := b.lunes, loops := b.loops }
    let s := { s with reps := b.reps, trig := b.trig, axes := b.axes }
    if s.rd K.NODE_DIGEST_STATE = 0 then s.syncCompare digest else { s with tw := { s.tw with wanted := some digest } }

/-- The comparison that has waited for the part's own digest (R85, R418). -/
def State.syncWait (s : State) : State :=
  match s.tw.wanted with
  | some d => if s.role = Role.syncing ∧ s.rd K.NODE_DIGEST_STATE = 0 then s.syncCompare d else s
  | none => s

/-- SYNC_STATE (R418). -/
def execSyncState (p : PMsg) (digest : BitVec 64) (b : SyncBlock) (s : State) : Host.Outcome State Fault Refusal :=
  live (fun s => s.partnerIn p 0x0041 (fun s => s.syncState digest.toNat b)) s

/-- The sync is over as the next layer starts (R418). -/
def State.syncDone (s : State) : State :=
  if s.role = Role.syncing ∧ s.tw.agreed then s.enterStandby.raise 0xF2 0x00E6 4 0 (s.twinData (s.rd K.TWIN_EPOCH)) else s

/-- PARTNER_DIGEST (R423). -/
def execPartnerDigest (p : PMsg) (digest view : BitVec 64) (nodes : List (BitVec 8)) (s : State) : Host.Outcome State Fault Refusal :=
  live (fun s => s.partnerIn p 0x0050 (fun s =>
    let states := nodes.map (·.toNat)
    let same := s.tw.partnerDigest == some (digest.toNat, states) && s.rd K.FLEET_PARTNER_VIEW == view.toNat
    let s := { s with tw := { s.tw with partnerDigest := some (digest.toNat, states) } }
    let s := (s.wr K.FLEET_PARTNER_VIEW view.toNat).nodeSeen s.partnerNode digest.toNat
    let s := if s.role ≠ Role.active ∧ s.rd K.TWIN_PARTNER_ROLE = Role.active then s.wr K.FLEET_DIGEST view.toNat else s
    if same then s else s.ownDigest.compareFleet false)) s

/-- Step 4 of a close for a twin pair (R418, R420): an active part sends the state block to a syncing partner, and an active secondary
hands over when reversion is due. -/
def State.twinClose (s : State) (idle : Bool) : State :=
  let partner := s.rd K.TWIN_PARTNER_ROLE
  let left := s.rd K.TWIN_HOLDOFF_LEFT
  let s := if left = 0 ∨ idle then s else s.wr K.TWIN_HOLDOFF_LEFT (left - 1)
  if s.role ≠ Role.active ∨ idle then s
  else if partner = Role.syncing ∧ s.rd K.TWIN_SYNC_STATE = 2 then s.sendPartner 0x0041 (toLE 8 (s.rd K.NODE_DIGEST))
  else if partner ≠ Role.standby ∨ s.rd K.TWIN_STRAP = 0 ∨ left ≠ 0 then s
  else if s.rd K.FLEET_STATE = 1 ∨ s.rd K.TWIN_REVERT_INHIBIT = 1 then s.raise 0xF0 0x00E7 6 0 (s.twinData (s.rd K.TWIN_EPOCH))
  else
    let t := s.tm.tick + 64
    ({ s with tw := { s.tw with handoverAt := some t } }).sendPartner 0x0051 (toLE 8 (s.pair t))

/-- HANDOVER (R420). -/
def execHandover (p : PMsg) (effect : BitVec 64) (s : State) : Host.Outcome State Fault Refusal :=
  live (fun s => s.partnerIn p 0x0051 (fun s =>
    if s.role = Role.standby ∧ s.rd K.TWIN_STRAP = 0 then { s with tw := { s.tw with handoverAt := some (s.unpair effect.toNat) } }
    else s)) s

/-- HANDOVER_EFFECT (R420): the active part enters STANDBY, the standby ACTIVE. -/
def State.handoverEffect (s : State) : State :=
  match s.tw.handoverAt with
  | none => s
  | some t =>
    if s.tm.tick < t then s
    else if s.role = Role.active then s.enterStandby
    else if s.role = Role.standby then s.enterActive
    else { s with tw := { s.tw with handoverAt := none } }

/-- HANDOVER_EFFECT (R420). -/
def execHandoverEffect (s : State) : Host.Outcome State Fault Refusal := live (fun s => s.handoverEffect) s

/-- HOLD (R424). -/
def execHold (p : PMsg) (v : BitVec 8) (s : State) : Host.Outcome State Fault Refusal :=
  live (fun s => s.partnerIn p 0x0052 (fun s => if s.role = Role.active then s else s.wr K.DIGEST_HOLD (v.toNat % 2))) s

/-- DIGEST_REQUEST_TIMEOUT (R422): a request is unanswered for 100 us on an UP link. -/
def State.digestTimeout (s : State) (l : Nat) : State :=
  match (s.lane l).digestAt with
  | some t =>
    if s.laneUp l ∧ t + 10000 ≤ s.tm.tick then
      (s.setLane l { s.lane l with digestAt := none }).wr (K.FLEET_NODE_STATE (l + 2)) 2
    else s
  | none => s

/-- DIGEST_REQUEST_TIMEOUT (R422). -/
def execDigestRequestTimeout (l : Fin 36) (s : State) : Host.Outcome State Fault Refusal := live (fun s => s.digestTimeout l) s

/-- Asking every head, sensor and camera that is UP for its digest (R423). -/
def State.askDigests (s : State) : State :=
  (List.range 36).foldl (fun s l =>
    if s.laneUp l then (s.setLane l { s.lane l with digestAt := some s.tm.tick }).queueMsg l 0x06 [] else s) s

/-- Every request has been answered or has run out (R423). -/
def State.digestsIn (s : State) : Bool := (List.range 36).all fun l => (s.lane l).digestAt.isNone

/-- A write of DIGEST_HOLD_RELEASE (R424, R427). -/
def digestHoldReleaseEff (_v : Nat) (s : State) : Nat × State :=
  if s.rd K.DIGEST_HOLD = 0 then (Ans.refused, s) else (Ans.ok, s.setDigestHold 0)

/-- DIGEST_HOLD_RELEASE (R424). -/
def execDigestHoldRelease (m : Msg) (s : State) : Host.Outcome State Fault Refusal :=
  writeCmd m K.DIGEST_HOLD_RELEASE 1 1 digestHoldReleaseEff s

end Sys2Proof.Machine
end

