-- ==== Sys2Proof/Machine/Cycle.lean ====
section
/-! DEFINITION. The layer cycle as the device drives it: the start of a layer (R26, R142, R320), the actions of CLOSE (R29), and the
idle close (R466). -/

namespace Sys2Proof.Machine

/-- A pending layer may not start: a configuration-digest hold, the level T3 or a hard cutoff (R26, R485). -/
def State.startBlocked (s : State) : Bool := s.rd K.DIGEST_HOLD == 1 || s.rd K.DT_LEVEL == 3 || s.rd K.DT_CUTOFF != 0

/-- The actions of CLOSE are over, and the layer that follows may begin on its tick. -/
abbrev closeOver : Nat := 7

/-- The start of the pending layer is due (R26, R485). -/
def State.startDue (s : State) : Bool :=
  s.layer.pend.isSome && decide (s.layer.startAt ≤ s.tm.tick) &&
    (s.phase == Phase.idle || s.phase == Phase.held || (s.phase == Phase.close && s.layer.closeStep == closeOver))

/-- The counters of a channel that return to 0 at each layer start (R172, R228, R248, R251, R275). -/
def layerCounters (n : Nat) : List (Nat × Nat) :=
  [(K.CS_CHORDS n, 0), (K.CS_CLAIMED n, 0), (K.CS_POSTED n, 0), (K.CS_DWELL_HOLDS n, 0), (K.CS_DWELL_FORCED n, 0),
   (K.CS_REORDERED n, 0), (K.CS_WAIT_LATE n, 0), (K.BC_SHARE_WAITS n, 0), (K.BC_SHARE_WAIT_SAMPLES n, 0),
   (K.BC_SKIPPED_REGION n, 0), (K.RP_RECORDED n, 0), (K.RP_DONE n, 0), (K.RP_FAILED n, 0), (K.RP_DROPPED n, 0), (K.RP_STATE n, 0),
   (K.FX_PASS n, 0), (K.BC_FF_MIN_G n, 16384)]

/-- Every parameter of a sequencer takes its start value (R161). -/
def State.startParams (s : State) (n : Nat) : State :=
  s.wrs [(K.CS_MARK_SPEED n, s.rd (K.CS_START_MARK_SPEED n)), (K.CS_JUMP_SPEED n, s.rd (K.CS_START_JUMP_SPEED n)),
    (K.CS_FOCUS_OFFSET n, s.rd (K.CS_START_FOCUS_OFFSET n)), (K.CS_POWER_SCALE n, s.rd (K.CS_START_POWER_SCALE n)),
    (K.CS_DWELL_LIMIT n, s.rd (K.CS_START_DWELL_LIMIT n)), (K.CS_DWELL_TIMEOUT n, s.rd (K.CS_START_DWELL_TIMEOUT n)),
    (K.CS_POOL_TARGET n, s.rd (K.CS_START_POOL_TARGET n))]

/-- Before the first command of a layer: a LAYER breakpoint hits, and a pending halt holds the channel (R515, R517). -/
def State.startHalts (s : State) (n layer : Nat) : State :=
  let s := s.breakHits n (s.breaksAt n 2 (fun v => v == layer))
  if (s.chan n).haltAt.isNone then s
  else
    let pos := s.lastLatched n
    let s := if (s.chan n).run.isEmpty then s
      else s.setChan n { s.chan n with px := pos.1, py := pos.2, nx := pos.1, ny := pos.2 }
    s.holdDebug n

/-- An ARMED channel of the layer begins its program (R142). -/
def State.joinLayer (s : State) (n : Nat) (d : Desc) : State :=
  let c := s.chan n
  let s := s.setChan n { c with member := true, wait := .none, released := none, cand := none, decodes := 0, notBefore := 0,
                                inRun := false, brokeAt := none, refused := none, group := [], groupEnd := none, groupOn := false, groupPassed := 0, walk := none }
  let s := (s.setCursor n { pc := d.entries.getD n 0, ox := 0, oy := 0, stack := [] }).startParams n
  let s := (s.setTc n { s.tc n with shortAt := [] }).countBeats n 1
  let s := s.startHalts n d.layer
  if s.rd (K.BC_STATE n) = Bc.armed then
    ((s.wrs [(K.CS_ACTIVITY n, 1), (K.CS_HOLD_CAUSE n, 0)]).setBc n Bc.run).fetchCheck n
  else s

/-- A channel at the start of a layer (R142). -/
def State.startChan (s : State) (d : Desc) (n : Nat) : State :=
  let s := s.setChan n { s.chan n with member := false, reached := false, repairs := [], repairNext := 0 }
  let s := (s.wrs (layerCounters n)).trimWindow n
  if !d.channels.testBit n then s
  else if s.rd (K.BC_STATE n) = Bc.armed then (s.joinLayer n d).syncLive n
  else s.raise (srcSeq n) 0x0003 3 n 0

/-- The blade line at the start of a recoat (R216, R218, R219). -/
def State.startBlade (s : State) : State :=
  let b := s.bladeNow
  let st := if s.rd K.BED_RCSYNC_WAIT = 0 ∧ s.layer.aligned then 2 else 1
  let s := { s with layer := { s.layer with rcSeen := false } }
  ((s.wrS 32 K.BED_BLADE_POS b).wr K.BED_BLADE_STATE st).stallFrom b

/-- The recoater move of the descriptor begins (R140, R320). -/
def State.startMove (s : State) (d : Desc) : State :=
  if d.preLoop = 0 then ({ s with layer := { s.layer with stage := 2 } }).putSetpoint d.recoatLoop d.recoatTarget
  else ({ s with layer := { s.layer with stage := 1 } }).putSetpoint d.preLoop d.preTarget

/-- What belongs to a layer as a whole at its start: its number, the counters of the lunes and of the lattice, the decay time. -/
def State.startNumbers (s : State) (d : Desc) : State :=
  let s := { s with layer := { s.layer with cur := some d, pend := none, closeStep := 0, lastLoss := none } }
  let s := s.wrs [(K.LAYER_NUMBER, d.layer), (K.LAYER_PENDING, 0), (K.LAT_DECAY_TAU, d.tau), (K.LAT_OVERHEAT_CELLS, 0),
                  (K.LAT_MISSED_CELLS, 0)]
  let s := if s.rd K.LAT_ENABLE = 1 then s else { s with lat := { s.lat with layersOff := s.lat.layersOff + 1 } }
  lunesAll.foldl (fun s l => s.wrs [(K.LUNE_GRANTS l, 0), (K.LUNE_ORPHANED l, 0)]) s

/-- LAYER_START (R26): the pending layer begins in RECOAT, or waits in HELD. -/
def State.layerStart (s : State) : State :=
  match s.layer.pend with
  | none => s
  | some d =>
    if !s.startDue then s
    else if s.startBlocked then (if s.phase = Phase.held then s else s.setPhase Phase.held)
    else
      let s := (s.setPhase Phase.recoat).startNumbers d
      let s := (List.range 16).foldl (fun (s : State) n => s.startChan d n) s
      (s.startBlade.startMove d).syncDone

/-- LAYER_START (R26). -/
def execLayerStart (s : State) : Host.Outcome State Fault Refusal := live (fun s => s.layerStart) s

/-- Every repair list has finished (R28). -/
def State.repairsOver (s : State) : Bool :=
  decide (s.layer.closeAt ≤ s.tm.tick) && (List.range 16).all fun n =>
    (s.rd (K.RP_STATE n) == 0 || s.rd (K.RP_STATE n) == 3)

/-- CLOSE ends for a channel: from RUN it returns to ARMED (R142). -/
def State.rearmChan (s : State) (n : Nat) : State :=
  if s.rd (K.BC_STATE n) = Bc.run then
    ((s.setChan n { s.chan n with wait := .none, released := none }).wr (K.CS_ACTIVITY n) 0).setBc n Bc.armed
  else s

/-- CLOSE has ended (R26, R29): the pending layer starts on the next tick or is held; with none pending the phase is IDLE. -/
def State.closeEnd (s : State) : State :=
  let s := if s.layer.idleClose then s else (List.range 16).foldl (fun (s : State) n => s.rearmChan n) s
  let pend := s.layer.pend.isSome
  let s := { s with layer := { s.layer with idleClose := false, closeStep := if pend then closeOver else 0,
                                            startAt := if pend then s.tm.tick + 1 else s.layer.startAt } }
  if !pend then s.setPhase Phase.idle else if s.startBlocked then s.setPhase Phase.held else s

/-- Going to the next action of CLOSE. -/
def State.closeTo (s : State) (k : Nat) : State := { s with layer := { s.layer with closeStep := k } }

/-- Action 1 of CLOSE (R29): the layer-close record is raised, and the next action waits until it is in the ring. With the writer
off, or a ring that is not mapped, there is no ring to wait for. -/
def State.closeSeal (s : State) : State :=
  match s.layer.closeSeal with
  | none =>
    let id := s.ev.nextId
    let s := s.sealNow
    { s with layer := { s.layer with closeSeal := some id } }
  | some _ => s

/-- The layer-close record has been written (R29). -/
def State.sealWritten (s : State) : Bool :=
  match s.layer.closeSeal with
  | none => true
  | some id =>
    s.rd K.JOURNAL_ENABLE == 0 || !(s.ev.opened.any (fun e => e.id == id) || s.jr.buf.any (fun r => r.2.id == id)) || !s.ringMapped

/-- The actions of CLOSE from the present one on, each after the one before has finished (R29). Action 2 is over when no head table
switch is left, action 3 begins when the part's own digest is current (R85), its collection of action 3 when every answer has come or run out, action 4 when a handover has taken effect. -/
def State.closeGo : Nat → State → State
  | 0, s => s
  | f + 1, s =>
    match s.layer.closeStep with
    | 1 =>
      let s := s.closeSeal
      if !s.sealWritten then s
      else State.closeGo f (({ s with layer := { s.layer with closeSeal := none } }).closeTo 2)
    | 2 => State.closeGo f (s.installStep.closeTo 3)
    | 3 =>
      if !s.cal.switches.isEmpty ∨ s.rd K.NODE_DIGEST_STATE ≠ 0 then s
      else State.closeGo f ((s.driveNodes.askDigests).closeTo 4)
    | 4 =>
      if !s.digestsIn then s
      else State.closeGo f ((s.ownDigest.sendDigest.compareFleet true).closeTo 5)
    | 5 => State.closeGo f ((if s.layer.idleClose then s else s.twinClose false).closeTo 6)
    | 6 => if s.tw.handoverAt.isSome then s else s.closeEnd
    | _ => s

/-- LAYER_CLOSE_PHASE (R28, R29): REPAIR ends in CLOSE once every repair list has finished, and the actions of CLOSE go on. -/
def State.layerClosePhase (s : State) : State :=
  if s.phase = Phase.repair ∧ s.repairsOver then
    let s := s.setPhase Phase.close
    State.closeGo 8 { s with layer := { s.layer with closeStep := 1, idleClose := false } }
  else if s.phase = Phase.close then State.closeGo 8 s
  else s

/-- LAYER_CLOSE_PHASE (R29). -/
def execLayerClosePhase (s : State) : Host.Outcome State Fault Refusal := live (fun s => s.layerClosePhase) s

/-- IDLE_CLOSE (R466): an installation concurred in IDLE runs the actions of a close but the fourth; a layer that has started in
between installs at its own close. -/
def State.idleCloseRun (s : State) : State :=
  match s.layer.idleDue with
  | some t =>
    if s.tm.tick < t then s
    else
      let s := { s with layer := { s.layer with idleDue := none } }
      if s.phase = Phase.idle then
        let s := s.setPhase Phase.close
        State.closeGo 8 { s with layer := { s.layer with closeStep := 1, idleClose := true } }
      else s
  | none => if s.layer.idleClose ∧ s.phase = Phase.close then State.closeGo 8 s else s

/-- IDLE_CLOSE (R466). -/
def execIdleClose (s : State) : Host.Outcome State Fault Refusal := live (fun s => s.idleCloseRun) s

end Sys2Proof.Machine
end

