-- ==== Sys2Proof/Machine/Streams.lean ====
section
/-! DEFINITION. Stream endpoints (R107 to R111), the beats of a transfer (R128), and the end of a parked transfer (R131). -/

namespace Sys2Proof.Machine

/-- An endpoint that no stream uses. -/
def Stream.init : Stream := { ranges := [], crc := 0xFFFFFFFF, ackSince := none, port := 0 }

/-- Endpoint `e`'s progress. -/
def State.stream (s : State) (e : Nat) : Stream := Tab.get (fun _ => Stream.init) s.streams e

/-- Setting endpoint `e`'s progress. -/
def State.setStream (s : State) (e : Nat) (x : Stream) : State :=
  { s with streams := Tab.set (fun _ => Stream.init) s.streams e x }

/-- A STREAM_ACK to the session that opened the stream, while it is open (R111). -/
def State.streamAck (s : State) (e : Nat) : State :=
  let x := s.stream e
  let s := s.setStream e { x with ackSince := none }
  if (s.session (s.rd (K.STREAM_SESSION e))).isNone then s
  else s.sendPort x.port (s.message 0xA0 0 (s.rd (K.STREAM_SESSION e)) 0
    (toLE 1 e ++ toLE 1 (s.rd (K.STREAM_STATE e)) ++ toLE 2 0 ++ toLE 4 (s.rd (K.STREAM_MARK e)) ++
      toLE 4 (s.rd (K.STREAM_DROPPED e)) ++ toLE 4 0))

/-- A stream leaves OPEN: 2 COMPLETE, 3 ABORTED, 4 FAULT, with its cause and event (R107, R525). -/
def State.endStream (s : State) (e st cause : Nat) : State :=
  let s := s.wrs [(K.STREAM_STATE e, st), (K.STREAM_CAUSE e, cause), (K.STREAM_END_STAMP e, s.now)]
  let mark := s.rd (K.STREAM_MARK e) * 2 ^ 32
  if st = 4 then s.raise 0xFA 0x0121 3 e (e + cause * 2 ^ 8 + mark)
  else s.raise 0xFA 0x0120 4 e (e + st * 2 ^ 8 + cause * 2 ^ 16 + mark)

/-- The context is parked on a beat of stream `e`. -/
def State.parkedOn (s : State) (tc e : Nat) : Bool :=
  s.rd (K.TC_STATE tc) == 2 && (match (s.tc tc).job with
    | .stream e' _ _ => e' == e
    | _ => false)

/-- Putting a written byte range into a list of disjoint ranges in ascending order. -/
def addRange (a b : Nat) : List (Nat × Nat) → List (Nat × Nat)
  | [] => [(a, b)]
  | (c, d) :: t =>
    if b < c then (a, b) :: (c, d) :: t
    else if d < a then (c, d) :: addRange a b t
    else addRange (min a c) (max b d) t

/-- MARK advances over the ranges with no gap below (R109), the CRC with it (R110): the new MARK and what is left. -/
def takeRanges (mark : Nat) : List (Nat × Nat) → Nat × List (Nat × Nat)
  | [] => (mark, [])
  | (a, b) :: t => if a ≤ mark then takeRanges (max mark b) t else (mark, (a, b) :: t)

/-- The CRC register over the bytes MARK passes, read back from where they were written. -/
def State.crcOver (s : State) (tc addr n crc : Nat) : Nat :=
  crc32cRun crc ((List.range n).map fun i => ((s.translate tc (addr + i)).map s.physByte).getD 0)

/-- Advancing MARK after a write, with the acknowledgement at a multiple of 64 KiB (R109, R110, R111). -/
def State.advanceMark (s : State) (e : Nat) : State :=
  let x := s.stream e
  let mark := s.rd (K.STREAM_MARK e)
  let r := takeRanges mark x.ranges
  let crc := s.crcOver (s.rd (K.STREAM_TC e)) (s.rd (K.STREAM_BASE e) + mark) (r.1 - mark) x.crc
  let s := (s.setStream e { x with ranges := r.2, crc := crc }).wr (K.STREAM_MARK e) r.1
  if mark / 65536 < r.1 / 65536 then s.streamAck e else s

/-- STREAM_END (R110): MARK has reached the length. -/
def State.streamEnd (s : State) (e : Nat) : State :=
  if s.rd (K.STREAM_STATE e) ≠ 1 ∨ s.rd (K.STREAM_MARK e) ≠ s.rd (K.STREAM_LENGTH e) then s
  else if (s.stream e).crc ^^^ 0xFFFFFFFF = s.rd (K.STREAM_CRC e) then (s.endStream e 2 0).streamAck e
  else (s.endStream e 4 1).streamAck e

/-- One beat of a stream whose page takes it (R110, R136): written and counted, or refused by a lock, which ends the stream. -/
def State.streamBeat (s : State) (tc e addr : Nat) (now : List Byte) : State :=
  match s.firstLocked tc addr 1 with
  | some pp => ((s.lockEvent tc pp).endStream e 4 2).streamAck e
  | none =>
    let s := (s.writeMem tc addr now).countBeats tc 1
    let off := addr - s.rd (K.STREAM_BASE e)
    let x := s.stream e
    (s.setStream e { x with ranges := addRange off (off + now.length) x.ranges }).advanceMark e

/-- Writing the bytes of a stream beat by beat (R110, R128, R130): a faulting beat parks the context with the rest. -/
def streamBeats (tc e : Nat) : Nat → Nat → List Byte → State → State
  | 0, _, _, s => s
  | n + 1, addr, data, s =>
    if data.isEmpty ∨ s.rd (K.STREAM_STATE e) ≠ 1 then s
    else match s.beatFault tc addr true with
      | some kind => (s.parkJob tc (.stream e addr data)).park tc kind (addr / 64 * 64) true
      | none =>
        let k := 64 - addr % 64
        streamBeats tc e n (addr + min k data.length) (data.drop k) (s.streamBeat tc e addr (data.take k))

/-- The transfer in hand has moved a beat: what is left of it stays in hand, or the next one is taken up. -/
def State.jobOn (s : State) (tc : Nat) (rest : List Byte) (j : Job) : State :=
  if rest.isEmpty then s.nextJob tc else s.setTc tc { s.tc tc with job := j }

/-- The rest of a transfer that a resume has released moves by one beat (R128). -/
def State.jobBeat (s : State) (tc : Nat) : State :=
  match (s.tc tc).job with
  | .stream e addr data =>
    if s.rd (K.STREAM_STATE e) ≠ 1 ∨ s.rd (K.STREAM_TC e) ≠ tc then s.nextJob tc
    else match s.beatFault tc addr true with
      | some kind => s.park tc kind (addr / 64 * 64) true
      | none =>
        let k := 64 - addr % 64
        let s := s.streamBeat tc e addr (data.take k)
        if s.rd (K.STREAM_STATE e) ≠ 1 then s.nextJob tc
        else (s.jobOn tc (data.drop k) (.stream e (addr + k) (data.drop k))).streamEnd e
  | .write addr data =>
    match s.beatFault tc addr true with
    | some kind => s.park tc kind (addr / 64 * 64) true
    | none =>
      let k := 64 - addr % 64
      let s := match s.firstLocked tc addr 1 with
        | some pp => s.lockEvent tc pp
        | none => (s.writeMem tc addr (data.take k)).countBeats tc 1
      s.jobOn tc (data.drop k) (.write (addr + k) (data.drop k))
  | .read addr =>
    match s.beatFault tc addr false with
    | some kind => s.park tc kind (addr / 64 * 64) false
    | none => (s.countBeats tc 1).nextJob tc
  | .none => s.nextJob tc

/-- DMA_BEAT (R127, R128): of the waiting contexts that are not parked one wins the beat. -/
def State.dmaBeat (s : State) (waiting : List (Fin 192)) : State :=
  let s := s.resumeDue
  match s.arbWinner ((waiting.map (·.val)).filter (fun tc => s.rd (K.TC_STATE tc) != 2)) with
  | none => s
  | some tc => if s.rd (K.TC_STATE tc) = 1 then s.jobBeat tc else s.countBeats tc 1

/-- DMA_BEAT (R128). -/
def execDmaBeat (waiting : List (Fin 192)) (s : State) : Host.Outcome State Fault Refusal :=
  live (fun s => s.dmaBeat waiting) s

/-- The open streams that transfers of a context belong to. -/
def State.jobStreams (s : State) (tc : Nat) : List Nat :=
  (((s.tc tc).job :: (s.tc tc).more).filterMap fun j => match j with
    | .stream e _ _ => if s.rd (K.STREAM_STATE e) = 1 ∧ s.rd (K.STREAM_TC e) = tc then some e else none
    | _ => none).eraseDups

/-- What a unit loses when the transfer in hand of its context is abandoned (R131): the held record or the pixels it was writing, the
load it was making; a snapshot tile is captured anew. -/
def State.abandon (s : State) (tc : Nat) : State :=
  let s := if 62 ≤ tc ∧ tc < 64 then { s with cal := { s.cal with load := none } } else s
  let s := if tc = s.rd K.LAT_SNAP_TC then { s with lat := { s.lat with snapHeld := false } } else s
  if tc < 32 ∨ 56 ≤ tc ∨ (s.tc tc).part.isNone then s
  else
    let clear := fun (f : PFrame) => { f with pixels := [] }
    let lose := fun (x : Pipe) =>
      if x.held.isEmpty then { x with frame := x.frame.map clear, closing := x.closing.map clear } else { x with held := x.held.drop 1 }
    { s with pipes := s.pipes.map fun e => if e.1 = tc - 32 then (e.1, lose e.2) else e }

/-- Ending the transfer a host has abandoned, with its stream (R107, R131). -/
def tcAbortEff (tc : Nat) (s : State) : Nat × State :=
  if s.rd (K.TC_STATE tc) ≠ 2 then (Ans.refused, s)
  else if !((32 ≤ tc && decide (tc ≤ 55)) || decide (62 ≤ tc)) then (Ans.refused, s)
  else (Ans.ok, (s.jobStreams tc).foldl (fun s e => (s.endStream e 3 4).streamAck e) ((s.abandon tc).idleTc tc))

/-- A write of TC_RESUME (R131). -/
def tcResumeWriteEff (tc v : Nat) (s : State) : Nat × State :=
  if v = 1 then tcResumeEff tc s else tcAbortEff tc s

/-- TC_RESUME (R131). -/
def execTcResume (m : Msg) (tc : Fin 192) (s : State) : Host.Outcome State Fault Refusal :=
  writeCmd m (K.TC_RESUME tc) 1 1 (tcResumeWriteEff tc) s

/-- TC_ABORT (R131). -/
def execTcAbort (m : Msg) (tc : Fin 192) (s : State) : Host.Outcome State Fault Refusal :=
  writeCmd m (K.TC_RESUME tc) 1 2 (tcResumeWriteEff tc) s

/-- A write of STREAM_CONTROL by a session (R108). -/
def streamControlEff (session port e v : Nat) (s : State) : Nat × State :=
  let st := s.rd (K.STREAM_STATE e)
  if v = 1 then
    if st = 1 ∨ s.rd (K.STREAM_LENGTH e) = 0 then (Ans.refused, s)
    else
      let s := s.setStream e { Stream.init with port := port }
      (Ans.ok, (s.wrs [(K.STREAM_STATE e, 1), (K.STREAM_MARK e, 0), (K.STREAM_DROPPED e, 0), (K.STREAM_CAUSE e, 0),
        (K.STREAM_SESSION e, session)]).streamAck e)
  else if st = 1 then
    let tc := s.rd (K.STREAM_TC e)
    if s.parkedOn tc e then (Ans.ok, ((s.nextJob tc).endStream e 3 4).streamAck e)
    else (Ans.ok, (s.endStream e 3 0).streamAck e)
  else if st = 2 then (Ans.alreadyComplete, s)
  else (Ans.refused, s)

/-- STREAM_OPEN (R108). -/
def execStreamOpen (m : Msg) (e : Fin 64) (s : State) : Host.Outcome State Fault Refusal :=
  writeCmd m (K.STREAM_CONTROL e) 1 1 (streamControlEff m.session.toNat m.port e) s

/-- STREAM_ABORT (R108). -/
def execStreamAbort (m : Msg) (e : Fin 64) (s : State) : Host.Outcome State Fault Refusal :=
  writeCmd m (K.STREAM_CONTROL e) 1 2 (streamControlEff m.session.toNat m.port e) s

/-- A frame for an endpoint that is dropped and counted there (R109). -/
def State.dropStream (s : State) (e : Nat) : State := s.inc (K.STREAM_DROPPED e)

/-- The bytes of a frame reach an open stream (R109, R110). -/
def State.streamFrame (s : State) (session port e off : Nat) (data : List Byte) : State :=
  if s.rd (K.STREAM_STATE e) ≠ 1 ∨ s.rd (K.STREAM_SESSION e) ≠ session then s.dropStream e
  else
    let x := s.stream e
    let s := s.setStream e { x with port := port, ackSince := some (x.ackSince.getD s.tm.tick) }
    let tc := s.rd (K.STREAM_TC e)
    let mark := s.rd (K.STREAM_MARK e)
    if s.rd (K.STREAM_LENGTH e) < off + data.length ∨ mark + 1048576 ≤ off ∨ s.rd (K.TC_STATE tc) = 2 then s.dropStream e
    else
      let data := data.drop (mark - off)
      let off := max mark off
      let s := streamBeats tc e (data.length / 64 + 3) (s.rd (K.STREAM_BASE e) + off) data s
      s.streamEnd e

/-- A STREAM_DATA frame (R109): steps 1 to 4 of R97, the endpoint, then the stream. -/
def State.streamData (s : State) (m : Msg) (endpoint off : Nat) (data : List Byte) : State :=
  let p := m.port.val
  let fit := m.length.toNat == 8 + data.length && decide (1 ≤ data.length) && decide (data.length ≤ 1476)
  if 2 ≤ p ∨ !s.frameOk p m.frame ∨ m.version ≠ 1 ∨ !fit ∨ !msgFits m ∨ !msgClean m ∨ m.seq ≠ 0 then s.dropFrame p
  else match s.session m.session.toNat with
  | none => s.dropFrame p
  | some ss =>
    let s := s.updSession ss.num (fun x => { x with lastTick := s.tm.tick, lastPort := p })
    if 64 ≤ endpoint then s.dropFrame p
    else
      let s := s.inc (K.RX_FRAMES p)
      let s := s.mirrorMemory (s.rd (K.STREAM_TC endpoint)) (s.rd (K.STREAM_BASE endpoint) + off) data
      s.streamFrame ss.num p endpoint off data

/-- STREAM_DATA (R109). -/
def execStreamData (m : Msg) (endpoint : BitVec 8) (offset : BitVec 32) (data : List Byte) (s : State) :
    Host.Outcome State Fault Refusal :=
  live (fun s => s.streamData m endpoint.toNat offset.toNat data) s

/-- STREAM_END (R110). -/
def execStreamEnd (e : Fin 64) (s : State) : Host.Outcome State Fault Refusal := live (fun s => s.streamEnd e) s

/-- STREAM_ACK_TIMEOUT (R111). -/
def State.ackTimeout (s : State) (e : Nat) : State :=
  match (s.stream e).ackSince with
  | some t => if t + 20000 ≤ s.tm.tick then s.streamAck e else s
  | none => s

/-- STREAM_ACK_TIMEOUT (R111). -/
def execStreamAckTimeout (e : Fin 64) (s : State) : Host.Outcome State Fault Refusal := live (fun s => s.ackTimeout e) s

end Sys2Proof.Machine
end

