-- ==== Sys2Proof/Machine/Sessions.lean ====
section
/-! DEFINITION. Sessions and the notice stream (R91, R99 to R106). -/

namespace Sys2Proof.Machine

/-- Taking a session out of a notice's addressees; one that has no addressee left goes (R101, R104). -/
def Notice.leave (num : Nat) (n : Notice) : Option Notice :=
  if !n.addr.contains num then some n
  else if n.addr == [num] then none
  else some { n with addr := n.addr.filter (· != num), sent := n.sent.filter (fun x => x.1 != num) }

/-- Removing a session from the addressees of every notice; an entry every other addressee has acknowledged is freed too (R101, R104). -/
def State.leaveNotices (s : State) (num : Nat) : State :=
  s.takeQueue ((s.ev.queue.filterMap (Notice.leave num)).filter (fun n => !s.acked n))

/-- Aborting the streams a closing session has opened; no acknowledgement is sent (R101). -/
def State.abortStreams (s : State) (num : Nat) : State :=
  (List.range 64).foldl (fun s e =>
    if s.rd (K.STREAM_STATE e) = 1 ∧ s.rd (K.STREAM_SESSION e) = num then s.endStream e 3 3 else s) s

/-- Closing a session with a cause (R101). -/
def State.closeSession (s : State) (num cause : Nat) : State :=
  if (s.session num).isNone then s
  else
    let s := { s with sessions := s.sessions.filter (fun x => x.num != num) }
    let s := s.wr K.SESSIONS_OPEN s.sessions.length
    let s := (s.leaveNotices num).abortStreams num
    s.raise 0xF9 0x0151 6 0 (num + cause * 65536)

/-- A session number not in use, beginning at a free one (R99). -/
def State.freeNumber (s : State) (start : Nat) : Nat :=
  ((List.range (s.sessions.length + 1)).map (fun i => (start + i) % 65534 + 1)).find?
    (fun k => (s.session k).isNone) |>.getD 1

/-- Opening a session (R99). -/
def State.openNew (s : State) (port seq hostId credit : Nat) : State :=
  let (i, s) := s.draw
  let (j, s) := s.draw
  let num := s.freeNumber (Config.unstated i).toNat
  let nonce := (Config.nonce j).toNat
  let credit := min credit (s.rd K.NOTICE_CREDIT_MAX)
  let x : Session := { num := num, hostId := hostId, nonce := nonce, next := 1, credit := credit, ackSeq := 0, sentSeq := 0,
                       lastTick := s.tm.tick, lastPort := port, cache := [] }
  let s := { s with sessions := s.sessions ++ [x],
                    ev := { s.ev with queue := s.ev.queue.map (fun (n : Notice) => { n with addr := n.addr ++ [num] }) } }
  let s := s.wr K.SESSIONS_OPEN s.sessions.length
  let s := s.sendPort port (s.answerBytes num seq Ans.ok 0x01 s.now (toLE 16 nonce ++ toLE 2 credit ++ toLE 2 0))
  s.raise 0xF9 0x0150 4 0 num

/-- OPEN (R97, R99). -/
def State.openMsg (s : State) (m : Msg) (hostId credit : Nat) : State :=
  let p := m.port.val
  if 2 ≤ p ∨ !s.frameOk p m.frame then s.dropFrame p
  else
    let s := s.inc (K.RX_FRAMES p)
    let bad := fun (code : Nat) => s.sendPort p (s.answerBytes 0 m.seq.toNat code 0x01 s.now [])
    if m.version ≠ 1 then bad Ans.badVersion
    else if m.length ≠ 12 ∨ !msgFits m ∨ !msgClean m ∨ m.session ≠ 0 ∨ m.seq ≠ 0 then bad Ans.malformed
    else if !s.roleHeld m.role.toNat m.epoch.toNat then bad Ans.roleStale
    else match s.sessions.find? (fun x => x.hostId == hostId) with
      | some old => (s.closeSession old.num 2).openNew p 0 hostId credit
      | none =>
        if s.rd K.SESSION_LIMIT ≤ s.sessions.length then bad Ans.sessionLimit
        else s.openNew p 0 hostId credit

/-- OPEN (R99). -/
def execOpen (m : Msg) (hostId : BitVec 64) (credit : BitVec 16) (s : State) : Host.Outcome State Fault Refusal :=
  live (fun s => s.openMsg m hostId.toNat credit.toNat) s

/-- CLOSE (R101). -/
def execClose (m : Msg) (s : State) : Host.Outcome State Fault Refusal :=
  live (hostCmd m 0x02 0 (m.length == 0) (fun s => (some (Ans.ok, []), s.closeSession m.session.toNat 1))) s

/-- PING (R101). -/
def execPing (m : Msg) (s : State) : Host.Outcome State Fault Refusal :=
  live (hostCmd m 0x03 0 (m.length == 0) (fun s => (some (Ans.ok, []), s))) s

/-- NOTICE_ACK (R103): checked by steps 1 to 4 of R97 and never answered. -/
def State.noticeAck (s : State) (m : Msg) (ack credit : Nat) : State :=
  let p := m.port.val
  if 2 ≤ p ∨ !s.frameOk p m.frame ∨ m.version ≠ 1 ∨ m.length ≠ 8 ∨ !msgFits m ∨ !msgClean m ∨ m.seq ≠ 0 then s.dropFrame p
  else match s.session m.session.toNat with
  | none => s.dropFrame p
  | some ss =>
    let s := (s.inc (K.RX_FRAMES p)).updSession ss.num (fun x =>
      { x with lastTick := s.tm.tick, lastPort := p, ackSeq := min ack ss.sentSeq,
               credit := min credit (s.rd K.NOTICE_CREDIT_MAX) })
    s.freeNotices.pump

/-- NOTICE_ACK (R103). -/
def execNoticeAck (m : Msg) (ackSeq : BitVec 32) (credit : BitVec 16) (s : State) : Host.Outcome State Fault Refusal :=
  live (fun s => s.noticeAck m ackSeq.toNat credit.toNat) s

/-- NOTICE_RESEND (R103): the notice is sent again once its time has passed without an acknowledgement. -/
def State.noticeResend (s : State) (num number : Nat) : State :=
  match s.session num with
  | none => s
  | some ss =>
    if number ≤ ss.ackSeq then s
    else match s.ev.queue.find? (fun n => n.sent.any (fun x => x.1 == num && x.2.1 == number)) with
    | none => s
    | some n =>
      match n.sent.find? (fun x => x.1 == num && x.2.1 == number) with
      | none => s
      | some x =>
        if s.tm.tick < x.2.2 + s.rd K.NOTICE_RESEND * 100000 then s
        else
          let q := s.ev.queue.map (fun (k : Notice) =>
            { k with sent := k.sent.map (fun y => if y.1 == num && y.2.1 == number then (num, number, s.tm.tick) else y) })
          ({ s with ev := { s.ev with queue := q } }).sendNotice ss n number true

/-- NOTICE_RESEND (R103). -/
def execNoticeResend (session : BitVec 16) (number : BitVec 32) (s : State) : Host.Outcome State Fault Refusal :=
  live (fun s => s.noticeResend session.toNat number.toNat) s

/-- SESSION_TIMEOUT (R101): the silence has reached the value in force. -/
def State.sessionTimeout (s : State) (num : Nat) : State :=
  match s.session num with
  | none => s
  | some ss => if ss.lastTick + s.rd K.SESSION_TIMEOUT * 100000 ≤ s.tm.tick then s.closeSession num 3 else s

/-- SESSION_TIMEOUT (R101). -/
def execSessionTimeout (session : BitVec 16) (s : State) : Host.Outcome State Fault Refusal :=
  live (fun s => s.sessionTimeout session.toNat) s

/-- A kind code of R94. -/
def listedKind (k : Nat) : Bool :=
  [0x01, 0x02, 0x03, 0x04, 0x10, 0x11, 0x12, 0x13, 0x20, 0x30, 0x31, 0x80, 0xA0, 0xC0, 0xC1].contains k

/-- The frame carries an IEEE 1588 message that R112 ignores: one over UDP, by its port, or Signaling or Management, by its message
type (notes/assumptions/155). -/
def State.ignoredPtp (s : State) (p : Nat) (f : Frame) (kind : Nat) : Bool :=
  (s.ptpFrameOk p f [0x88F7] && (kind == 0x0C || kind == 0x0D)) ||
    (s.ptpFrameOk p f [0x0800, 0x86DD] && (f.udp == 319 || f.udp == 320))

/-- A frame of a kind its port does not take (R91, R97): an unlisted kind is answered on a host port after step 1, an IEEE 1588
message that R112 ignores is counted, and any other frame is dropped. -/
def State.badKind (s : State) (m : Msg) (kind : Nat) : State :=
  let p := m.port.val
  if s.ignoredPtp p m.frame kind then (s.inc (K.RX_FRAMES p)).inc (K.PTP_RX_IGNORED p)
  else if 2 ≤ p ∨ !s.frameOk p m.frame ∨ listedKind kind then s.dropFrame p
  else
    let s := s.inc (K.RX_FRAMES p)
    s.sendPort p (s.answerBytes 0 m.seq.toNat (if m.version ≠ 1 then Ans.badVersion else Ans.badKind) kind s.now [])

/-- BAD_KIND (R91). -/
def execBadKind (m : Msg) (kind : BitVec 8) (s : State) : Host.Outcome State Fault Refusal :=
  live (fun s => s.badKind m kind.toNat) s

end Sys2Proof.Machine
end

