-- ==== Sys2Proof/Machine/Guard.lean ====
section
/-! DEFINITION. Guarded changes (R430 to R440): party keys, staging, concurrence and expiry. -/

namespace Sys2Proof.Machine

/-- The class of a guarded entry (R430). -/
def guardClass (key : Nat) : Nat :=
  let ix := key / 256
  if ix = 0xA400 then 7
  else if ix = 0xA410 then 8
  else if ix = 0xA450 then 3
  else if ix = 0x7A30 then 4
  else if ix = 0x7E00 then 5
  else if ix = 0xC000 then 6
  else if ix % 256 = 0x80 then 2
  else if key % 256 = 1 then 0 else 1

/-- A party may stage changes of a class under a guard map (R431). -/
def mayStage (map cls party : Nat) : Bool := decide (party < 2) && map.testBit (2 * cls + party)

/-- The entry of party key slot `p`, and its check value (R448). -/
def partyKey (p : Nat) : Nat := K.PARTY_KEY_0 + p
def partyCheck (p : Nat) : Nat := K.PARTY_KCV_0 + p

/-- The 32 bytes of a key slot, when it is filled (R432). -/
def State.slotKey (s : State) (p : Nat) : Option (List Byte) :=
  if 2 ≤ p ∨ s.rd (partyKey p) = 0 then none else some (toLE 32 (s.rd (partyKey p)))

/-- An entry of a party key. -/
def keyEntry (key : Nat) : Bool := key == K.PARTY_KEY_0 || key == K.PARTY_KEY_1

/-- The proposals in the staging slots, with their slots. -/
def State.proposals (s : State) : List (Nat × Staged) := s.staged.filterMap fun e => e.2.map fun g => (e.1, g)

/-- The pending proposal for an entry. -/
def State.proposalFor (s : State) (key : Nat) : Option (Nat × Staged) := s.proposals.find? fun e => e.2.key == key

/-- The key under which a message is authenticated (R434, R436): in commissioning an empty slot's own proposal stands for it. -/
def State.authKey (s : State) (kind key party : Nat) (value : List Byte) : Option (List Byte) :=
  if kind = 0x12 ∧ party < 2 ∧ key = partyKey party ∧ (s.slotKey party).isNone then some value
  else match s.slotKey party with
    | some k => some k
    | none =>
      if !keyEntry key ∨ 2 ≤ party then none
      else match s.proposalFor (partyKey party) with
        | some e => if e.2.party = party then some e.2.value else none
        | none => none

/-- The authenticator input (R436): the change record, the proposal number and the nonce of the session. -/
def authInput (kind party key : Nat) (value : List Byte) (proposal nonce : Nat) : List Byte :=
  let ty := match Dict.find key with
    | some r => r.ty.code
    | none => 0
  toLE 1 kind ++ toLE 1 party ++ toLE 2 (key / 256) ++ toLE 1 key ++ toLE 1 ty ++ toLE 2 value.length ++ value ++
    toLE 4 proposal ++ toLE 16 nonce

/-- AUTH verifies (R436). -/
def State.authOk (s : State) (kind key party proposal session : Nat) (value auth : List Byte) : Bool :=
  match s.authKey kind key party value, s.session session with
  | some k, some x => (hmacSha256 k (authInput kind party key value proposal x.nonce)).take 16 == auth
  | _, _ => false

/-- The data of a guard event (R439, R452). -/
def guardData (key stager other proposal : Nat) : Nat :=
  key / 256 % 65536 + key % 256 * 2 ^ 16 + (stager * 16 + other) * 2 ^ 24 + proposal * 2 ^ 32

/-- Freeing a staging slot. -/
def State.freeStaged (s : State) (i : Nat) : State :=
  let s := { s with staged := Tab.set (fun _ => none) s.staged i none }
  s.wr K.GUARD_PENDING s.proposals.length

/-- A proposal is superseded (R437, R439). -/
def State.supersede (s : State) (e : Nat × Staged) : State :=
  (s.freeStaged e.1).raise 0xF4 0x00F3 6 e.1 (guardData e.2.key e.2.party 0 e.2.proposal)

/-- The masks of a value of IL_POLICY leave no permit without a pair (R443). -/
def policyCovers (v : Nat) : Bool := (octField 2 v 0 ||| octField 2 v 2 ||| octField 2 v 4 ||| octField 2 v 6) == 0xFFFF

/-- A value that its guarded entry never takes (R431, R433): an empty key, a class that nobody may stage, a bit above the map. -/
def guardRange (key v : Nat) : Bool :=
  if keyEntry key then v == 0
  else key == K.GUARD_MAP && (decide (2 ^ 18 ≤ v) || (List.range 9).any (fun c => v / 4 ^ c % 4 == 0))

/-- The condition of a guarded entry on its value (R433, R443, R465): the code of the first one that fails. -/
def State.guardCond (s : State) (key v : Nat) : Option Nat :=
  if keyEntry key then
    let other := if key = K.PARTY_KEY_0 then K.PARTY_KEY_1 else K.PARTY_KEY_0
    let pend : Bool := match s.proposalFor other with
      | some e => leNat e.2.value == v
      | none => false
    if s.rd other = v ∨ pend = true then some Ans.refused else none
  else if key = K.IL_POLICY then if policyCovers v then none else some Ans.refused
  else if key = K.CAL_INSTALL then if s.installOk v then none else some Ans.refused
  else none

/-- A STAGE of the proposed key of an empty slot by its own party (R434). -/
def State.commissions (s : State) (key party : Nat) : Bool :=
  decide (party < 2) && key == partyKey party && (s.slotKey party).isNone

/-- Step 9 of R72 for a STAGE (R437). -/
def State.stageCheck (s : State) (key party proposal v : Nat) : Option Nat :=
  let toEmpty : Bool := keyEntry key && s.rd key == 0
  if toEmpty ∧ !s.commissions key party then some Ans.refused
  else if !toEmpty ∧ !mayStage (s.rd K.GUARD_MAP) (guardClass key) party then some Ans.refused
  else if proposal ≤ s.rd K.GUARD_PROPOSAL_LAST then some Ans.refused
  else match s.guardCond key v with
    | some c => some c
    | none => if 8 ≤ s.proposals.length ∧ (s.proposalFor key).isNone then some Ans.refused else none

/-- A STAGE that has passed the checks of R97 (R437, R415). -/
def State.applyStage (s : State) (remote : Bool) (key party proposal session : Nat) (value : List Byte) : Nat × State :=
  let v := leNat value
  match s.writeCheck false key value.length v with
  | some c => (c, s)
  | none =>
    if guardRange key v then (Ans.outOfRange, s)
    else if !s.mayWrite remote key then (Ans.refused, s)
    else match s.stageCheck key party proposal v with
      | some c => (c, s)
      | none =>
        let s := match s.proposalFor key with
          | some e => s.supersede e
          | none => s
        let i := ((List.range 8).find? fun i => (Tab.get (fun _ => none) s.staged i).isNone).getD 0
        let g : Staged := { key := key, proposal := proposal, party := party, session := session, tick := s.tm.tick, stamp := s.now,
                            value := value }
        let s := { s with staged := Tab.set (fun _ => none) s.staged i (some g) }
        let s := s.wrs [(K.GUARD_PENDING, s.proposals.length), (K.GUARD_PROPOSAL_LAST, proposal)]
        (Ans.stagedCode, s.raise 0xF4 0x00F0 6 i (guardData key party 0 proposal))

/-- UNKEYED, PARTIAL or KEYED (R434). -/
def State.showKeys (s : State) : State :=
  s.wr K.GUARD_STATE ((if s.rd K.PARTY_KEY_0 = 0 then 0 else 1) + (if s.rd K.PARTY_KEY_1 = 0 then 0 else 1))

/-- The check value of a key (R432). -/
def keyCheck (k : List Byte) : Nat := leNat ((hmacSha256 k ("FPV-KCV".toList.map fun c => BitVec.ofNat 8 c.toNat)).take 8)

/-- The effective sector values of a channel (R227). -/
def State.sectorEff (s : State) (n : Nat) : State :=
  s.wrs [(K.BC_SECTOR_EFF_ANGLE n, max (s.rd (K.BC_SECTOR_ANGLE n)) (s.rd (K.BC_SECTOR_MIN_ANGLE n))),
         (K.BC_SECTOR_EFF_LENGTH n, max (s.rd (K.BC_SECTOR_LENGTH n)) (s.rd (K.BC_SECTOR_MIN_LENGTH n)))]

/-- State of interlock pair `p` (R443): 0 CLOSED, 1 OPEN, 2 DISCREPANT. -/
def State.pairState (s : State) (p : Nat) : Nat := s.rd K.IL_PAIR_STATE / 4 ^ p % 4

/-- The permits a pair covers (R442). -/
def State.pairMask (s : State) (p : Nat) : Nat := octField 2 (s.rd K.IL_POLICY) (2 * p)

/-- Permits covered by a pair that is not CLOSED (R442). -/
def State.openMask (s : State) : Nat :=
  (List.range 4).foldl (fun m p => if s.pairState p = 0 then m else m ||| s.pairMask p) 0

/-- What a guarded entry's new value brings about on its tick (R439 and the entry's chapter). -/
def State.guardEffect (s : State) (key old : Nat) : State :=
  if keyEntry key then
    let p := key - K.PARTY_KEY_0
    let s := (s.wr (partyCheck p) (keyCheck (toLE 32 (s.rd key)))).showKeys
    (s.proposals.filter fun e => e.2.party == p).foldl (fun s e => s.supersede e) s
  else if key = K.GUARD_MAP then
    (s.proposals.filter fun e => !mayStage (s.rd K.GUARD_MAP) (guardClass e.2.key) e.2.party && !(keyEntry e.2.key && s.rd e.2.key == 0)).foldl
      (fun s e => s.supersede e) s
  else if key = K.IL_POLICY then if s.openMask = 0 then s else s.withdraw s.openMask Bp.interlock
  else if key = K.WL_POLICY then s.policyChanged old
  else if key = K.CAL_INSTALL then s.installDue (s.rd key)
  else if key = K.DBG_UNLOCK then s.debugUnlock (s.rd key)
  else if guardClass key = 2 then s.sectorEff ((key / 256 - 0x4000) / 256)
  else s

/-- A concurred change takes effect (R439, R78). -/
def State.concurEffect (s : State) (e : Nat × Staged) (party : Nat) : State :=
  let key := e.2.key
  let old := s.rd key
  let s := s.freeStaged e.1
  let s := s.wr key (leNat e.2.value)
  let keep := match Dict.find key with
    | some r => r.keep
    | none => false
  let s := if keep then (if s.rd key = old then s else s.noteKeep key).forceStore else s
  let s := s.raise 0xF4 0x00F1 4 e.1 (guardData key e.2.party party e.2.proposal)
  s.guardEffect key old

/-- A CONCUR that has passed steps 1 to 8 of R97 (R438, R415). -/
def State.applyConcur (s : State) (remote : Bool) (key party proposal : Nat) (value : List Byte) : Nat × State :=
  match s.proposals.find? fun e => e.2.proposal == proposal && decide (s.tm.tick < e.2.tick + 12000000000) with
  | none => (Ans.proposalUnknown, s)
  | some e =>
    if e.2.key ≠ key ∨ e.2.value ≠ value then (Ans.proposalMismatch, s)
    else if e.2.party = party then (Ans.sameParty, s)
    else match s.writeCheck false key value.length (leNat value) with
      | some c => (c, s)
      | none =>
        if guardRange key (leNat value) then (Ans.outOfRange, s)
        else if !s.mayWrite remote key then (Ans.refused, s)
        else match s.guardCond key (leNat value) with
          | some c => (c, s)
          | none => (Ans.ok, s.concurEffect e party)

/-- AUTH_FAILURE (R440). -/
def State.authFailed (s : State) (session party : Nat) : State := s.raise 0xF5 0x00F4 3 0 (session + party * 2 ^ 16)

/-- The body of a STAGE or CONCUR as received (R95). -/
def guardBody (index sub party proposal : Nat) (value auth : List Byte) : List Byte :=
  toLE 2 index ++ toLE 1 sub ++ toLE 1 party ++ toLE 4 proposal ++ toLE 2 value.length ++ toLE 2 0 ++ value ++ auth

/-- A STAGE or CONCUR (R97, R416, R440): steps 7 and 8, deferral on a twin pair, then what the kind does. -/
def guardCmd (m : Msg) (kind index sub party proposal : Nat) (value auth : List Byte) (s : State) : State :=
  let key := index * 256 + sub
  let fit := m.length.toNat == 28 + value.length && decide (1 ≤ value.length) && decide (value.length ≤ 1024) && auth.length == 16
  hostCmd m kind key fit (fun s =>
    let ses := m.session.toNat
    if !s.authOk kind key party proposal ses value auth then (some (Ans.authFailed, []), s.authFailed ses party)
    else if !guardedKey key then (some (Ans.kindMismatch, []), s)
    else if s.mirrored && !partLocal key then
      (none, s.defer m kind key party proposal (guardBody index sub party proposal value auth) value)
    else
      let r := if kind = 0x12 then s.applyStage false key party proposal ses value else s.applyConcur false key party proposal value
      (some (r.1, []), r.2)) s

/-- STAGE (R437). -/
def execStage (m : Msg) (index : BitVec 16) (sub party : BitVec 8) (proposal : BitVec 32) (value auth : List Byte) (s : State) :
    Host.Outcome State Fault Refusal :=
  live (fun s => guardCmd m 0x12 index.toNat sub.toNat party.toNat proposal.toNat value auth s) s

/-- CONCUR (R439). -/
def execConcur (m : Msg) (index : BitVec 16) (sub party : BitVec 8) (proposal : BitVec 32) (value auth : List Byte) (s : State) :
    Host.Outcome State Fault Refusal :=
  live (fun s => guardCmd m 0x13 index.toNat sub.toNat party.toNat proposal.toNat value auth s) s

/-- GUARD_EXPIRED (R438): 12,000,000,000 ticks after the STAGE. -/
def State.guardExpired (s : State) (i : Nat) : State :=
  match Tab.get (fun _ => none) s.staged i with
  | none => s
  | some g =>
    if s.tm.tick < g.tick + 12000000000 then s
    else (s.freeStaged i).raise 0xF4 0x00F2 4 i (guardData g.key g.party 0 g.proposal)

/-- GUARD_EXPIRED (R438). -/
def execGuardExpired (slot : Fin 8) (s : State) : Host.Outcome State Fault Refusal := live (fun s => s.guardExpired slot) s

end Sys2Proof.Machine
end

