-- ==== Sys2Proof/Machine/Interlock.lean ====
section
/-! DEFINITION. The safety island's rows (R441 to R445): interlock inputs and pairs, permit pins read back, and the restart
of permits. -/

namespace Sys2Proof.Machine

/-- The outcome of an event that a device takes whenever it is not held in reset. -/
def awake (f : State → State) (s : State) : Host.Outcome State Fault Refusal :=
  .next (if s.dev = .held then s else (f s).settle)

/-- A pair takes a state, with the stamp of tick `t` and its event; a pair that is not CLOSED withdraws what it covers (R442, R443). -/
def State.setPair (s : State) (t p st : Nat) : State :=
  let old := s.pairState p
  if old = st then s
  else
    let v := s.rd K.IL_PAIR_STATE - old * 4 ^ p + st * 4 ^ p
    let s := s.wrs [(K.IL_PAIR_STATE, v), (K.IL_STAMP, s.timeAt t)]
    let s := s.raiseAt t 0x01 0x0008 1 p (p + st * 2 ^ 8 + s.rd K.IL_INPUTS * 2 ^ 16) [] false
    if st = 0 then s else s.withdraw (s.pairMask p) Bp.interlock

/-- The two inputs of a pair: both closed, both open. -/
def State.pairClosed (s : State) (p : Nat) : Bool := s.rd K.IL_INPUTS / 4 ^ p % 4 == 3
def State.pairOpen (s : State) (p : Nat) : Bool := s.rd K.IL_INPUTS / 4 ^ p % 4 == 0

/-- The state of a pair whose inputs have changed (R443): DISCREPANT stays until both inputs read open. -/
def State.pairNext (s : State) (p : Nat) : Nat :=
  if s.pairState p = 2 ∧ !s.pairOpen p then 2 else if s.pairClosed p then 0 else 1

/-- INTERLOCK_CHANGE (R46, R443): an input has read another level for `delay` + 1 samples, and the event is stamped with the first of
them. -/
def State.interlockChange (s : State) (i : Nat) (closed : Bool) (delay : Nat) : State :=
  let v := s.rd K.IL_INPUTS
  if v.testBit i = closed then s
  else
    let p := i / 2
    let t := s.tm.tick - delay
    let s := s.wr K.IL_INPUTS (if closed then v + 2 ^ i else v - 2 ^ i)
    let apart : Bool := !s.pairClosed p && !s.pairOpen p
    let s := { s with isl := { s.isl with disagree := Tab.set (fun _ => 0) s.isl.disagree p (if apart then t + 1 else 0) } }
    s.setPair t p (s.pairNext p)

/-- INTERLOCK_CHANGE (R46, R443): the change passes its filter PIN_FILTER_IL ticks after its run began. -/
def execInterlockChange (i : Fin 8) (closed : Bool) (s : State) : Host.Outcome State Fault Refusal :=
  awake (fun s => s.interlockChange i closed (s.rd K.PIN_FILTER_IL)) s

/-- DISCREPANCY (R443): the inputs have disagreed for 9.5 ms at the least. -/
def State.discrepancy (s : State) (p : Nat) : State :=
  let t := Tab.get (fun _ => 0) s.isl.disagree p
  if t = 0 ∨ s.tm.tick + 1 < t + 950000 ∨ s.pairState p = 2 then s
  else (s.inc K.IL_DISCREPANCIES).setPair s.tm.tick p 2

/-- DISCREPANCY (R443). -/
def execDiscrepancy (p : Fin 4) (s : State) : Host.Outcome State Fault Refusal := awake (fun s => s.discrepancy p) s

/-- The pins of a permit that read other than they are driven, as READBACK_FAULT shows them (R441, R452). -/
def State.wrongPins (s : State) (n : Nat) (t c : Bool) : Nat :=
  (if t == s.permit n then 0 else 2) + (if c == s.permit n then 1 else 0)

/-- READBACK_FAULT (R441): what the pins of a permit have read for 1 us. -/
def State.readback (s : State) (n : Nat) (t c : Bool) : State :=
  let pins := s.wrongPins n t c
  let was := Tab.get (fun _ => 0) s.isl.bad n
  let isl := { s.isl with bad := Tab.set (fun _ => 0) s.isl.bad n pins }
  if pins = 0 then
    if was = 0 then s else { s with isl := { isl with good := Tab.set (fun _ => 0) isl.good n s.tm.tick } }
  else
    let s := { s with isl := isl }
    let f := s.rd K.BP_READBACK_FAULT
    if f.testBit n then s
    else ((s.wr K.BP_READBACK_FAULT (f + 2 ^ n)).raise 0x00 0x0003 1 n (n + pins * 2 ^ 8)).withdraw (2 ^ n) Bp.readback

/-- READBACK_FAULT (R441). -/
def execReadbackFault (n : Fin 16) (t c : Bool) (s : State) : Host.Outcome State Fault Refusal :=
  awake (fun s => s.readback n t c) s

/-- Both pins of a permit have read back at their withdrawn levels for 10 ms (R441). -/
def State.readsRight (s : State) (n : Nat) : Bool :=
  !s.permit n && Tab.get (fun _ => 0) s.isl.bad n == 0 && decide (Tab.get (fun _ => 0) s.isl.good n + 1000000 ≤ s.tm.tick)

/-- A write of BP_READBACK_CLEAR (R441). -/
def readbackClearEff (v : Nat) (s : State) : Nat × State :=
  if (maskList 16 v).all s.readsRight then (Ans.ok, s.wr K.BP_READBACK_FAULT (s.rd K.BP_READBACK_FAULT - (s.rd K.BP_READBACK_FAULT &&& v)))
  else (Ans.refused, s)

/-- BP_READBACK_CLEAR (R441). -/
def execBpReadbackClear (m : Msg) (v : BitVec 16) (s : State) : Host.Outcome State Fault Refusal :=
  writeCmd m K.BP_READBACK_CLEAR 2 v.toNat readbackClearEff s

/-- Every permit condition of channel `n` holds (R442). -/
def State.permitOk (s : State) (n : Nat) : Bool :=
  !s.openMask.testBit n && s.rd K.WL_PERMIT_HOLD == 0 && s.rd K.DT_CUTOFF == 0 &&
    (beamLoops n).all (fun m => s.loopState m != Lp.tripped) && s.rd (K.LANE_STATE n) == 4 &&
    !(s.rd K.BP_READBACK_FAULT).testBit n

/-- A write of PERMIT_RESTART (R444). -/
def permitRestartEff (v : Nat) (s : State) : Nat × State :=
  if !(maskList 16 v).all s.permitOk then (Ans.refused, s)
  else
    let s := s.wrs [(K.BP_STATE, s.rd K.BP_STATE ||| v), (K.BP_STAMP, s.now)]
    (Ans.ok, (s.drivePermits v).raise 0x00 0x0002 4 0 v)

/-- PERMIT_RESTART (R444). -/
def execPermitRestart (m : Msg) (v : BitVec 16) (s : State) : Host.Outcome State Fault Refusal :=
  writeCmd m K.PERMIT_RESTART 2 v.toNat permitRestartEff s

end Sys2Proof.Machine
end

