-- ==== Sys2Proof/Machine/Supply.lean ====
section
/-! DEFINITION. Supplies, resets and start-up (R490 to R506): the release of PORN, the stages of a start-up, power and clock failures,
and the warm reset. -/

namespace Sys2Proof.Machine

/-- The step in which a rail powers up (R490). -/
def railStep (r : Nat) : Nat :=
  match r with
  | 0 | 1 => 2
  | 2 | 3 | 5 => 3
  | 4 => 4
  | 6 | 7 | 8 => 1
  | _ => 0

/-- A list of numbers that never falls. -/
def rising : List Nat → Bool
  | a :: b :: t => decide (a ≤ b) && rising (b :: t)
  | _ => true

/-- The order in which the rails became good keeps to R491. -/
def railOrderOk (l : List Nat) : Bool :=
  rising (l.map railStep) && (match l.find? (fun r => r == 0 || r == 1) with
    | some r => r == 0
    | none => true)

/-- An image that a store was writing is lost with the copy it was written over (R76). -/
def Keep.cut (k : Keep) : Keep :=
  match k.storing with
  | none => { k with changed := false, again := false }
  | some _ =>
    let a : Nat := (k.imgA.map (fun (x : Image) => x.gen)).getD 0
    let b : Nat := (k.imgB.map (fun (x : Image) => x.gen)).getD 0
    let k := { k with storing := none, changed := false, again := false }
    if a ≤ b then { k with imgA := none } else { k with imgB := none }

/-- The calibration store as a reset leaves it (R456): the copy that was being written is lost. -/
def State.cutStore (s : State) : Tab (Option CalRec × Option CalRec) :=
  match s.cal.writes with
  | [] => s.cal.store
  | type :: _ =>
    match s.record type with
    | none => s.cal.store
    | some r =>
      let none2 : Option CalRec × Option CalRec := (none, none)
      Tab.set (fun _ => none2) s.cal.store type (placeCopy (Tab.get (fun _ => none2) s.cal.store type) r false)

/-- What no reset touches: the two stores, what left the device, the free values and the waiting commands. -/
def State.bare (s : State) (dev : DevPhase) : State :=
  { State.reset with
    dev := dev, kp := s.kp.cut, cal := { State.reset.cal with store := s.cutStore, factory := s.cal.factory }, pw := s.pw, sent := s.sent, free := s.free, pending := s.pending }

/-- TIME64 and the era as the keeper has counted on (R40, R499): 1/32768 s is 488,281.25 units. -/
def Supply.keptTime (p : Supply) (count : Nat) : Nat × Nat :=
  let t := p.keeper + count * 1953125 / 4
  (t % 2 ^ 64, (p.era + t / 2 ^ 64) % 65536)

/-- The release of PORN (R40, R62, R492, R499, R502, R539), up to memory training: `strap` is the level of TWIN_ID, `count` what the
keeper has counted. -/
def State.release (s : State) (strap : Nat) (order : List Nat) (lost : Bool) (count rails : Nat) (trained : Bool) : State :=
  let p := s.pw
  let good := p.valid && !lost
  let t := if good then p.keptTime count else (0, 0)
  let last := if good then s.jr.aonSeal else 0
  let p := { p with keeper := t.1, era := t.2, epoch := (if good then p.epoch else 0), order := order }
  let p := if good then p else { p with failStamp := 0, failRails := 0, nextCause := 0 }
  let p := { p with valid := true, startTick := 0, warm := false, clockLost := false, poolLoaded := false, trainFailed := !trained,
                    nextCause := if trained then p.nextCause else 5 }
  let s := s.bare .starting
  let s := { s with pw := p }
  let s := { s with jr := { s.jr with aonSeal := last } }
  let s := { s with tm := { s.tm with time64 := t.1, lt := t.1 } }
  let fault := if railOrderOk order then 0 else 1
  s.wrs [(K.TIME_ERA, t.2), (K.TWIN_EPOCH, p.epoch), (K.TWIN_STRAP, strap), (K.JOURNAL_SEAL_PRIOR, last), (K.AON_VALID, if good then 1 else 0),
    (K.PWR_RESET_STAMP, t.1), (K.PWR_FAIL_STAMP, p.failStamp), (K.PWR_FAIL_RAILS, p.failRails), (K.PWR_RAIL_GOOD, rails),
    (K.PWR_ORDER_FAULT, fault), (K.PWR_ORDER_SEEN, leNat ((order.take 9).map (BitVec.ofNat 8)))]

/-- POWER_ON_RESET (R500, R502). -/
def execPowerOnReset (p : PowerOn) (s : State) : Host.Outcome State Fault Refusal :=
  .next (if s.dev = .running then s
    else s.release (if p.twinId then 1 else 0) (p.order.map (·.toNat)) p.aonLost p.keeper.toNat p.rails.toNat p.trained)

/-- An entry of R123 that a warm reset keeps (R126). -/
def keptContext (key : Nat) : Bool :=
  let sub := key % 256
  decide (0x8000 ≤ key / 256) && decide (key / 256 < 0x8C00) && sub != 2 && sub != 10 && sub != 11 && sub != 12 && sub != 17

/-- A VOL entry that a warm reset keeps (R37, R40, R62, R126, R269, R365, R407, R492, R500). -/
def keptWarm (key : Nat) : Bool :=
  let ix := key / 256
  let keep := match Dict.find key with
    | some r => r.keep
    | none => false
  keptContext key || (!keep && (ix == 0x7000 || ix == 0x7010 || ix == 0x7020)) ||
    [K.JOURNAL_WRITE_SEQ, K.JOURNAL_SEAL, K.TABLE_FREE, K.LAT_STATE, K.LAT_ENABLE, K.TWIN_EPOCH, K.TWIN_STRAP, K.PWR_RAIL_GOOD, K.PWR_ORDER_FAULT,
      K.PWR_ORDER_SEEN, K.PWR_FAIL_STAMP, K.PWR_FAIL_RAILS, K.AON_VALID, K.VBAT_LOW].contains key ||
    (List.range 4).any (fun k => key == K.AX_COUNT k) ||
    (List.range 128).any fun i => key == K.FX_COMMITS (i / 8) (i % 8)

/-- The windows of TC0 to TC31 and the twin unit's holds end with the units that held them (R126, R137): their last pins go, and with
them the deferred unmaps (R125). -/
def State.freePins (s : State) : State :=
  let held := s.mem.pages.filterMap fun e =>
    let tc := e.1 / 2 ^ 24
    match e.2 with
    | some p => if 0 < p.pins ∧ (tc < 32 ∨ (58 ≤ tc ∧ tc < 62)) then some (tc, e.1 % 2 ^ 24, p) else none
    | none => none
  held.foldl (fun (s : State) q => (s.setPage q.1 q.2.1 (some { q.2.2 with pins := 1 })).unpin q.1 q.2.1) s

/-- Everything raised so far is recorded, with a seal at its end (R61, R501). -/
def State.lastSeal (s : State) : State :=
  let s := s.sealNow
  (s.closeBefore (s.tm.tick + 1)).writeJournal

/-- The state a warm reset leaves before the keeping store is read (R500, R501). -/
def State.warmReset (s : State) : State :=
  let stamp := s.now
  let depth := s.rd K.CLK_SPREAD_DEPTH
  let s := s.lastSeal
  let s := (s.lat.dirty.foldl (fun s t => s.tileWriteBack t) s).freePins
  let b := s.bare .starting
  let b := { b with od := s.od.filter fun e => keptWarm e.1 }
  let b := { b with tm := s.tm, doms := s.doms }
  let b := { b with jr := { s.jr with sealDue := false, inRun := false } }
  let b := { b with mem := { b.mem with bytes := s.mem.bytes, pages := s.mem.pages, l1 := s.mem.l1, bad := s.mem.bad } }
  let b := { b with lat := { s.lat with cache := [], snap := [], snapHeld := false } }
  let b := { b with layer := { b.layer with ps := s.layer.ps, aligned := s.layer.aligned } }
  let b := { b with tw := { b.tw with seenEpoch := s.tw.seenEpoch } }
  let b := { b with pw := { s.pw with startTick := s.tm.tick, warm := true, poolLoaded := false, nextCause := 0 } }
  b.wrs [(K.PWR_RESET_STAMP, stamp), (K.CLK_SPREAD_IN_FORCE, depth), (K.JOURNAL_SEAL_PRIOR, s.jr.aonSeal)]

/-- Loading the keeping store (R79); a warm reset keeps the entries of R123 (R126). -/
def State.loadStore (s : State) : State :=
  let kept := s.od.filter fun e => s.pw.warm && keptContext e.1
  (kept.foldl (fun (s : State) e => s.wr e.1 e.2) s.loadKeep).showReserve

/-- The journal writer after a reset (R132): it goes on with the ring it holds, or takes up the one the store gives. -/
def State.takeRing (s : State) : State :=
  let same := match s.jr.held with
    | some (first, count) => s.rd K.JOURNAL_ENABLE == 1 && first == s.rd K.JOURNAL_BASE / 65536 && count == s.rd K.JOURNAL_SIZE / 65536
    | none => true
  (if same then s else s.stopJournal).startJournal

/-- Head tables and trims are taken from the store before the dictionary answers (R456, R459). -/
def State.loadTypes (s : State) : State := (calTypes.filter fun t => !lateType t).foldl (fun s t => s.loadType t) s

/-- The keys shown, and the sector values in force, after a load. -/
def State.showLoaded (s : State) : State :=
  let s := (List.range 2).foldl (fun (s : State) p => match s.slotKey p with
    | some k => s.wr (partyCheck p) (keyCheck k)
    | none => s) s
  (List.range 16).foldl (fun s n => s.sectorEff n) s.showKeys

/-- The values that take effect at a reset of either kind (R88, R497). -/
def State.intoForce (s : State) : State :=
  let s := (List.range 4).foldl (fun (s : State) p =>
    s.wrs [(K.ETHERTYPE_IN_FORCE p, s.rd (K.ETHERTYPE p)), (K.VLAN_ID_IN_FORCE p, s.rd (K.VLAN_ID p))]) s
  if s.pw.warm then s else s.wr K.CLK_SPREAD_IN_FORCE (s.rd K.CLK_SPREAD_DEPTH)

/-- An axis that the keeping store has enabled counts from the count it holds (R365). -/
def State.axisStart (s : State) (k : Nat) : State :=
  if s.rd (K.AX_ENABLE k) = 0 then s
  else
    let s := s.setAxis k { Axis.init with hist := [(s.tm.tick, s.count k)], enabledAt := s.tm.tick, cleanAt := s.tm.tick, outTick := s.tm.tick }
    let s := s.formPos k
    if s.rd (K.AO_ENABLE k) = 1 then s.emit (.pin "AO" k) [0, 0] else s

/-- Units that the keeping store has enabled or driven begin to run: the matrix, the lamps with their hold, the axes (R387, R395,
R397). -/
def State.startUnits (s : State) : State :=
  let s := s.wr K.LM_ROW_PERIOD s.lmRowPeriod
  let s := if s.rd K.LM_ENABLE = 1 then s.startScan else s
  let s := (List.range 4).foldl (fun (s : State) w =>
    if s.rd (K.WL_MODE w) = 0 then s else (s.setLamp w { since := s.tm.tick, ack := none }).driveLamp w) s
  let s := if (s.rd K.WL_POLICY).testBit 0 then s.wr K.WL_PERMIT_HOLD 1 else s
  (List.range 4).foldl (fun s k => s.axisStart k) s

/-- The network island opens the ports (R113, R502): a host port listens in both domains, a drive port is master of the selected one. -/
def State.openPorts (s : State) : State :=
  (List.range 4).foldl (fun (s : State) p =>
    if s.rd (K.PTP_ENABLE p) = 0 then s
    else if p < 2 then (s.setPortState p 0 1).setPortState p 1 1
    else s.setPortState p (s.rd K.TIME_SEL) 4) s

/-- The cause PWR_RESET_CAUSE reads (R504). -/
def Supply.cause (p : Supply) : Nat := if p.warm then 2 else if p.nextCause = 0 then 1 else p.nextCause

/-- START_DONE (R502): stages 4 to 6 end. -/
def State.startDone (s : State) : State :=
  if s.dev ≠ .starting ∨ s.pw.trainFailed then s
  else
    let cause := s.pw.cause
    let ms := (s.tm.tick - s.pw.startTick) / 100000
    let fault : Bool := s.rd K.PWR_ORDER_FAULT == 1 && !s.pw.warm
    let s := { s with dev := .running }
    let s := s.loadStore.loadTypes.showLoaded.intoForce.takeRing.startUnits
    let s := s.digestPending.digestCurrent
    let s := s.wr K.PWR_RESET_CAUSE cause
    let s := { s with tw := { s.tw with readyTick := s.tm.tick, heard := false } }
    let s := { s with pw := { s.pw with valid := true, warm := false, nextCause := 0 } }
    let s := if fault then s.raise 0x03 0x0022 3 0 (s.rd K.PWR_ORDER_SEEN % 2 ^ 64) else s
    s.openPorts.raise 0x03 0x0024 4 0 (cause + ms * 2 ^ 32)

/-- START_DONE (R502). -/
def execStartDone (s : State) : Host.Outcome State Fault Refusal := awake (fun s => s.startDone) s

/-- POOL_RECORDS_LOADED (R459): the late records are taken; a context that the keeping store has enabled is enabled with them. -/
def State.poolRecords (s : State) : State :=
  if s.pw.poolLoaded then s
  else
    let s := (calTypes.filter lateType).foldl (fun s t => s.loadType t) s
    let s := { s with pw := { s.pw with poolLoaded := true } }
    (List.range 24).foldl (fun (s : State) k => if s.rd (K.PC_ENABLE k) = 1 then (s.pcOn k).2 else s) s.digestPending

/-- POOL_RECORDS_LOADED (R459). -/
def execPoolRecordsLoaded (s : State) : Host.Outcome State Fault Refusal := live (fun s => s.poolRecords) s

/-- The device holds itself in reset, its permits withdrawn (R493 to R495): the last records are attempted. -/
def State.hold (s : State) : State :=
  let s := s.withdraw 0xFFFF Bp.reset
  let s := if s.dev = .running then (s.closeBefore (s.tm.tick + 1)).writeJournal else s
  { s with dev := .held }

/-- POWER_FAIL (R493): `rails` are those that are not good. -/
def State.powerFail (s : State) (rails : Nat) : State :=
  let m := rails % 512
  if s.dev = .held ∨ m = 0 then s
  else
    let s := { s with pw := { s.pw with failStamp := s.now, failRails := m, nextCause := 3 } }
    (s.raise 0x03 0x0020 1 0 m).hold

/-- POWER_FAIL (R493). -/
def execPowerFail (rails : BitVec 10) (s : State) : Host.Outcome State Fault Refusal :=
  awake (fun s => s.powerFail rails.toNat) s

/-- REFCLK_LOSS (R495). -/
def State.clockLoss (s : State) : State :=
  if s.dev = .held then s
  else
    let s := { s with pw := { s.pw with failStamp := s.now, failRails := 0x8000, nextCause := 4 } }
    let s := (s.raise 0x03 0x0021 1 0 0x8000).hold
    { s with pw := { s.pw with clockLost := true } }

/-- REFCLK_LOSS (R495). -/
def execRefclkLoss (s : State) : Host.Outcome State Fault Refusal := awake (fun s => s.clockLoss) s

/-- REFCLK_RESTART (R495): as a release of PORN. How long REFCLK was away, and so what the keeper has counted, is not given. -/
def State.clockBack (s : State) : State :=
  if s.dev ≠ .held ∨ !s.pw.clockLost then s
  else
    let d := s.draw
    d.2.release (s.rd K.TWIN_STRAP) s.pw.order false (Config.unstated d.1).toNat (s.rd K.PWR_RAIL_GOOD) true

/-- REFCLK_RESTART (R495). -/
def execRefclkRestart (s : State) : Host.Outcome State Fault Refusal := .next s.clockBack

/-- A write of PWR_RESET_REQUEST (R500, R501): the reset follows once the answer has left. -/
def warmResetEff (debug : Bool) (session : Nat) (_v : Nat) (s : State) : Nat × State :=
  if debug then (Ans.access, s)
  else if (List.range 16).any (fun n => s.rd (K.BC_STATE n) != Bc.off) ∨ s.rd K.KEEP_STATE = 2 ∨ s.rd K.CAL_STORE_STATE = 1 then
    (Ans.refused, s)
  else
    let s := (s.raise 0x03 0x0025 5 0 session).withdraw 0xFFFF Bp.reset
    (Ans.ok, { s with pw := { s.pw with warm := true } })

/-- A reset that has been asked for takes place after the command that asked for it. -/
def State.afterReset (s : State) : State := if s.dev = .running ∧ s.pw.warm then s.warmReset else s

/-- WARM_RESET (R501). -/
def execWarmReset (m : Msg) (s : State) : Host.Outcome State Fault Refusal :=
  live (fun s => (hostWrite m K.PWR_RESET_REQUEST 4 0x6D726177 (warmResetEff false m.session.toNat) s).afterReset) s

/-- A write of PWR_ORDER_FAULT (R492). -/
def orderFaultEff (v : Nat) (s : State) : Nat × State := plainEff K.PWR_ORDER_FAULT v s

/-- PWR_ORDER_FAULT (R492). -/
def execPwrOrderFault (m : Msg) (s : State) : Host.Outcome State Fault Refusal :=
  writeCmd m K.PWR_ORDER_FAULT 1 0 orderFaultEff s

/-- VBAT_LOW (R499). -/
def State.vbatLow (s : State) (low : Bool) : State :=
  let was := s.rd K.VBAT_LOW
  if low then (if was = 1 then s else (s.wr K.VBAT_LOW 1).raise 0x03 0x0023 6 0 0) else s.wr K.VBAT_LOW 0

/-- VBAT_LOW (R499). -/
def execVbatLow (low : Bool) (s : State) : Host.Outcome State Fault Refusal := live (fun s => s.vbatLow low) s

/-- PORN_LOW (R539): the device enters and holds reset, every permit pin at its withdrawn level (R441, R494). -/
def State.pornLow (s : State) : State :=
  let s := (s.withdraw 0xFFFF Bp.reset).drivePermits 0xFFFF
  { s with dev := .held, pw := { s.pw with clockLost := false } }

/-- PORN_LOW (R539). -/
def execPornLow (s : State) : Host.Outcome State Fault Refusal := .next s.pornLow.settle

/-- The time keeper is loaded on every whole second of TIME64 (R499): `was` is TIME64 of the tick before. -/
def State.keeperTick (s : State) (was : Nat) : State :=
  let sec := 16000000000
  if s.now / sec = was / sec then s
  else { s with pw := { s.pw with keeper := s.now / sec * sec, era := s.rd K.TIME_ERA } }

end Sys2Proof.Machine
end

