-- ==== Sys2Proof/Machine/Tick.lean ====
section
/-! DEFINITION. One tick of the device (R37, R38): time itself, and what the device does on the tick by itself that no row of the
table stands for. -/

namespace Sys2Proof.Machine

/-- A sample instant of a channel: a chord that failed its region check faults it (R191), a waiting channel halts (R515), and the power
loop follows the chord. -/
def State.sampleTick (s : State) (n : Nat) : State :=
  let s := if (s.chan n).regionAt.any (fun a => decide (a ≤ s.tm.tick)) then (s.inc (K.BC_REGION_BREACH n)).chanFault n 0x14 else s
  let s := s.haltWaiting n
  ((if s.refusedDue n then s.holdRefused n else s).loopHold n).facetTick n

/-- What happens on its own tick within a sample period: the feed-forward reads (R264), what belongs to the sample instant, and on the tick by which its deposits are made (R517). -/
def State.sampleHooks (s : State) : State :=
  let k := s.inSample
  if k = 100 then (List.range 16).foldl (fun (s : State) n => s.gainTick n (s.tm.tick + 300)) s
  else if k = 0 then (List.range 16).foldl (fun (s : State) n => s.sampleTick n) s
  else if k = 380 then (List.range 16).foldl (fun (s : State) n => s.cellBreaks n (s.tm.tick - 380)) s
  else s

/-- The slew is over once the residual is small (R39). -/
def State.slewDone (s : State) : State :=
  if s.rd K.TIME_STATE = 2 ∧ trackState s.tm.residual = 1 then s.wr K.TIME_STATE 1 else s

/-- What a running device does on every tick. -/
def State.tickHooks (s : State) : State :=
  let s := s.sampleHooks.axisTick.slewDone.cyclicTick
  let s := (List.range 24).foldl (fun (s : State) k => s.pipeTick k) s
  s.checkTick.loadTick.measTick.lampHold.laneTokens.syncWait

/-- TICK (R38). A device held in reset has no tick; one that starts up counts and steers like a running one (R37, R40). -/
def execTick (s : State) : Host.Outcome State Fault Refusal :=
  .next (match s.dev with
    | .held => s
    | .starting => (s.tickEff.keeperTick s.now).settle
    | .running => (s.tickEff.keeperTick s.now).tickHooks.settle)

end Sys2Proof.Machine
end

