-- ==== Sys2Proof/Machine/Values.lean ====
section
/-! DEFINITION. Reading and writing any entry of the dictionary: what an entry reads (R66, R67, R72, R96), and the effect of a write
to it (R97 step 8, R72 step 9 and the chapter of the entry). READ and WRITE themselves stand at the end. -/

namespace Sys2Proof.Machine

/-- The entry belongs to a pipeline context, and its group applies to the context's engine (R301). -/
def State.groupOk (s : State) (key : Nat) : Bool :=
  let ix := key / 256
  if ix < 0x6000 ∨ 0x65FF < ix then true
  else
    let k := (ix - 0x6000) / 64
    let x := (ix - 0x6000) % 64
    let pool : Bool := match s.pcOwner k with
      | some o => decide (o < 16)
      | none => false
    let bed : Bool := match s.pcOwner k with
      | some o => decide (16 ≤ o)
      | none => false
    if x = 3 ∨ x = 4 ∨ x = 5 then pool else if x = 8 then bed else true

/-- The key whose value a read of settings or of the sensor report of a view shows: that of the owning context (R277). -/
def State.viewKey (s : State) (key : Nat) : Nat :=
  let ix := key / 256
  if ix < 0x6500 ∨ 0x65FF < ix then key
  else
    let k := (ix - 0x6000) / 64
    let x := (ix - 0x6000) % 64
    if x ≠ 1 ∧ x ≠ 2 then key
    else match s.pcOwner k with
      | some o => key - (k - o) * 64 * 256
      | none => key

/-- What staging slot `i` shows (R449). -/
def State.stagedValue (s : State) (i sub : Nat) : Nat :=
  match Tab.get (fun _ => none) s.staged i with
  | none => 0
  | some g =>
    match sub with
    | 1 => 1
    | 2 => g.proposal
    | 3 => g.key
    | 4 => g.party
    | 5 => g.session
    | 6 => g.stamp
    | 7 => if keyEntry g.key then 0 else leNat g.value
    | 8 => g.value.length
    | _ => 0

/-- The oldest entry of a port's transmit time-stamp queue (R114); zeros when it is empty. -/
def State.txtsOldest (s : State) (p : Nat) : Nat :=
  match (s.ptpPort p).txts with
  | [] => 0
  | e :: _ => e.1 + e.2 * 2 ^ 16

/-- What the installed-record query shows of the type asked (R474); zeros where no record is installed. -/
def State.queryValue (s : State) (sub : Nat) : Nat :=
  let type := s.rd K.CAL_QUERY_TYPE
  if sub = 2 then s.queryState type
  else match s.record type with
    | none => 0
    | some r => if sub = 3 then r.gen else if sub = 4 then r.check else r.stamp

/-- Whole seconds left of an unlock, rounded up (R518). -/
def State.unlockLeft (s : State) : Nat :=
  match s.dbg.unlockEnd with
  | none => 0
  | some t => (t - s.tm.tick + 99999999) / 100000000

/-- The command CS_PC shows (R172): within a reorder group the one in execution, or the JUMP of the first item that waits; else the one at
which the sequencer stands. -/
def State.shownPc (s : State) (n : Nat) : Nat :=
  let c := s.chan n
  if !c.groupOn then s.rd (K.CS_PC n)
  else match c.run, c.group with
    | p :: _, _ => p.chord.addr
    | [], (ch :: _) :: _ => ch.addr
    | [], _ => s.rd (K.CS_PC n)

/-- The value an entry shows now. Most entries are held as they read; these are formed at the read. -/
def State.value (s : State) (key : Nat) : Nat :=
  let ix := key / 256
  let sub := key % 256
  if key = K.TIME_NOW then s.now
  else if key = K.TIME_RESIDUAL then uns 64 (s.tm.residual / 2 ^ 32)
  else if key = K.TICK_COUNT then s.tm.tick
  else if key = K.LAT_TIME then s.tm.lt
  else if key = K.LAT_DECAY_VALUE then decayEntry (s.rd K.LAT_DECAY_TAU) (s.rd K.LAT_DECAY_INDEX)
  else if key = K.LAT_PROBE_VALUE then s.probeCell
  else if key = K.DBG_UNLOCK_LEFT then s.unlockLeft
  else if ix = 0x7E03 ∧ 2 ≤ sub then s.queryValue sub
  else if 0xA420 ≤ ix ∧ ix < 0xA428 then s.stagedValue (ix - 0xA420) sub
  else if 0x1500 ≤ ix ∧ ix < 0x1504 ∧ sub = 8 then (s.ptpPort (ix - 0x1500)).txts.length
  else if 0x1500 ≤ ix ∧ ix < 0x1504 ∧ sub = 9 then s.txtsOldest (ix - 0x1500)
  else if 0x3000 ≤ ix ∧ ix < 0x3100 ∧ ix % 16 = 0 ∧ sub = 2 then s.shownPc ((ix - 0x3000) / 16)
  else if 0x8000 ≤ ix ∧ ix < 0x8C00 ∧ sub = 16 then s.probe ((ix - 0x8000) / 16)
  else if 0x5C00 ≤ ix ∧ ix < 0x5E00 ∧ sub = 13 then
    let i := (ix - 0x5C00) / 16
    uns 32 (s.repAt i (s.rd (K.RC_TABLE_INDEX i)))
  else s.rd (s.viewKey key)

/-- What a read of an entry does to it: the two peaks clear (R139, R488). -/
def State.afterRead (s : State) (key : Nat) : State :=
  if key = K.DT_PEAK ∨ key = K.MEM_LOAD_PEAK then s.wr key 0 else s

/-- The answer to a READ of a value (`form` 0) or of a descriptor (`form` 1): code, data, and the state after it (R66, R67, R72, R96). -/
def State.readAnswer (s : State) (index sub form : Nat) : (Nat × List Byte) × State :=
  let key := index * 256 + sub
  if !Dict.indexExists index then ((Ans.noEntry, []), s)
  else if sub = 0 then ((Ans.ok, if form = 1 then Dict.descriptor key else toLE 1 (Dict.topSub index)), s)
  else match Dict.find key with
    | none => ((Ans.noSubindex, []), s)
    | some r =>
      if !s.groupOk key then ((Ans.refused, []), s)
      else if form = 1 then ((Ans.ok, Dict.descriptor key), s)
      else if r.acc = .wo ∨ keyEntry key = true then ((Ans.access, List.replicate r.len 0), s)
      else ((Ans.ok, toLE r.len (s.value key)), s.afterRead key)

/-- Writes in the device, network, time, trigger and journal groups (0x1000 to 0x2FFF, 0x7000 to 0x72FF). -/
def netEffect (session port key v : Nat) (s : State) : Nat × State :=
  let ix := key / 256
  let sub := key % 256
  let p := ix % 256
  if key = K.KEEP_STORE then keepStoreEff v s
  else if ix < 0x1104 ∧ 0x1100 ≤ ix then
    if sub = 3 then
      if v = 0x8100 ∨ v = 0x88A8 ∨ v = 0x88F7 then (Ans.refused, s)
      else (Ans.ok, if p < 2 then s.wr key v else (s.wr key v).wr (K.ETHERTYPE_IN_FORCE p) v)
    else if sub = 4 then (Ans.ok, if p < 2 then s.wr key v else (s.wr key v).wr (K.VLAN_ID_IN_FORCE p) v)
    else if sub = 7 then if p < 2 then (Ans.refused, s) else plainEff key v s
    else if sub = 8 then
      let s' := s.wr key v
      if v = s.rd key then (Ans.ok, s)
      else if v = 0 then
        let s' := (s'.setPortState p 0 0).setPortState p 1 0
        (Ans.ok, if p < 2 then s'.portDeaf p else s')
      else if p < 2 then (Ans.ok, (s'.setPortState p 0 1).setPortState p 1 1)
      else (Ans.ok, s'.setPortState p (s.rd K.TIME_SEL) 4)
    else plainEff key v s
  else if 0x1300 ≤ ix ∧ ix < 0x1340 ∧ sub = 5 then streamControlEff session port (ix - 0x1300) v s
  else if key = K.CYCLIC_ENABLE then cyclicEnableEff v s
  else if ix = 0x1400 ∧ 0x10 ≤ sub ∧ sub < 0x18 then slotNodeEff (sub - 0x10) v s
  else if ix = 0x1400 ∧ 0x20 ≤ sub ∧ sub < 0x28 then slotLoopEff (sub - 0x20) v s
  else if 0x1500 ≤ ix ∧ ix < 0x1504 then
    if sub = 4 ∧ p < 2 then (Ans.refused, s)
    else if sub = 10 then txtsReleaseEff p v s
    else if sub = 11 ∧ v ≠ 0 then (Ans.refused, s)
    else plainEff key v s
  else if key = K.RECOAT_COMMAND then recoatCommandEff v s
  else if key = K.LAYER_COMMIT then layerCommitEff v s
  else if key = K.LAYER_RESUME then layerResumeEff v s
  else if key = K.DIGEST_HOLD_RELEASE then digestHoldReleaseEff v s
  else if key = K.JOURNAL_ENABLE then journalEnableEff v s
  else if key = K.TIME_SEL then timeSelEff v s
  else if key = K.TIME_AUTO_SWITCH then autoSwitchEff v s
  else if ix = 0x7010 ∧ sub = 1 then domNumberEff 0 v s
  else if ix = 0x7020 ∧ sub = 1 then domNumberEff 1 v s
  else if 0x7100 ≤ ix ∧ ix < 0x7140 ∧ sub = 6 then ttArmEff (ix - 0x7100) v s
  else plainEff key v s

/-- Writes in the sequencer, channel, facet and lattice groups (0x3000 to 0x4FFF, 0x6800 to 0x68FF). -/
def beamEffect (debug : Bool) (key v : Nat) (s : State) : Nat × State :=
  let ix := key / 256
  let sub := key % 256
  if 0x3000 ≤ ix ∧ ix < 0x3100 then
    if ix % 16 = 0 ∧ sub = 9 then csControlEff ((ix - 0x3000) / 16) v s else plainEff key v s
  else if 0x3100 ≤ ix ∧ ix < 0x3200 then
    let n := (ix - 0x3100) / 16
    if ix % 16 = 0 ∧ sub = 1 then seqControlEff n debug v s
    else if ix % 16 ≠ 0 ∧ !debug then (Ans.refused, s)
    else plainEff key v s
  else if 0x4000 ≤ ix ∧ ix < 0x5000 then
    let n := (ix - 0x4000) / 256
    let x := ix % 256
    if x = 0 ∧ sub = 2 then bcControlEff n v s
    else if x = 0x80 ∧ sub ≤ 2 then (Ans.ok, (s.wr key v).sectorEff n)
    else if 0x48 ≤ x ∧ x < 0x50 then
      if sub = 8 then fxModeEff n (x - 0x48) v s
      else if sub = 13 then fxClearEff n (x - 0x48) v s
      else plainEff key v s
    else if 0x50 ≤ x ∧ x < 0x58 ∧ sub = 9 then fxCommitEff n (x - 0x50) v s
    else plainEff key v s
  else if key = K.LAT_ENABLE then latEnableEff v s
  else if key = K.LAT_KERNEL then latKernelEff v s
  else if key = K.LAT_CLEAR then latClearEff v s
  else if key = K.LAT_PROBE_CELL then probeCellEff v s
  else if key = K.LAT_SNAP_CONTROL then snapControlEff v s
  else plainEff key v s

/-- A write to an entry of pipeline context `k`, index `x` of its group (R277, R301 to R308). -/
def pipeEffect (k x key v : Nat) (s : State) : Nat × State :=
  let sub := key % 256
  if !s.groupOk key then (Ans.refused, s)
  else match x, sub with
    | 0, 1 => pcSourceEff k v s
    | 0, 2 => pcEnableEff k v s
    | 0, 5 => minPeriodEff k v s
    | 0, 7 => shadowEff k v s
    | 1, 8 => setApplyEff k v s
    | 1, _ => if 20 ≤ k then (Ans.refused, s) else plainEff key v s
    | 3, 4 => if s.rd (K.PP_SPATTER_MAX k) < v then (Ans.refused, s) else plainEff key v s
    | 3, 5 => if v < s.rd (K.PP_SPATTER_MIN k) then (Ans.refused, s) else plainEff key v s
    | _, _ => plainEff key v s

/-- A write to an entry of lane `l` (R358). -/
def laneEffect (l key v : Nat) (s : State) : Nat × State :=
  match key % 256 with
  | 2 => laneEnableEff l v s
  | 4 => laneTxEff l v s
  | 5 => laneRxEff l v s
  | _ => plainEff key v s

/-- A write to an entry of an eye scan (R357, R359). -/
def eyeEffect (l key v : Nat) (s : State) : Nat × State :=
  match key % 256 with
  | 1 => eyeControlEff l v s
  | 5 => if sgn 16 v < s.rdS 16 (K.EYE_PHASE_FIRST l) then (Ans.outOfRange, s) else plainEff key v s
  | 7 => if sgn 16 v < s.rdS 16 (K.EYE_VOLT_FIRST l) then (Ans.outOfRange, s) else plainEff key v s
  | _ => plainEff key v s

/-- A write to an entry of axis `k`, index `x` of its group (R382 to R385). -/
def axisEffect (k x key v : Nat) (s : State) : Nat × State :=
  let sub := key % 256
  if 8 ≤ x then
    if sub = 1 then cmpPositionEff k (x - 8) v s else if sub = 7 then cmpArmEff k (x - 8) v s else plainEff key v s
  else match x, sub with
    | 0, 1 => axEnableEff k v s
    | 0, 4 => (Ans.ok, (s.wr key v).formPos k)
    | 0, 5 => (Ans.ok, (s.wr key v).formPos k)
    | 0, 6 => (Ans.ok, (s.wr key v).formPos k)
    | 0, 9 => axAckEff k v s
    | 1, 3 => axPresetEff k v s
    | 1, 9 => indexCorrectEff k v s
    | 2, 1 => aoEnableEff k v s
    | _, _ => plainEff key v s

/-- A write to an entry of the matrix or of a warning lamp (R398 to R402). -/
def lightEffect (key v : Nat) (s : State) : Nat × State :=
  let ix := key / 256
  let sub := key % 256
  if ix = 0x7A00 then
    if sub = 1 then lmEnableEff v s
    else if sub = 2 ∨ sub = 3 ∨ sub = 4 then lmTimingEff key v s
    else plainEff key v s
  else if 0x7A20 ≤ ix ∧ ix < 0x7A24 then
    if sub = 1 then wlModeEff (ix - 0x7A20) v s
    else if sub = 8 then wlAckEff (ix - 0x7A20) v s
    else lampEntryEff (ix - 0x7A20) sub v s
  else plainEff key v s

/-- Writes in the power, calibration, die, twin, permit, debug and event groups. -/
def deviceEffect (debug : Bool) (session key v : Nat) (s : State) : Nat × State :=
  let ix := key / 256
  let sub := key % 256
  if key = K.DT_SENSOR_ACK then sensorAckEff v s
  else if key = K.PWR_RESET_REQUEST then warmResetEff debug session v s
  else if key = K.PWR_ORDER_FAULT then orderFaultEff v s
  else if key = K.CAL_LOAD then calLoadEff v s
  else if key = K.CAL_MEASURE then calMeasureEff v s
  else if key = K.CAL_MEAS_ABORT then calMeasAbortEff v s
  else if key = K.CAL_QUERY_TYPE then if typeOk v then plainEff key v s else (Ans.outOfRange, s)
  else if 0x7E40 ≤ ix ∧ ix < 0x7E80 then candDiscardEff (ix - 0x7E40) v s
  else if key = K.TWIN_COMMAND then twinCommandEff v s
  else if key = K.PERMIT_RESTART then permitRestartEff v s
  else if key = K.BP_READBACK_CLEAR then readbackClearEff v s
  else if key = K.DBG_LOCK then dbgLockEff v s
  else if 0x9000 ≤ ix ∧ ix < 0x9100 then
    if Dict.reservedSource (ix - 0x9000) then (Ans.refused, s)
    else if sub = 1 then if v &&& 6 = 6 then plainEff key v s else (Ans.outOfRange, s)
    else (Ans.ok, (List.range 7).foldl (fun s i => s.clr (ix * 256 + 2 + i)) s)
  else plainEff key v s

/-- The effect of a write of `v` to an entry that has passed steps 1 to 8 of R72; KEEP_RESTORE stands apart. -/
def entryEffect (debug : Bool) (session port key v : Nat) (s : State) : Nat × State :=
  let ix := key / 256
  if ix < 0x3000 then netEffect session port key v s
  else if ix < 0x5000 then beamEffect debug key v s
  else if ix < 0x5C00 then loopWriteEff ((ix - 0x5000) / 32) (ix % 32) (key % 256) v s
  else if ix < 0x5E00 then rcWriteEff ((ix - 0x5C00) / 16) (key % 256) v s
  else if ix < 0x6000 then plainEff key v s
  else if ix < 0x6600 then pipeEffect ((ix - 0x6000) / 64) (ix % 64) key v s
  else if ix < 0x7000 then beamEffect debug key v s
  else if ix < 0x7300 then netEffect session port key v s
  else if ix < 0x7400 then plainEff key v s
  else if ix < 0x7700 then laneEffect ((ix - 0x7400) / 16) key v s
  else if ix < 0x7800 then plainEff key v s
  else if ix < 0x7A00 then axisEffect ((ix - 0x7800) / 128) (ix % 128) key v s
  else if ix < 0x7B00 then lightEffect key v s
  else if ix < 0x8000 then deviceEffect debug session key v s
  else if ix < 0x8C00 then
    let tc := (ix - 0x8000) / 16
    match key % 256 with
    | 3 => tcPriorityEff tc v s
    | 4 => tcReserveEff tc v s
    | 5 => tcMapEff tc v s
    | 6 => tcUnmapEff tc v s
    | 13 => tcResumeWriteEff tc v s
    | _ => plainEff key v s
  else if 0xB000 ≤ ix ∧ ix < 0xB800 then
    match key % 256 with
    | 1 => luneEnableEff ((ix - 0xB000) / 16) v s
    | 13 => lunePostEff ((ix - 0xB000) / 16) v s
    | _ => plainEff key v s
  else if 0xD000 ≤ ix ∧ ix < 0xDC00 then eyeEffect ((ix - 0xD000) / 64) key v s
  else deviceEffect debug session key v s

/-- An entry goes back to its default, with what a write of it brings about (R77). -/
def State.restore (s : State) (key : Nat) : State := (entryEffect false 0 0 key (Dict.dflt key) s).2.clr key

/-- A write of the restore code (R77): only an entry that is listed differs from its default. -/
def keepRestoreEff (_v : Nat) (s : State) : Nat × State :=
  if s.phase ≠ Phase.idle then (Ans.refused, s)
  else
    let keys := (s.od.map (·.1)).filter restorable
    let s := keys.foldl (fun s k => s.restore k) s
    let s := if keys.isEmpty then s else ({ s with kp := { s.kp with changed := true } }).digestPending
    (Ans.ok, if s.rd K.KEEP_STATE = 2 ∨ s.rd K.KEEP_STATE = 4 then s else s.wr K.KEEP_STATE 1)

/-- KEEP_RESTORE (R77). -/
def execKeepRestore (m : Msg) (s : State) : Host.Outcome State Fault Refusal :=
  writeCmd m K.KEEP_RESTORE 4 0x746C6664 keepRestoreEff s

/-- The effect of a write of `v` to any entry. -/
def writeEffect (debug : Bool) (session port key v : Nat) (s : State) : Nat × State :=
  if key = K.KEEP_RESTORE then keepRestoreEff v s else entryEffect debug session port key v s

/-- A READ of a session (R96): LENGTH is 4 and FORM is 0 or 1. -/
def State.hostRead (s : State) (m : Msg) (index sub form : Nat) : State :=
  hostCmd m 0x10 (index * 256 + sub) (m.length.toNat == 4 && decide (form ≤ 1))
    (fun s => let r := s.readAnswer index sub form; (some r.1, r.2)) s

/-- READ (R95, R96). -/
def execRead (m : Msg) (index : BitVec 16) (sub form : BitVec 8) (s : State) : Host.Outcome State Fault Refusal :=
  live (fun s => s.hostRead m index.toNat sub.toNat form.toNat) s

/-- WRITE (R72, R95, R97). -/
def execWrite (m : Msg) (index : BitVec 16) (sub : BitVec 8) (value : List Byte) (s : State) : Host.Outcome State Fault Refusal :=
  let key := index.toNat * 256 + sub.toNat
  live (fun s => (hostWrite m key value.length (leNat value) (writeEffect false m.session.toNat m.port.val key) s).afterReset) s

/-- EV_CLEAR (R527). -/
def execEvClear (m : Msg) (src : BitVec 8) (s : State) : Host.Outcome State Fault Refusal :=
  writeCmd m (K.EV_CLEAR src.toNat) 1 1 (deviceEffect false m.session.toNat (K.EV_CLEAR src.toNat)) s

/-- PORT_LINK (R88, R525): the physical link of a field-network port comes up or goes down. -/
def State.portLink (s : State) (p : Nat) (up : Bool) : State :=
  let v := if up then 1 else 0
  if s.rd (K.LINK_STATE p) = v then s else ((s.wr (K.LINK_STATE p) v).raise 0xFB 0x0130 6 p p).syncPort p

/-- PORT_LINK. -/
def execPortLink (p : Fin 4) (up : Bool) (s : State) : Host.Outcome State Fault Refusal := awake (fun s => s.portLink p.val up) s

end Sys2Proof.Machine
end

