-- ==== Sys2Proof/Machine/DebugPort.lean ====
section
/-! DEFINITION. The requests of the debug port (R507 to R512, R515, R520, R522), and the commands that take effect on their EFFECT
tick on both parts of a twin pair (R416). -/

namespace Sys2Proof.Machine

/-- STATUS of a response (R507). -/
abbrev Dbg.ok : Nat := 1
abbrev Dbg.wait : Nat := 2
abbrev Dbg.fault : Nat := 4

/-- FAULT codes (R510). -/
abbrev Dbg.crc : Nat := 0x20
abbrev Dbg.malformed : Nat := 0x21
abbrev Dbg.locked : Nat := 0x22

/-- A response after its STATUS (R507): CODE, RLENGTH, RDATA and RCRC. -/
def debugBytes (status code : Nat) (data : List Byte) : List Byte :=
  let b := toLE 1 code ++ toLE 2 data.length ++ data
  toLE 1 status ++ b ++ toLE 4 (crc32c b)

/-- A FAULT (R510): nothing is done and no TAG is kept. -/
def State.debugFault (s : State) (code : Nat) : State := (s.emit .debug (debugBytes Dbg.fault code [])).inc K.DBG_FAULTS

/-- A request completes (R509): its response is kept with its TAG. -/
def State.debugKeep (s : State) (tag code : Nat) (data : List Byte) : State :=
  ({ s with dbg := { s.dbg with last := some (tag, debugBytes Dbg.ok code data) } }).inc K.DBG_REQUESTS

/-- A request completes and is answered (R507). -/
def State.debugDone (s : State) (tag code : Nat) (data : List Byte) : State :=
  (s.debugKeep tag code data).emit .debug (debugBytes Dbg.ok code data)

/-- DEBUG_COMMAND of R525, for a READ or a WRITE. -/
def State.debugEvent (s : State) (key code : Nat) : State :=
  s.raise 0xFC 0x0140 5 0 (key / 256 % 65536 + key % 256 * 65536 + code * 2 ^ 24)

/-- A debug write that waits for its EFFECT tick (R416, R520). -/
def State.debugWaiting (s : State) (tag : Nat) : Bool := s.mirrors.any fun r => !r.remote && r.session == 0 && r.seq == tag

/-- A request (R507 to R510): the faults, the kept response, and else `k`, which carries it out. `fit` says whether LENGTH and the
fields suit the operation. -/
def debugReq (r : DbgReq) (ident fit : Bool) (k : Nat → State → State) (s : State) : State :=
  let tag := r.tag.toNat
  if !r.crcOk then s.debugFault Dbg.crc
  else if !fit || r.resv != 0 then s.debugFault Dbg.malformed
  else if (s.rd K.DBG_STATE = 0 ∨ s.dbg.unlockEnd.any (fun t => decide (t ≤ s.tm.tick))) ∧ !ident then s.debugFault Dbg.locked
  else if s.debugWaiting tag then s.emit .debug (toLE 1 Dbg.wait)
  else match s.dbg.last with
    | some (t, b) => if t = tag then s.emit .debug b else k tag s
    | none => k tag s

/-- DEBUG_IDENT (R508). -/
def execDebugIdent (r : DbgReq) (s : State) : Host.Outcome State Fault Refusal :=
  live (debugReq r true (r.length == 0) (fun tag s =>
    s.debugDone tag Ans.ok (toLE 2 (s.rd K.FAMILY_MEMBER) ++ toLE 2 (s.rd K.STEPPING) ++ toLE 8 (s.rd K.SERIAL_NUMBER) ++
      toLE 1 (s.rd K.DBG_STATE) ++ toLE 1 s.role))) s

/-- DEBUG_READ (R508). -/
def execDebugRead (r : DbgReq) (index : BitVec 16) (sub form : BitVec 8) (s : State) : Host.Outcome State Fault Refusal :=
  live (debugReq r false (r.length == 4 && decide (form.toNat ≤ 1)) (fun tag s =>
    let a := s.readAnswer index.toNat sub.toNat form.toNat
    (a.2.debugDone tag a.1.1 a.1.2).debugEvent (index.toNat * 256 + sub.toNat) a.1.1)) s

/-- A debug write of `v` in `len` bytes (R415, R416, R520): on an active part with a partner that hears it, it takes effect on both
parts 64 ticks later. -/
def debugWrite (r : DbgReq) (key : Nat) (value : List Byte) (s : State) : State :=
  debugReq r false (r.length.toNat == 4 + value.length && decide (1 ≤ value.length) && decide (value.length ≤ 1024)) (fun tag s =>
    if s.mirrored && !partLocal key then
      let m : Mirror := { effect := s.tm.tick + 64, remote := false, kind := 0x11, port := 0, session := 0, hostId := 0, seq := tag,
                          key := key, party := 0, proposal := 0, bytes := value, dups := [] }
      let body := toLE 2 (key / 256) ++ toLE 1 key ++ toLE 1 0 ++ value
      let header := toLE 1 1 ++ toLE 1 0x11 ++ toLE 4 0 ++ toLE 2 body.length ++ toLE 8 0
      (({ s with mirrors := s.mirrors ++ [m] }).sendMirror 0x0010
        (toLE 8 (s.pair (s.tm.tick + 64)) ++ toLE 8 0 ++ header ++ body)).emit .debug (toLE 1 Dbg.wait)
    else
      let a := s.applyWrite true false key value.length (leNat value) (writeEffect true 0 0 key)
      (a.2.debugDone tag a.1 []).debugEvent key a.1) s

/-- DEBUG_WRITE (R508, R520). -/
def execDebugWrite (r : DbgReq) (index : BitVec 16) (sub : BitVec 8) (value : List Byte) (s : State) :
    Host.Outcome State Fault Refusal :=
  live (debugWrite r (index.toNat * 256 + sub.toNat) value) s

/-- DEBUG_HALT (R515): a write of 0x01 to DBG_SEQ_CONTROL. -/
def execDebugHalt (r : DbgReq) (n : Fin 16) (s : State) : Host.Outcome State Fault Refusal :=
  live (debugWrite r (K.DBG_SEQ_CONTROL n.val) [1]) s

/-- DEBUG_STEP (R516): a write of 0x02 to DBG_SEQ_CONTROL. -/
def execDebugStep (r : DbgReq) (n : Fin 16) (s : State) : Host.Outcome State Fault Refusal :=
  live (debugWrite r (K.DBG_SEQ_CONTROL n.val) [2]) s

/-- DEBUG_RESUME (R516): a write of 0x03 to DBG_SEQ_CONTROL. -/
def execDebugResume (r : DbgReq) (n : Fin 16) (s : State) : Host.Outcome State Fault Refusal :=
  live (debugWrite r (K.DBG_SEQ_CONTROL n.val) [3]) s

/-- The code of a debug access to memory before any byte moves (R511): a page that is not mapped, one that lacks WRITE, and one
that is write-locked, in that order. -/
def State.debugRange (s : State) (tc addr n : Nat) (write : Bool) : Nat :=
  let beats := (List.range ((addr + n + 63) / 64 - addr / 64)).map fun i => s.beatFault tc (addr / 64 * 64 + 64 * i) write
  if beats.any (fun f => f == some 1) then Ans.noEntry
  else if beats.any (fun f => f == some 2) then Ans.access
  else if beats.any (fun f => f == some 3) ∨ (write = true ∧ (s.firstLocked tc addr n).isSome) then Ans.refused
  else Ans.ok

/-- MEM_READ (R511). -/
def execMemRead (r : DbgReq) (tc : BitVec 8) (addr : BitVec 64) (count : BitVec 16) (s : State) : Host.Outcome State Fault Refusal :=
  live (debugReq r false (r.length == 14 && decide (addr.toNat < 2 ^ 40)) (fun tag s =>
    let n := count.toNat
    if 192 ≤ tc.toNat ∨ n = 0 ∨ 1024 < n then s.debugDone tag Ans.outOfRange []
    else match s.debugRange tc.toNat addr.toNat n false with
      | 0 => s.debugDone tag Ans.ok ((s.readMem tc.toNat addr.toNat n).getD [])
      | code => s.debugDone tag code [])) s

/-- A debug write to memory that has passed R510 (R511, R136, R415, R416). -/
def State.debugStore (s : State) (tag tc addr : Nat) (data : List Byte) : State :=
  if 192 ≤ tc then s.debugDone tag Ans.outOfRange []
  else if s.role ≠ Role.active then s.debugDone tag Ans.refused []
  else match s.debugRange tc addr data.length true with
    | 0 =>
      let s := s.mirrorMemory tc addr data
      (s.writeMem tc addr data).debugDone tag Ans.ok []
    | code =>
      let s := match (if code = Ans.refused then s.firstLocked tc addr data.length else none) with
        | some pp => s.lockEvent tc pp
        | none => s
      s.debugDone tag code []

/-- MEM_WRITE (R511). -/
def execMemWrite (r : DbgReq) (tc : BitVec 8) (addr : BitVec 64) (data : List Byte) (s : State) : Host.Outcome State Fault Refusal :=
  live (debugReq r false (r.length.toNat == 12 + data.length && decide (1 ≤ data.length) && decide (data.length ≤ 1024) &&
      decide (addr.toNat < 2 ^ 40)) (fun tag s => s.debugStore tag tc.toNat addr.toNat data)) s

/-- Blocks of the ring from SEQ on, when every one of them lies in the ring (R512). -/
def State.ringPeek (s : State) (seq n : Nat) : Option (List Byte) :=
  (List.range n).foldl (fun acc i => match acc with
    | none => none
    | some b => (s.readMem 57 (s.rd K.JOURNAL_BASE + (seq + i) % s.ringBlocks * 32) 32).map fun c => b ++ c) (some [])

/-- JOURNAL_PEEK (R512). -/
def execJournalPeek (r : DbgReq) (seqNo : BitVec 32) (blocks : BitVec 8) (s : State) : Host.Outcome State Fault Refusal :=
  live (debugReq r false (r.length == 8) (fun tag s =>
    let n := blocks.toNat
    let d := (s.rd K.JOURNAL_WRITE_SEQ + 2 ^ 32 - seqNo.toNat) % 2 ^ 32
    if n = 0 ∨ 32 < n ∨ d < n ∨ s.ringBlocks < d then s.debugDone tag Ans.outOfRange []
    else match s.ringPeek seqNo.toNat n with
      | some b => s.debugDone tag Ans.ok b
      | none => s.debugDone tag Ans.noEntry [])) s

/-- DEBUG_BAD_OP (R508, R510): any other operation. -/
def execDebugBadOp (r : DbgReq) (_op : BitVec 4) (s : State) : Host.Outcome State Fault Refusal :=
  live (debugReq r true false (fun _ s => s)) s

/-- A command whose EFFECT tick has come (R416): what it does, and its answer when a session or the debug port of this part sent it. -/
def State.mirrorEffect (s : State) (r : Mirror) : State :=
  let debug : Bool := r.session == 0
  let res : Nat × State :=
    if r.kind = 0x12 then s.applyStage r.remote r.key r.party r.proposal r.session r.bytes
    else if r.kind = 0x13 then s.applyConcur r.remote r.key r.party r.proposal r.bytes
    else s.applyWrite debug r.remote r.key r.bytes.length (leNat r.bytes) (writeEffect debug r.session r.port r.key)
  if r.remote then res.2
  else if debug then (res.2.debugKeep r.seq res.1 []).debugEvent r.key res.1
  else
    let b := res.2.answerBytes r.session r.seq res.1 r.kind res.2.now []
    let s := (res.2.reply r.port r.session r.seq r.kind res.1 []).hostEvent r.kind r.key res.1 r.session
    r.dups.foldl (fun s p => s.resend p b) s

/-- Every command whose EFFECT tick has come, in the order of the list (R416). -/
def State.mirrorsDue (s : State) : State :=
  let due := s.mirrors.filter fun r => decide (r.effect ≤ s.tm.tick)
  let s := { s with mirrors := s.mirrors.filter fun r => !decide (r.effect ≤ s.tm.tick) }
  (due.foldl (fun s r => s.mirrorEffect r) s).afterReset

/-- MIRROR_EFFECT (R416). -/
def execMirrorEffect (s : State) : Host.Outcome State Fault Refusal := live (fun s => s.mirrorsDue) s

end Sys2Proof.Machine
end

