-- ==== Sys2Proof/Machine/Dispatch.lean ====
section
/-! DEFINITION. The effect of each command: one call of its meaning for each row of the command table. -/

namespace Sys2Proof.Machine

/-- What a command does to everything but the queue. -/
def exec (i : Instr) (s : State) : Host.Outcome State Fault Refusal :=
  match i with
  | .tick => Sys2Proof.Machine.execTick s
  | .timeStep => Sys2Proof.Machine.execTimeStep s
  | .timeSel m v => Sys2Proof.Machine.execTimeSel m v s
  | .domNumber m d v => Sys2Proof.Machine.execDomNumber m d v s
  | .domainLost d => Sys2Proof.Machine.execDomainLost d s
  | .sync p => Sys2Proof.Machine.execSync p s
  | .followUp p => Sys2Proof.Machine.execFollowUp p s
  | .delayReq p => Sys2Proof.Machine.execDelayReq p s
  | .delayResp p => Sys2Proof.Machine.execDelayResp p s
  | .announce p a => Sys2Proof.Machine.execAnnounce p a s
  | .pdelayReq p => Sys2Proof.Machine.execPdelayReq p s
  | .pdelayResp p => Sys2Proof.Machine.execPdelayResp p s
  | .pdelayRespFollowUp p => Sys2Proof.Machine.execPdelayRespFollowUp p s
  | .ttArm m n => Sys2Proof.Machine.execTtArm m n s
  | .ttDisarm m n => Sys2Proof.Machine.execTtDisarm m n s
  | .triggerFired n => Sys2Proof.Machine.execTriggerFired n s
  | .journalWrite => Sys2Proof.Machine.execJournalWrite s
  | .sealSpan => Sys2Proof.Machine.execSeal s
  | .read m index sub form => Sys2Proof.Machine.execRead m index sub form s
  | .write m index sub value => Sys2Proof.Machine.execWrite m index sub value s
  | .keepStore m => Sys2Proof.Machine.execKeepStore m s
  | .keepStoreDone ok => Sys2Proof.Machine.execKeepStoreDone ok s
  | .keepRestore m => Sys2Proof.Machine.execKeepRestore m s
  | .digestCurrent => Sys2Proof.Machine.execDigestCurrent s
  | .openSession m hostId credit => Sys2Proof.Machine.execOpen m hostId credit s
  | .closeSession m => Sys2Proof.Machine.execClose m s
  | .ping m => Sys2Proof.Machine.execPing m s
  | .noticeAck m ackSeq credit => Sys2Proof.Machine.execNoticeAck m ackSeq credit s
  | .noticeResend session number => Sys2Proof.Machine.execNoticeResend session number s
  | .sessionTimeout session => Sys2Proof.Machine.execSessionTimeout session s
  | .badKind m kind => Sys2Proof.Machine.execBadKind m kind s
  | .stage m index sub party proposal value auth => Sys2Proof.Machine.execStage m index sub party proposal value auth s
  | .concur m index sub party proposal value auth => Sys2Proof.Machine.execConcur m index sub party proposal value auth s
  | .guardExpired slot => Sys2Proof.Machine.execGuardExpired slot s
  | .streamOpen m e => Sys2Proof.Machine.execStreamOpen m e s
  | .streamAbort m e => Sys2Proof.Machine.execStreamAbort m e s
  | .streamData m endpoint offset data => Sys2Proof.Machine.execStreamData m endpoint offset data s
  | .streamEnd e => Sys2Proof.Machine.execStreamEnd e s
  | .streamAckTimeout e => Sys2Proof.Machine.execStreamAckTimeout e s
  | .txtsRelease m p count => Sys2Proof.Machine.execTxtsRelease m p count s
  | .cyclicEnable m v => Sys2Proof.Machine.execCyclicEnable m v s
  | .cyclicSend => Sys2Proof.Machine.execCyclicSend s
  | .cyclicReply m cycle node status error actual digest => Sys2Proof.Machine.execCyclicReply m cycle node status error actual digest s
  | .driveSilent slot => Sys2Proof.Machine.execDriveSilent slot s
  | .tcMap m tc request => Sys2Proof.Machine.execTcMap m tc request s
  | .tcUnmap m tc request => Sys2Proof.Machine.execTcUnmap m tc request s
  | .tcResume m tc => Sys2Proof.Machine.execTcResume m tc s
  | .tcAbort m tc => Sys2Proof.Machine.execTcAbort m tc s
  | .dmaBeat waiting => Sys2Proof.Machine.execDmaBeat waiting s
  | .accountingWindow => Sys2Proof.Machine.execAccountingWindow s
  | .windowPin tc => Sys2Proof.Machine.execWindowPin tc s
  | .memLoadPeakRead m => Sys2Proof.Machine.execMemLoadPeakRead m s
  | .layerCommit m n => Sys2Proof.Machine.execLayerCommit m n s
  | .layerResume m n => Sys2Proof.Machine.execLayerResume m n s
  | .layerStart => Sys2Proof.Machine.execLayerStart s
  | .repairStart => Sys2Proof.Machine.execRepairStart s
  | .layerClosePhase => Sys2Proof.Machine.execLayerClosePhase s
  | .headTableSwitch n => Sys2Proof.Machine.execHeadTableSwitch n s
  | .shareDecision => Sys2Proof.Machine.execShareDecision s
  | .dwellForced n => Sys2Proof.Machine.execDwellForced n s
  | .latch n => Sys2Proof.Machine.execLatch n s
  | .servoSample n x y z sample status fault aux => Sys2Proof.Machine.execServoSample n x y z sample status fault aux s
  | .servoSampleMissing n => Sys2Proof.Machine.execServoSampleMissing n s
  | .latticeDeposit => Sys2Proof.Machine.execLatticeDeposit s
  | .chordComplete n => Sys2Proof.Machine.execChordComplete n s
  | .mark n => Sys2Proof.Machine.execMark n s
  | .arc n => Sys2Proof.Machine.execArc n s
  | .jump n => Sys2Proof.Machine.execJump n s
  | .facet n => Sys2Proof.Machine.execFacet n s
  | .floatBody n => Sys2Proof.Machine.execFloat n s
  | .postingRelease n => Sys2Proof.Machine.execPostingRelease n s
  | .claim n => Sys2Proof.Machine.execClaim n s
  | .waitTime n => Sys2Proof.Machine.execWaitTime n s
  | .waitTimeRelease n => Sys2Proof.Machine.execWaitTimeRelease n s
  | .waitEvent n => Sys2Proof.Machine.execWaitEvent n s
  | .eventTimeout n => Sys2Proof.Machine.execEventTimeout n s
  | .barrier n => Sys2Proof.Machine.execBarrier n s
  | .setParam n => Sys2Proof.Machine.execSet n s
  | .callProgram n => Sys2Proof.Machine.execCall n s
  | .returnCall n => Sys2Proof.Machine.execReturn n s
  | .repeatBody n => Sys2Proof.Machine.execRepeat n s
  | .marker n => Sys2Proof.Machine.execMarker n s
  | .layerClose n => Sys2Proof.Machine.execLayerClose n s
  | .halt n => Sys2Proof.Machine.execHalt n s
  | .badOpcode n => Sys2Proof.Machine.execBadOpcode n s
  | .csResume m n => Sys2Proof.Machine.execCsResume m n s
  | .csSkip m n => Sys2Proof.Machine.execCsSkip m n s
  | .arm m n => Sys2Proof.Machine.execArm m n s
  | .off m n => Sys2Proof.Machine.execOff m n s
  | .uncoveredWalk n => Sys2Proof.Machine.execUncoveredWalk n s
  | .shareReissueWait => Sys2Proof.Machine.execShareReissueWait s
  | .luneEnable m l => Sys2Proof.Machine.execLuneEnable m l s
  | .lunePost m l => Sys2Proof.Machine.execLunePost m l s
  | .rcsync delay => Sys2Proof.Machine.execRcsync delay s
  | .recoatStall => Sys2Proof.Machine.execRecoatStall s
  | .recoatCommand m => Sys2Proof.Machine.execRecoatCommand m s
  | .fxCommit m n slot => Sys2Proof.Machine.execFxCommit m n slot s
  | .fxClear m n slot => Sys2Proof.Machine.execFxClear m n slot s
  | .passBoundary n => Sys2Proof.Machine.execPassBoundary n s
  | .pinWaitRelease n => Sys2Proof.Machine.execPinWaitRelease n s
  | .repairDone n => Sys2Proof.Machine.execRepairDone n s
  | .latClear m => Sys2Proof.Machine.execLatClear m s
  | .latClearDone => Sys2Proof.Machine.execLatClearDone s
  | .latEnable m => Sys2Proof.Machine.execLatEnable m s
  | .latDisable m => Sys2Proof.Machine.execLatDisable m s
  | .snapshotStart m => Sys2Proof.Machine.execSnapshotStart m s
  | .snapshotAbort m => Sys2Proof.Machine.execSnapshotAbort m s
  | .snapshotTile => Sys2Proof.Machine.execSnapshotTile s
  | .refreshVisit tile => Sys2Proof.Machine.execRefreshVisit tile s
  | .tileFill tile => Sys2Proof.Machine.execTileFill tile s
  | .tileWriteBack tile => Sys2Proof.Machine.execTileWriteBack tile s
  | .pcEnable m k => Sys2Proof.Machine.execPcEnable m k s
  | .pcDisable m k => Sys2Proof.Machine.execPcDisable m k s
  | .setApply m k => Sys2Proof.Machine.execSetApply m k s
  | .sensorSliceStart n frame start tag w h => Sys2Proof.Machine.execSensorSliceStart n frame start tag w h s
  | .sensorSlicePixels n frame offset pixels => Sys2Proof.Machine.execSensorSlicePixels n frame offset pixels s
  | .sensorSliceEnd n frame sent => Sys2Proof.Machine.execSensorSliceEnd n frame sent s
  | .cameraSliceStart c frame start tag w h => Sys2Proof.Machine.execCameraSliceStart c frame start tag w h s
  | .cameraSlicePixels c frame offset pixels => Sys2Proof.Machine.execCameraSlicePixels c frame offset pixels s
  | .cameraSliceEnd c frame sent => Sys2Proof.Machine.execCameraSliceEnd c frame sent s
  | .frameTimeout k => Sys2Proof.Machine.execFrameTimeout k s
  | .frameMissing k => Sys2Proof.Machine.execFrameMissing k s
  | .statsClose k => Sys2Proof.Machine.execStatsClose k s
  | .bedStripe k => Sys2Proof.Machine.execBedStripe k s
  | .bedFrameDone k => Sys2Proof.Machine.execBedFrameDone k s
  | .loopClose m l => Sys2Proof.Machine.execLoopClose m l s
  | .loopHold m l => Sys2Proof.Machine.execLoopHold m l s
  | .loopOpen m l => Sys2Proof.Machine.execLoopOpen m l s
  | .loopReset m l => Sys2Proof.Machine.execLoopReset m l s
  | .loopTrip m l => Sys2Proof.Machine.execLoopTrip m l s
  | .loopSample l => Sys2Proof.Machine.execLoopSample l s
  | .loopDeadline l overrun => Sys2Proof.Machine.execLoopDeadline l overrun s
  | .rcClear m k => Sys2Proof.Machine.execRcClear m k s
  | .frameSlot => Sys2Proof.Machine.execFrameSlot s
  | .idleFrame f => Sys2Proof.Machine.execIdleFrame f s
  | .laneEnable m l v => Sys2Proof.Machine.execLaneEnable m l v s
  | .phaseLock l => Sys2Proof.Machine.execPhaseLock l s
  | .identRequest l => Sys2Proof.Machine.execIdentRequest l s
  | .ident l x => Sys2Proof.Machine.execIdent l x s
  | .laneUp l => Sys2Proof.Machine.execLaneUp l s
  | .identFail l => Sys2Proof.Machine.execIdentFail l s
  | .linkLoss l detail => Sys2Proof.Machine.execLinkLoss l detail s
  | .digest l digest => Sys2Proof.Machine.execDigest l digest s
  | .nodeEvent l code data => Sys2Proof.Machine.execNodeEvent l code data s
  | .laneTxState m l v => Sys2Proof.Machine.execLaneTxState m l v s
  | .laneRxState m l v => Sys2Proof.Machine.execLaneRxState m l v s
  | .eyeStart m l => Sys2Proof.Machine.execEyeStart m l s
  | .eyeAbort m l => Sys2Proof.Machine.execEyeAbort m l s
  | .eyePoint l count => Sys2Proof.Machine.execEyePoint l count s
  | .axEnable m k v => Sys2Proof.Machine.execAxEnable m k v s
  | .signalFault k bits => Sys2Proof.Machine.execSignalFault k bits s
  | .signalRecovered k => Sys2Proof.Machine.execSignalRecovered k s
  | .axFaultAck m k => Sys2Proof.Machine.execAxFaultAck m k s
  | .axCountPreset m k v => Sys2Proof.Machine.execAxCountPreset m k v s
  | .index k delay => Sys2Proof.Machine.execIndex k delay s
  | .axCorrected k => Sys2Proof.Machine.execAxCorrected k s
  | .cmpArm m k c => Sys2Proof.Machine.execCmpArm m k c s
  | .cmpDisarm m k c => Sys2Proof.Machine.execCmpDisarm m k c s
  | .compare k c => Sys2Proof.Machine.execCompare k c s
  | .aoEnable m k v => Sys2Proof.Machine.execAoEnable m k v s
  | .aoOverspeed k => Sys2Proof.Machine.execAoOverspeed k s
  | .lmEnable m v => Sys2Proof.Machine.execLmEnable m v s
  | .rowSlot => Sys2Proof.Machine.execRowSlot s
  | .flashDone => Sys2Proof.Machine.execFlashDone s
  | .diagnosis what result => Sys2Proof.Machine.execDiagnosis what result s
  | .lampOverdue w => Sys2Proof.Machine.execLampOverdue w s
  | .wlAck m w => Sys2Proof.Machine.execWlAck m w s
  | .wlMode m w v => Sys2Proof.Machine.execWlMode m w v s
  | .twinActivate m => Sys2Proof.Machine.execTwinActivate m s
  | .twinDetach m => Sys2Proof.Machine.execTwinDetach m s
  | .twinJoin m => Sys2Proof.Machine.execTwinJoin m s
  | .twinStartTimeout => Sys2Proof.Machine.execTwinStartTimeout s
  | .heartbeatSend => Sys2Proof.Machine.execHeartbeatSend s
  | .heartbeat p h => Sys2Proof.Machine.execHeartbeat p h s
  | .partnerFailed => Sys2Proof.Machine.execPartnerFailed s
  | .takeover => Sys2Proof.Machine.execTakeover s
  | .sampleCheck p sample crc => Sys2Proof.Machine.execSampleCheck p sample crc s
  | .stale p role rejected => Sys2Proof.Machine.execStale p role rejected s
  | .hostCommand p q effect c => Sys2Proof.Machine.execHostCommand p q effect c s
  | .mirrorEffect => Sys2Proof.Machine.execMirrorEffect s
  | .memoryWrite p q tc addr data => Sys2Proof.Machine.execMemoryWrite p q tc addr data s
  | .mapMirror p q effect tc unmap request => Sys2Proof.Machine.execMap p q effect tc unmap request s
  | .decision p q decided l => Sys2Proof.Machine.execDecision p q decided l s
  | .latticeDelta p q apply cells => Sys2Proof.Machine.execLatticeDelta p q apply cells s
  | .loopState p q sample l => Sys2Proof.Machine.execLoopState p q sample l s
  | .syncPage p x => Sys2Proof.Machine.execSyncPage p x s
  | .syncCopyDone => Sys2Proof.Machine.execSyncCopyDone s
  | .syncState p digest b => Sys2Proof.Machine.execSyncState p digest b s
  | .partnerDigest p digest view nodes => Sys2Proof.Machine.execPartnerDigest p digest view nodes s
  | .handover p effect => Sys2Proof.Machine.execHandover p effect s
  | .handoverEffect => Sys2Proof.Machine.execHandoverEffect s
  | .holdMirror p v => Sys2Proof.Machine.execHold p v s
  | .digestRequestTimeout l => Sys2Proof.Machine.execDigestRequestTimeout l s
  | .digestHoldRelease m => Sys2Proof.Machine.execDigestHoldRelease m s
  | .interlockChange j closed => Sys2Proof.Machine.execInterlockChange j closed s
  | .discrepancy p => Sys2Proof.Machine.execDiscrepancy p s
  | .readbackFault n t c => Sys2Proof.Machine.execReadbackFault n t c s
  | .bpReadbackClear m v => Sys2Proof.Machine.execBpReadbackClear m v s
  | .permitRestart m v => Sys2Proof.Machine.execPermitRestart m v s
  | .calLoad m => Sys2Proof.Machine.execCalLoad m s
  | .calMeasureRegistration m mask => Sys2Proof.Machine.execCalMeasureRegistration m mask s
  | .fiducialCapture => Sys2Proof.Machine.execFiducialCapture s
  | .calMeasurePoolDark m inst => Sys2Proof.Machine.execCalMeasurePoolDark m inst s
  | .calMeasureAxisTrim m inst => Sys2Proof.Machine.execCalMeasureAxisTrim m inst s
  | .calMeasureLaneTrim m inst => Sys2Proof.Machine.execCalMeasureLaneTrim m inst s
  | .calMeasured runs => Sys2Proof.Machine.execCalMeasured runs s
  | .calMeasAbort m => Sys2Proof.Machine.execCalMeasAbort m s
  | .candDiscard m x => Sys2Proof.Machine.execCandDiscard m x s
  | .idleClose => Sys2Proof.Machine.execIdleClose s
  | .trimApply => Sys2Proof.Machine.execTrimApply s
  | .calStored ok => Sys2Proof.Machine.execCalStored ok s
  | .thermalSample raw => Sys2Proof.Machine.execThermalSample raw s
  | .stopDone => Sys2Proof.Machine.execStopDone s
  | .dtSensorAck m v => Sys2Proof.Machine.execDtSensorAck m v s
  | .dtPeakRead m => Sys2Proof.Machine.execDtPeakRead m s
  | .powerOnReset p => Sys2Proof.Machine.execPowerOnReset p s
  | .startDone => Sys2Proof.Machine.execStartDone s
  | .poolRecordsLoaded => Sys2Proof.Machine.execPoolRecordsLoaded s
  | .powerFail rails => Sys2Proof.Machine.execPowerFail rails s
  | .refclkLoss => Sys2Proof.Machine.execRefclkLoss s
  | .refclkRestart => Sys2Proof.Machine.execRefclkRestart s
  | .warmReset m => Sys2Proof.Machine.execWarmReset m s
  | .pwrOrderFault m => Sys2Proof.Machine.execPwrOrderFault m s
  | .vbatLow low => Sys2Proof.Machine.execVbatLow low s
  | .debugIdent r => Sys2Proof.Machine.execDebugIdent r s
  | .debugRead r index sub form => Sys2Proof.Machine.execDebugRead r index sub form s
  | .debugWrite r index sub value => Sys2Proof.Machine.execDebugWrite r index sub value s
  | .memRead r tc addr count => Sys2Proof.Machine.execMemRead r tc addr count s
  | .memWrite r tc addr data => Sys2Proof.Machine.execMemWrite r tc addr data s
  | .journalPeek r seqNo blocks => Sys2Proof.Machine.execJournalPeek r seqNo blocks s
  | .debugBadOp r op => Sys2Proof.Machine.execDebugBadOp r op s
  | .dbgLock m => Sys2Proof.Machine.execDbgLock m s
  | .debugLocked => Sys2Proof.Machine.execDebugLocked s
  | .debugHalt r n => Sys2Proof.Machine.execDebugHalt r n s
  | .debugStep r n => Sys2Proof.Machine.execDebugStep r n s
  | .debugResume r n => Sys2Proof.Machine.execDebugResume r n s
  | .evClear m src => Sys2Proof.Machine.execEvClear m src s
  | .signalPresent l => Sys2Proof.Machine.execSignalPresent l s
  | .portLink p up => Sys2Proof.Machine.execPortLink p up s
  | .pornLow => Sys2Proof.Machine.execPornLow s
  | .axisMotion k x => Sys2Proof.Machine.execAxisMotion k x s
  | .masterSyncInterval => Sys2Proof.Machine.execMasterSyncInterval s

end Sys2Proof.Machine
end

