-- ==== Sys2Proof/Safety.lean ====
section
/-! DEFINITION. What counts as a well-kept state: memory, translation entries, lattice and dictionary in their canonical form, so that
states that read alike are equal data; and the invariants that statements use. -/

namespace Sys2Proof.Machine

/-- Memory is in canonical form: physical bytes and level-2 entries rise strictly by key and list no value that an unlisted key
reads as (unwritten bytes read 0, pages that are not mapped read none). -/
abbrev Memory.wf (m : Mem) : Prop := Tab.wf (fun _ => 0) m.bytes = true ∧ Tab.wf (fun _ => none) m.pages = true

/-- The dictionary, memory and the lattice are in canonical form. -/
structure State.Canonical (s : State) : Prop where
  od : Tab.wf Dict.dflt s.od = true
  mem : Memory.wf s.mem
  cells : Tab.wf (fun _ => Cell.cleared) s.lat.cells = true

/-- The device is held in reset for good: PORN has not been released since, no permit is granted, and no command that waits is a
release. -/
structure State.HeldInReset (s : State) : Prop where
  held : s.dev = .held
  clock : s.pw.clockLost = false
  permits : s.rd K.BP_STATE = 0
  queue : ∀ c ∈ s.pending, ∀ p, c ≠ .powerOnReset p

/-- Entries of event sources (9000 to 90FF) and counts of the notice queue (R105, R106, R527). -/
def eventKey (k : Nat) : Bool :=
  (decide (0x900000 ≤ k) && decide (k < 0x910000)) || (decide (0x121001 ≤ k) && decide (k ≤ 0x121004))

/-- The device once it has counted the frame of a message and consumed its SEQ in session `ss` (R91, R97, R99). -/
def State.taken (s : State) (m : Msg) (ss : Session) : State :=
  ((s.inc (K.RX_FRAMES m.port.val)).updSession ss.num fun x => { x with lastTick := s.tm.tick, lastPort := m.port.val }).updSession
    ss.num fun x => { x with next := (ss.next + 1) % 2 ^ 32 }

/-- The device once it has answered a command of session `ss` that it took, with what R525 raises for it (R96, R100). -/
def State.answered (s : State) (m : Msg) (ss : Session) (kind key code : Nat) (data : List Byte) : State :=
  (s.reply m.port.val ss.num m.seq.toNat kind code data).hostEvent kind key code ss.num

/-- A message passes steps 1 to 6 of R97 as the next command of session `ss`, on a device that runs; `t` is the device that has
taken it. -/
abbrev Taken (m : Msg) (ss : Session) (s t : State) : Prop :=
  t = s.taken m ss ∧ s.dev = .running ∧ m.port.val < 2 ∧ s.frameOk m.port.val m.frame = true ∧ m.version = 1 ∧ msgFits m = true ∧
    msgClean m = true ∧ s.session m.session.toNat = some ss ∧ m.seq.toNat = ss.next ∧
    t.roleHeld m.role.toNat m.epoch.toNat = true

/-- A WRITE of `v` in `len` bytes to an entry passes R97 and R72 and is carried out by this part at once: the entry is not guarded,
the part is active or the entry its own, and nothing has to be mirrored first (R12, R415, R416). -/
abbrev Carried (m : Msg) (ss : Session) (key len v : Nat) (s t : State) : Prop :=
  Taken m ss s t ∧ m.length.toNat = 4 + len ∧ 1 ≤ len ∧ len ≤ 1024 ∧ guardedKey key = false ∧
    (t.mirrored = false ∨ partLocal key = true) ∧ (t.role = Role.active ∨ partLocal key = true) ∧
    t.writeCheck false key len v = none

/-- A KEEP value that the effect `u` of a write changed is noted (R75, R85). -/
def State.noted (t u : State) (key : Nat) : State :=
  match Dict.find key with
  | some d => if d.keep && d.acc != Dict.Acc.rwg && u.rd key != t.rd key then u.noteKeep key else u
  | none => u

/-- What follows the effect `u` of a WRITE to an entry: a KEEP value that changed is noted, the answer is OK (R75, R85, R96). -/
def State.carriedOut (t u : State) (m : Msg) (ss : Session) (key : Nat) : State :=
  (t.noted u key).answered m ss 0x11 key Ans.ok []

/-- The sequencer of channel `n` stands at a command word with opcode `op` that it may execute, finds no error in and hits no
breakpoint at (R143 to R145, R170, R513): `c` is the command. -/
abbrev Stands (s : State) (n op : Nat) (c : Cmd) : Prop :=
  s.dev = .running ∧ ((s.chan n).haltAt.isSome = true ∨ (s.chan n).brokeAt = some (s.rd (K.CS_PC n)) ∨
    s.breaksAt n 1 (· == s.rd (K.CS_PC n)) = []) ∧
    ∃ w, s.atCmd n = some w ∧ w % 256 = op ∧ s.cmdError n w = none ∧ decodeCmd w = some c

/-- Channel `n` may take up a chord: nothing runs or waits there, and no stop is due (R145, R210). -/
abbrev TakesChord (s : State) (n : Nat) : Prop :=
  (s.chan n).run = [] ∧ (s.chan n).cand = none ∧ (s.chan n).offAt = none ∧ (s.chan n).haltAt = none

/-- Channel `n` with a chord as its candidate, at the first sample instant the lead times allow (R145, R210). -/
def State.withCandidate (s : State) (n : Nat) (d : Chord) : State :=
  (s.setChan n { s.chan n with
    cand := some { Cand.blank (max (s.chan n).notBefore (s.nextSample (s.tm.tick + 320)) + 400 * decodeDelay (s.chan n).decodes) with
      chords := [(d, some ((s.cursor n).skip 1))] } }).syncSlots n

/-- A partner message arrives on a link in use with an epoch that is not behind; `t` is the device that has noted the epoch (R413). -/
abbrev Heard (p : PMsg) (s t : State) : Prop :=
  s.dev = .running ∧ (s.rd K.TWIN_LINKS).testBit p.link = true ∧ s.rd K.TWIN_EPOCH ≤ p.epoch.toNat ∧
    t = if s.role ≠ Role.active ∧ s.rd K.TWIN_EPOCH < p.epoch.toNat then
        State.setEpoch { s with tw := { s.tw with heard := true, seenEpoch := max p.epoch.toNat s.tw.seenEpoch } } p.epoch.toNat
      else { s with tw := { s.tw with heard := true, seenEpoch := max p.epoch.toNat s.tw.seenEpoch } }

/-- A mirrored message is the next in sequence on a STANDBY or SYNCING part; `u` is the device that has counted it (R410, R411). -/
abbrev NextMirror (q : BitVec 32) (t u : State) : Prop :=
  (t.role = Role.standby ∨ t.role = Role.syncing) ∧ (q.toNat + 2 ^ 32 - t.tw.seenSeq) % 2 ^ 32 = 1 ∧
    u = { t with tw := { t.tw with seenSeq := q.toNat } }

/-- A STAGE or CONCUR message is heard: it is taken, its authenticator is right, the entry is guarded, nothing has to be mirrored first
and this part is active or the entry its own (R416, R437, R439). -/
abbrev GuardHeard (m : Msg) (ss : Session) (s t : State) (kind key party proposal : Nat) (value auth : List Byte) : Prop :=
  Taken m ss s t ∧ m.length.toNat = 28 + value.length ∧ 1 ≤ value.length ∧ value.length ≤ 1024 ∧ auth.length = 16 ∧
    t.authOk kind key party proposal m.session.toNat value auth = true ∧ guardedKey key = true ∧
    (t.mirrored = false ∨ partLocal key = true) ∧ (t.role = Role.active ∨ partLocal key = true) ∧
    t.writeCheck false key value.length (leNat value) = none

/-- A STAGE or CONCUR message reaches the checks of its kind: it is heard, and its value lies in the entry's range (R432, R433, R437). -/
abbrev GuardTaken (m : Msg) (ss : Session) (s t : State) (kind key party proposal : Nat) (value auth : List Byte) : Prop :=
  GuardHeard m ss s t kind key party proposal value auth ∧ guardRange key (leNat value) = false

/-- A debug request of `n` bytes reaches its own checks: whole, unlocked, neither pending nor the last answered (R510 to R512). -/
abbrev DebugTaken (r : DbgReq) (s : State) (n : Nat) : Prop :=
  s.dev = .running ∧ r.crcOk = true ∧ r.resv = 0 ∧ r.length.toNat = n ∧ s.rd K.DBG_STATE ≠ 0 ∧
    (s.dbg.unlockEnd.any (fun t => decide (t ≤ s.tm.tick))) = false ∧ s.debugWaiting r.tag.toNat = false ∧
    s.dbg.last.map (·.1) ≠ some r.tag.toNat

/-- The answer to a command that failed a check before its session: SESSION 0 and no SEQ consumed (R96, R97). -/
def State.turnedAway (s : State) (m : Msg) (kind code : Nat) : State :=
  s.sendPort m.port.val (s.answerBytes 0 m.seq.toNat code kind s.now [])

/-- The device that has counted the frame of a message and noted its session's last frame (R91, R99, R101). -/
def State.heardFrom (s : State) (m : Msg) (ss : Session) : State :=
  (s.inc (K.RX_FRAMES m.port.val)).updSession ss.num fun x => { x with lastTick := s.tm.tick, lastPort := m.port.val }

/-- A frame with a message that passes steps 1 to 3 of R97 comes in on a host port of a running device. -/
abbrev Formed (m : Msg) (len : Nat) (s : State) : Prop :=
  s.dev = .running ∧ m.port.val < 2 ∧ s.frameOk m.port.val m.frame = true ∧ m.version = 1 ∧
    (m.length.toNat = 4 + len ∧ 1 ≤ len ∧ len ≤ 1024) ∧ msgFits m = true ∧ msgClean m = true

/-- Rows that act during start-up: inputs of the supply, the pins and the time (R502, R503). -/
def actsInStartUp : Instr → Bool
  | .tick | .powerOnReset _ | .startDone | .powerFail _ | .refclkLoss | .pornLow | .portLink _ _ | .interlockChange _ _
  | .discrepancy _ | .readbackFault _ _ _ => true
  | _ => false

/-- The rows that are WRITE messages of a host: the message, the entry it addresses, and the length and value it writes (R94). -/
def writeRow : Instr → Option (Msg × Nat × Nat × Nat)
  | .tick => none
  | .timeStep => none
  | .timeSel m v => some (m, K.TIME_SEL, 1, v.toNat)
  | .domNumber m d v => some (m, K.DOM_NUMBER d.val, 1, v.toNat)
  | .domainLost _ => none
  | .sync _ => none
  | .followUp _ => none
  | .delayReq _ => none
  | .delayResp _ => none
  | .announce _ _ => none
  | .pdelayReq _ => none
  | .pdelayResp _ => none
  | .pdelayRespFollowUp _ => none
  | .ttArm m n => some (m, K.TT_ARM n, 1, 1)
  | .ttDisarm m n => some (m, K.TT_ARM n, 1, 0)
  | .triggerFired _ => none
  | .journalWrite => none
  | .sealSpan => none
  | .read _ _ _ _ => none
  | .write m index sub value => some (m, index.toNat * 256 + sub.toNat, value.length, leNat value)
  | .keepStore m => some (m, K.KEEP_STORE, 4, 0x65766173)
  | .keepStoreDone _ => none
  | .keepRestore m => some (m, K.KEEP_RESTORE, 4, 0x746C6664)
  | .digestCurrent => none
  | .openSession _ _ _ => none
  | .closeSession _ => none
  | .ping _ => none
  | .noticeAck _ _ _ => none
  | .noticeResend _ _ => none
  | .sessionTimeout _ => none
  | .badKind _ _ => none
  | .stage _ _ _ _ _ _ _ => none
  | .concur _ _ _ _ _ _ _ => none
  | .guardExpired _ => none
  | .streamOpen m e => some (m, K.STREAM_CONTROL e, 1, 1)
  | .streamAbort m e => some (m, K.STREAM_CONTROL e, 1, 2)
  | .streamData _ _ _ _ => none
  | .streamEnd _ => none
  | .streamAckTimeout _ => none
  | .txtsRelease m p count => some (m, K.TXTS_RELEASE p.val, 1, count.toNat)
  | .cyclicEnable m v => some (m, K.CYCLIC_ENABLE, 1, v.toNat)
  | .cyclicSend => none
  | .cyclicReply _ _ _ _ _ _ _ => none
  | .driveSilent _ => none
  | .tcMap m tc request => some (m, K.TC_MAP tc, 16, request.toNat)
  | .tcUnmap m tc request => some (m, K.TC_UNMAP tc, 8, request.toNat)
  | .tcResume m tc => some (m, K.TC_RESUME tc, 1, 1)
  | .tcAbort m tc => some (m, K.TC_RESUME tc, 1, 2)
  | .dmaBeat _ => none
  | .accountingWindow => none
  | .windowPin _ => none
  | .memLoadPeakRead _ => none
  | .layerCommit m n => some (m, K.LAYER_COMMIT, 4, n.toNat)
  | .layerResume m n => some (m, K.LAYER_RESUME, 4, n.toNat)
  | .layerStart => none
  | .repairStart => none
  | .layerClosePhase => none
  | .headTableSwitch _ => none
  | .shareDecision => none
  | .dwellForced _ => none
  | .latch _ => none
  | .servoSample _ _ _ _ _ _ _ _ => none
  | .servoSampleMissing _ => none
  | .latticeDeposit => none
  | .chordComplete _ => none
  | .mark _ => none
  | .arc _ => none
  | .jump _ => none
  | .facet _ => none
  | .floatBody _ => none
  | .postingRelease _ => none
  | .claim _ => none
  | .waitTime _ => none
  | .waitTimeRelease _ => none
  | .waitEvent _ => none
  | .eventTimeout _ => none
  | .barrier _ => none
  | .setParam _ => none
  | .callProgram _ => none
  | .returnCall _ => none
  | .repeatBody _ => none
  | .marker _ => none
  | .layerClose _ => none
  | .halt _ => none
  | .badOpcode _ => none
  | .csResume m n => some (m, K.CS_CONTROL n, 1, 1)
  | .csSkip m n => some (m, K.CS_CONTROL n, 1, 2)
  | .arm m n => some (m, K.BC_CONTROL n, 1, 1)
  | .off m n => some (m, K.BC_CONTROL n, 1, 2)
  | .uncoveredWalk _ => none
  | .shareReissueWait => none
  | .luneEnable m l => some (m, K.LUNE_ENABLE l, 1, 1)
  | .lunePost m l => some (m, K.LUNE_POST l, 1, 1)
  | .rcsync _ => none
  | .recoatStall => none
  | .recoatCommand m => some (m, K.RECOAT_COMMAND, 1, 1)
  | .fxCommit m n slot => some (m, K.FX_COMMIT n slot, 1, 1)
  | .fxClear m n slot => some (m, K.FX_CLEAR n slot, 1, 1)
  | .passBoundary _ => none
  | .pinWaitRelease _ => none
  | .repairDone _ => none
  | .latClear m => some (m, K.LAT_CLEAR, 1, 1)
  | .latClearDone => none
  | .latEnable m => some (m, K.LAT_ENABLE, 1, 1)
  | .latDisable m => some (m, K.LAT_ENABLE, 1, 0)
  | .snapshotStart m => some (m, K.LAT_SNAP_CONTROL, 1, 1)
  | .snapshotAbort m => some (m, K.LAT_SNAP_CONTROL, 1, 2)
  | .snapshotTile => none
  | .refreshVisit _ => none
  | .tileFill _ => none
  | .tileWriteBack _ => none
  | .pcEnable m k => some (m, K.PC_ENABLE k.val, 1, 1)
  | .pcDisable m k => some (m, K.PC_ENABLE k.val, 1, 0)
  | .setApply m k => some (m, K.SET_APPLY k.val, 1, 1)
  | .sensorSliceStart _ _ _ _ _ _ => none
  | .sensorSlicePixels _ _ _ _ => none
  | .sensorSliceEnd _ _ _ => none
  | .cameraSliceStart _ _ _ _ _ _ => none
  | .cameraSlicePixels _ _ _ _ => none
  | .cameraSliceEnd _ _ _ => none
  | .frameTimeout _ => none
  | .frameMissing _ => none
  | .statsClose _ => none
  | .bedStripe _ => none
  | .bedFrameDone _ => none
  | .loopClose m l => some (m, K.LOOP_CONTROL l, 1, 1)
  | .loopHold m l => some (m, K.LOOP_CONTROL l, 1, 2)
  | .loopOpen m l => some (m, K.LOOP_CONTROL l, 1, 3)
  | .loopReset m l => some (m, K.LOOP_CONTROL l, 1, 4)
  | .loopTrip m l => some (m, K.LOOP_CONTROL l, 1, 5)
  | .loopSample _ => none
  | .loopDeadline _ _ => none
  | .rcClear m i => some (m, K.RC_CLEAR i, 1, 1)
  | .frameSlot => none
  | .idleFrame _ => none
  | .laneEnable m l v => some (m, K.LANE_ENABLE l.val, 1, v.toNat)
  | .phaseLock _ => none
  | .identRequest _ => none
  | .ident _ _ => none
  | .laneUp _ => none
  | .identFail _ => none
  | .linkLoss _ _ => none
  | .digest _ _ => none
  | .nodeEvent _ _ _ => none
  | .laneTxState m l v => some (m, K.LANE_TX_STATE l.val, 1, v.toNat)
  | .laneRxState m l v => some (m, K.LANE_RX_STATE l.val, 1, v.toNat)
  | .eyeStart m l => some (m, K.EYE_CONTROL l.val, 1, 1)
  | .eyeAbort m l => some (m, K.EYE_CONTROL l.val, 1, 2)
  | .eyePoint _ _ => none
  | .axEnable m k v => some (m, K.AX_ENABLE k, 1, v.toNat)
  | .signalFault _ _ => none
  | .signalRecovered _ => none
  | .axFaultAck m k => some (m, K.AX_FAULT_ACK k, 1, 1)
  | .axCountPreset m k v => some (m, K.AX_COUNT_PRESET k, 8, v.toNat)
  | .index _ _ => none
  | .axCorrected _ => none
  | .cmpArm m k c => some (m, K.CMP_ARM k c, 1, 1)
  | .cmpDisarm m k c => some (m, K.CMP_ARM k c, 1, 0)
  | .compare _ _ => none
  | .aoEnable m k v => some (m, K.AO_ENABLE k, 1, v.toNat)
  | .aoOverspeed _ => none
  | .lmEnable m v => some (m, K.LM_ENABLE, 1, v.toNat)
  | .rowSlot => none
  | .flashDone => none
  | .diagnosis _ _ => none
  | .lampOverdue _ => none
  | .wlAck m w => some (m, K.WL_ACK w, 1, 1)
  | .wlMode m w v => some (m, K.WL_MODE w, 1, v.toNat)
  | .twinActivate m => some (m, K.TWIN_COMMAND, 1, 1)
  | .twinDetach m => some (m, K.TWIN_COMMAND, 1, 2)
  | .twinJoin m => some (m, K.TWIN_COMMAND, 1, 3)
  | .twinStartTimeout => none
  | .heartbeatSend => none
  | .heartbeat _ _ => none
  | .partnerFailed => none
  | .takeover => none
  | .sampleCheck _ _ _ => none
  | .stale _ _ _ => none
  | .hostCommand _ _ _ _ => none
  | .mirrorEffect => none
  | .memoryWrite _ _ _ _ _ => none
  | .mapMirror _ _ _ _ _ _ => none
  | .decision _ _ _ _ => none
  | .latticeDelta _ _ _ _ => none
  | .loopState _ _ _ _ => none
  | .syncPage _ _ => none
  | .syncCopyDone => none
  | .syncState _ _ _ => none
  | .partnerDigest _ _ _ _ => none
  | .handover _ _ => none
  | .handoverEffect => none
  | .holdMirror _ _ => none
  | .digestRequestTimeout _ => none
  | .digestHoldRelease m => some (m, K.DIGEST_HOLD_RELEASE, 1, 1)
  | .interlockChange _ _ => none
  | .discrepancy _ => none
  | .readbackFault _ _ _ => none
  | .bpReadbackClear m v => some (m, K.BP_READBACK_CLEAR, 2, v.toNat)
  | .permitRestart m v => some (m, K.PERMIT_RESTART, 2, v.toNat)
  | .calLoad m => some (m, K.CAL_LOAD, 1, 1)
  | .calMeasureRegistration m mask => some (m, K.CAL_MEASURE, 4, 0x12000000 + mask.toNat)
  | .fiducialCapture => none
  | .calMeasurePoolDark m inst => some (m, K.CAL_MEASURE, 4, 0x20000000 + inst.toNat)
  | .calMeasureAxisTrim m inst => some (m, K.CAL_MEASURE, 4, 0x33000000 + inst.toNat)
  | .calMeasureLaneTrim m inst => some (m, K.CAL_MEASURE, 4, 0x31000000 + inst.toNat)
  | .calMeasured _ => none
  | .calMeasAbort m => some (m, K.CAL_MEAS_ABORT, 1, 1)
  | .candDiscard m i => some (m, K.CAND_DISCARD i.val, 1, 1)
  | .idleClose => none
  | .trimApply => none
  | .calStored _ => none
  | .thermalSample _ => none
  | .stopDone => none
  | .dtSensorAck m v => some (m, K.DT_SENSOR_ACK, 2, v.toNat)
  | .dtPeakRead _ => none
  | .powerOnReset _ => none
  | .startDone => none
  | .poolRecordsLoaded => none
  | .powerFail _ => none
  | .refclkLoss => none
  | .refclkRestart => none
  | .warmReset m => some (m, K.PWR_RESET_REQUEST, 4, 0x6D726177)
  | .pwrOrderFault m => some (m, K.PWR_ORDER_FAULT, 1, 0)
  | .vbatLow _ => none
  | .debugIdent _ => none
  | .debugRead _ _ _ _ => none
  | .debugWrite _ _ _ _ => none
  | .memRead _ _ _ _ => none
  | .memWrite _ _ _ _ => none
  | .journalPeek _ _ _ => none
  | .debugBadOp _ _ => none
  | .dbgLock m => some (m, K.DBG_LOCK, 1, 1)
  | .debugLocked => none
  | .debugHalt _ _ => none
  | .debugStep _ _ => none
  | .debugResume _ _ => none
  | .evClear m src => some (m, K.EV_CLEAR src.toNat, 1, 1)
  | .signalPresent _ => none
  | .portLink _ _ => none
  | .pornLow => none
  | .axisMotion _ _ => none
  | .masterSyncInterval => none

end Sys2Proof.Machine
end

