-- ==== Sys2Proof/Certificates/Slice0/Obligations.lean ====
section
/-! DEFINITION. The statements for the provers. Where a statement says what a command leads to, `settle` is the delivery of the
conditions it raised, `taken` the device that has counted a frame and consumed its SEQ, and `carriedOut` the note of a changed KEEP
value and the answer OK; the last three have statements of their own. -/

open Sys2Proof Sys2Proof.Machine

/-- The command at the front of the queue takes effect on the device with the queue's rest. -/
def Obligations.FrontCommandRuns : Prop :=
  ∀ (c : Instr) (s : State) (rest : List Instr), step { s with pending := c :: rest } = exec c { s with pending := rest }

/-- On an empty queue the block idles (the model's choice, notes/assumptions/1.md). -/
def Obligations.EmptyQueueIdles : Prop := ∀ s : State, s.pending = [] → step s = .next s

/-- TICK, TIME_STEP, TIME_SEL, DOM_NUMBER and DOMAIN_LOST complete (R30, R31, R40, R44 to R46, R48, R49). -/
def Obligations.TimeCommandsComplete : Prop :=
  ∀ (m : Msg) (ss : Session) (s t : State) (d : Fin 2) (v : BitVec 8),
    (s.dev = .running → exec .tick s = .next ((s.tickEff.keeperTick s.now).tickHooks).settle) ∧
    (s.dev = .starting → exec .tick s = .next (s.tickEff.keeperTick s.now).settle) ∧
    (s.dev = .running → s.phase = Phase.idle → s.rd (K.DOM_STATE (s.rd K.TIME_SEL)) = 2 →
      s.rd K.TIME_STEP_THRESHOLD * 16 < (accDiff ((s.dom (s.rd K.TIME_SEL)).timeAt s.tm.tick) s.acc / 2 ^ 32).natAbs →
      exec .timeStep s = .next { s with tm := { s.tm with stepDue := some (s.rd K.TIME_SEL) } }.settle) ∧
    (Carried m ss K.TIME_SEL 1 v.toNat s t →
      exec (.timeSel m v) s =
        .next (t.carriedOut (if t.rd K.TIME_SEL = v.toNat then t else t.selectDomain v.toNat) m ss K.TIME_SEL).settle) ∧
    (Carried m ss (K.DOM_NUMBER d.val) 1 v.toNat s t →
      exec (.domNumber m d v) s =
        .next (t.carriedOut ((((t.wr (K.DOM_NUMBER d.val) v.toNat).setDom d.val Domain.init).setDomState d.val 0).domainGone d.val)
          m ss (K.DOM_NUMBER d.val)).settle) ∧
    (s.dev = .running → (s.rd (K.DOM_STATE d.val) = 1 ∨ s.rd (K.DOM_STATE d.val) = 2) →
      (s.dom d.val).lastTick + s.rd (K.DOM_LOSS_INTERVALS d.val) * (s.dom d.val).interval ≤ s.tm.tick →
      exec (.domainLost d) s = .next ((s.setDomState d.val 3).domainGone d.val).settle)

/-- SYNC, FOLLOW_UP, DELAY_RESP and ANNOUNCE of a host port, DELAY_REQ of a drive port and the three peer-delay
messages complete (R112, R113): a good frame of a port that runs PTP in a domain in use has its effect. -/
def Obligations.PtpMessagesComplete : Prop :=
  ∀ (p : Ptp) (a : Announce) (s t : State) (d : Nat), s.dev = .running → t = s.inc (K.RX_FRAMES p.port.val) →
    s.ptpFrameOk p.port.val p.frame [0x88F7] = true → t.rd (K.PTP_ENABLE p.port.val) ≠ 0 → t.domOf p.domain.toNat = some d →
    (p.port.val < 2 → p.twoStep = true → (t.dom d).masterPort = p.port.val → ((t.dom d).master.map (·.source)) = some p.source →
      exec (.sync p) s = .next (t.setDom d { t.dom d with
        interval := if p.logInterval.toInt < 0 then 10 ^ 8 / 2 ^ p.logInterval.toInt.natAbs else 10 ^ 8 * 2 ^ p.logInterval.toInt.natAbs,
        pendingSync := ((PendingSync.mk p.port.val p.seqId.toNat t.tm.tick t.now (t.rd K.TIME_GEN)
          (divHalfAway (sgn 64 p.correction.toNat * 16) 65536)) :: (t.dom d).pendingSync).take 4 }).settle) ∧
    (∀ (y : PendingSync) (u : State),
      (t.dom d).pendingSync.find? (fun y => y.port == p.port.val && y.seq == p.seqId.toNat) = some y →
      ((t.dom d).master.map (·.source)) = some p.source →
      u = (t.setDom d { t.dom d with
        pendingSync := (t.dom d).pendingSync.filter fun y => !(y.port == p.port.val && y.seq == p.seqId.toNat) }) →
      ∀ w, w = (u.setPtp p.port.val { u.ptpPort p.port.val with
            t1 := ((ptpTime p true + y.corr) % 2 ^ 64).toNat, t2 := y.stamp }).acceptSync d
          ((ptpTime p true + y.corr + t.rdS 64 (K.PTP_MEAN_DELAY p.port.val) + t.rdS 32 (K.PTP_ASYMMETRY p.port.val)) * 2 ^ 32)
          y.tick y.stamp →
        exec (.followUp p) s = .next (if y.gen = w.rd K.TIME_GEN then w.startDelay p.port.val d else w).settle) ∧
    (2 ≤ p.port.val → d = t.rd K.TIME_SEL →
      exec (.delayReq p) s =
        .next (t.sendPtp p.port.val
          (ptpBytes p.port.val 9 p.domain.toNat p.seqId.toNat 0 0 t.ptpNow (toBE 10 p.source.toNat))).settle) ∧
    (p.port.val < 2 → (t.ptpPort p.port.val).reqOpen = true → (t.ptpPort p.port.val).reqSeq = p.seqId.toNat →
      (t.ptpPort p.port.val).reqDomain = d → (t.ptpPort p.port.val).reqMech = 1 →
      exec (.delayResp p) s = .next ((t.setPtp p.port.val { t.ptpPort p.port.val with reqOpen := false }).wrS 64
        (K.PTP_MEAN_DELAY p.port.val) (sgn 64 (uns 64 ((((t.ptpPort p.port.val).t2 : Int) - (t.ptpPort p.port.val).t1) +
          (ptpTime p false - divHalfAway (sgn 64 p.correction.toNat * 16) 65536 - (t.ptpPort p.port.val).reqStamp))) / 2)).settle) ∧
    (p.port.val < 2 → (t.dom d).heard = [] →
      exec (.announce p a) s = .next (((t.setDom d { t.dom d with
        heard := [(p.port.val, a)], master := some a, masterPort := p.port.val,
        pendingSync := if (t.dom d).masterPort = p.port.val then (t.dom d).pendingSync else [] }).hostPortState
          p.port.val d 2).hostPortState (1 - p.port.val) d 3).settle) ∧
    (exec (.pdelayReq p) s = .next ((t.sendPtpEvent p.port.val p.seqId.toNat
        (ptpBytes p.port.val 3 p.domain.toNat p.seqId.toNat 0x0200 0x7F t.ptpNow (toBE 10 p.source.toNat))).sendPtp p.port.val
      (ptpBytes p.port.val 0xA p.domain.toNat p.seqId.toNat 0 0x7F (t.sendPtpEvent p.port.val p.seqId.toNat
        (ptpBytes p.port.val 3 p.domain.toNat p.seqId.toNat 0x0200 0x7F t.ptpNow (toBE 10 p.source.toNat))).ptpNow
        (toBE 10 p.source.toNat))).settle) ∧
    ((t.ptpPort p.port.val).reqOpen = true → (t.ptpPort p.port.val).reqSeq = p.seqId.toNat → (t.ptpPort p.port.val).reqDomain = d →
      (t.ptpPort p.port.val).reqMech = 2 →
      exec (.pdelayResp p) s = .next (t.setPtp p.port.val { t.ptpPort p.port.val with
        respStamp := t.now,
        respRemote := (ptpTime p true % 2 ^ 64).toNat, respSeq := p.seqId.toNat, respOpen := true }).settle) ∧
    ((t.ptpPort p.port.val).respOpen = true → (t.ptpPort p.port.val).respSeq = p.seqId.toNat → (t.ptpPort p.port.val).reqDomain = d →
      exec (.pdelayRespFollowUp p) s = .next ((t.setPtp p.port.val { t.ptpPort p.port.val with reqOpen := false, respOpen := false }).wrS 64
        (K.PTP_MEAN_DELAY p.port.val) (sgn 64 (uns 64 ((((t.ptpPort p.port.val).respStamp : Int) - (t.ptpPort p.port.val).reqStamp) -
          (ptpTime p true - (t.ptpPort p.port.val).respRemote))) / 2)).settle)

/-- The master's interval, TXTS_RELEASE and the time triggers complete (R53 to R55, R113, R114). -/
def Obligations.MasterAndTriggerCommandsComplete : Prop :=
  ∀ (m : Msg) (ss : Session) (s t : State) (p : Fin 4) (count : BitVec 8) (n : Fin 64),
    (s.dev = .running → s.masterDue 2 = true ∨ s.masterDue 3 = true →
      exec .masterSyncInterval s = .next ((if s.masterDue 2 then s.masterSend 2 else s).masterPort 3).settle) ∧
    (Carried m ss (K.TXTS_RELEASE p.val) 1 count.toNat s t → count.toNat ≤ (t.ptpPort p.val).txts.length →
      exec (.txtsRelease m p count) s = .next (t.carriedOut
        (t.setPtp p.val { t.ptpPort p.val with txts := (t.ptpPort p.val).txts.drop count.toNat }) m ss (K.TXTS_RELEASE p.val)).settle) ∧
    (Carried m ss (K.TT_ARM n) 1 1 s t → triggerTarget (t.rd (K.TT_ACTION n)) (t.rd (K.TT_TARGET n)) = true →
      exec (.ttArm m n) s =
        .next (t.carriedOut (if t.rd (K.TT_ARM n) = 1 then t else t.armTrigger n) m ss (K.TT_ARM n)).settle) ∧
    (Carried m ss (K.TT_ARM n) 1 0 s t → t.rd (K.TT_ARM n) = 1 →
      exec (.ttDisarm m n) s =
        .next (t.carriedOut ((t.wr (K.TT_ARM n) 0).setTrigger n Trigger.init) m ss (K.TT_ARM n)).settle) ∧
    (s.dev = .running → s.triggerDue n = true →
      exec (.triggerFired n) s = .next ((s.fireTrigger n).deliver (s.rd (K.TT_ACTION n)) (s.rd (K.TT_TARGET n))).settle)


/-- The state right after reset keeps the canonical form (notes/assumptions/2.md). -/
def Obligations.ResetIsCanonical : Prop := State.reset.Canonical

/-- The state right after reset: start-up has begun, no command waits, no session is open, nothing is stored, and every entry reads its
default. Entries whose default the spec does not give read the values of notes/assumptions/3.md. -/
def Obligations.ResetReadsDefaults : Prop :=
  State.reset.dev = .starting ∧ State.reset.pending = [] ∧ State.reset.sessions = [] ∧ State.reset.sent = [] ∧
    (∀ k, State.reset.rd k = Dict.dflt k) ∧ (∀ a < 2 ^ 34, State.reset.physByte a = 0) ∧ (∀ tc jp, State.reset.page tc jp = none) ∧
    ∀ n < 16, State.reset.rd (K.BC_STATE n) = Bc.off ∧ State.reset.permit n = false

/-- Every step takes exactly the front command off the queue and keeps dictionary, memory and lattice in canonical form. -/
def Obligations.EveryStepKeepsTheForm : Prop :=
  ∀ (c : Instr) (s : State) (rest : List Instr), s.pending = c :: rest → s.Canonical →
    ∃ t, step s = .next t ∧ t.pending = rest ∧ t.Canonical

/-- A device held in reset stays there with every permit withdrawn, whatever is commanded, until PORN is released (R494). -/
def Obligations.HeldDeviceStaysHeld : Prop := ∀ s t : State, s.HeldInReset → step s = .next t → t.HeldInReset

/-- On a device held in reset only PORN, its release and a REFCLK restart do anything. -/
def Obligations.HeldDeviceOnlyRestarts : Prop :=
  ∀ (c : Instr) (s : State), s.dev = .held → (∀ p, c ≠ .powerOnReset p) → c ≠ .refclkRestart → c ≠ .pornLow → exec c s = .next s

/-- During start-up nothing acts but time, supply and pin inputs: no host, debug or partner command is carried out or answered before
the dictionary is ready (the model's reading of R502, notes/assumptions/7.md). -/
def Obligations.StartUpAnswersNoOne : Prop :=
  ∀ (c : Instr) (s : State), s.dev = .starting → actsInStartUp c = false → exec c s = .next s

/-- Dictionaries and memories in canonical form that read alike are equal. -/
def Obligations.CanonicalStoresAgree : Prop :=
  (∀ s t : State, s.Canonical → t.Canonical → (∀ k, s.rd k = t.rd k) → s.od = t.od) ∧
    ∀ m n : Mem, Memory.wf m → Memory.wf n → (∀ a, Tab.get (fun _ => 0) m.bytes a = Tab.get (fun _ => 0) n.bytes a) → m.bytes = n.bytes

/-- An entry reads what was written to it last, and a write changes no other entry. -/
def Obligations.EntriesReadBack : Prop :=
  ∀ (s : State) (k j v : Nat), (s.wr k v).rd k = v ∧ (j ≠ k → (s.wr k v).rd j = s.rd j)

/-- A number within its length reads back from its little-endian bytes (R9). -/
def Obligations.NumbersReadBack : Prop :=
  (∀ n v : Nat, leNat (toLE n v) = v % 256 ^ n) ∧ ∀ b : List Byte, toLE b.length (leNat b) = b

/-- A debug write to memory stores its bytes and no others, where no page stands as lattice cells and no two addresses share a byte (R121, R511). -/
def Obligations.MemoryWriteStoresItsBytes : Prop :=
  ∀ (r : DbgReq) (s t : State) (tc : BitVec 8) (a : BitVec 64) (data : List Byte) (f : Nat → Nat), DebugTaken r s (12 + data.length) →
    a.toNat < 2 ^ 40 → tc.toNat < 192 → 1 ≤ data.length → data.length ≤ 1024 → s.role = Role.active → s.mirrored = false →
    s.debugRange tc.toNat a.toNat data.length true = 0 → (∀ i < data.length, s.asCells (f i / 65536) = false) →
    (∀ i < data.length, s.translate tc.toNat (a.toNat + i) = some (f i)) → (∀ i < data.length, ∀ j < data.length, f i = f j → i = j) →
    exec (.memWrite r tc a data) s = .next t →
      (∀ i < data.length, t.physByte (f i) = data.getD i 0) ∧ ∀ x, (∀ i < data.length, f i ≠ x) → t.physByte x = s.physByte x

/-- A cell within its field widths reads back from its memory image, and an image with zero reserved bits from its cell (R256). -/
def Obligations.CellImagesReadBack : Prop :=
  (∀ (c : Cell) (lock : Nat), c.heat < 2 ^ 16 → c.stamp < 2 ^ 32 → c.dose < 2 ^ 16 → c.peak < 2 ^ 16 → c.lastCh < 16 → c.tag < 256 →
    Cell.ofImage (c.image lock) = c) ∧
  ∀ v : Nat, v < 2 ^ 104 → v.testBit 95 = false → (Cell.ofImage v).image (bits v 88 84) = v

/-- The lane scrambler (R341): its seed, its step, and that descrambling with the same sequence gives the data back. -/
def Obligations.ScramblerFollowsItsRule : Prop :=
  ∀ (h v : Nat) (b : Bool) (l : List Bool),
    (scrambleSeed h = if (h * 0x9E3779B1) % 2 ^ 32 >>> 1 = 0 then 1 else (h * 0x9E3779B1) % 2 ^ 32 >>> 1) ∧
    scramble v (b :: l) = (b ^^ (v.testBit 30 ^^ v.testBit 27)) ::
      scramble (((v <<< 1) ||| (v.testBit 30 ^^ v.testBit 27).toNat) % 2 ^ 31) l ∧
    scramble v (scramble v l) = l

/-- The sync token opens each frame, and its run of nine ones appears nowhere else on the line (R339, R342). -/
def Obligations.SyncTokenStandsAlone : Prop :=
  syncToken = [false, true, true, true, true, true, true, true, true, true, false, false, true, false, true, false] ∧
    ∀ (header : Nat) (payload : List Byte) (i : Nat), (frameLine header payload).take 16 = syncToken ∧
      ((∀ j < 9, (frameLine header payload)[i + j]? = some true) → i = 1)

/-- What the delivery of raised conditions can change: the state of the sequencers it wakes, their reported activity and wait,
repetitive slot indexes, and the lists of conditions (R47, R48, R158). -/
def Obligations.DeliveryFrame : Prop :=
  ∀ s : State,
    s.settle = { s with
      od := s.settle.od, chans := s.settle.chans, ev := { s.ev with hits := [], recent := s.settle.ev.recent } } ∧
    ∀ k, (∀ n < 16, k ∉ [K.CS_ACTIVITY n, K.BC_SHARE_WAIT n, K.BC_SHARE_AGE n, K.BC_SHARE_BLOCKER n, K.CS_PC n, K.CS_OFFSET_X n,
        K.CS_OFFSET_Y n, K.CS_DEPTH n]) → (∀ i < 32, k ≠ K.RC_INDEX i) → s.settle.rd k = s.rd k

/-- What answering a command that wrote an entry changes beyond its effect: frame counts, event and notice entries, the keeping state
and the digest state; memory, lattice, channels, time and the command queue stay (R75, R85, R96, R525). -/
def Obligations.AnswerFrame : Prop :=
  ∀ (m : Msg) (ss : Session) (t u : State) (key : Nat) (w : State), w = t.carriedOut u m ss key → m.port.val < 2 →
    (∀ k, eventKey k = false → k ≠ K.TX_FRAMES m.port.val → k ≠ K.KEEP_STATE → k ≠ K.NODE_DIGEST_STATE → w.rd k = u.rd k) ∧
    w = { u with
      od := w.od, ev := w.ev, kp := w.kp, sessions := w.sessions, sent := w.sent }

/-- A WRITE that fails a check of R97, R100 or R72 has no effect but its answer; one that a partner must follow waits (R416). -/
def Obligations.WritesAreCheckedFirst : Prop :=
  ∀ (c : Instr) (m : Msg) (key len v : Nat) (s : State) (ss : Session) (t w : State), writeRow c = some (m, key, len, v) →
    s.dev = .running → s.pw.warm = false → t = s.inc (K.RX_FRAMES m.port.val) → w = s.heardFrom m ss →
    (2 ≤ m.port.val ∨ s.frameOk m.port.val m.frame = false → exec c s = .next (s.inc (K.RX_DROPPED m.port.val)).settle) ∧
    (m.port.val < 2 → s.frameOk m.port.val m.frame = true → m.version ≠ 1 →
      exec c s = .next (t.turnedAway m 0x11 Ans.badVersion).settle) ∧
    (m.port.val < 2 → s.frameOk m.port.val m.frame = true → m.version = 1 →
      ¬ ((m.length.toNat = 4 + len ∧ 1 ≤ len ∧ len ≤ 1024) ∧ msgFits m = true ∧ msgClean m = true) →
      exec c s = .next (t.turnedAway m 0x11 Ans.malformed).settle) ∧
    (Formed m len s → s.session m.session.toNat = none → exec c s = .next (t.turnedAway m 0x11 Ans.noSession).settle) ∧
    (Formed m len s → s.session m.session.toNat = some ss → m.seq.toNat ≠ ss.next →
      (∀ b, (ss.next + 2 ^ 32 - m.seq.toNat) % 2 ^ 32 ≤ 64 → ss.cache.find? (fun c => c.1 == m.seq.toNat) = some (m.seq.toNat, b) →
        exec c s = .next (w.sendPort m.port.val (b.take 2 ++ [(1 : Byte)] ++ b.drop 3)).settle) ∧
      (64 < (ss.next + 2 ^ 32 - m.seq.toNat) % 2 ^ 32 ∨ ss.cache.find? (fun c => c.1 == m.seq.toNat) = none →
        (w.mirrors.any (fun r => r.waitsFor ss.num m.seq.toNat) = false → exec c s = .next (w.sendPort m.port.val
          (w.answerBytes ss.num m.seq.toNat Ans.seqGap 0x11 w.now (toLE 4 ss.next))).settle) ∧
        (w.mirrors.any (fun r => r.waitsFor ss.num m.seq.toNat) = true → exec c s = .next (State.settle { w with
          mirrors := w.mirrors.map fun r => if r.waitsFor ss.num m.seq.toNat then { r with dups := r.dups ++ [m.port.val] } else r })))) ∧
    (Formed m len s → s.session m.session.toNat = some ss → m.seq.toNat = ss.next →
      (s.taken m ss).roleHeld m.role.toNat m.epoch.toNat = false →
      exec c s = .next ((s.taken m ss).answered m ss 0x11 key Ans.roleStale []).settle) ∧
    (Formed m len s → Taken m ss s (s.taken m ss) → guardedKey key = true →
      exec c s = .next ((s.taken m ss).answered m ss 0x11 key Ans.kindMismatch []).settle) ∧
    (∀ code, Formed m len s → Taken m ss s (s.taken m ss) → guardedKey key = false →
      ((s.taken m ss).mirrored = false ∨ partLocal key = true) → (s.taken m ss).writeCheck false key len v = some code →
      exec c s = .next ((s.taken m ss).answered m ss 0x11 key code []).settle) ∧
    (Formed m len s → Taken m ss s (s.taken m ss) → guardedKey key = false → (s.taken m ss).mirrored = true → partLocal key = false →
      ∃ body bytes, exec c s = .next ((s.taken m ss).defer m 0x11 key 0 0 body bytes).settle ∧ leNat bytes = v % 256 ^ len)

/-- No WRITE row changes a guarded entry (R12, R446). -/
def Obligations.WritesLeaveGuardedEntries : Prop :=
  ∀ (c : Instr) (m : Msg) (key len v : Nat) (s t : State), writeRow c = some (m, key, len, v) → guardedKey key = true →
    s.pw.warm = false → exec c s = .next t → t.rd key = s.rd key

/-- A proposed party key is refused when it is all zeros, when the other slot holds it, and when a proposal for the other slot waits
with it (R433). -/
def Obligations.ProposedKeysDiffer : Prop :=
  ∀ (m : Msg) (ss : Session) (s t : State) (index : BitVec 16) (sub party : BitVec 8) (proposal : BitVec 32) (value auth : List Byte)
    (key other : Nat), key = index.toNat * 256 + sub.toNat →
    (key = K.PARTY_KEY_0 ∧ other = K.PARTY_KEY_1 ∨ key = K.PARTY_KEY_1 ∧ other = K.PARTY_KEY_0) →
    GuardHeard m ss s t 0x12 key party.toNat proposal.toNat value auth →
    (t.rd key = 0 → t.commissions key party.toNat = true) →
    (t.rd key ≠ 0 → mayStage (t.rd K.GUARD_MAP) (guardClass key) party.toNat = true) → t.rd K.GUARD_PROPOSAL_LAST < proposal.toNat →
    (leNat value = 0 → exec (.stage m index sub party proposal value auth) s =
      .next (t.answered m ss 0x12 key Ans.outOfRange []).settle) ∧
    (leNat value ≠ 0 → (t.rd other = leNat value ∨ ∃ e, t.proposalFor other = some e ∧ leNat e.2.value = leNat value) →
      exec (.stage m index sub party proposal value auth) s = .next (t.answered m ss 0x12 key Ans.refused []).settle)

/-- PERMIT_RESTART is refused, and raises nothing, unless every requested channel's permit conditions hold (R444). -/
def Obligations.RestartNeedsEveryCondition : Prop :=
  ∀ (m : Msg) (ss : Session) (s t : State) (v : BitVec 16), Carried m ss K.PERMIT_RESTART 2 v.toNat s t →
    (∃ n < 16, v.toNat.testBit n = true ∧ t.permitOk n = false) →
    exec (.permitRestart m v) s = .next (t.answered m ss 0x11 K.PERMIT_RESTART Ans.refused []).settle ∧
      ∀ n, (t.answered m ss 0x11 K.PERMIT_RESTART Ans.refused []).settle.permit n = s.permit n

/-- PORN low, a failed rail and a lost REFCLK leave no permit raised (R494, R444). -/
def Obligations.SupplyLossWithdrawsEveryPermit : Prop :=
  ∀ (s t : State) (rails : BitVec 10), s.rd K.BP_STATE < 65536 →
    (exec .pornLow s = .next t → t.rd K.BP_STATE = 0 ∧ t.dev = .held) ∧
    (s.dev ≠ .held → rails.toNat % 512 ≠ 0 → exec (.powerFail rails) s = .next t → t.rd K.BP_STATE = 0 ∧ t.dev = .held) ∧
    (s.dev ≠ .held → exec .refclkLoss s = .next t → t.rd K.BP_STATE = 0 ∧ t.dev = .held)

/-- An AXIS_LATCH firing of a time trigger (R373): the count and the stamp are latched on the firing tick and TRIG_LATCH is raised. -/
def Obligations.TriggerLatchesTheCount : Prop :=
  ∀ (s u : State) (n : Fin 64) (k : Nat), s.dev = .running → s.triggerDue n = true → s.rd (K.TT_ACTION n) = 5 →
    s.rd (K.TT_TARGET n) = k → k < 4 → u = s.fireTrigger n → ∃ v w : State, exec (.triggerFired n) s = .next w.settle ∧
      w = v.raise (srcAxis k) 0x00C9 4 k (s.rd (K.AX_COUNT k)) ∧ w.settle.rd (K.AX_TRIG_LATCH k) = s.rd (K.AX_COUNT k) ∧
      w.settle.rd (K.AX_TRIG_STAMP k) = s.now ∧ (srcAxis k, 0x00C9, s.tm.tick) ∈ w.settle.ev.recent

/-- An index pulse that stays for the filter length latches the count and the stamp of its first tick, counts itself, and leaves the
count alone; a shorter one does nothing (R46, R370). -/
def Obligations.IndexPulseLeavesTheCount : Prop :=
  ∀ (s : State) (k : Fin 4) (delay : BitVec 8), s.dev = .running → s.rd (K.AX_ENABLE k.val) ≠ 0 →
    (delay.toNat < s.rd K.PIN_FILTER_INDEX → exec (.index k delay) s = .next s.settle) ∧
    (s.rd K.PIN_FILTER_INDEX ≤ delay.toNat → (delay.toNat = 0 ∨ (s.axis k.val).enabledAt < s.tm.tick - delay.toNat) →
      ∃ t : State, exec (.index k delay) s = .next t ∧
      t.rd (K.AX_INDEX_LATCH k.val) = uns 64 (s.latchAtTick k.val (s.tm.tick - delay.toNat)) ∧
      t.rd (K.AX_INDEX_STAMP k.val) = s.timeAt (s.tm.tick - delay.toNat) ∧
      t.rd (K.AX_INDEX_COUNT k.val) = (s.rd (K.AX_INDEX_COUNT k.val) + 1) % 2 ^ 32 ∧ t.rd (K.AX_COUNT k.val) = s.rd (K.AX_COUNT k.val) ∧
      (t.axis k.val).ref = (if (s.jumpsFrom k.val (s.tm.tick - delay.toNat)).any (fun j => j.2.2.2) then none
        else some (s.countAt k.val (s.tm.tick - delay.toNat))) ∧ t.mem = s.mem ∧ t.lat = s.lat)

/-- AX_COUNT_PRESET (R369): refused unless the axis is at rest and VALID or UNCERTAIN; else it sets the count and the status and clears
the pending correction and the index reference. -/
def Obligations.PresetSetsTheCount : Prop :=
  ∀ (m : Msg) (ss : Session) (s t : State) (k : Fin 4) (v : BitVec 64), Carried m ss (K.AX_COUNT_PRESET k.val) 8 v.toNat s t →
    ((t.atRest k.val = false ∨ t.rd (K.AX_STATUS k.val) ≠ 1 ∧ t.rd (K.AX_STATUS k.val) ≠ 3) →
      exec (.axCountPreset m k v) s = .next (t.answered m ss 0x11 (K.AX_COUNT_PRESET k.val) Ans.refused []).settle) ∧
    (t.atRest k.val = true → (t.rd (K.AX_STATUS k.val) = 1 ∨ t.rd (K.AX_STATUS k.val) = 3) →
      ∃ u : State, exec (.axCountPreset m k v) s = .next u ∧ u.rd (K.AX_COUNT k.val) = v.toNat ∧ u.rd (K.AX_CORR_PENDING k.val) = 0 ∧
        (u.axis k.val).ref = none ∧ u.mem = s.mem ∧
        (-2147483648 ≤ t.scaled k.val v.toInt → t.scaled k.val v.toInt ≤ 2147483647 → u.rd (K.AX_STATUS k.val) = 1))

/-- JOURNAL_PEEK (R512): blocks of the ring, JOURNAL_READ_SEQ as it was, OUT_OF_RANGE unless every block lies within the ring. -/
def Obligations.PeekLeavesTheReadNumber : Prop :=
  ∀ (r : DbgReq) (s : State) (q : BitVec 32) (blocks : BitVec 8) (d : Nat), DebugTaken r s 8 → 1 ≤ blocks.toNat → blocks.toNat ≤ 32 →
    d = (s.rd K.JOURNAL_WRITE_SEQ + 2 ^ 32 - q.toNat) % 2 ^ 32 → ∃ t : State, exec (.journalPeek r q blocks) s = .next t ∧
      t.rd K.JOURNAL_READ_SEQ = s.rd K.JOURNAL_READ_SEQ ∧
      (d < blocks.toNat ∨ s.rd K.JOURNAL_SIZE / 32 < d → t = (s.debugDone r.tag.toNat Ans.outOfRange []).settle) ∧
      (blocks.toNat ≤ d → d ≤ s.rd K.JOURNAL_SIZE / 32 →
        (∀ i < blocks.toNat, (s.readMem 57 (s.rd K.JOURNAL_BASE + (q.toNat + i) % (s.rd K.JOURNAL_SIZE / 32) * 32) 32).isSome) →
        t = (s.debugDone r.tag.toNat Ans.ok ((List.range blocks.toNat).flatMap fun i =>
          (s.readMem 57 (s.rd K.JOURNAL_BASE + (q.toNat + i) % (s.rd K.JOURNAL_SIZE / 32) * 32) 32).getD [])).settle)

/-- When the debug port locks (R514): every breakpoint is disarmed, every pending halt is cancelled, and no channel changes its state, so
that one in HOLD with cause DEBUG stays in it. -/
def Obligations.LockDisarmsAndCancels : Prop :=
  ∀ (s : State) (tick : Nat), s.dev = .running → s.dbg.unlockEnd = some tick → tick ≤ s.tm.tick → s.rd K.DBG_STATE ≠ 0 →
    ∃ t : State, exec .debugLocked s = .next t ∧ t.rd K.DBG_STATE = 0 ∧ t.dbg.unlockEnd = none ∧
      ∀ n < 16, (∀ b < 8, t.rd (K.BRK_KIND n b) = 0) ∧ (t.chan n).haltAt = none ∧ (t.chan n).stepping = false ∧
        t.rd (K.BC_STATE n) = s.rd (K.BC_STATE n) ∧ t.rd (K.CS_HOLD_CAUSE n) = s.rd (K.CS_HOLD_CAUSE n)

/-- Entering ACTIVE (R406, R408): the role is shown, and the role epoch is one above every epoch this part holds or has seen. -/
def Obligations.ActivationRaisesTheEpoch : Prop :=
  ∀ (m : Msg) (ss : Session) (s t : State), Carried m ss K.TWIN_COMMAND 1 1 s t → t.role = Role.detached →
    t.rd K.TWIN_PARTNER_ROLE ≠ Role.active → max (t.rd K.TWIN_EPOCH) t.tw.seenEpoch + 1 < 2 ^ 32 →
    ∃ u : State, exec (.twinActivate m) s = .next u ∧ u.role = Role.active ∧
      u.rd K.TWIN_EPOCH = max (t.rd K.TWIN_EPOCH) t.tw.seenEpoch + 1 ∧ s.rd K.TWIN_EPOCH < u.rd K.TWIN_EPOCH

/-- A write of TC_RESERVE is refused when the sum over all contexts would exceed 51,200 MB/s, and else shown in the sum (R129). -/
def Obligations.ReservationsStayWithinTheSum : Prop :=
  ∀ (m : Msg) (ss : Session) (s t : State) (tc : Fin 192) (index : BitVec 16) (sub : BitVec 8) (value : List Byte),
    index.toNat * 256 + sub.toNat = K.TC_RESERVE tc.val →
    Carried m ss (K.TC_RESERVE tc.val) value.length (leNat value) s t → s.pw.warm = false →
    (51200 < (t.wr (K.TC_RESERVE tc.val) (leNat value)).reserveSum →
      exec (.write m index sub value) s = .next (t.answered m ss 0x11 (K.TC_RESERVE tc.val) Ans.refused []).settle) ∧
    ((t.wr (K.TC_RESERVE tc.val) (leNat value)).reserveSum ≤ 51200 → ∃ u : State, exec (.write m index sub value) s = .next u ∧
      u.rd (K.TC_RESERVE tc.val) = leNat value ∧ u.reserveSum ≤ 51200 ∧ u.rd K.MEM_RESERVE_SUM = u.reserveSum)

/-- The worked example of a MARK decodes to its fields (R147), and the path of a mark is the rounded linear one (R176). -/
def Obligations.MarkReadsAsWorked : Prop :=
  decodeCmd (leNat [0x01, 0x00, 0x00, 0xC0, 0x00, 0x1B, 0xB7, 0x00, 0x20, 0x98, 0xCA, 0xFF, 0x00, 0x00, 0x00, 0x00]) =
      some (.mark 12000000 (-3500000) 0 0xC000 false false) ∧
    lerp 0 12000000 1 400 = 30000 ∧ lerp 0 (-3) 1 2 = -2 ∧ lerp 0 3 1 2 = 2
/-- READ, WRITE, the session commands, NOTICE_ACK, NOTICE_RESEND and BAD_KIND complete (R72, R94 to R106); a PTP message of a type the
device does not use is counted and ignored (R112). -/
def Obligations.HostMessagesComplete : Prop :=
  ∀ (m : Msg) (ss : Session) (s t : State),
    (∀ (index : BitVec 16) (sub : BitVec 8) (r : Dict.Row), Taken m ss s t → m.length.toNat = 4 →
      Dict.indexExists index.toNat = true → sub.toNat ≠ 0 → Dict.find (index.toNat * 256 + sub.toNat) = some r →
      t.groupOk (index.toNat * 256 + sub.toNat) = true → r.acc ≠ Dict.Acc.wo → keyEntry (index.toNat * 256 + sub.toNat) = false →
      exec (.read m index sub 0) s = .next ((t.afterRead (index.toNat * 256 + sub.toNat)).answered m ss 0x10
        (index.toNat * 256 + sub.toNat) Ans.ok (toLE r.len (t.value (index.toNat * 256 + sub.toNat)))).settle) ∧
    (∀ (index : BitVec 16) (sub : BitVec 8) (value : List Byte) (u : State),
      Carried m ss (index.toNat * 256 + sub.toNat) value.length (leNat value) s t →
      writeEffect false m.session.toNat m.port.val (index.toNat * 256 + sub.toNat) (leNat value) t = (Ans.ok, u) →
      exec (.write m index sub value) s = .next (t.carriedOut u m ss (index.toNat * 256 + sub.toNat)).afterReset.settle) ∧
    (∀ (host : BitVec 64) (credit : BitVec 16), s.dev = .running → t = s.inc (K.RX_FRAMES m.port.val) → m.port.val < 2 →
      s.frameOk m.port.val m.frame = true → m.version = 1 → m.length = 12 → msgFits m = true → msgClean m = true → m.session = 0 →
      m.seq = 0 → t.roleHeld m.role.toNat m.epoch.toNat = true → (∀ x ∈ t.sessions, x.hostId ≠ host.toNat) →
      t.sessions.length < t.rd K.SESSION_LIMIT →
      exec (.openSession m host credit) s = .next (t.openNew m.port.val 0 host.toNat credit.toNat).settle) ∧
    (Taken m ss s t → m.length = 0 →
      exec (.closeSession m) s = .next ((t.closeSession m.session.toNat 1).answered m ss 0x02 0 Ans.ok []).settle) ∧
    (Taken m ss s t → m.length = 0 → exec (.ping m) s = .next (t.answered m ss 0x03 0 Ans.ok []).settle) ∧
    (∀ (ack : BitVec 32) (credit : BitVec 16), s.dev = .running → m.port.val < 2 → s.frameOk m.port.val m.frame = true → m.version = 1 →
      m.length = 8 → msgFits m = true → msgClean m = true → m.seq = 0 → s.session m.session.toNat = some ss →
      exec (.noticeAck m ack credit) s = .next (((s.inc (K.RX_FRAMES m.port.val)).updSession ss.num fun x =>
        { x with
          lastTick := s.tm.tick, lastPort := m.port.val, ackSeq := min ack.toNat ss.sentSeq,
          credit := min credit.toNat (s.rd K.NOTICE_CREDIT_MAX) }).freeNotices.pump).settle) ∧
    (∀ (num : BitVec 16) (number : BitVec 32) (n : Notice) (x : Nat × Nat × Nat), s.dev = .running → s.session num.toNat = some ss →
      ss.ackSeq < number.toNat →
      s.ev.queue.find? (fun n => n.sent.any fun x => x.1 == num.toNat && x.2.1 == number.toNat) = some n →
      n.sent.find? (fun x => x.1 == num.toNat && x.2.1 == number.toNat) = some x →
      x.2.2 + s.rd K.NOTICE_RESEND * 100000 ≤ s.tm.tick →
      ∀ q, q = s.ev.queue.map (fun (k : Notice) => { k with sent := k.sent.map fun y =>
          if y.1 == num.toNat && y.2.1 == number.toNat then (num.toNat, number.toNat, s.tm.tick) else y }) →
        exec (.noticeResend num number) s =
          .next (({ s with ev := { s.ev with queue := q } } : State).sendNotice ss n number.toNat true).settle) ∧
    (∀ num : BitVec 16, s.dev = .running → s.session num.toNat = some ss → ss.lastTick + s.rd K.SESSION_TIMEOUT * 100000 ≤ s.tm.tick →
      exec (.sessionTimeout num) s = .next (s.closeSession num.toNat 3).settle) ∧
    (∀ kind : BitVec 8, s.dev = .running → m.port.val < 2 → s.frameOk m.port.val m.frame = true → listedKind kind.toNat = false →
      s.ignoredPtp m.port.val m.frame kind.toNat = false →
      t = s.inc (K.RX_FRAMES m.port.val) → m.version = 1 →
      exec (.badKind m kind) s =
        .next (t.sendPort m.port.val (t.answerBytes 0 m.seq.toNat Ans.badKind kind.toNat t.now [])).settle) ∧
    (∀ kind : BitVec 8, s.dev = .running → s.ignoredPtp m.port.val m.frame kind.toNat = true →
      exec (.badKind m kind) s =
        .next ((s.inc (K.RX_FRAMES m.port.val)).inc (K.PTP_RX_IGNORED m.port.val)).settle)

/-- STAGE of an entry without a proposal takes a free slot and is answered STAGED; CONCUR by the other party writes the entry; a
proposal expires after its time (R12, R437 to R440). -/
def Obligations.GuardCommandsComplete : Prop :=
  ∀ (m : Msg) (ss : Session) (s t : State) (index : BitVec 16) (sub party : BitVec 8) (proposal : BitVec 32) (value auth : List Byte),
    (∀ (i : Nat) (u : State), GuardTaken m ss s t 0x12 (index.toNat * 256 + sub.toNat) party.toNat proposal.toNat value auth →
      t.stageCheck (index.toNat * 256 + sub.toNat) party.toNat proposal.toNat (leNat value) = none →
      t.proposalFor (index.toNat * 256 + sub.toNat) = none →
      (List.range 8).find? (fun i => (Tab.get (fun _ => none) t.staged i).isNone) = some i →
      u = { t with staged := Tab.set (fun _ => none) t.staged i (some
        { key := index.toNat * 256 + sub.toNat, proposal := proposal.toNat, party := party.toNat, session := m.session.toNat,
          tick := t.tm.tick, stamp := t.now, value := value }) } →
      exec (.stage m index sub party proposal value auth) s = .next ((((u.wrs [(K.GUARD_PENDING, u.proposals.length),
        (K.GUARD_PROPOSAL_LAST, proposal.toNat)]).raise 0xF4 0x00F0 6 i
          (guardData (index.toNat * 256 + sub.toNat) party.toNat 0 proposal.toNat)).answered m ss 0x12
            (index.toNat * 256 + sub.toNat) Ans.stagedCode []).settle)) ∧
    (∀ e : Nat × Staged, GuardTaken m ss s t 0x13 (index.toNat * 256 + sub.toNat) party.toNat proposal.toNat value auth →
      t.proposals.find? (fun e => e.2.proposal == proposal.toNat && decide (t.tm.tick < e.2.tick + 12000000000)) = some e → e.2.key = index.toNat * 256 + sub.toNat →
      e.2.value = value → e.2.party ≠ party.toNat → t.guardCond (index.toNat * 256 + sub.toNat) (leNat value) = none →
      exec (.concur m index sub party proposal value auth) s = .next ((t.concurEffect e party.toNat).answered m ss 0x13
        (index.toNat * 256 + sub.toNat) Ans.ok []).settle) ∧
    (∀ (i : Fin 8) (g : Staged), s.dev = .running → Tab.get (fun _ => none) s.staged i.val = some g → g.tick + 12000000000 ≤ s.tm.tick →
      exec (.guardExpired i) s =
        .next ((s.freeStaged i).raise 0xF4 0x00F2 4 i (guardData g.key g.party 0 g.proposal)).settle)

/-- KEEP_STORE and its end, KEEP_RESTORE, DIGEST_CURRENT, JOURNAL_WRITE, SEAL and EV_CLEAR complete (R58, R63, R75 to R86, R528). -/
def Obligations.KeepAndJournalCommandsComplete : Prop :=
  ∀ (m : Msg) (ss : Session) (s t : State),
    (Carried m ss K.KEEP_STORE 4 0x65766173 s t → t.rd K.KEEP_STATE ≠ 2 →
      exec (.keepStore m) s = .next (t.carriedOut t.startStore m ss K.KEEP_STORE).settle) ∧
    (∀ (img : Image) (u : State), s.dev = .running → s.kp.storing = some img → s.kp.again = false →
      u = { s with kp := ({ s.kp with storing := none } : Keep).place img } →
      exec (.keepStoreDone true) s = .next (u.wrs [(K.KEEP_STATE, if u.kp.changed then 1 else 0), (K.KEEP_GENERATION, img.gen),
        (K.KEEP_SAVE_TIME, s.now)]).settle) ∧
    (∀ img : Image, s.dev = .running → s.kp.storing = some img → s.kp.again = false →
      exec (.keepStoreDone false) s =
        .next ((({ s with kp := { s.kp with storing := none } } : State).wr K.KEEP_STATE 3).raise 0xEF 0x0098 3 0 0).settle) ∧
    (Carried m ss K.KEEP_RESTORE 4 0x746C6664 s t → t.phase = Phase.idle → (t.od.map (·.1)).filter restorable = [] →
      exec (.keepRestore m) s = .next (t.carriedOut
        (if t.rd K.KEEP_STATE = 2 ∨ t.rd K.KEEP_STATE = 4 then t else t.wr K.KEEP_STATE 1) m ss K.KEEP_RESTORE).settle) ∧
    (∀ u : State, Carried m ss K.KEEP_RESTORE 4 0x746C6664 s t → t.phase = Phase.idle → (t.od.map (·.1)).filter restorable ≠ [] →
      u = (({ ((t.od.map (·.1)).filter restorable).foldl (fun (s : State) k => s.restore k) t with
        kp := { (((t.od.map (·.1)).filter restorable).foldl (fun (s : State) k => s.restore k) t).kp with changed := true } } : State)).digestPending →
      exec (.keepRestore m) s = .next (t.carriedOut
        (if u.rd K.KEEP_STATE = 2 ∨ u.rd K.KEEP_STATE = 4 then u else u.wr K.KEEP_STATE 1) m ss K.KEEP_RESTORE).settle) ∧
    (s.dev = .running → s.rd K.NODE_DIGEST_STATE ≠ 0 →
      exec .digestCurrent s = .next ((s.wrs [(K.NODE_DIGEST, s.nodeDigest), (K.NODE_DIGEST_STAMP, s.timeAt s.kp.digestTick),
        (K.NODE_DIGEST_STATE, 0), (K.NODE_DIGEST_ENTRIES, digestKeys.length),
        (K.NODE_DIGEST_CAL, s.digestCals.length)]).raise 0xF8 0x0161 6 0 0).settle) ∧
    (∀ (buf : List (Nat × EvRec)) (shed : Nat) (u : State), s.dev = .running → shedBuffer s.jr.buf = (buf, shed) →
      u = (State.bump { s with jr := { s.jr with buf := buf } } 32 K.JOURNAL_SHED shed).startJournal →
      exec .journalWrite s = .next (if u.rd K.JOURNAL_ENABLE = 1 ∧ u.jr.held.isSome then
        buf.foldl (fun (s : State) r => s.writeRecord r.2) { u with jr := { u.jr with buf := [] } } else u).settle) ∧
    (s.dev = .running → s.jr.sealDue = true →
      exec .sealSpan s = .next (({ s with jr := { s.jr with sealDue := false } } : State).raiseSeries 0x1F 0x0001 4 0 []).settle) ∧
    (∀ src : BitVec 8, Carried m ss (K.EV_CLEAR src.toNat) 1 1 s t → Dict.reservedSource src.toNat = false →
      exec (.evClear m src) s = .next (t.carriedOut ((List.range 7).foldl (fun (s : State) i => s.clr ((0x9000 + src.toNat) * 256 + 2 + i)) t)
        m ss (K.EV_CLEAR src.toNat)).settle)

/-- The five rows of stream endpoints complete (R107 to R111). -/
def Obligations.StreamCommandsComplete : Prop :=
  ∀ (m : Msg) (ss : Session) (s t : State) (e : Fin 64),
    (Carried m ss (K.STREAM_CONTROL e) 1 1 s t → t.rd (K.STREAM_STATE e) ≠ 1 → t.rd (K.STREAM_LENGTH e) ≠ 0 →
      exec (.streamOpen m e) s = .next (t.carriedOut (((t.setStream e { Stream.init with port := m.port }).wrs
        [(K.STREAM_STATE e, 1), (K.STREAM_MARK e, 0), (K.STREAM_DROPPED e, 0), (K.STREAM_CAUSE e, 0),
          (K.STREAM_SESSION e, m.session.toNat)]).streamAck e) m ss (K.STREAM_CONTROL e)).settle) ∧
    (Carried m ss (K.STREAM_CONTROL e) 1 2 s t → t.rd (K.STREAM_STATE e) = 1 →
      exec (.streamAbort m e) s = .next (t.carriedOut
        (if t.parkedOn (t.rd (K.STREAM_TC e)) e then ((t.nextJob (t.rd (K.STREAM_TC e))).endStream e 3 4).streamAck e
          else (t.endStream e 3 0).streamAck e) m ss (K.STREAM_CONTROL e)).settle) ∧
    (∀ (off : BitVec 32) (data : List Byte), s.dev = .running → m.port.val < 2 → s.frameOk m.port.val m.frame = true →
      m.version = 1 → m.length.toNat = 8 + data.length → 1 ≤ data.length → data.length ≤ 1476 → msgFits m = true → msgClean m = true →
      m.seq = 0 → s.session m.session.toNat = some ss → s.mirrored = false →
      exec (.streamData m (BitVec.ofNat 8 e.val) off data) s = .next ((((s.updSession ss.num fun x =>
        { x with lastTick := s.tm.tick, lastPort := m.port.val }).inc (K.RX_FRAMES m.port.val)).streamFrame ss.num m.port.val e.val
          off.toNat data).settle)) ∧
    (s.dev = .running → s.rd (K.STREAM_STATE e) = 1 → s.rd (K.STREAM_MARK e) = s.rd (K.STREAM_LENGTH e) →
      exec (.streamEnd e) s = .next ((if (s.stream e).crc ^^^ 0xFFFFFFFF = s.rd (K.STREAM_CRC e) then s.endStream e 2 0
        else s.endStream e 4 1).streamAck e).settle) ∧
    (∀ since : Nat, s.dev = .running → (s.stream e).ackSince = some since → since + 20000 ≤ s.tm.tick →
      exec (.streamAckTimeout e) s = .next (s.streamAck e).settle)

/-- The four rows of the axis cycle complete (R116 to R118). -/
def Obligations.CyclicCommandsComplete : Prop :=
  ∀ (m : Msg) (ss : Session) (s t : State),
    (Carried m ss K.CYCLIC_ENABLE 1 1 s t → t.rd K.CYCLIC_ENABLE = 0 →
      ∀ u, u = t.wr K.CYCLIC_ENABLE 1 →
        exec (.cyclicEnable m 1) s = .next (t.carriedOut (({ u with cyc := { u.cyc with
          nextTick := u.unpair ((u.pair u.tm.tick + 2500 + 4999) / 5000 * 5000), cycle := 0, replied := [], silent := [] } } : State).wr
            K.CYCLIC_COUNT 0) m ss K.CYCLIC_ENABLE).settle) ∧
    (Carried m ss K.CYCLIC_ENABLE 1 0 s t → t.rd K.CYCLIC_ENABLE ≠ 0 →
      exec (.cyclicEnable m 0) s = .next (t.carriedOut (t.wr K.CYCLIC_ENABLE 0) m ss K.CYCLIC_ENABLE).settle) ∧
    (s.dev = .running → s.rd K.CYCLIC_ENABLE ≠ 0 → s.cyc.nextTick ≤ s.tm.tick + 2500 → s.drivesPorts = true →
      ∀ k b u v, k = (s.cyc.cycle + 1) % 2 ^ 32 → b = s.draw.2.message 0x30 0 0 k
          (s.draw.2.cyclicBody (Config.unstated s.draw.1).toNat k) →
        u = (s.draw.2.sendFrame 2 (toLE 6 (s.draw.2.rd K.CYCLIC_DEST)) b).txStamp 2 (k % 65536) 1 →
        v = ((u.sendFrame 3 (toLE 6 (s.draw.2.rd K.CYCLIC_DEST)) b).txStamp 3 (k % 65536) 1).inc K.CYCLIC_COUNT →
        exec .cyclicSend s = .next ({ v with cyc :=
          { v.cyc with cycle := k, nextTick := v.cyc.nextTick + 5000, replied := [] } } : State).settle) ∧
    (∀ (cycle : BitVec 32) (node status : BitVec 8) (error : BitVec 16) (actual : BitVec 32) (digest : BitVec 64), s.dev = .running →
      2 ≤ m.port.val → s.frameOk m.port.val m.frame = true → m.version = 1 → m.length = 24 → msgFits m = true → msgClean m = true →
      status.toNat % 16 = 0 → s.slotsWith node.toNat ≠ [] → t = s.inc (K.RX_FRAMES m.port.val) → t.rd K.CYCLIC_ENABLE = 1 →
      t.cyc.cycle ≠ 0 → cycle.toNat = t.cyc.cycle → t.tm.tick ≤ t.cycleTick + t.rd K.CYCLIC_REPLY_WINDOW →
      exec (.cyclicReply m cycle node status error actual digest) s =
        .next ((s.slotsWith node.toNat).foldl (fun (s : State) j => s.slotReply j status.toNat actual.toNat digest.toNat) t).settle) ∧
    (∀ j : Fin 8, s.dev = .running → s.silentRun j = 2 →
      exec (.driveSilent j) s = .next ((((s.setSilent j 3).loopEvent (s.rd (K.SLOT_LOOP j)) 0x0087 3 j s.cyc.cycle).generalSample
        (s.rd (K.SLOT_LOOP j))).holdLoop (s.rd (K.SLOT_LOOP j)) LpCause.driveSilent).settle)

/-- The rows of memory translation and transfer complete (R122 to R139). -/
def Obligations.MemoryCommandsComplete : Prop :=
  ∀ (m : Msg) (ss : Session) (s t : State) (tc : Fin 192),
    (∀ (req : BitVec 128) (jp pp count : Nat) (u v : State), Carried m ss (K.TC_MAP tc) 16 req.toNat s t →
      jp = bits req.toNat 23 0 → pp = bits req.toNat 63 32 → count = bits req.toNat 95 64 → count ≠ 0 → count ≤ 4096 →
      jp + count ≤ 2 ^ 24 → pp + count ≤ 261120 →
      ((List.range count).any fun i => (t.page tc (jp + i)).isSome) = false → t.tablesNeeded tc jp count ≤ t.rd K.TABLE_FREE →
      u = mapPages tc jp pp (req.toNat.testBit 96) count
        (((List.range ((jp + count - 1) / 4096 + 1 - jp / 4096)).map fun i => jp / 4096 + i).foldl (fun (s : State) q => s.takeTable tc q) t) →
      v = (u.wr (K.TC_MAPPED_PAGES tc) (u.rd (K.TC_MAPPED_PAGES tc) + count)).holdTwin tc →
      exec (.tcMap m tc req) s = .next (t.carriedOut ((if tc.val = 57 then v.startJournal else v).autoResume tc jp count)
        m ss (K.TC_MAP tc)).settle) ∧
    (∀ (req : BitVec 64) (jp count : Nat), Carried m ss (K.TC_UNMAP tc) 8 req.toNat s t → jp = bits req.toNat 23 0 →
      count = bits req.toNat 63 32 → count ≠ 0 → count ≤ 4096 → jp + count ≤ 2 ^ 24 →
      (∀ i < count, ∃ p : Page, t.page tc (jp + i) = some p ∧ p.unmap = false) →
      exec (.tcUnmap m tc req) s = .next (t.carriedOut (unmapPages tc jp count t) m ss (K.TC_UNMAP tc)).settle) ∧
    (Carried m ss (K.TC_RESUME tc) 1 1 s t → t.rd (K.TC_STATE tc) = 2 →
      t.resumeFault tc = none →
      exec (.tcResume m tc) s = .next (t.carriedOut ((t.setTc tc { t.tc tc with resumeAt := none }).wr (K.TC_STATE tc)
        (if (t.tc tc).job = .none then 0 else 1)) m ss (K.TC_RESUME tc)).settle) ∧
    (Carried m ss (K.TC_RESUME tc) 1 2 s t → t.rd (K.TC_STATE tc) = 2 → (32 ≤ tc.val ∧ tc.val ≤ 55) ∨ 62 ≤ tc.val →
      exec (.tcAbort m tc) s = .next (t.carriedOut ((t.jobStreams tc).foldl (fun (s : State) e => (s.endStream e 3 4).streamAck e)
        ((t.abandon tc).idleTc tc)) m ss (K.TC_RESUME tc)).settle) ∧
    (∀ (waiting : List (Fin 192)) (u : State) (w : Nat), s.dev = .running → u = s.resumeDue →
      u.arbWinner ((waiting.map (·.val)).filter fun tc => u.rd (K.TC_STATE tc) != 2) = some w → u.rd (K.TC_STATE w) ≠ 1 →
      exec (.dmaBeat waiting) s = .next (u.countBeats w 1).settle) ∧
    (∀ (waiting : List (Fin 192)) (u : State) (w addr : Nat) (data : List Byte), s.dev = .running → u = s.resumeDue →
      u.arbWinner ((waiting.map (·.val)).filter fun tc => u.rd (K.TC_STATE tc) != 2) = some w → u.rd (K.TC_STATE w) = 1 →
      (u.tc w).job = .write addr data → u.beatFault w addr true = none → u.firstLocked w addr 1 = none →
      exec (.dmaBeat waiting) s = .next (((u.writeMem w addr (data.take (64 - addr % 64))).countBeats w 1).jobOn w
        (data.drop (64 - addr % 64)) (.write (addr + (64 - addr % 64)) (data.drop (64 - addr % 64)))).settle) ∧
    (∀ (waiting : List (Fin 192)) (u : State) (w addr kind : Nat) (data : List Byte), s.dev = .running → u = s.resumeDue →
      u.arbWinner ((waiting.map (·.val)).filter fun tc => u.rd (K.TC_STATE tc) != 2) = some w → u.rd (K.TC_STATE w) = 1 →
      (u.tc w).job = .write addr data → u.beatFault w addr true = some kind →
      exec (.dmaBeat waiting) s = .next (u.park w kind (addr / 64 * 64) true).settle) ∧
    (s.dev = .running → s.pair s.tm.tick % 6400 = 0 →
      exec .accountingWindow s = .next ({ s with mem := { s.mem with
        beats := 0, tcs := (s.mem.tcs.map fun e => (e.1, { e.2 with used := 0 })).filter fun e => e.2 != Tc.init } } : State).settle) ∧
    (∀ w : Fin 32, s.dev = .running →
      exec (.windowPin w) s = .next (if w.val < 16 then s.pinChord w.val else s.pinFacet (w.val - 16)).settle) ∧
    (∀ (n : Nat) (jp : Nat), n < 16 → s.dev = .running → (s.chan n).member = true → (s.chan n).reached = false →
      s.rd (K.BC_STATE n) = Bc.run → (s.window n 1048576).1.find? (fun jp => !(s.tc n).window.contains jp) = some jp →
      exec (.windowPin (Fin.ofNat 32 n)) s =
        .next ((s.setTc n { s.tc n with window := ascending ((s.tc n).window ++ [jp]),
                                        shortAt := (s.tc n).shortAt.filter (· != jp) }).pin n jp).settle) ∧
    (Taken m ss s t → m.length.toNat = 4 →
      exec (.memLoadPeakRead m) s =
        .next ((t.wr K.MEM_LOAD_PEAK 0).answered m ss 0x10 K.MEM_LOAD_PEAK Ans.ok (toLE 1 (t.rd K.MEM_LOAD_PEAK))).settle)

/-- The rows of the layer's life complete (R22 to R29, R140, R142, R451, R452). -/
def Obligations.LayerCommandsComplete : Prop :=
  ∀ (m : Msg) (ss : Session) (s t : State) (n : BitVec 32) (d : Desc),
    (∀ bytes : List Byte, Carried m ss K.LAYER_COMMIT 4 n.toNat s t → t.rd K.LAYER_PENDING = 0 →
      n.toNat = successor (t.rd K.LAYER_NUMBER) → t.rd K.PWR_ORDER_FAULT ≠ 1 → t.rd K.CAL_MEAS_STATE = 0 →
      t.readMem (t.rd K.LAYER_DESC_TC) (t.rd K.LAYER_DESC_ADDR) 256 = some bytes → descOk n.toNat bytes = true →
      exec (.layerCommit m n) s = .next (t.carriedOut (({ t with layer :=
        { t.layer with pend := some (descOf (leNat bytes)), startAt := t.tm.tick + 1 } } : State).wr K.LAYER_PENDING n.toNat)
          m ss K.LAYER_COMMIT).settle) ∧
    (Carried m ss K.LAYER_RESUME 4 n.toNat s t → t.phase = Phase.idle → t.rd K.LAYER_PENDING = 0 →
      exec (.layerResume m n) s = .next (t.carriedOut (t.keepPhase.wr K.LAYER_NUMBER n.toNat) m ss K.LAYER_RESUME).settle) ∧
    (s.dev = .running → s.layer.pend = some d → s.startDue = true → s.startBlocked = false →
      ∀ u, u = (List.range 16).foldl (fun (s : State) n => s.startChan d n) ((s.setPhase Phase.recoat).startNumbers d) →
        exec .layerStart s = .next (u.startBlade.startMove d).syncDone.settle) ∧
    (s.dev = .running → s.layer.pend = some d → s.startDue = true → s.startBlocked = true → s.phase ≠ Phase.held →
      exec .layerStart s = .next (s.setPhase Phase.held).settle) ∧
    (s.dev = .running → s.repairReady = true →
      ∀ u, u = lunesAll.foldl (fun (s : State) l => s.discardLune l)
          { s.setPhase Phase.repair with layer := { (s.setPhase Phase.repair).layer with
            stage := 0, closeAt := (s.setPhase Phase.repair).tm.tick + 1 } } →
        exec .repairStart s = .next ((List.range 16).foldl (fun (s : State) n => s.repairChan n) u).settle) ∧
    (s.dev = .running → s.phase = Phase.repair → s.repairsOver = true →
      exec .layerClosePhase s = .next (State.closeGo 8 { s.setPhase Phase.close with
        layer := { (s.setPhase Phase.close).layer with closeStep := 1, idleClose := false } }).settle) ∧
    (∀ (k : Fin 16) (e : Nat × Nat × CalRec), s.dev = .running → s.cal.switches = [e] → e.2.1 % 256 = k.val →
      s.cal.switchEnd ≤ s.tm.tick →
      ∀ u, u = (s.putInForce e.1 e.2.1 e.2.2).headEntries k.val (e.2.1 / 256) e.2.2.payload →
        ∀ v, v = u.setChan k { u.chan k with tableHold := none } →
          exec (.headTableSwitch k) s = .next (State.installRest { v with cal := { v.cal with switches := [] } }).settle) ∧
    (∀ due u, s.dev = .running → s.layer.idleDue = some due → due ≤ s.tm.tick → s.phase = Phase.idle →
      u = ({ s with layer := { s.layer with idleDue := none } } : State).setPhase Phase.close →
      exec .idleClose s = .next (State.closeGo 8 { u with layer := { u.layer with closeStep := 1, idleClose := true } }).settle)

/-- The rows of sample instants complete: SHARE_DECISION, DWELL_FORCED, LATCH, the servo samples, LATTICE_DEPOSIT, CHORD_COMPLETE, and
the two rows of the layer's end of channels (R145, R183 to R195, R205 to R225, R262). -/
def Obligations.SampleCommandsComplete : Prop :=
  ∀ (s : State) (n : Fin 16), s.dev = .running →
    (s.inSample = 80 → (s.role = Role.active ∨ s.role = Role.standby) →
      exec .shareDecision s = .next (s.openDecision.decideAll (s.tm.tick + 320)).tellDecision.settle) ∧
    (∀ (d : Cand) (since : Nat) (x : Chord × Option Cursor), (s.chan n).cand = some d → d.chords.head? = some x →
      d.dwellSince = some since → d.forced = false → since + x.1.par.dwellTimeout ≤ s.tm.tick → s.rd (K.BC_STATE n) = Bc.run →
      exec (.dwellForced n) s =
        .next ((s.setChan n { s.chan n with cand := some { d with forced := true } }).countForced n x.1.addr).settle) ∧
    (s.inSample = 160 → exec (.latch n) s = .next (s.latchAt n (s.tm.tick + 240)).settle) ∧
    (∀ (x y z sample : BitVec 32) (status fault : BitVec 16) (aux : List (BitVec 32)), s.laneUp n = true →
      status.toNat % 2048 ≠ 0 → exec (.servoSample n x y z sample status fault aux) s = .next (s.badFrame n).settle) ∧
    (∀ (x y z sample : BitVec 32) (status fault : BitVec 16) (aux : List (BitVec 32)), s.laneUp n = true → status.toNat % 2048 = 0 →
      exec (.servoSample n x y z sample status fault aux) s =
        .next ((((s.rxFrame n).servoFeed n x.toInt y.toInt z.toInt sample.toNat status.toNat (aux.map (·.toInt))).servoCounts n
          sample.toNat status.toNat).servoFault n (s.chan n).headStatus status.toNat fault.toNat).settle) ∧
    (s.inSample = 40 →
      exec (.servoSampleMissing n) s = .next (([3 * n.val, 3 * n.val + 1, 3 * n.val + 2].foldl
        (fun (s : State) m => if (s.loop m).newFb then s else s.missFeedback m) s).settle)) ∧
    (∀ u, s.inSample = 380 → s.latOn = true → s.rd K.DT_CUTOFF = 0 →
      u = { s with lat :=
        { s.lat with waiting := s.lat.waiting.filter (fun w => !decide (w.inst ≤ s.tm.tick - 380)), applied := s.tm.tick - 380 } } →
      ∃ v, v = (s.lat.waiting.filter fun w => decide (w.inst ≤ s.tm.tick - 380)).foldl (fun (s : State) w => s.latApply w) u ∧
        exec .latticeDeposit s = .next (v.tellDeposits s.lat.cells (s.tm.tick - 380)).settle) ∧
    (∀ (p : Planned) (rest : List Planned), (s.chan n).run = p :: rest → p.boundary ≤ s.tm.tick → s.aheadOf n = false →
      ((s.chan n).pass.any fun q => q.repair.isSome) = false →
      exec (.chordComplete n) s = .next ((s.finishHead n).boundaryStops n p.boundary
        (match p.chord.shape with | .park _ _ => false | _ => true)).settle) ∧
    (∀ w : Walk, (s.chan n).walk = some w → s.walkNext n 65536 w = .close →
      exec (.uncoveredWalk n) s = .next ((s.setChan n { s.chan n with walk := none }).trimWindow n).settle) ∧
    (∀ (w w' : Walk) (lune : Nat) (items : List (List Chord)), (s.chan n).walk = some w → s.walkNext n 65536 w = .report lune items w' →
      exec (.uncoveredWalk n) s = .next (s.walkReport n lune items w').settle) ∧
    ((s.rd (K.BC_STATE n) = Bc.run ∧ s.closeReady n = true) → exec .shareReissueWait s =
      .next ((List.range 16).foldl (fun (s : State) n => s.reissueAt n) s).settle)

/-- The chord commands of a program complete: MARK, ARC and FACET become the candidate, a JUMP is planned; FLOAT posts its body and CLAIM
waits (R143 to R155, R205, R210). -/
def Obligations.ChordCommandsComplete : Prop :=
  ∀ (s : State) (n : Fin 16) (c : Cmd) (d : Chord),
    (Stands s n Op.mark c → TakesChord s n → c.chord (s.cursor n) (s.params n) = some d →
      exec (.mark n) s = .next (s.withCandidate n d).settle) ∧
    (Stands s n Op.arc c → TakesChord s n → c.chord (s.cursor n) (s.params n) = some d →
      exec (.arc n) s = .next (s.withCandidate n d).settle) ∧
    (Stands s n Op.facet c → TakesChord s n → c.chord (s.cursor n) (s.params n) = some d →
      exec (.facet n) s = .next (s.withCandidate n d).settle) ∧
    (Stands s n Op.jump c → TakesChord s n → c.chord (s.cursor n) (s.params n) = some d → d.reorder = false → s.phase = Phase.expose →
      exec (.jump n) s = .next (s.planJump n (max (s.chan n).notBefore (s.nextSample (s.tm.tick + 320))) (s.planFrom n).2.2 d
        ((s.cursor n).skip 1) (s.chan n).decodes).settle) ∧
    (∀ (count lune : Nat) (body : List BodyCmd) (its : List Item) (u : State), Stands s n Op.float (.float count lune) →
      s.fetchBody n ((s.cursor n).pc + 16) count = some body → s.poolFits count = true →
      its = bodyItems (s.cursor n).ox (s.cursor n).oy n body → u = (s.post lune its).bump 32 (K.CS_POSTED n) its.length →
      exec (.floatBody n) s = .next ((u.countBeats n (((s.cursor n).pc % 64 + 16 * count) / 64)).passCmd n
        ((s.cursor n).skip (count + 1))).settle) ∧
    (∀ (count lune : Nat), s.dev = .running → (s.chan n).wait = .posting → s.rd (K.BC_STATE n) = Bc.run →
      (s.readNum n (s.rd (K.CS_PC n)) 16).bind decodeCmd = some (.float count lune) → s.poolFits count = true → (s.chan n).run ≠ [] →
      exec (.postingRelease n) s = .next (s.setChan n { s.chan n with released := some s.tm.tick }).settle) ∧
    (∀ (limit lune : Nat) (any : Bool) (u : State), Stands s n Op.claim (.claim limit lune any) → (s.chan n).stepping = false →
      s.aheadOf n = false → (s.chan n).refused = none →
      u = (s.setChan n { s.chan n with wait := .claiming any lune limit 0 }).wr (K.CS_ACTIVITY n) 3 →
      exec (.claim n) s =
        .next (if (u.chan n).run.isEmpty ∧ !u.anyItem n any lune then u.claimEmpty n else u).settle)

/-- The other commands of a program complete (R156 to R169): waits and their ends, BARRIER, SET, CALL, RETURN, REPEAT, MARKER,
LAYER_CLOSE, HALT; and a word with no listed opcode stops the program (R144, R170). -/
def Obligations.SequencerCommandsComplete : Prop :=
  ∀ (s : State) (n : Fin 16),
    (∀ (time : Nat) (serve trig at' : Bool) (u : State), Stands s n Op.waitTime (.waitTime time serve trig at') →
      (s.chan n).stepping = false → u = (s.setChan n { s.chan n with wait := .time time at' trig serve }).wr (K.CS_ACTIVITY n) 4 →
      exec (.waitTime n) s = .next (if at' ∧ atOrAfter u.now time then
        ((u.inc (K.CS_WAIT_LATE n)).wake n u.tm.tick).fetchCheck n else u).settle) ∧
    (∀ (time : Nat) (trig serve : Bool), s.dev = .running → (s.chan n).wait = .time time true trig serve →
      (s.chan n).released = none → atOrAfter s.now time = true →
      exec (.waitTimeRelease n) s = .next ((s.wake n s.tm.tick).fetchCheck n).settle) ∧
    (∀ (timeout code src : Nat) (serve : Bool) (u : State), Stands s n Op.waitEvent (.waitEvent timeout code src serve) →
      (s.chan n).stepping = false → u = (s.setChan n { s.chan n with wait := .event src code s.tm.tick timeout serve }).wr (K.CS_ACTIVITY n) 5 →
      exec (.waitEvent n) s = .next (if u.ev.recent.any (fun h => (u.chan n).matches h) then
        (u.wake n u.tm.tick).fetchCheck n else u).settle) ∧
    (s.dev = .running → s.eventLate n = true → s.rd (K.BC_STATE n) = Bc.run → (s.chan n).run = [] →
      exec (.eventTimeout n) s = .next (s.holdTimeout n).settle) ∧
    (∀ (mask id : Nat) (serve : Bool), Stands s n Op.barrier (.barrier mask id serve) → (s.chan n).stepping = false →
      (∀ m < 16, m ≠ n → s.rd (K.BC_STATE m) = Bc.run ∨ s.rd (K.BC_STATE m) = Bc.hold → (s.chan m).released = none →
        ∀ i k b, (s.chan m).wait = .barrier i k b → i = id → k = mask) →
      exec (.barrier n) s =
        .next ((s.setChan n { s.chan n with wait := .barrier id mask serve }).wr (K.CS_ACTIVITY n) 6).barrierTry.settle) ∧
    (∀ (pa va pb vb : Nat), Stands s n Op.set (.set pa va pb vb) →
      exec (.setParam n) s = .next ((if pb = 0 then s.wr (paramKey n pa) va else (s.wr (paramKey n pa) va).wr (paramKey n pb) vb).passCmd n
        ((s.cursor n).skip 1)).settle) ∧
    (∀ (dx dy target : Int) (k : Cursor), Stands s n Op.call (.call dx dy target) → (s.cursor n).call dx dy target = some k →
      exec (.callProgram n) s = .next (s.passCmd n k).settle) ∧
    (∀ k : Cursor, Stands s n Op.ret .ret → (s.cursor n).ret = some k → exec (.returnCall n) s = .next (s.passCmd n k).settle) ∧
    (∀ (dx dy : Int) (count len : Nat) (k : Cursor), Stands s n Op.rep (.rep dx dy count len) →
      (s.cursor n).rep dx dy count len = some k → exec (.repeatBody n) s = .next (s.passCmd n k).settle) ∧
    (∀ tag : Nat, Stands s n Op.marker (.marker tag) →
      exec (.marker n) s = .next ((s.raise (srcSeq n) 0x0010 4 n tag).passCmd n ((s.cursor n).skip 1)).settle) ∧
    (∀ (layer : Nat) (u : State), Stands s n Op.close (.close layer) → (s.chan n).stepping = false →
      u = s.setChan n { s.chan n with wait := .closing } →
      exec (.layerClose n) s = .next (if u.closeReady n then u.reachClose n else u.wr (K.CS_ACTIVITY n) 3).settle) ∧
    (Stands s n Op.halt .halt → exec (.halt n) s = .next (s.holdSeq n 3).settle) ∧
    (∀ w : Nat, s.dev = .running → s.atCmd n = some w → decodeCmd w = none →
      exec (.badOpcode n) s = .next (s.holdProgram n Err.badOpcode (s.rd (K.CS_PC n))).settle)

/-- The commands to a channel complete (R139, R171, R172, R178 to R181). -/
def Obligations.ChannelCommandsComplete : Prop :=
  ∀ (m : Msg) (ss : Session) (s t : State) (n : Fin 16),
    (Carried m ss (K.CS_CONTROL n) 1 1 s t → t.rd (K.BC_STATE n) = Bc.hold → 2 ≤ t.rd (K.CS_HOLD_CAUSE n) →
      t.rd (K.CS_HOLD_CAUSE n) ≤ 5 →
      exec (.csResume m n) s = .next (t.carriedOut (State.goOn
        (if t.rd (K.CS_HOLD_CAUSE n) = 3 then t.moveTo n ((t.cursor n).skip 1) else t) n) m ss (K.CS_CONTROL n)).settle) ∧
    (Carried m ss (K.CS_CONTROL n) 1 2 s t → t.rd (K.BC_STATE n) = Bc.hold → (t.rd (K.CS_HOLD_CAUSE n) = 2 ∨ t.rd (K.CS_HOLD_CAUSE n) = 4) →
      (t.chan n).wait = .none → (t.readNum n (t.rd (K.CS_PC n)) 16).bind decodeCmd = none →
      exec (.csSkip m n) s =
        .next (t.carriedOut ((t.moveTo n ((t.cursor n).skip 1)).goOn n) m ss (K.CS_CONTROL n)).settle) ∧
    (Carried m ss (K.BC_CONTROL n) 1 1 s t → t.armOk n = true →
      ∀ u, u = (((beamLoops n).foldl (fun (s : State) k => s.closeLoop k) t).wrs [(K.BC_CAUSE n, 0), (K.CS_ACTIVITY n, 0)]).setBc n Bc.armed →
        exec (.arm m n) s = .next (t.carriedOut ((u.setChan n { u.chan n with rearm := true }).parkRun n) m ss (K.BC_CONTROL n)).settle) ∧
    (Carried m ss (K.BC_CONTROL n) 1 2 s t → t.rd (K.BC_STATE n) ≠ Bc.run →
      exec (.off m n) s = .next (t.carriedOut (t.chanOff n) m ss (K.BC_CONTROL n)).settle) ∧
    (Carried m ss (K.BC_CONTROL n) 1 2 s t → t.rd (K.BC_STATE n) = Bc.run →
      ((t.chan n).run.any fun p => decide (p.first < t.tm.tick + 240)) = true →
      exec (.off m n) s = .next (t.carriedOut ((t.setChan n { t.chan n with
        offAt := some ((t.chan n).offAt.getD t.tm.tick) }).endRunFrom n t.tm.tick) m ss (K.BC_CONTROL n)).settle)

/-- The rows of lunes, of the blade and of facet slots complete (R203 to R215, R224 to R227, R232 to R249). -/
def Obligations.LuneBladeAndFacetCommandsComplete : Prop :=
  ∀ (m : Msg) (ss : Session) (s t : State) (n : Fin 16) (slot : Fin 8) (l : Fin 128),
    (Carried m ss (K.LUNE_ENABLE l) 1 1 s t → 3 ≤ t.rd (K.LUNE_VERTICES l) → t.rd (K.LUNE_VERTICES l) ≤ 16 →
      t.rd (K.LUNE_POLYGON l) / 2 ^ (64 * t.rd (K.LUNE_VERTICES l)) = 0 → strictlyConvex (t.lunePoly l) = true →
      t.rd (K.LUNE_ELIGIBLE l) ≠ 0 → ∀ u, u = (t.wr (K.LUNE_ENABLE l) 1).syncMasks →
      exec (.luneEnable m l) s = .next (t.carriedOut (u.wr (K.LUNE_LIVE l) (u.liveMask l)) m ss (K.LUNE_ENABLE l)).settle) ∧
    (∀ body : List BodyCmd, Carried m ss (K.LUNE_POST l) 1 1 s t → (t.phase = Phase.recoat ∨ t.phase = Phase.expose) →
      t.liveMask l ≠ 0 → t.rd (K.LUNE_POST_COUNT l) ≠ 0 →
      t.readBody (t.rd (K.LUNE_POST_TC l)) (t.rd (K.LUNE_POST_ADDR l)) (t.rd (K.LUNE_POST_COUNT l)) = some body →
      t.bodyErrors l 0 0 16 body = [] → t.poolFits (t.rd (K.LUNE_POST_COUNT l)) = true →
      exec (.lunePost m l) s = .next (t.carriedOut (t.post l (bodyItems 0 0 16 body)) m ss (K.LUNE_POST l)).settle) ∧
    (∀ (delay k : Nat) (latch : Int) (u : State), s.dev = .running → s.filtered K.PIN_FILTER_RCSYNC delay = true →
      delay ≤ closeDelay → s.phase = Phase.recoat → s.layer.startAt ≤ s.tm.tick - delay → s.layer.rcSeen = false →
      k = s.rd K.BED_BLADE_AXIS → latch = s.latchAtTick k (s.tm.tick - delay) →
      (s.wrS 64 (K.AX_RCSYNC_LATCH k) latch).faultAt k (s.tm.tick - delay) = false →
      u = (s.wrS 64 (K.AX_RCSYNC_LATCH k) latch).raiseAt (s.tm.tick - delay) (srcAxis k) 0x00C7 4 k (uns 64 latch) [] false →
      ∀ (p ref : Int) (v w : State), p = u.scaled k latch → ref = u.rdS 32 K.BED_BLADE_REF →
        (ref - u.bladeRaw p).natAbs ≤ u.rd K.BED_RCSYNC_WINDOW * 1000 → 0 ≤ ref - u.bladeRaw p →
        v = { u with layer := { u.layer with rcSeen := true, ps := p, aligned := true } } →
        w = (v.wrS 32 K.BED_BLADE_POS ref).wrs [(K.BED_BLADE_STATE, 2), (K.BED_RCSYNC_CORR, uns 32 (ref - u.bladeRaw p))] →
        exec (.rcsync delay) s = .next ((w.stallFrom ref).bladeMotion k).settle) ∧
    (∀ d : Desc, s.dev = .running → s.layer.cur = some d → s.phase = Phase.recoat → s.rd K.BED_BLADE_STATE ≠ 3 →
      (s.loopState d.recoatLoop = Lp.hold ∨ s.loopState d.recoatLoop = Lp.tripped) →
      exec .recoatStall s = .next ((({ s with layer := { s.layer with before := s.rd K.BED_BLADE_STATE } } : State).wr K.BED_BLADE_STATE 3).raise
        (srcAxis (s.rd K.BED_BLADE_AXIS)) 0x00CC 3 (s.rd K.BED_BLADE_AXIS) (uns 32 (s.rdS 32 K.BED_BLADE_POS))).settle) ∧
    (∀ (d : Desc) (u v : State), Carried m ss K.RECOAT_COMMAND 1 1 s t → t.layer.cur = some d → t.phase = Phase.recoat →
      t.loopState d.recoatLoop ≠ Lp.tripped → u = t.putSetpoint d.recoatLoop d.recoatTarget →
      v = (if u.rd K.BED_BLADE_STATE = 3 then u.wr K.BED_BLADE_STATE u.layer.before else u) →
      exec (.recoatCommand m) s = .next (t.carriedOut (v.stallFrom (v.rdS 32 K.BED_BLADE_POS)) m ss K.RECOAT_COMMAND).settle) ∧
    (∀ (c : Commit) (u : State), Carried m ss (K.FX_COMMIT n slot) 1 1 s t →
      c = { num := (t.rd (K.FX_COMMITS n slot) + 1) % 2 ^ 32, tick := t.tm.tick, bases := (List.range 4).map (fun k => t.rd (K.FX_BASE n slot k)),
            maps := (List.range 4).map (fun k => t.rd (K.FX_MAP n slot k)), planes := t.rd (K.FX_PLANES n slot), pinned := [],
            state := 0, effectLayer := 0, effectPass := 0 } →
      t.rd (K.FX_PLANES n slot) ≠ 0 → (t.facetGeo n slot).px ≤ 200 * (t.facetGeo n slot).t →
      t.rd (K.FX_HEAD_MIN_PERIOD n) ≤ (t.facetGeo n slot).t →
      ((commitRanges (t.facetGeo n slot) c).any fun r => decide (2 ^ 40 < r.1 + r.2)) = false →
      (commitPages (t.facetGeo n slot) c).length ≤ 256 →
      u = (t.setCommits n slot (c :: t.commits n slot)).wrs [(K.FX_COMMITS n slot, c.num), (K.FX_STATE n slot,
        max 1 ((t.setCommits n slot (c :: t.commits n slot)).rd (K.FX_STATE n slot)))] →
      exec (.fxCommit m n slot) s = .next (t.carriedOut ((((t.commits n slot).filter fun c => c.state == 0).foldl (fun (s : State) c =>
        (s.updCommit n slot c.num (fun c => { c with state := 2 })).dropPins n slot c.num) u).retire n slot) m ss (K.FX_COMMIT n slot)).settle) ∧
    (∀ u : State, Carried m ss (K.FX_CLEAR n slot) 1 1 s t → t.rd (K.FX_STATE n slot) = 1 →
      u = ((t.commits n slot).filter fun c => decide (c.state ≤ 1)).foldl (fun (s : State) c => (s.updCommit n slot c.num (fun c =>
        { c with state := if c.state = 1 then 3 else 2 })).dropPins n slot c.num) t →
      exec (.fxClear m n slot) s = .next (t.carriedOut ((u.wrs [(K.FX_STATE n slot, 0), (K.FX_IN_FORCE n slot, 0)]).retire n slot)
        m ss (K.FX_CLEAR n slot)).settle) ∧
    (∀ (p : Planned) (rest : List Planned) (q : Pass), s.dev = .running → (s.chan n).run = p :: rest → (s.chan n).pass = some q →
      q.boundary ≤ s.tm.tick → p.first ≤ s.tm.tick → s.rd (K.BC_STATE n) = Bc.run → q.repair = none →
      exec (.passBoundary n) s =
        .next (if q.left = 0 then ((s.facetTick n).unholdLoop (48 + n) LpCause.underrun).releasePass n q.slot q.commit
          else ((s.facetTick n).unholdLoop (48 + n) LpCause.underrun).nextPass n p q).settle) ∧
    (∀ (d : Cand) (p : Pass), s.dev = .running → (s.chan n).cand = some d → (s.chan n).pass = some p → d.pinWait = true →
      p.pinned = false → s.passPinned n p = true →
      exec (.pinWaitRelease n) s = .next (s.setChan n { s.chan n with
        pass := some { p with pinned := true }, cand := some { d with earliest := s.nextSample (s.tm.tick + 320) } }).settle) ∧
    (∀ (p : Planned) (rest : List Planned) (q : Pass) (i : Nat) (u v w : State), s.dev = .running → (s.chan n).run = p :: rest →
      (s.chan n).pass = some q → q.repair = some i → p.boundary ≤ s.tm.tick → s.rd (K.BC_STATE n) = Bc.run →
      u = s.unholdLoop (48 + n) LpCause.underrun →
      v = (if q.under.isSome then u.failRepair n i q.passNo
        else ((u.bump 8 (K.RP_DONE n) 1).raise (srcFacet n) 0x0044 4 n q.passNo).endRepair n i).finishHead n →
      w = v.wr (K.RP_STATE n) (if (v.chan n).repairs.length ≤ i + 1 then 3 else 1) →
      exec (.repairDone n) s = .next (((w.retire n q.slot).syncSlots n).boundaryStops n p.boundary true).settle)

/-- The rows of the lattice complete (R262 to R271). -/
def Obligations.LatticeCommandsComplete : Prop :=
  ∀ (m : Msg) (ss : Session) (s t : State) (tile : Fin 4096),
    (∀ u : State, Carried m ss K.LAT_CLEAR 1 1 s t → t.phase = Phase.idle → t.rd K.LAT_STATE ≠ 3 → t.rd K.LAT_STATE ≠ 1 →
      u = (t.wr K.LAT_STATE 1).clearCells →
      exec (.latClear m) s = .next (t.carriedOut { u with lat := { u.lat with queue := [], waiting := [] } } m ss K.LAT_CLEAR).settle) ∧
    (∀ u v : State, s.dev = .running → s.rd K.LAT_STATE = 1 → u = s.clearCells →
      v = State.wr { u with lat := { u.lat with queue := [], dirty := [], backAt := [], visitAt := [], visitLayer := [], layersOff := 0 } }
        K.LAT_STATE (if s.rd K.LAT_ENABLE = 1 then 3 else 2) →
      exec .latClearDone s = .next v.settle ∧
        (s.rd K.LAT_BASE / 65536 + 4096 ≤ 2 ^ 24 → ∀ c < 2 ^ 24, v.cell c = Cell.cleared)) ∧
    (Carried m ss K.LAT_ENABLE 1 1 s t → t.rd K.LAT_ENABLE = 0 → t.phase = Phase.idle → t.rd K.LAT_STATE = 2 → t.latMapped = true →
      t.mustClear = false →
      exec (.latEnable m) s = .next (t.carriedOut (t.enableLat t.latPages) m ss K.LAT_ENABLE).settle) ∧
    (Carried m ss K.LAT_ENABLE 1 0 s t → t.rd K.LAT_ENABLE = 1 → t.phase = Phase.idle →
      exec (.latDisable m) s = .next (t.carriedOut (t.disableLat t.latPages) m ss K.LAT_ENABLE).settle) ∧
    (Carried m ss K.LAT_SNAP_CONTROL 1 1 s t → t.rd K.LAT_SNAP_STATE ≠ 1 → snapTiles (t.rd K.LAT_SNAP_AREA) ≠ [] → 2 ≤ t.rd K.LAT_STATE →
      exec (.snapshotStart m) s = .next (t.carriedOut (({ t with lat := { t.lat with snap := snapTiles (t.rd K.LAT_SNAP_AREA) } } : State).wrs
        [(K.LAT_SNAP_STATE, 1), (K.LAT_SNAP_TILES, 0)]) m ss K.LAT_SNAP_CONTROL).settle) ∧
    (Carried m ss K.LAT_SNAP_CONTROL 1 2 s t → t.rd K.LAT_SNAP_STATE = 1 →
      exec (.snapshotAbort m) s = .next (t.carriedOut (t.snapEnd 3 0x0061) m ss K.LAT_SNAP_CONTROL).settle) ∧
    (∀ (k : Nat) (rest : List Nat), s.dev = .running → s.rd K.LAT_SNAP_STATE = 1 → s.inSample = 0 → s.lat.snap = k :: rest →
      s.rd (K.TC_STATE (s.rd K.LAT_SNAP_TC)) ≠ 2 → (s.tc (s.rd K.LAT_SNAP_TC)).job = .none → s.lat.snapHeld = false →
      exec .snapshotTile s = .next (s.snapTile (s.rd K.LAT_SNAP_TC) (s.rd K.LAT_SNAP_ADDR + 65600 * s.rd K.LAT_SNAP_TILES)
        (s.tileHeader k (s.tileBytes k s.tm.tick) ++ s.tileBytes k s.tm.tick)).settle) ∧
    (∀ (u v w : State) (r last lag : Nat), s.dev = .running → s.rd K.LAT_ENABLE = 1 → s.role = Role.active →
      s.rd K.DT_STOP_STATE = 0 → s.rd K.DT_CUTOFF = 0 → r = s.lat.applied →
      u = (s.tileCells tile).foldl (fun (x : State) e => if 0 < e.2.heat || x.behind e.2 then x.putCell (cellWrite 3 r e.1 0) else x) s →
      v = u.tellDeposits s.lat.cells r → last = Tab.get (fun _ => 0) v.lat.visitAt tile →
      lag = (if last = 0 then 0 else (v.tm.tick - last) / 100000) →
      w = { v with lat := { v.lat with
        visitAt := Tab.set (fun _ => 0) v.lat.visitAt tile v.tm.tick,
        visitLayer := Tab.set (fun _ => 0) v.lat.visitLayer tile (v.rd K.LAYER_NUMBER) } } →
      exec (.refreshVisit tile) s = .next (if w.rd K.LAT_REFRESH_LAG < lag then w.wr K.LAT_REFRESH_LAG lag else w).settle) ∧
    (∀ u : State, s.dev = .running → s.lat.cache.contains tile.val = false → s.latMapped = true → s.evict.lat.cache.length < 64 →
      (∀ w ∈ s.lat.queue, tileOf w.cell ≠ tile) →
      u = ((({ s.evict with lat := { s.evict.lat with cache := tile :: s.evict.lat.cache } } : State).inc
        K.LAT_TILE_FILLS).countBeats 56 1024).fillErrors tile →
      (∀ w ∈ u.lat.queue, tileOf w.cell ≠ tile) → exec (.tileFill tile) s = .next u.settle) ∧
    (s.dev = .running → s.lat.dirty.contains tile.val = true →
      exec (.tileWriteBack tile) s = .next (({ s with lat := { s.lat with
        dirty := s.lat.dirty.filter (· != tile.val), backAt := Tab.del tile s.lat.backAt } } : State).countBeats 56 1024).settle)

/-- The rows of pipeline contexts complete (R277 to R309). -/
def Obligations.PipelineCommandsComplete : Prop :=
  ∀ (m : Msg) (ss : Session) (s t : State) (k : Fin 24) (n : Fin 16) (c : Fin 4) (frame offset : BitVec 32) (start : BitVec 64)
    (tag w h : BitVec 16) (px : List (BitVec 16)),
    (∀ u, Carried m ss (K.PC_ENABLE k.val) 1 1 s t → t.rd (K.PC_ENABLE k.val) = 0 → t.pcOn k.val = (Ans.ok, u) →
      exec (.pcEnable m k) s = .next (t.carriedOut u m ss (K.PC_ENABLE k.val)).settle) ∧
    (∀ u v : State, t.pw.poolLoaded = true → k.val < 20 → t.commitOk k.val (some k.val) = true →
      u = t.wr (K.PC_ENABLE k.val) 1 →
      v = u.setPipe k.val { u.pipe k.val with
        frame := none, closing := if (u.pcOwner k.val).any (fun o => decide (o < 16)) then (u.pipe k.val).closing else [],
        expected := [], lastFirst := u.tm.tick, lastStart := none, buf := 0 } →
      t.pcOn k.val = (Ans.ok, (v.commitSet k.val).syncPipe k.val)) ∧
    (Carried m ss (K.PC_ENABLE k.val) 1 0 s t → t.rd (K.PC_ENABLE k.val) = 1 →
      exec (.pcDisable m k) s = .next (t.carriedOut (t.pcOff k.val) m ss (K.PC_ENABLE k.val)).settle) ∧
    (Carried m ss (K.SET_APPLY k.val) 1 1 s t → k.val < 20 → t.commitOk k.val none = true →
      exec (.setApply m k) s = .next (t.carriedOut (t.commitSet k.val) m ss (K.SET_APPLY k.val)).settle) ∧
    (s.dev = .running → t = s.rxFrame (pcLane n) → t.laneUp (pcLane n) = true →
      exec (.sensorSliceStart n frame start tag w h) s = .next ((t.pcOf n).foldl (fun (s : State) k => if s.rd (K.PC_ENABLE k) = 1 then
        s.sliceStart k n frame.toNat start.toNat tag.toNat w.toNat h.toNat else s) t).settle ∧
      exec (.sensorSlicePixels n frame offset px) s = .next ((t.pcOf n).foldl (fun (s : State) k => if s.rd (K.PC_ENABLE k) = 1 then
        s.slicePixels k frame.toNat offset.toNat (px.map (·.toNat)) else s) t).settle ∧
      exec (.sensorSliceEnd n frame offset) s = .next ((t.pcOf n).foldl (fun (s : State) k => if s.rd (K.PC_ENABLE k) = 1 then
        s.sliceEnd k frame.toNat else s) t).settle) ∧
    (s.dev = .running → t = s.rxFrame (pcLane (16 + c)) → t.laneUp (pcLane (16 + c)) = true →
      exec (.cameraSliceStart c frame start tag w h) s = .next ((t.pcOf (16 + c)).foldl (fun (s : State) k => if s.rd (K.PC_ENABLE k) = 1 then
        s.sliceStart k (16 + c) frame.toNat start.toNat tag.toNat w.toNat h.toNat else s) t).settle ∧
      exec (.cameraSlicePixels c frame offset px) s = .next ((t.pcOf (16 + c)).foldl (fun (s : State) k => if s.rd (K.PC_ENABLE k) = 1 then
        (s.slicePixels k frame.toNat offset.toNat (px.map (·.toNat))).flushImages k else s) t).settle ∧
      exec (.cameraSliceEnd c frame offset) s = .next ((t.pcOf (16 + c)).foldl (fun (s : State) k => if s.rd (K.PC_ENABLE k) = 1 then
        s.sliceEnd k frame.toNat else s) t).settle) ∧
    (∀ f : PFrame, s.dev = .running → (s.pipe k.val).frame = some f → f.lastTick + s.rd (K.PC_FRAME_TIMEOUT k.val) ≤ s.tm.tick →
      exec (.frameTimeout k) s = .next (s.endFrame k.val).settle) ∧
    (∀ (t0 : Nat) (rest : List Nat), s.dev = .running → s.rd (K.PC_ENABLE k.val) = 1 → s.rd (K.PC_TRIGGER k.val) = 0 →
      (s.pipe k.val).expected = t0 :: rest → t0 + s.rd (K.PC_FRAME_TIMEOUT k.val) ≤ s.tm.tick →
      exec (.frameMissing k) s = .next (((((s.setPipe k.val { s.pipe k.val with expected := rest }).inc (K.OUT_MISSING k.val)).raise
        (srcPipe k.val) 0x0071 3 k.val 0).markLoop k.val 2 0 0).settle)) ∧
    (∀ (f : PFrame) (rest : List PFrame) (o : Nat), s.dev = .running → (s.pipe k.val).closing = f :: rest →
      s.pcOwner k.val = some o → o < 16 → s.enginesStopped = false →
      exec (.statsClose k) s = .next ((s.setPipe k.val { s.pipe k.val with closing := rest }).closeStats k.val o f).settle) ∧
    (∀ (f g : PFrame) (u : State), s.dev = .running → (s.pipe k.val).image = some (f, false) → s.bedRuns k.val = true →
      (64 * f.stripes + f.stripeLines f.stripes) * f.set.w ≤ f.stored → 64 * (f.stripes + 1) < f.set.h →
      s.doStripe k.val f = (some g, u) → exec (.bedStripe k) s = .next (u.setPipe k.val ((u.pipe k.val).putImage g)).settle) ∧
    (∀ (f : PFrame) (rest : List PFrame) (u v w : State) (o : List Byte × Nat × Nat × Nat), s.dev = .running →
      (s.pipe k.val).closing = f :: rest → s.bedRuns k.val = true → f.stripeCount ≤ f.stripes → f.pixels = [] →
      o = s.bedOutput k.val f →
      s.tryWrite (32 + k.val) (s.rd (K.BD_OUT_BASE k.val) + s.rd (K.BD_OUT_SLOT k.val) * (s.rd (K.BD_FRAMES_DONE k.val) % 4)) o.1 = (true, u) →
      v = u.fiducialImage k.val f →
      w = ((v.setPipe k.val { v.pipe k.val with closing := rest }).inc (K.BD_FRAMES_DONE k.val)).raise (srcPipe k.val) 0x0075 4 k.val 0 →
      exec (.bedFrameDone k) s = .next (if o.2.1 = 0 ∧ o.2.2.1 = 0 ∧ o.2.2.2 = 0 then w else w.raise (srcPipe k.val) 0x0074 6 k.val
        (o.2.1 % 65536 + o.2.2.1 % 65536 * 2 ^ 16 + o.2.2.2 % 65536 * 2 ^ 32)).settle)

/-- The rows of loop channels and repetitive slots complete (R310 to R335). -/
def Obligations.LoopCommandsComplete : Prop :=
  ∀ (m : Msg) (ss : Session) (s t : State) (l : Fin 96) (i : Fin 32),
    (Carried m ss (K.LOOP_CONTROL l) 1 1 s t → t.loopState l = Lp.idle → 64 ≤ l.val → t.rd (K.LOOP_FB_SOURCE l) / 256 ≠ 0 →
      exec (.loopClose m l) s = .next (t.carriedOut (t.closeLoop l) m ss (K.LOOP_CONTROL l)).settle) ∧
    (Carried m ss (K.LOOP_CONTROL l) 1 1 s t → t.loopState l = Lp.hold → t.rd (K.LOOP_CAUSE l) = LpCause.host →
      exec (.loopClose m l) s = .next (t.carriedOut (t.closeHeld l) m ss (K.LOOP_CONTROL l)).settle) ∧
    (Carried m ss (K.LOOP_CONTROL l) 1 2 s t → 64 ≤ l.val → t.loopState l = Lp.closed →
      exec (.loopHold m l) s = .next (t.carriedOut (t.holdLoop l LpCause.host) m ss (K.LOOP_CONTROL l)).settle) ∧
    (Carried m ss (K.LOOP_CONTROL l) 1 3 s t → 64 ≤ l.val → (t.loopState l = Lp.closed ∨ t.loopState l = Lp.hold) →
      exec (.loopOpen m l) s = .next (t.carriedOut (t.idleLoop l) m ss (K.LOOP_CONTROL l)).settle) ∧
    (Carried m ss (K.LOOP_CONTROL l) 1 4 s t → t.loopState l = Lp.tripped → t.loopOut l = 0 →
      exec (.loopReset m l) s = .next (t.carriedOut (t.idleLoop l) m ss (K.LOOP_CONTROL l)).settle) ∧
    (Carried m ss (K.LOOP_CONTROL l) 1 5 s t → (t.loopState l = Lp.closed ∨ t.loopState l = Lp.hold) →
      exec (.loopTrip m l) s =
        .next (t.carriedOut (t.tripLoop l LpCause.hostTrip 0x0086 (t.loopOut l)) m ss (K.LOOP_CONTROL l)).settle) ∧
    (∀ u : State, s.dev = .running →
      u = (if l.val < 48 then s.galvoSample l else if l.val < 64 then s.poolSample l else s.generalSample l) →
      exec (.loopSample l) s = .next (u.tellLoop l (s.loop l).lastAt).settle) ∧
    (∀ overrun : Bool, s.dev = .running → s.loopState l = Lp.closed → (overrun = true ∧ 64 ≤ l.val ∨ overrun = false ∧ l.val < 48) →
      exec (.loopDeadline l overrun) s = .next ((((s.wrs [(K.LOOP_FLAGS l, setBit (s.rd (K.LOOP_FLAGS l)) 3 true),
        (K.LOOP_DL_CAUSE l, if overrun then 2 else 1)]).inc (K.LOOP_DL_MISSED l)).loopEvent l 0x0080 3 (if overrun then 2 else 1)
          ((s.pair (if overrun then s.tm.tick else s.tm.tick - 80) / 400 % 2 ^ 32 : Nat) : Int)).settle)) ∧
    (Carried m ss (K.RC_CLEAR i) 1 1 s t → t.rd (K.RC_STATE i) ≠ 1 →
      exec (.rcClear m i) s = .next (t.carriedOut (t.setRep i { t.rep i with table := [] }) m ss (K.RC_CLEAR i)).settle)

/-- The rows of the serial lanes complete (R336 to R361). -/
def Obligations.LaneCommandsComplete : Prop :=
  ∀ (m : Msg) (ss : Session) (s t : State) (l : Fin 44) (v : BitVec 8),
    (s.dev = .running → s.pair s.tm.tick % 16 = 8 →
      exec .frameSlot s = .next ((List.range 44).foldl (fun (x : State) l =>
        (x.announce l).downFrame l ((x.inSample - 8) / 16) s.nextGroup.1) s.nextGroup.2).settle) ∧
    (∀ f : UpFrame, s.dev = .running → 3 ≤ s.rd (K.LANE_STATE f.lane.val) → f.token = true →
      exec (.idleFrame f) s = .next (if f.crcOk && headerOk f.lane.val f.header.toNat then s.goodFrame f.lane.val f.header.toNat
        else s.badFrame f.lane.val).settle) ∧
    (∀ l : Fin 48, Carried m ss (K.LANE_ENABLE l.val) 1 v.toNat s t → ∀ u, u = t.wr (K.LANE_ENABLE l.val) v.toNat →
      exec (.laneEnable m l v) s =
        .next (t.carriedOut (if 44 ≤ l.val then u.syncPort (l.val - 44) else if v.toNat = 0 then u.laneDrop l.val 0 else u) m ss
          (K.LANE_ENABLE l.val)).settle) ∧
    (s.dev = .running → s.rd (K.LANE_STATE l.val) = 1 → exec (.phaseLock l) s =
      .next ((s.laneTo l.val 2).setLane l.val { (s.laneTo l.val 2).lane l.val with back := (s.lane l.val).back }).settle) ∧
    (s.dev = .running → s.rd (K.LANE_STATE l.val) = 3 →
      ((s.lane l.val).askedAt < (s.lane l.val).since ∨ (s.lane l.val).askedAt + 1000 ≤ s.tm.tick) →
      exec (.identRequest l) s =
        .next ((s.setLane l.val { s.lane l.val with askedAt := s.tm.tick }).queueMsg l.val 0x04 []).settle) ∧
    (∀ (i : Ident) (u : State), s.dev = .running → s.rd (K.LANE_STATE l.val) = 3 → zeroTail i = true →
      (3 ≤ Dict.laneUse l.val ∨ i.kind.toNat = Dict.laneUse l.val + 1) →
      u = ((s.rxFrame l.val).wrs [(K.LANE_NODE_KIND l.val, i.kind.toNat), (K.LANE_NODE_SERIAL l.val, i.serial.toNat),
        (K.LANE_DELAY l.val, i.delay.toNat)]).identReport l.val i →
      exec (.ident l i) s = .next (if l.val < 16 ∧ 12 * 128 < i.delay.toNat then u.identFailed l.val 1 i.delay.toNat
        else u.queueMsg l.val 0x05 (toLE 4 i.delay.toNat)).settle) ∧
    (∀ due : Nat, s.dev = .running → (s.lane l.val).upAt = some due → due ≤ s.tm.tick → s.rd (K.LANE_STATE l.val) = 3 →
      exec (.laneUp l) s = .next (s.laneEnterUp l.val).settle) ∧
    (s.dev = .running → s.rd (K.LANE_STATE l.val) = 3 → (s.lane l.val).since + 10000 ≤ s.tm.tick → (s.lane l.val).upAt = none →
      (s.lane l.val).holds 5 = false → exec (.identFail l) s = .next (s.identFailed l.val 0 0).settle) ∧
    (∀ detail : BitVec 8, s.dev = .running → s.laneUp l.val = true → (detail.toNat = 1 ∧ (s.lane l.val).rxNow = 0 ∨
        detail.toNat = 2 ∧ (s.lane l.val).rxNow = 0 ∧ 8 ≤ (s.lane l.val).badRun ∨
        detail.toNat = 3 ∧ (s.lane l.val).rxNow = 1) →
      exec (.linkLoss l detail) s = .next (((s.inc (K.LANE_LOSSES l.val)).laneEvent l.val 0x00A1 3 detail.toNat
        ((s.lane l.val).last.getD 0)).laneDrop l.val 1).settle) ∧
    (∀ (d : Fin 36) (digest : BitVec 64), s.dev = .running → s.laneUp d.val = true →
      ∀ u, u = s.rxFrame d.val → exec (.digest d digest) s = .next ((u.setLane d.val { u.lane d.val with digestAt := none }).nodeDigestIn
        (d.val + 2) digest.toNat).settle) ∧
    (∀ (d : Fin 36) (code : BitVec 16) (data : BitVec 64), s.dev = .running → s.laneUp d.val = true →
      exec (.nodeEvent d code data) s = .next ((s.rxFrame d.val).laneEvent d.val 0x00A6 6 0 code.toNat).settle) ∧
    (∀ l : Fin 48, Carried m ss (K.LANE_TX_STATE l.val) 1 v.toNat s t → (t.rd (K.LANE_TX_STATE l.val) ≠ 0 ∨ v.toNat = 0 ∨ t.mayLeaveL0 l.val = true) →
      exec (.laneTxState m l v) s =
        .next (t.carriedOut (t.wr (K.LANE_TX_STATE l.val) v.toNat) m ss (K.LANE_TX_STATE l.val)).settle) ∧
    (∀ l : Fin 48, Carried m ss (K.LANE_RX_STATE l.val) 1 v.toNat s t →
      (t.rd (K.LANE_RX_STATE l.val) ≠ 0 ∨ v.toNat = 0 ∨ t.mayLeaveL0 l.val = true ∧ t.rd (K.LANE_TX_STATE l.val) = 0) →
      exec (.laneRxState m l v) s =
        .next (t.carriedOut ((t.wr (K.LANE_RX_STATE l.val) v.toNat).queueMsg l.val 0x03 (toLE 1 v.toNat)) m ss (K.LANE_RX_STATE l.val)).settle) ∧
    (∀ l : Fin 48, Carried m ss (K.EYE_CONTROL l.val) 1 1 s t → t.laneUp l.val = true → t.rd (K.LANE_TX_STATE l.val) = 0 →
      t.rd (K.LANE_RX_STATE l.val) = 0 → t.rd (K.EYE_STATE l.val) ≠ 1 →
      ∀ u, u = t.wrs [(K.EYE_STATE l.val, 1), (K.EYE_POINTS_DONE l.val, 0)] →
      exec (.eyeStart m l) s =
        .next (t.carriedOut (if u.eyePoints l.val = 0 then u.eyeEnd l.val 2 else u) m ss (K.EYE_CONTROL l.val)).settle) ∧
    (∀ l : Fin 48, Carried m ss (K.EYE_CONTROL l.val) 1 2 s t → t.rd (K.EYE_STATE l.val) = 1 →
      exec (.eyeAbort m l) s = .next (t.carriedOut (t.eyeEnd l.val 3) m ss (K.EYE_CONTROL l.val)).settle) ∧
    (∀ (l : Fin 48) (count : BitVec 32) (u w : State), s.dev = .running → s.rd (K.EYE_STATE l.val) = 1 →
      s.tryWrite (s.rd (K.EYE_TC l.val)) (s.rd (K.EYE_ADDR l.val) + 4 * s.rd (K.EYE_POINTS_DONE l.val)) (toLE 4 count.toNat) = (true, u) →
      w = u.wr (K.EYE_POINTS_DONE l.val) (s.rd (K.EYE_POINTS_DONE l.val) + 1) →
      exec (.eyePoint l count) s = .next (if w.eyePoints l.val ≤ s.rd (K.EYE_POINTS_DONE l.val) + 1 then w.eyeEnd l.val 2 else w).settle) ∧
    (s.dev = .running → s.rd (K.LANE_ENABLE l.val) ≠ 0 → s.rd (K.LANE_STATE l.val) = 0 →
      exec (.signalPresent l) s = .next (s.laneTo l.val 1).settle)


/-- Axis commands complete (R363, R364, R367 to R376): the unit enabled or faulted acts as the counting and compare rules say. -/
def Obligations.AxisCommandsComplete : Prop :=
  ∀ (m : Msg) (ss : Session) (s t u : State) (k : Fin 4) (c : Fin 8) (v : BitVec 8),
    (Carried m ss (K.AX_ENABLE k.val) 1 v.toNat s t → v.toNat = 0 → t.rd (K.AX_ENABLE k.val) ≠ 0 →
      exec (.axEnable m k v) s = .next (t.carriedOut ((t.wr (K.AX_ENABLE k.val) 0).wrs [(K.AX_STATUS k.val, 0), (K.AX_FAULT k.val, 0)])
        m ss (K.AX_ENABLE k.val)).settle) ∧
    (Carried m ss (K.AX_ENABLE k.val) 1 v.toNat s t → v.toNat ≠ 0 → t.rd (K.AX_ENABLE k.val) = 0 →
      u = ((t.wr (K.AX_ENABLE k.val) v.toNat).wrs [(K.AX_STATUS k.val, 0), (K.AX_FAULT k.val, 0)]).setAxis k.val { Axis.init with
        hist := [(t.tm.tick, 0)],
        enabledAt := t.tm.tick, cleanAt := t.tm.tick, out := (t.axis k.val).out, edges := (t.axis k.val).edges, moved := (t.axis k.val).moved,
        outTick := (t.axis k.val).outTick } →
      exec (.axEnable m k v) s = .next (t.carriedOut ((((u.wrs [(K.AX_COUNT k.val, 0), (K.AX_CORR_PENDING k.val, 0)]).formPos
        k.val).judgeAll k.val).bladeMotion k.val) m ss (K.AX_ENABLE k.val)).settle) ∧
    (∀ (bits : BitVec 4) (new : Nat), s.dev = .running → new = s.rd (K.AX_FAULT k.val) ||| (bits.toNat &&& s.modeFaults k.val) → s.rd (K.AX_ENABLE k.val) ≠ 0 →
      new ≠ s.rd (K.AX_FAULT k.val) → s.rd (K.AX_STATUS k.val) = 1 →
      u = (s.wr (K.AX_FAULT k.val) new).setAxis k.val { s.axis k.val with
        worst := bits.toNat &&& s.modeFaults k.val,
        brokeAt := some s.tm.tick, zAt := none } →
      exec (.signalFault k bits) s = .next ((u.wr (K.AX_STATUS k.val) 2).raise (srcAxis k.val) 0x00C3 3 k.val new).settle) ∧
    (s.dev = .running → s.rd (K.AX_ENABLE k.val) ≠ 0 → s.rd (K.AX_STATUS k.val) = 0 → s.rd (K.AX_FAULT k.val) ≠ 0 → s.rd (K.AX_FAULT k.val) < 16 →
      exec (.signalRecovered k) s = .next (((s.wr (K.AX_FAULT k.val) 0).setAxis k.val { s.axis k.val with
        cleanAt := s.tm.tick }).axisReady k.val).settle) ∧
    (s.dev = .running → s.rd (K.AX_ENABLE k.val) = 1 → s.rd (K.AX_STATUS k.val) = 0 → s.rd (K.AX_FAULT k.val) = 0 →
      (s.axis k.val).cleanAt + 100 ≤ s.tm.tick →
      exec (.signalRecovered k) s = .next ((s.wr (K.AX_FAULT k.val) 0).wr (K.AX_STATUS k.val) 1).settle) ∧
    (Carried m ss (K.AX_FAULT_ACK k.val) 1 1 s t → t.rd (K.AX_STATUS k.val) = 3 →
      exec (.axFaultAck m k) s = .next (t.carriedOut (t.wr (K.AX_STATUS k.val) 1) m ss (K.AX_FAULT_ACK k.val)).settle) ∧
    (∀ p : BitVec 64, Carried m ss (K.AX_COUNT_PRESET k.val) 8 p.toNat s t → t.atRest k.val = true →
      (t.rd (K.AX_STATUS k.val) = 1 ∨ t.rd (K.AX_STATUS k.val) = 3) → u = t.shiftCount k.val (sgn 64 p.toNat - t.count k.val) true →
      exec (.axCountPreset m k p) s = .next (t.carriedOut ((((u.setAxis k.val { u.axis k.val with ref := none }).wrs
        [(K.AX_STATUS k.val, 1), (K.AX_CORR_PENDING k.val, 0)]).formPos k.val).judgeAll k.val) m ss (K.AX_COUNT_PRESET k.val)).settle) ∧
    (∀ (delay : BitVec 8) (at' : Nat), s.dev = .running → s.rd (K.AX_ENABLE k.val) ≠ 0 → (s.axis k.val).ref = none →
      s.rd (K.AO_ENABLE k.val) = 0 → at' = s.tm.tick - delay.toNat → s.rd K.PIN_FILTER_INDEX ≤ delay.toNat →
      (delay.toNat = 0 ∨ (s.axis k.val).enabledAt < at') → s.jumpsFrom k.val at' = [] →
      u = ((s.wrs [(K.AX_INDEX_LATCH k.val, uns 64 (s.countAt k.val at')), (K.AX_INDEX_STAMP k.val, s.timeAt at')]).inc
        (K.AX_INDEX_COUNT k.val)).raiseAt at' (srcAxis k.val) 0x00C0 4 k.val (uns 64 (s.countAt k.val at')) [] false →
      exec (.index k delay) s =
        .next ((u.setAxis k.val { s.axis k.val with ref := some (s.countAt k.val at') }).aoFollow k.val).settle) ∧
    (∀ d : Int, s.dev = .running → d = s.rdS 32 (K.AX_CORR_PENDING k.val) → d ≠ 0 → s.atRest k.val = true → s.rd (K.AX_ENABLE k.val) ≠ 0 →
      s.rd (K.AX_FAULT k.val) % 16 = 0 →
      u = s.shiftCount k.val d false →
      exec (.axCorrected k) s = .next ((((((u.setAxis k.val { u.axis k.val with ref := (u.axis k.val).ref.map (· + d) }).wr
        (K.AX_CORR_PENDING k.val) 0).raise (srcAxis k.val) 0x00C2 4 k.val (uns 32 d)).formPos k.val).judgeAll k.val)).settle) ∧
    (Carried m ss (K.CMP_ARM k.val c.val) 1 1 s t → t.rd (K.CMP_ARM k.val c.val) ≠ 1 → t.rd (K.CMP_ACTION k.val c.val) = 0 →
      exec (.cmpArm m k c) s = .next (t.carriedOut ((t.wrs [(K.CMP_ARM k.val c.val, 1), (K.CMP_FIRED k.val c.val, 0),
        (K.CMP_SKIPPED k.val c.val, 0)]).judge k.val c.val) m ss (K.CMP_ARM k.val c.val)).settle) ∧
    (Carried m ss (K.CMP_ARM k.val c.val) 1 0 s t → t.rd (K.CMP_ARM k.val c.val) = 1 →
      exec (.cmpDisarm m k c) s = .next (t.carriedOut ((t.wr (K.CMP_ARM k.val c.val) 0).setAxis k.val { t.axis k.val with
        ahead := setBit (t.axis k.val).ahead c.val false,
        behind := (t.axis k.val).behind.filter fun b => b.1 != c.val }) m ss (K.CMP_ARM k.val c.val)).settle) ∧
    (s.dev = .running → s.cmpDue k.val c.val = true →
      exec (.compare k c) s = .next ((s.fireCompare k.val c.val).deliver (s.rd (K.CMP_ACTION k.val c.val))
        (s.rd (K.CMP_TARGET k.val c.val))).settle) ∧
    (Carried m ss (K.AO_ENABLE k.val) 1 v.toNat s t → v.toNat ≠ t.rd (K.AO_ENABLE k.val) → v.toNat ≤ 1 →
      u = (t.wrs [(K.AO_ENABLE k.val, v.toNat), (K.AO_LAG k.val, 0)]).setAxis k.val { t.axis k.val with
        moved := 0,
        out := 0, edges := 0, outTick := t.tm.tick, overspeed := false, zAt := none } →
      exec (.aoEnable m k v) s =
        .next (t.carriedOut (if v.toNat = 1 then u.emit (.pin "AO" k.val) [0, 0] else u) m ss (K.AO_ENABLE k.val)).settle) ∧
    (s.dev = .running → u = s.aoFollow k.val → u.rd (K.AO_ENABLE k.val) ≠ 0 → 16 < u.rd (K.AO_LAG k.val) →
      (u.axis k.val).overspeed = false →
      exec (.aoOverspeed k) s = .next (((u.setAxis k.val { u.axis k.val with overspeed := true }).inc (K.AO_OVERSPEED_COUNT k.val)).raise
        (srcAxis k.val) 0x00C8 3 k.val (u.rd (K.AO_LAG k.val) % 2 ^ 32 * 2 ^ 32)).settle) ∧
    (∀ d : BitVec 32, s.dev = .running → s.rd (K.AX_ENABLE k.val) ≠ 0 → s.rd (K.AX_FAULT k.val) % 16 = 0 → s.rd (K.AX_MODE k.val) = 0 →
      d.toInt ≠ 0 → s.rd (K.AO_ENABLE k.val) = 0 → u = s.putCount k.val (s.count k.val + d.toInt) →
      exec (.axisMotion k (.edges d)) s = .next ((((u.formPos k.val).markAhead k.val).bladeMotion k.val).aoFollow k.val).settle) ∧
    (∀ a b : BitVec 20, s.dev = .running → s.rd (K.AX_ENABLE k.val) ≠ 0 → s.rd (K.AX_FAULT k.val) % 16 = 0 → s.rd (K.AX_MODE k.val) = 1 →
      exec (.axisMotion k (.pair a b)) s = .next (s.axisPair k.val a.toInt b.toInt).settle)

/-- Lamp, row-scan and marker-lamp commands complete (R377 to R390, R521, R522). -/
def Obligations.LightCommandsComplete : Prop :=
  ∀ (m : Msg) (ss : Session) (s t u : State) (w : Fin 4) (v : BitVec 8) (f : Flash),
    (Carried m ss K.LM_ENABLE 1 v.toNat s t → v.toNat = 1 → t.rd K.LM_ENABLE = 0 →
      exec (.lmEnable m v) s = .next (t.carriedOut (t.wr K.LM_ENABLE 1).startScan m ss K.LM_ENABLE).settle) ∧
    (Carried m ss K.LM_ENABLE 1 v.toNat s t → v.toNat = 0 → t.rd K.LM_ENABLE = 1 → t.light.flash = none →
      exec (.lmEnable m v) s = .next (t.carriedOut (((t.wr K.LM_ENABLE 0).wr K.LM_STATE 0).cutLight) m ss K.LM_ENABLE).settle) ∧
    (s.dev = .running → s.rd K.LM_ENABLE ≠ 0 → s.light.nextSlot ≤ s.tm.tick → s.light.flash = none → u = s.countSlot s.light.row →
      ∃ w : State, exec .rowSlot s = .next w.settle ∧ w.light.row = (s.light.row + 1) % 8 ∧ w.od = u.od ∧ w.ev = u.ev ∧ w.tm = s.tm) ∧
    (s.dev = .running → s.light.flash = some f → f.rows = [] → s.light.nextSlot ≤ s.tm.tick →
      exec .flashDone s = .next (s.flashOver f.set s.light.nextSlot).settle) ∧
    (∀ (g : Fin 192) (result : BitVec 2) (due before : Nat), s.dev = .running →
      due = Tab.get (fun _ => 0) s.light.due g.val → due ≠ 0 → due ≤ s.tm.tick → result.toNat ≠ 0 →
      before = Tab.get (fun _ => 0) s.light.failed g.val →
      u = { s with
        light := { s.light with
          due := Tab.set (fun _ => 0) s.light.due g.val 0,
          quiet := Tab.set (fun _ => 0) s.light.quiet g.val 0,
          failed := Tab.set (fun _ => 0) s.light.failed g.val (if result.toNat = 1 then 0 else result.toNat) } } →
      exec (.diagnosis (.segment g) result) s = .next (if result.toNat = 1 then u.setSegStatus g.val 1
        else if before = result.toNat ∧ u.segStatus g.val ≠ result.toNat then
          ((u.setSegStatus g.val result.toNat).inc K.LM_SEG_FAULTS).lightEvent due 0xD8 0x00D0 3 g.val result.toNat
        else u).settle) ∧
    (∀ result : BitVec 2, s.dev = .running → s.rd (K.WL_MODE w.val) ≠ 0 → 2 ≤ result.toNat → s.rd (K.WL_STATUS w.val) ≤ 1 →
      u = (s.setLamp w.val { s.lamp w.val with since := s.tm.tick }).wr (K.WL_DIAG_STAMP w.val) s.now →
      exec (.diagnosis (.lamp w) result) s = .next (((u.setLamp w.val { u.lamp w.val with ack := none }).wr (K.WL_STATUS w.val) result.toNat).lampFail w.val).settle) ∧
    (s.dev = .running → s.rd (K.WL_MODE w.val) ≠ 0 → s.rd (K.WL_STATUS w.val) ≤ 1 →
      (s.lamp w.val).since + s.rd K.WL_DIAG_MAX * 100000 ≤ s.tm.tick →
      exec (.lampOverdue w) s = .next ((s.wr (K.WL_STATUS w.val) 4).lampFail w.val).settle) ∧
    (Carried m ss (K.WL_ACK w.val) 1 1 s t → 2 ≤ t.rd (K.WL_STATUS w.val) →
      exec (.wlAck m w) s =
        .next (t.carriedOut (t.setLamp w.val { t.lamp w.val with ack := some t.tm.tick }) m ss (K.WL_ACK w.val)).settle) ∧
    (Carried m ss (K.WL_MODE w.val) 1 v.toNat s t → v.toNat ≠ 0 → u = (t.wr (K.WL_MODE w.val) v.toNat).driveLamp w.val →
      exec (.wlMode m w v) s = .next (t.carriedOut
        (if t.rd (K.WL_MODE w.val) = 0 then u.setLamp w.val { since := u.tm.tick, ack := none } else u) m ss (K.WL_MODE w.val)).settle) ∧
    (Carried m ss (K.WL_MODE w.val) 1 v.toNat s t → v.toNat = 0 →
      u = (((t.wr (K.WL_MODE w.val) 0).driveLamp w.val).wr (K.WL_STATUS w.val) 0).setLamp w.val Lamp.init →
      exec (.wlMode m w v) s =
        .next (t.carriedOut (if u.inPolicy w.val then u.lampFail w.val else u) m ss (K.WL_MODE w.val)).settle)

/-- TWIN_ACTIVATE, TWIN_DETACH and TWIN_JOIN and the part's own pair steps complete (R402 to R409, R424, R427, R429). -/
def Obligations.PairCommandsComplete : Prop :=
  ∀ (m : Msg) (ss : Session) (s t u : State) (at' : Nat) (l : Fin 36),
    (Carried m ss K.TWIN_COMMAND 1 1 s t → t.role = Role.detached → t.rd K.TWIN_PARTNER_ROLE ≠ Role.active →
      exec (.twinActivate m) s = .next (t.carriedOut t.enterActive m ss K.TWIN_COMMAND).settle) ∧
    (Carried m ss K.TWIN_COMMAND 1 2 s t → t.role ≠ Role.detached → (t.role = Role.active → t.phase = Phase.idle) →
      exec (.twinDetach m) s = .next (t.carriedOut t.enterDetached m ss K.TWIN_COMMAND).settle) ∧
    (Carried m ss K.TWIN_COMMAND 1 3 s t → t.role = Role.detached → t.rd K.TWIN_PARTNER_ROLE = Role.active →
      exec (.twinJoin m) s = .next (t.carriedOut t.enterSyncing m ss K.TWIN_COMMAND).settle) ∧
    (s.dev = .running → s.role = Role.detached → s.rd K.TWIN_START = 1 → s.rd K.TWIN_STRAP = 0 → s.tw.heard = false →
      s.rd K.TWIN_ROLE_STAMP = 0 → s.tw.readyTick + 1000000 ≤ s.tm.tick → exec .twinStartTimeout s = .next s.enterActive.settle) ∧
    (s.dev = .running → s.pair s.tm.tick % 100 = 0 → s.rd K.TWIN_LINKS ≠ 0 →
      exec .heartbeatSend s = .next (s.sendPartner 0x0001 (toLE 1 s.role ++ toLE 1 (if s.failing then 1 else 0) ++ toLE 2 0 ++
        toLE 8 (s.pair s.tm.tick) ++ toLE 8 (s.beatTime.1 / 2 ^ 32) ++ toLE 4 s.beatTime.1 ++ toLE 8 (uns 64 s.beatTime.2) ++
        toLE 8 s.tm.lt ++ toLE 4 s.tw.mirrorSeq ++ toLE 4 (s.rd K.LAYER_NUMBER))).settle) ∧
    (s.dev = .running → s.tw.heardAt = some at' → at' + 300 ≤ s.tm.tick → s.role = Role.standby →
      ∃ w : State, exec .partnerFailed s = .next w.settle ∧ w.tw.takeoverAt = some (s.tm.tick + 1) ∧ w.tw.heardAt = none) ∧
    (s.dev = .running → s.tw.takeoverAt = some at' → at' ≤ s.tm.tick → s.role = Role.standby →
      exec .takeover s = .next (s.enterActive.inc K.TWIN_TAKEOVERS).settle) ∧
    (s.dev = .running → s.tw.handoverAt = some at' → at' ≤ s.tm.tick → s.role = Role.active →
      exec .handoverEffect s = .next s.enterStandby.settle) ∧
    (s.dev = .running → s.tw.handoverAt = some at' → at' ≤ s.tm.tick → s.role = Role.standby →
      exec .handoverEffect s = .next s.enterActive.settle) ∧
    (s.dev = .running → s.rd K.TWIN_SYNC_STATE = 1 → s.role = Role.syncing →
      exec .syncCopyDone s = .next (s.wr K.TWIN_SYNC_STATE 2).settle) ∧
    (s.dev = .running → u = { s with
        mirrors := s.mirrors.filter fun r => !decide (r.effect ≤ s.tm.tick) } →
      exec .mirrorEffect s =
        .next (((s.mirrors.filter fun r => decide (r.effect ≤ s.tm.tick)).foldl (fun v r => v.mirrorEffect r) u).afterReset).settle) ∧
    (s.dev = .running → (s.lane l.val).digestAt = some at' → s.laneUp l.val = true → at' + 10000 ≤ s.tm.tick →
      exec (.digestRequestTimeout l) s = .next ((s.setLane l.val { s.lane l.val with digestAt := none }).wr
        (K.FLEET_NODE_STATE (l.val + 2)) 2).settle) ∧
    (Carried m ss K.DIGEST_HOLD_RELEASE 1 1 s t → t.rd K.DIGEST_HOLD ≠ 0 →
      exec (.digestHoldRelease m) s = .next (t.carriedOut (t.setDigestHold 0) m ss K.DIGEST_HOLD_RELEASE).settle)

/-- What a part does with the messages of its partner completes (R404 to R413, R417 to R424, R427 to R430): a message that a link in
use brings, with an epoch not behind. -/
def Obligations.PartnerMessagesComplete : Prop :=
  ∀ (p : PMsg) (s t u v : State), Heard p s t →
    (∀ h : Beat, h.failing = false → u = (t.beatHeard p.epoch.toNat).partnerRole h.role.toNat →
      v = (u.beatRole (h.role.toNat == Role.active) p.epoch.toNat).beatStep (t.beatTick p.link.val h) h.mirrorSeq.toNat →
      exec (.heartbeat p h) s =
        .next (if v.role = Role.standby ∨ v.role = Role.syncing then v.timeFrom h (t.beatTick p.link.val h) else v).settle) ∧
    (∀ (n crc : BitVec 32) (c : Nat × Nat), t.tw.checks.find? (fun c => c.1 == n.toNat) = some c →
      exec (.sampleCheck p n crc) s = .next (if c.2 = crc.toNat then t else t.loseStep 0x00E4).settle) ∧
    (∀ (role : BitVec 8) (rejected : BitVec 16), t.role = Role.active → role.toNat = Role.active → t.rd K.TWIN_EPOCH < p.epoch.toNat →
      exec (.stale p role rejected) s = .next ((t.setEpoch p.epoch.toNat).enterSyncing).settle) ∧
    (∀ (i : SyncItem), t.role = Role.syncing → exec (.syncPage p i) s = .next (t.takeSync i).settle) ∧
    (∀ (digest : BitVec 64) (b : SyncBlock), t.role = Role.syncing → t.rd K.TWIN_SYNC_STATE = 2 →
      u = { t with
        od := replaceKeys t.od syncKey b.od,
        chans := b.chans, lunes := b.lunes, loops := b.loops, reps := b.reps, trig := b.trig, axes := b.axes } →
      exec (.syncState p digest b) s = .next (if u.rd K.NODE_DIGEST_STATE = 0 then u.syncCompare digest.toNat else { u with
        tw := { u.tw with wanted := some digest.toNat } } : State).settle) ∧
    (∀ (digest view : BitVec 64) (nodes : List (BitVec 8)), t.role = Role.active → t.tw.partnerDigest = none →
      u = { t with
        tw := { t.tw with partnerDigest := some (digest.toNat, nodes.map (·.toNat)) } } →
      v = (u.wr K.FLEET_PARTNER_VIEW view.toNat).nodeSeen u.partnerNode digest.toNat → v.role = Role.active →
      exec (.partnerDigest p digest view nodes) s = .next (v.ownDigest.compareFleet false).settle) ∧
    (∀ effect : BitVec 64, t.role = Role.standby → t.rd K.TWIN_STRAP = 0 →
      exec (.handover p effect) s = .next ({ t with
        tw := { t.tw with handoverAt := some (t.unpair effect.toNat) } } : State).settle) ∧
    (∀ b : BitVec 8, t.role ≠ Role.active → exec (.holdMirror p b) s = .next (t.wr K.DIGEST_HOLD (b.toNat % 2)).settle)

/-- The mirrored messages complete on a part that follows (R410, R411, R414 to R416, R420, R423, R425): a message that is the next in
sequence has its effect or waits for its EFFECT tick. -/
def Obligations.MirroredMessagesComplete : Prop :=
  ∀ (p : PMsg) (q : BitVec 32) (s t u : State), Heard p s t → NextMirror q t u →
    (∀ (effect : BitVec 64) (c : Mirrored) (v : State), v = u.addMirror {
      effect := u.unpair effect.toNat,
      remote := true, kind := c.kind.toNat, port := 0, session := c.session.toNat, hostId := c.host.toNat, seq := c.seq.toNat,
      key := c.index.toNat * 256 + c.sub.toNat, party := c.party.toNat, proposal := c.proposal.toNat, bytes := c.value, dups := [] } →
      exec (.hostCommand p q effect c) s = .next (if c.session = 0 then v else
        v.wr K.TWIN_LAST_MIRRORED (c.host.toNat + c.seq.toNat * 2 ^ 64)).settle) ∧
    (∀ (tc : Fin 192) (a : BitVec 64) (data : List Byte),
      exec (.memoryWrite p q tc a data) s = .next (if tc = 63 then (u.sendWrite tc.val a.toNat data).takeSlot a.toNat
        else u.sendWrite tc.val a.toNat data).settle) ∧
    (∀ (effect : BitVec 64) (tc : Fin 192) (unmap : Bool) (request : BitVec 128),
      exec (.mapMirror p q effect tc unmap request) s = .next (u.addMirror {
        effect := u.unpair effect.toNat,
        remote := true, kind := 0x11, port := 0, session := 0, hostId := 0, seq := 0,
        key := (0x8000 + 16 * tc.val) * 256 + (if unmap then 6 else 5), party := 0, proposal := 0,
        bytes := toLE (if unmap then 8 else 16) request.toNat, dups := [] }).settle) ∧
    (∀ (decided : BitVec 64) (l : List Decided),
      exec (.decision p q decided l) s = .next (u.takeDecision (u.unpair decided.toNat) (l.map Decided.verdict)).settle) ∧
    (∀ (apply : BitVec 64) (cells : List (BitVec 32 × BitVec 128)) (v : State), v = { u with
        lat := { u.lat with
          waiting := u.lat.waiting.filter fun w => decide (u.unpair apply.toNat < w.inst) } } →
      exec (.latticeDelta p q apply cells) s =
        .next (cells.foldl (fun w c => w.setCell (c.1.toNat % 2 ^ 24) (Cell.ofImage c.2.toNat)) v).settle) ∧
    (∀ (sample : BitVec 64) (l : List LoopImage),
      exec (.loopState p q sample l) s = .next (l.foldl (fun v i => v.takeLoop i) u).settle)

/-- Interlock and permit commands complete (R431 to R436, R440): a changed input, a pair apart too long, a wrong pin, a clear and a
restart that their conditions allow. -/
def Obligations.PermitCommandsComplete : Prop :=
  ∀ (m : Msg) (ss : Session) (s t u : State) (i : Fin 8) (p : Fin 4) (n : Fin 16) (a b closed : Bool) (v : BitVec 16)
    (delay : Nat),
    (∀ w : State, s.dev ≠ .held → delay = s.rd K.PIN_FILTER_IL → (s.rd K.IL_INPUTS).testBit i.val ≠ closed →
      u = s.wr K.IL_INPUTS (if closed then s.rd K.IL_INPUTS + 2 ^ i.val else s.rd K.IL_INPUTS - 2 ^ i.val) → w = { u with
        isl := { u.isl with
          disagree := Tab.set (fun _ => 0) u.isl.disagree (i.val / 2)
            (if !u.pairClosed (i.val / 2) && !u.pairOpen (i.val / 2) then s.tm.tick - delay + 1 else 0) } } →
      exec (.interlockChange i closed) s = .next (w.setPair (s.tm.tick - delay) (i.val / 2) (w.pairNext (i.val / 2))).settle) ∧
    (s.dev ≠ .held → Tab.get (fun _ => 0) s.isl.disagree p.val ≠ 0 →
      Tab.get (fun _ => 0) s.isl.disagree p.val + 950000 ≤ s.tm.tick + 1 → s.pairState p.val ≠ 2 →
      exec (.discrepancy p) s = .next ((s.inc K.IL_DISCREPANCIES).setPair s.tm.tick p.val 2).settle) ∧
    (∀ pins : Nat, s.dev ≠ .held → pins = s.wrongPins n.val a b → pins ≠ 0 → (s.rd K.BP_READBACK_FAULT).testBit n.val = false → u = { s with
        isl := { s.isl with
          bad := Tab.set (fun _ => 0) s.isl.bad n.val pins } } →
      exec (.readbackFault n a b) s = .next (((u.wr K.BP_READBACK_FAULT (u.rd K.BP_READBACK_FAULT + 2 ^ n.val)).raise 0x00 0x0003 1 n.val
        (n.val + pins * 2 ^ 8)).withdraw (2 ^ n.val) Bp.readback).settle) ∧
    (Carried m ss K.BP_READBACK_CLEAR 2 v.toNat s t → (maskList 16 v.toNat).all t.readsRight = true →
      exec (.bpReadbackClear m v) s = .next (t.carriedOut (t.wr K.BP_READBACK_FAULT
        (t.rd K.BP_READBACK_FAULT - (t.rd K.BP_READBACK_FAULT &&& v.toNat))) m ss K.BP_READBACK_CLEAR).settle) ∧
    (Carried m ss K.PERMIT_RESTART 2 v.toNat s t → (maskList 16 v.toNat).all t.permitOk = true →
      exec (.permitRestart m v) s = .next (t.carriedOut (((t.wrs [(K.BP_STATE, t.rd K.BP_STATE ||| v.toNat),
        (K.BP_STAMP, t.now)]).drivePermits v.toNat).raise 0x00 0x0002 4 0 v.toNat) m ss K.PERMIT_RESTART).settle)

/-- Calibration commands complete (R480 to R505): a load of a run in calibration memory, the four measurements, their end, a discard,
the trims and the two copies of a record. -/
def Obligations.CalibrationCommandsComplete : Prop :=
  ∀ (m : Msg) (ss : Session) (s t u : State) (i : Fin 64) (inst : BitVec 16),
    (Carried m ss K.CAL_LOAD 1 1 s t → t.cal.load = none →
      exec (.calLoad m) s = .next (t.carriedOut (t.loadGo (t.rd K.CAL_LOAD_ADDR)) m ss K.CAL_LOAD).settle) ∧
    (∀ kind ∈ [0x12, 0x20, 0x31, 0x33], Carried m ss K.CAL_MEASURE 4 (kind * 2 ^ 24 + inst.toNat) s t → t.rd K.CAL_MEAS_STATE = 0 →
      t.measOk kind inst.toNat = true → u = { t.wr K.CAL_MEAS_STATE 1 with
        cal := { t.cal with
          meas := { kind := kind, inst := inst.toNat, chan := 0, aims := [], points := [], capture := none, shot := 0, waits := [],
                    found := [], first := [], second := [], lost := [], frames := 0, sums := [], start := t.count inst.toNat } } } →
      (kind = 0x12 → exec (.calMeasureRegistration m inst) s =
        .next (t.carriedOut (u.startCrosses ((maskList 16 inst.toNat).headD 0) 1) m ss K.CAL_MEASURE).settle) ∧
      (kind = 0x20 → exec (.calMeasurePoolDark m inst) s = .next (t.carriedOut u m ss K.CAL_MEASURE).settle) ∧
      (kind = 0x31 → exec (.calMeasureLaneTrim m inst) s = .next (t.carriedOut u m ss K.CAL_MEASURE).settle) ∧
      (kind = 0x33 → exec (.calMeasureAxisTrim m inst) s = .next (t.carriedOut u m ss K.CAL_MEASURE).settle)) ∧
    (∀ (tick : Nat) (on : List Nat) (v w : State), s.dev = .running → s.cal.meas.capture = some tick → tick ≤ s.tm.tick →
      s.cal.meas.kind = 0x12 → (s.rd K.CAL_MEAS_STATE = 1 ∨ s.rd K.CAL_MEAS_STATE = 2) → v = s.fireFlash (s.rd K.CAL_FID_FLASH) →
      on = [16, 17, 18, 19].filter (fun k => v.rd (K.PC_ENABLE k) == 1) → w = on.foldl (fun s k => s.expose k) v →
      exec .fiducialCapture s = .next ({ w with
        cal := { w.cal with
          meas := { s.cal.meas with
            capture := none, shot := w.tm.tick, waits := on.filter fun k => v.rd (K.PC_TRIGGER k) == 0 } } } : State).settle) ∧
    (∀ a b : List Byte, s.dev = .running → s.rd K.CAL_MEAS_STATE = 3 → s.cal.meas.kind = 0x33 → s.cal.meas.lost = [] → a.length = 8 →
      b.length = 8 → s.rd (K.TC_STATE 63) ≠ 2 → s.enterPair (0x3300 + s.cal.meas.inst, a, b) = some u →
      ∃ (slot detail : Nat), exec (.calMeasured [a, b]) s =
        .next ((u.calEvent 0x0092 4 slot (0x3300 + s.cal.meas.inst) detail).measIdle).settle) ∧
    (Carried m ss K.CAL_MEAS_ABORT 1 1 s t → t.rd K.CAL_MEAS_STATE ≠ 0 → t.exposing t.cal.meas.chan = false →
      exec (.calMeasAbort m) s = .next (t.carriedOut t.measIdle m ss K.CAL_MEAS_ABORT).settle) ∧
    (Carried m ss (K.CAND_DISCARD i.val) 1 1 s t → t.slotNamed i.val = false →
      exec (.candDiscard m i) s = .next (t.carriedOut (if t.rd (K.CAND_STATE i.val) = 0 then t else t.setSlot i.val 0 0 0)
        m ss (K.CAND_DISCARD i.val)).settle) ∧
    (∀ d, s.dev = .running → s.cal.trims = [d] → u = { s with
        cal := { s.cal with trims := [] } } →
      exec .trimApply s = .next ((u.trimGo false d).installOver).settle) ∧
    (∀ (type : Nat) (rest : List Nat) (r : CalRec) (good : Bool) (none2 : Option CalRec × Option CalRec), s.dev = .running →
      s.cal.writes = type :: rest → s.record type = some r → none2 = (none, none) → u = { s with
        cal := { s.cal with
          writes := rest,
          store := Tab.set (fun _ => none2) s.cal.store type (placeCopy (Tab.get (fun _ => none2) s.cal.store type) r good) } } →
      exec (.calStored good) s = .next (if good then (u.wr K.CAL_STORE_STATE (if rest.isEmpty then 0 else 1)).calEvent 0x0095 6 0xFF type r.gen
        else (u.wr K.CAL_STORE_STATE 2).calEvent 0x0096 3 0xFF type r.gen).settle)

/-- Temperature and supply commands complete (R59 to R66, R79, R290 to R301, R506 to R509): a sample without a failing or returning
sensor, the end of an orderly stop, an acknowledgement, a peak read, the resets and what leads to them. -/
def Obligations.DieAndSupplyCommandsComplete : Prop :=
  ∀ (m : Msg) (ss : Session) (s t u v w : State),
    (∀ (raw : List (BitVec 16)) (r : List Int) (apex : Int) (x : State), s.dev = .running → raw.length = 14 → u = s.trimApply true →
      r = (List.range 14).map (fun i => u.reading i ((raw.map (·.toNat)).getD i 0)) →
      u.checkSensors r (raw.map (·.toNat)) = ([], [], v) → v.apexOf r = (apex, w) →
      x = w.wrs [(K.DT_APEX, uns 16 apex), (K.DT_SENSOR_VALUE, leNat (r.flatMap fun v => toLE 2 (uns 16 v)))] →
      ∀ y, y = (if x.rdS 16 K.DT_PEAK < apex then x.wr K.DT_PEAK (uns 16 apex) else x) → ∀ z : State, z = { y with
        die := { y.die.cross apex with apexes := ((y.tm.tick, apex) :: y.die.apexes).take 64 } } →
      exec (.thermalSample raw) s = .next ((((z.wr K.DT_THRESH_LEVEL z.thresholdLevel).setCutoff).setLevel).setFast).settle) ∧
    (s.dev = .running → s.rd K.DT_STOP_STATE = 1 → (∀ n < 16, s.rd (K.BC_STATE n) = Bc.off) →
      exec .stopDone s = .next ((s.askSeal.endScans.wr K.DT_STOP_STATE 2).dieEvent 0x0015 4 0 0 0).settle) ∧
    (∀ a : BitVec 16, Carried m ss K.DT_SENSOR_ACK 2 a.toNat s t → (∀ i ∈ maskList 16 a.toNat, i < 14 ∧ t.sensorState i = 1) →
      u = (maskList 16 a.toNat).foldl (fun s i => (s.setSensorState i 2 (octByte (s.rd K.DT_SENSOR_CAUSE) i)).setSensor i
        { s.sensor i with goodSince := none }) t →
      exec (.dtSensorAck m a) s = .next (t.carriedOut (if (List.range 14).any (fun i => u.sensorState i == 1) then u
        else (u.wr K.DT_FLOOR 0).setLevel) m ss K.DT_SENSOR_ACK).settle) ∧
    (Taken m ss s t → m.length.toNat = 4 → exec (.dtPeakRead m) s =
      .next ((t.wr K.DT_PEAK 0).answered m ss 0x10 K.DT_PEAK Ans.ok (toLE 2 (t.rd K.DT_PEAK))).settle) ∧
    (∀ p : PowerOn, s.dev ≠ .running → exec (.powerOnReset p) s = .next
      (s.release (if p.twinId then 1 else 0) (p.order.map (·.toNat)) p.aonLost p.keeper.toNat p.rails.toNat p.trained)) ∧
    (s.dev = .starting → s.pw.trainFailed = false →
      u = State.loadStore { s with
        dev := .running } → v = u.loadTypes.showLoaded.intoForce.takeRing.startUnits.digestPending.digestCurrent.wr K.PWR_RESET_CAUSE s.pw.cause →
      s.rd K.PWR_ORDER_FAULT = 0 → w = { v with
        tw := { v.tw with readyTick := v.tm.tick, heard := false },
        pw := { v.pw with valid := true, warm := false, nextCause := 0 } } →
      exec .startDone s = .next ((w.openPorts.raise 0x03 0x0024 4 0
        (s.pw.cause + (s.tm.tick - s.pw.startTick) / 100000 * 2 ^ 32))).settle) ∧
    (s.dev = .running → s.pw.poolLoaded = false → u = (calTypes.filter lateType).foldl (fun s t => s.loadType t) s → v = { u with
        pw := { u.pw with poolLoaded := true } } →
      exec .poolRecordsLoaded s =
        .next ((List.range 24).foldl (fun s k => if s.rd (K.PC_ENABLE k) = 1 then (s.pcOn k).2 else s) v.digestPending).settle) ∧
    (∀ rails : BitVec 10, s.dev ≠ .held → rails.toNat % 512 ≠ 0 → u = { s with
        pw := { s.pw with failStamp := s.now, failRails := rails.toNat % 512, nextCause := 3 } } →
      exec (.powerFail rails) s = .next ((u.raise 0x03 0x0020 1 0 (rails.toNat % 512)).hold).settle) ∧
    (s.dev ≠ .held → u = { s with
        pw := { s.pw with failStamp := s.now, failRails := 0x8000, nextCause := 4 } } →
      v = (u.raise 0x03 0x0021 1 0 0x8000).hold → exec .refclkLoss s = .next ({ v with
        pw := { v.pw with clockLost := true } } : State).settle) ∧
    (s.dev = .held → s.pw.clockLost = true →
      exec .refclkRestart s = .next (s.draw.2.release (s.draw.2.rd K.TWIN_STRAP) s.draw.2.pw.order false (Config.unstated s.draw.1).toNat
        (s.draw.2.rd K.PWR_RAIL_GOOD) true)) ∧
    (Carried m ss K.PWR_RESET_REQUEST 4 0x6D726177 s t → (∀ n < 16, t.rd (K.BC_STATE n) = Bc.off) → t.rd K.KEEP_STATE ≠ 2 →
      t.rd K.CAL_STORE_STATE ≠ 1 → u = (t.raise 0x03 0x0025 5 0 m.session.toNat).withdraw 0xFFFF Bp.reset →
      exec (.warmReset m) s = .next ((t.carriedOut { u with
        pw := { u.pw with warm := true } } m ss K.PWR_RESET_REQUEST).afterReset).settle) ∧
    (Carried m ss K.PWR_ORDER_FAULT 1 0 s t →
      exec (.pwrOrderFault m) s = .next (t.carriedOut (t.wr K.PWR_ORDER_FAULT 0) m ss K.PWR_ORDER_FAULT).settle) ∧
    (s.dev = .running → s.rd K.VBAT_LOW ≠ 1 → exec (.vbatLow true) s = .next ((s.wr K.VBAT_LOW 1).raise 0x03 0x0023 6 0 0).settle) ∧
    (s.dev = .running → exec (.vbatLow false) s = .next (s.wr K.VBAT_LOW 0).settle) ∧
    (u = (s.withdraw 0xFFFF Bp.reset).drivePermits 0xFFFF → exec .pornLow s = .next ({ u with
        dev := .held, pw := { u.pw with clockLost := false } } : State).settle) ∧
    (∀ (p : Fin 4) (up : Bool), s.dev ≠ .held → s.rd (K.LINK_STATE p.val) ≠ (if up then 1 else 0) →
      exec (.portLink p up) s =
        .next (((s.wr (K.LINK_STATE p.val) (if up then 1 else 0)).raise 0xFB 0x0130 6 p.val p.val).syncPort p.val).settle)

/-- Debug-port commands complete (R510 to R520): a well-formed request on an unlocked port that is not a repetition. -/
def Obligations.DebugCommandsComplete : Prop :=
  ∀ (r : DbgReq) (m : Msg) (ss : Session) (s t u : State) (n : Fin 16),
    (DebugTaken r s 0 → exec (.debugIdent r) s = .next (s.debugDone r.tag.toNat Ans.ok (toLE 2 (s.rd K.FAMILY_MEMBER) ++
      toLE 2 (s.rd K.STEPPING) ++ toLE 8 (s.rd K.SERIAL_NUMBER) ++ toLE 1 (s.rd K.DBG_STATE) ++ toLE 1 s.role)).settle) ∧
    (∀ (index : BitVec 16) (sub form : BitVec 8) (code : Nat) (data : List Byte), DebugTaken r s 4 → form.toNat ≤ 1 →
      s.readAnswer index.toNat sub.toNat form.toNat = ((code, data), u) →
      exec (.debugRead r index sub form) s =
        .next ((u.debugDone r.tag.toNat code data).debugEvent (index.toNat * 256 + sub.toNat) code).settle) ∧
    (∀ (index : BitVec 16) (sub : BitVec 8) (value : List Byte) (key : Nat), key = index.toNat * 256 + sub.toNat →
      DebugTaken r s (4 + value.length) → 1 ≤ value.length → value.length ≤ 1024 → (s.mirrored = false ∨ partLocal key = true) →
      (s.role = Role.active ∨ partLocal key = true) → s.writeCheck true key value.length (leNat value) = none →
      writeEffect true 0 0 key (leNat value) s = (Ans.ok, u) →
      exec (.debugWrite r index sub value) s = .next (((s.noted u key).debugDone r.tag.toNat Ans.ok []).debugEvent key Ans.ok).settle) ∧
    (∀ (tc : BitVec 8) (a : BitVec 64) (count : BitVec 16), DebugTaken r s 14 → a.toNat < 2 ^ 40 → tc.toNat < 192 → 1 ≤ count.toNat →
      count.toNat ≤ 1024 → s.debugRange tc.toNat a.toNat count.toNat false = 0 →
      exec (.memRead r tc a count) s =
        .next (s.debugDone r.tag.toNat Ans.ok ((s.readMem tc.toNat a.toNat count.toNat).getD [])).settle) ∧
    (∀ (tc : BitVec 8) (a : BitVec 64) (data : List Byte), DebugTaken r s (12 + data.length) → a.toNat < 2 ^ 40 → tc.toNat < 192 →
      1 ≤ data.length → data.length ≤ 1024 → s.role = Role.active → s.mirrored = false →
      s.debugRange tc.toNat a.toNat data.length true = 0 →
      exec (.memWrite r tc a data) s = .next ((s.writeMem tc.toNat a.toNat data).debugDone r.tag.toNat Ans.ok []).settle) ∧
    (∀ (q : BitVec 32) (blocks : BitVec 8) (d : Nat) (b : List Byte), DebugTaken r s 8 → 1 ≤ blocks.toNat → blocks.toNat ≤ 32 →
      d = (s.rd K.JOURNAL_WRITE_SEQ + 2 ^ 32 - q.toNat) % 2 ^ 32 → blocks.toNat ≤ d → d ≤ s.ringBlocks →
      s.ringPeek q.toNat blocks.toNat = some b → exec (.journalPeek r q blocks) s = .next (s.debugDone r.tag.toNat Ans.ok b).settle) ∧
    (∀ op : BitVec 4, s.dev = .running → r.crcOk = true → exec (.debugBadOp r op) s = .next (s.debugFault Dbg.malformed).settle) ∧
    (Carried m ss K.DBG_LOCK 1 1 s t → exec (.dbgLock m) s = .next (t.carriedOut t.debugLock m ss K.DBG_LOCK).settle) ∧
    (∀ tick : Nat, s.dev = .running → s.dbg.unlockEnd = some tick → tick ≤ s.tm.tick →
      exec .debugLocked s = .next s.debugLock.settle) ∧
    (DebugTaken r s 5 → s.mirrored = false → s.role = Role.active → s.rd (K.BC_STATE n.val) = Bc.armed →
      u = (s.setChan n.val { s.chan n.val with haltAt := some ((s.chan n.val).haltAt.getD s.tm.tick) }).wr (K.DBG_SEQ_STATE n.val) 1 →
      exec (.debugHalt r n) s = .next (((s.noted u (K.DBG_SEQ_CONTROL n.val)).debugDone r.tag.toNat Ans.ok []).debugEvent
        (K.DBG_SEQ_CONTROL n.val) Ans.ok).settle) ∧
    (DebugTaken r s 5 → s.mirrored = false → s.role = Role.active → s.rd (K.BC_STATE n.val) = Bc.hold →
      s.rd (K.CS_HOLD_CAUSE n.val) = 6 →
      u = ((s.setChan n.val { s.chan n.val with stepping := true }).wr (K.DBG_SEQ_STATE n.val) 3).goOn n.val →
      exec (.debugStep r n) s = .next (((s.noted u (K.DBG_SEQ_CONTROL n.val)).debugDone r.tag.toNat Ans.ok []).debugEvent
        (K.DBG_SEQ_CONTROL n.val) Ans.ok).settle) ∧
    (DebugTaken r s 5 → s.mirrored = false → s.role = Role.active → s.rd (K.BC_STATE n.val) = Bc.hold →
      s.rd (K.CS_HOLD_CAUSE n.val) = 6 →
      u = ((s.setChan n.val { s.chan n.val with stepping := false }).wr (K.DBG_SEQ_STATE n.val) 0).goOn n.val →
      exec (.debugResume r n) s = .next (((s.noted u (K.DBG_SEQ_CONTROL n.val)).debugDone r.tag.toNat Ans.ok []).debugEvent
        (K.DBG_SEQ_CONTROL n.val) Ans.ok).settle)
end

