-- ==== Sys2Proof/Laws/Table.lean ====
section
/-! SUPPORT. Laws of sparse tables: reading after a write, and that every operation keeps the canonical form. -/

namespace Sys2Proof.Machine

variable {α : Type} {d : Nat → α}

@[simp] theorem Tab.get_nil (k : Nat) : Tab.get d [] k = d k := rfl

theorem Tab.get_del_same (t : Tab α) (k : Nat) : Tab.get d (Tab.del k t) k = d k := by
  induction t with
  | nil => rfl
  | cons e t ih =>
    obtain ⟨j, v⟩ := e
    by_cases h : j = k <;> simp [Tab.del, h, ih, Tab.get]

theorem Tab.get_del_other (t : Tab α) {k j : Nat} (h : j ≠ k) : Tab.get d (Tab.del k t) j = Tab.get d t j := by
  induction t with
  | nil => rfl
  | cons e t ih =>
    obtain ⟨i, v⟩ := e
    by_cases hi : i = k
    · have : i ≠ j := fun e => h (e ▸ hi)
      simp [Tab.del, hi, ih, Tab.get]
      intro hk; exact absurd hk.symm h
    · simp [Tab.del, hi, Tab.get, ih]

theorem Tab.get_ins_same (t : Tab α) (k : Nat) (v : α) (h : ∀ w, (k, w) ∉ t) : Tab.get d (Tab.ins k v t) k = v := by
  induction t with
  | nil => simp [Tab.ins, Tab.get]
  | cons e t ih =>
    obtain ⟨j, w⟩ := e
    have hj : j ≠ k := fun e => h w (by simp [e])
    by_cases hk : k < j
    · simp [Tab.ins, hk, Tab.get]
    · simp only [Tab.ins, hk, if_false, Tab.get, hj]
      exact ih fun w' hw => h w' (List.mem_cons_of_mem _ hw)

theorem Tab.get_ins_other (t : Tab α) {k j : Nat} (v : α) (h : j ≠ k) : Tab.get d (Tab.ins k v t) j = Tab.get d t j := by
  induction t with
  | nil => simp [Tab.ins, Tab.get, Ne.symm h]
  | cons e t ih =>
    obtain ⟨i, w⟩ := e
    by_cases hk : k < i
    · simp [Tab.ins, hk, Tab.get, Ne.symm h]
    · by_cases hi : i = j
      · subst hi; simp [Tab.ins, hk, Tab.get]
      · simp [Tab.ins, hk, Tab.get, hi, ih]

theorem Tab.not_mem_del (t : Tab α) (k : Nat) (w : α) : (k, w) ∉ Tab.del k t := by
  induction t with
  | nil => simp [Tab.del]
  | cons e t ih =>
    obtain ⟨j, v⟩ := e
    by_cases h : j = k
    · simpa [Tab.del, h] using ih
    · simp [Tab.del, h, ih, Ne.symm h]

/-- Reading the key just written. -/
@[simp] theorem Tab.get_set_same [DecidableEq α] (t : Tab α) (k : Nat) (v : α) : Tab.get d (Tab.set d t k v) k = v := by
  unfold Tab.set
  split
  · next h => rw [Tab.get_del_same, h]
  · exact Tab.get_ins_same _ _ _ fun w => Tab.not_mem_del t k w

/-- Reading any other key. -/
theorem Tab.get_set_other [DecidableEq α] (t : Tab α) {k j : Nat} (v : α) (h : j ≠ k) :
    Tab.get d (Tab.set d t k v) j = Tab.get d t j := by
  unfold Tab.set
  split
  · exact Tab.get_del_other t h
  · rw [Tab.get_ins_other _ _ h, Tab.get_del_other t h]

/-- Reading after a write, both cases at once. -/
theorem Tab.get_set [DecidableEq α] (t : Tab α) (k j : Nat) (v : α) :
    Tab.get d (Tab.set d t k v) j = if j = k then v else Tab.get d t j := by
  split
  · next h => rw [h, Tab.get_set_same]
  · next h => exact Tab.get_set_other t v h

variable [DecidableEq α]

/-- The bound `b` lies below `k`. -/
def Tab.below (b : Option Nat) (k : Nat) : Prop := ∀ i, b = some i → i < k

theorem Tab.wfFrom_cons {b : Option Nat} {j : Nat} {v : α} {t : Tab α} :
    Tab.wfFrom d b ((j, v) :: t) = true ↔ Tab.below b j ∧ v ≠ d j ∧ Tab.wfFrom d (some j) t = true := by
  cases b <;> simp [Tab.wfFrom, Tab.below, and_assoc]

theorem Tab.wfFrom_weaken {b c : Option Nat} {t : Tab α} (h : Tab.wfFrom d c t = true) (hb : ∀ k, Tab.below c k → Tab.below b k) :
    Tab.wfFrom d b t = true := by
  cases t with
  | nil => rfl
  | cons e t =>
    obtain ⟨j, v⟩ := e
    rw [Tab.wfFrom_cons] at h ⊢
    exact ⟨hb _ h.1, h.2⟩

theorem Tab.wfFrom_del {b : Option Nat} {t : Tab α} (k : Nat) (h : Tab.wfFrom d b t = true) : Tab.wfFrom d b (Tab.del k t) = true := by
  induction t generalizing b with
  | nil => rfl
  | cons e t ih =>
    obtain ⟨j, v⟩ := e
    rw [Tab.wfFrom_cons] at h
    by_cases hj : j = k
    · simp only [Tab.del, hj, if_true]
      refine Tab.wfFrom_weaken (ih h.2.2) fun m hm i hi => ?_
      exact Nat.lt_trans (h.1 i hi) (hm j rfl)
    · simp only [Tab.del, hj, if_false, Tab.wfFrom_cons]
      exact ⟨h.1, h.2.1, ih h.2.2⟩

theorem Tab.wfFrom_ins {b : Option Nat} {t : Tab α} {k : Nat} {v : α} (h : Tab.wfFrom d b t = true) (hb : Tab.below b k)
    (hk : ∀ w, (k, w) ∉ t) (hv : v ≠ d k) : Tab.wfFrom d b (Tab.ins k v t) = true := by
  induction t generalizing b with
  | nil => exact Tab.wfFrom_cons.mpr ⟨hb, hv, rfl⟩
  | cons e t ih =>
    obtain ⟨j, w⟩ := e
    rw [Tab.wfFrom_cons] at h
    have hj : j ≠ k := fun e => hk w (by simp [e])
    by_cases hlt : k < j
    · simp only [Tab.ins, hlt, if_true, Tab.wfFrom_cons]
      exact ⟨hb, hv, fun i hi => by cases hi; exact hlt, h.2⟩
    · simp only [Tab.ins, hlt, if_false, Tab.wfFrom_cons]
      refine ⟨h.1, h.2.1, ih h.2.2 (fun i hi => ?_) fun w' hw => hk w' (List.mem_cons_of_mem _ hw)⟩
      cases hi; omega

/-- A write keeps the canonical form. -/
theorem Tab.wf_set {t : Tab α} (k : Nat) (v : α) (h : Tab.wf d t = true) : Tab.wf d (Tab.set d t k v) = true := by
  unfold Tab.set
  split
  · exact Tab.wfFrom_del k h
  · next hv => exact Tab.wfFrom_ins (Tab.wfFrom_del k h) (fun i hi => by cases hi) (fun w => Tab.not_mem_del t k w) hv

theorem Tab.wfFrom_filter {b : Option Nat} {t : Tab α} (q : Nat × α → Bool) (h : Tab.wfFrom d b t = true) :
    Tab.wfFrom d b (t.filter q) = true := by
  induction t generalizing b with
  | nil => rfl
  | cons e t ih =>
    obtain ⟨j, v⟩ := e
    rw [Tab.wfFrom_cons] at h
    by_cases hq : q (j, v) = true
    · rw [List.filter_cons_of_pos hq, Tab.wfFrom_cons]
      exact ⟨h.1, h.2.1, ih h.2.2⟩
    · rw [List.filter_cons_of_neg hq]
      refine Tab.wfFrom_weaken (ih h.2.2) fun m hm i hi => ?_
      exact Nat.lt_trans (h.1 i hi) (hm j rfl)

/-- Leaving entries out keeps the canonical form. -/
theorem Tab.wf_filter {t : Tab α} (q : Nat × α → Bool) (h : Tab.wf d t = true) : Tab.wf d (t.filter q) = true :=
  Tab.wfFrom_filter q h

theorem Tab.wfFrom_filterMap {b : Option Nat} {t : Tab α} {f : Nat × α → Option (Nat × α)}
    (hf : ∀ e e', f e = some e' → e'.1 = e.1 ∧ (e'.2 = e.2 ∨ e'.2 ≠ d e.1)) (h : Tab.wfFrom d b t = true) :
    Tab.wfFrom d b (t.filterMap f) = true := by
  induction t generalizing b with
  | nil => rfl
  | cons e t ih =>
    obtain ⟨j, v⟩ := e
    rw [Tab.wfFrom_cons] at h
    cases he : f (j, v) with
    | none =>
      rw [List.filterMap_cons_none he]
      refine Tab.wfFrom_weaken (ih h.2.2) fun m hm i hi => ?_
      exact Nat.lt_trans (h.1 i hi) (hm j rfl)
    | some e' =>
      obtain ⟨j', v'⟩ := e'
      obtain ⟨h1, h2⟩ := hf _ _ he
      simp only at h1 h2
      subst h1
      rw [List.filterMap_cons_some he, Tab.wfFrom_cons]
      refine ⟨h.1, ?_, ih h.2.2⟩
      cases h2 with
      | inl h2 => rw [h2]; exact h.2.1
      | inr h2 => exact h2

/-- Changing or leaving out entries without a change of key keeps the canonical form. -/
theorem Tab.wf_filterMap {t : Tab α} {f : Nat × α → Option (Nat × α)}
    (hf : ∀ e e', f e = some e' → e'.1 = e.1 ∧ (e'.2 = e.2 ∨ e'.2 ≠ d e.1)) (h : Tab.wf d t = true) :
    Tab.wf d (t.filterMap f) = true := Tab.wfFrom_filterMap hf h

/-- A canonical table above a bound reads as its default up to the bound. -/
theorem Tab.wfFrom_get_below {b : Nat} {t : Tab α} (h : Tab.wfFrom d (some b) t = true) {k : Nat} (hk : k ≤ b) : Tab.get d t k = d k := by
  induction t generalizing b with
  | nil => rfl
  | cons e t ih =>
    obtain ⟨j, v⟩ := e
    rw [Tab.wfFrom_cons] at h
    have hj := h.1 b rfl
    have : j ≠ k := by omega
    simp only [Tab.get, this, if_false]
    exact ih h.2.2 (by omega)

theorem Tab.wfFrom_iff {b : Option Nat} {t : Tab α} : Tab.wfFrom d b t = true ↔
    (∀ e ∈ t, Tab.below b e.1) ∧ t.Pairwise (fun e f => e.1 < f.1) ∧ ∀ e ∈ t, e.2 ≠ d e.1 := by
  induction t generalizing b with
  | nil => simp [Tab.wfFrom]
  | cons e t ih =>
    obtain ⟨j, v⟩ := e
    rw [Tab.wfFrom_cons, ih]
    simp only [List.mem_cons, forall_eq_or_imp, List.pairwise_cons]
    constructor
    · rintro ⟨hb, hv, hj, hp, hd⟩
      exact ⟨⟨hb, fun e he i hi => Nat.lt_trans (hb i hi) (hj e he j rfl)⟩, ⟨fun e he => hj e he j rfl, hp⟩, hv, hd⟩
    · rintro ⟨⟨hb, -⟩, ⟨hj, hp⟩, hv, hd⟩
      exact ⟨hb, hv, fun e he i hi => by cases hi; exact hj e he, hp, hd⟩

/-- The canonical form, said of the entries: their keys rise, and none holds the default. -/
theorem Tab.wf_iff {t : Tab α} : Tab.wf d t = true ↔ t.Pairwise (fun e f => e.1 < f.1) ∧ ∀ e ∈ t, e.2 ≠ d e.1 := by
  refine Tab.wfFrom_iff.trans (and_iff_right ?_)
  intro e _ i hi
  cases hi

/-- A canonical table after another whose keys all lie below its own. -/
theorem Tab.wf_append {t u : Tab α} (ht : Tab.wf d t = true) (hu : Tab.wf d u = true) (h : ∀ e ∈ t, ∀ f ∈ u, e.1 < f.1) :
    Tab.wf d (t ++ u) = true := by
  rw [Tab.wf_iff] at ht hu ⊢
  refine ⟨List.pairwise_append.mpr ⟨ht.1, hu.1, h⟩, fun e he => ?_⟩
  rcases List.mem_append.mp he with he | he
  · exact ht.2 e he
  · exact hu.2 e he

end Sys2Proof.Machine
end

