-- ==== Sys2Proof/Laws/State.lean ====
section
/-! SUPPORT. What each update of the state leaves as it is: one lemma for each field and update; and reading back what was written. -/

namespace Sys2Proof.Machine

variable (s : State)

/-! `wr` -/

@[simp] theorem State.wr_dev (k v : Nat) : (s.wr k v).dev = s.dev := rfl
@[simp] theorem State.wr_kp (k v : Nat) : (s.wr k v).kp = s.kp := rfl
@[simp] theorem State.wr_tm (k v : Nat) : (s.wr k v).tm = s.tm := rfl
@[simp] theorem State.wr_doms (k v : Nat) : (s.wr k v).doms = s.doms := rfl
@[simp] theorem State.wr_ptp (k v : Nat) : (s.wr k v).ptp = s.ptp := rfl
@[simp] theorem State.wr_trig (k v : Nat) : (s.wr k v).trig = s.trig := rfl
@[simp] theorem State.wr_ev (k v : Nat) : (s.wr k v).ev = s.ev := rfl
@[simp] theorem State.wr_jr (k v : Nat) : (s.wr k v).jr = s.jr := rfl
@[simp] theorem State.wr_sessions (k v : Nat) : (s.wr k v).sessions = s.sessions := rfl
@[simp] theorem State.wr_staged (k v : Nat) : (s.wr k v).staged = s.staged := rfl
@[simp] theorem State.wr_streams (k v : Nat) : (s.wr k v).streams = s.streams := rfl
@[simp] theorem State.wr_mirrors (k v : Nat) : (s.wr k v).mirrors = s.mirrors := rfl
@[simp] theorem State.wr_cyc (k v : Nat) : (s.wr k v).cyc = s.cyc := rfl
@[simp] theorem State.wr_mem (k v : Nat) : (s.wr k v).mem = s.mem := rfl
@[simp] theorem State.wr_chans (k v : Nat) : (s.wr k v).chans = s.chans := rfl
@[simp] theorem State.wr_layer (k v : Nat) : (s.wr k v).layer = s.layer := rfl
@[simp] theorem State.wr_loops (k v : Nat) : (s.wr k v).loops = s.loops := rfl
@[simp] theorem State.wr_reps (k v : Nat) : (s.wr k v).reps = s.reps := rfl
@[simp] theorem State.wr_lunes (k v : Nat) : (s.wr k v).lunes = s.lunes := rfl
@[simp] theorem State.wr_lat (k v : Nat) : (s.wr k v).lat = s.lat := rfl
@[simp] theorem State.wr_installed (k v : Nat) : (s.wr k v).installed = s.installed := rfl
@[simp] theorem State.wr_axes (k v : Nat) : (s.wr k v).axes = s.axes := rfl
@[simp] theorem State.wr_light (k v : Nat) : (s.wr k v).light = s.light := rfl
@[simp] theorem State.wr_die (k v : Nat) : (s.wr k v).die = s.die := rfl
@[simp] theorem State.wr_pw (k v : Nat) : (s.wr k v).pw = s.pw := rfl
@[simp] theorem State.wr_dbg (k v : Nat) : (s.wr k v).dbg = s.dbg := rfl
@[simp] theorem State.wr_pipes (k v : Nat) : (s.wr k v).pipes = s.pipes := rfl
@[simp] theorem State.wr_lanes (k v : Nat) : (s.wr k v).lanes = s.lanes := rfl
@[simp] theorem State.wr_isl (k v : Nat) : (s.wr k v).isl = s.isl := rfl
@[simp] theorem State.wr_cal (k v : Nat) : (s.wr k v).cal = s.cal := rfl
@[simp] theorem State.wr_tw (k v : Nat) : (s.wr k v).tw = s.tw := rfl
@[simp] theorem State.wr_sent (k v : Nat) : (s.wr k v).sent = s.sent := rfl
@[simp] theorem State.wr_free (k v : Nat) : (s.wr k v).free = s.free := rfl
@[simp] theorem State.wr_pending (k v : Nat) : (s.wr k v).pending = s.pending := rfl

/-! `setChan` -/

@[simp] theorem State.setChan_od (n : Nat) (c : Chan) : (s.setChan n c).od = s.od := rfl
@[simp] theorem State.setChan_dev (n : Nat) (c : Chan) : (s.setChan n c).dev = s.dev := rfl
@[simp] theorem State.setChan_kp (n : Nat) (c : Chan) : (s.setChan n c).kp = s.kp := rfl
@[simp] theorem State.setChan_tm (n : Nat) (c : Chan) : (s.setChan n c).tm = s.tm := rfl
@[simp] theorem State.setChan_doms (n : Nat) (c : Chan) : (s.setChan n c).doms = s.doms := rfl
@[simp] theorem State.setChan_ptp (n : Nat) (c : Chan) : (s.setChan n c).ptp = s.ptp := rfl
@[simp] theorem State.setChan_trig (n : Nat) (c : Chan) : (s.setChan n c).trig = s.trig := rfl
@[simp] theorem State.setChan_ev (n : Nat) (c : Chan) : (s.setChan n c).ev = s.ev := rfl
@[simp] theorem State.setChan_jr (n : Nat) (c : Chan) : (s.setChan n c).jr = s.jr := rfl
@[simp] theorem State.setChan_sessions (n : Nat) (c : Chan) : (s.setChan n c).sessions = s.sessions := rfl
@[simp] theorem State.setChan_staged (n : Nat) (c : Chan) : (s.setChan n c).staged = s.staged := rfl
@[simp] theorem State.setChan_streams (n : Nat) (c : Chan) : (s.setChan n c).streams = s.streams := rfl
@[simp] theorem State.setChan_mirrors (n : Nat) (c : Chan) : (s.setChan n c).mirrors = s.mirrors := rfl
@[simp] theorem State.setChan_cyc (n : Nat) (c : Chan) : (s.setChan n c).cyc = s.cyc := rfl
@[simp] theorem State.setChan_mem (n : Nat) (c : Chan) : (s.setChan n c).mem = s.mem := rfl
@[simp] theorem State.setChan_layer (n : Nat) (c : Chan) : (s.setChan n c).layer = s.layer := rfl
@[simp] theorem State.setChan_loops (n : Nat) (c : Chan) : (s.setChan n c).loops = s.loops := rfl
@[simp] theorem State.setChan_reps (n : Nat) (c : Chan) : (s.setChan n c).reps = s.reps := rfl
@[simp] theorem State.setChan_lunes (n : Nat) (c : Chan) : (s.setChan n c).lunes = s.lunes := rfl
@[simp] theorem State.setChan_lat (n : Nat) (c : Chan) : (s.setChan n c).lat = s.lat := rfl
@[simp] theorem State.setChan_installed (n : Nat) (c : Chan) : (s.setChan n c).installed = s.installed := rfl
@[simp] theorem State.setChan_axes (n : Nat) (c : Chan) : (s.setChan n c).axes = s.axes := rfl
@[simp] theorem State.setChan_light (n : Nat) (c : Chan) : (s.setChan n c).light = s.light := rfl
@[simp] theorem State.setChan_die (n : Nat) (c : Chan) : (s.setChan n c).die = s.die := rfl
@[simp] theorem State.setChan_pw (n : Nat) (c : Chan) : (s.setChan n c).pw = s.pw := rfl
@[simp] theorem State.setChan_dbg (n : Nat) (c : Chan) : (s.setChan n c).dbg = s.dbg := rfl
@[simp] theorem State.setChan_pipes (n : Nat) (c : Chan) : (s.setChan n c).pipes = s.pipes := rfl
@[simp] theorem State.setChan_lanes (n : Nat) (c : Chan) : (s.setChan n c).lanes = s.lanes := rfl
@[simp] theorem State.setChan_isl (n : Nat) (c : Chan) : (s.setChan n c).isl = s.isl := rfl
@[simp] theorem State.setChan_cal (n : Nat) (c : Chan) : (s.setChan n c).cal = s.cal := rfl
@[simp] theorem State.setChan_tw (n : Nat) (c : Chan) : (s.setChan n c).tw = s.tw := rfl
@[simp] theorem State.setChan_sent (n : Nat) (c : Chan) : (s.setChan n c).sent = s.sent := rfl
@[simp] theorem State.setChan_free (n : Nat) (c : Chan) : (s.setChan n c).free = s.free := rfl
@[simp] theorem State.setChan_pending (n : Nat) (c : Chan) : (s.setChan n c).pending = s.pending := rfl
@[simp] theorem State.setChan_rd (n : Nat) (c : Chan) (j : Nat) : (s.setChan n c).rd j = s.rd j := rfl

/-! `setTc` -/

@[simp] theorem State.setTc_od (n : Nat) (t : Tc) : (s.setTc n t).od = s.od := rfl
@[simp] theorem State.setTc_dev (n : Nat) (t : Tc) : (s.setTc n t).dev = s.dev := rfl
@[simp] theorem State.setTc_kp (n : Nat) (t : Tc) : (s.setTc n t).kp = s.kp := rfl
@[simp] theorem State.setTc_tm (n : Nat) (t : Tc) : (s.setTc n t).tm = s.tm := rfl
@[simp] theorem State.setTc_doms (n : Nat) (t : Tc) : (s.setTc n t).doms = s.doms := rfl
@[simp] theorem State.setTc_ptp (n : Nat) (t : Tc) : (s.setTc n t).ptp = s.ptp := rfl
@[simp] theorem State.setTc_trig (n : Nat) (t : Tc) : (s.setTc n t).trig = s.trig := rfl
@[simp] theorem State.setTc_ev (n : Nat) (t : Tc) : (s.setTc n t).ev = s.ev := rfl
@[simp] theorem State.setTc_jr (n : Nat) (t : Tc) : (s.setTc n t).jr = s.jr := rfl
@[simp] theorem State.setTc_sessions (n : Nat) (t : Tc) : (s.setTc n t).sessions = s.sessions := rfl
@[simp] theorem State.setTc_staged (n : Nat) (t : Tc) : (s.setTc n t).staged = s.staged := rfl
@[simp] theorem State.setTc_streams (n : Nat) (t : Tc) : (s.setTc n t).streams = s.streams := rfl
@[simp] theorem State.setTc_mirrors (n : Nat) (t : Tc) : (s.setTc n t).mirrors = s.mirrors := rfl
@[simp] theorem State.setTc_cyc (n : Nat) (t : Tc) : (s.setTc n t).cyc = s.cyc := rfl
@[simp] theorem State.setTc_chans (n : Nat) (t : Tc) : (s.setTc n t).chans = s.chans := rfl
@[simp] theorem State.setTc_layer (n : Nat) (t : Tc) : (s.setTc n t).layer = s.layer := rfl
@[simp] theorem State.setTc_loops (n : Nat) (t : Tc) : (s.setTc n t).loops = s.loops := rfl
@[simp] theorem State.setTc_reps (n : Nat) (t : Tc) : (s.setTc n t).reps = s.reps := rfl
@[simp] theorem State.setTc_lunes (n : Nat) (t : Tc) : (s.setTc n t).lunes = s.lunes := rfl
@[simp] theorem State.setTc_lat (n : Nat) (t : Tc) : (s.setTc n t).lat = s.lat := rfl
@[simp] theorem State.setTc_installed (n : Nat) (t : Tc) : (s.setTc n t).installed = s.installed := rfl
@[simp] theorem State.setTc_axes (n : Nat) (t : Tc) : (s.setTc n t).axes = s.axes := rfl
@[simp] theorem State.setTc_light (n : Nat) (t : Tc) : (s.setTc n t).light = s.light := rfl
@[simp] theorem State.setTc_die (n : Nat) (t : Tc) : (s.setTc n t).die = s.die := rfl
@[simp] theorem State.setTc_pw (n : Nat) (t : Tc) : (s.setTc n t).pw = s.pw := rfl
@[simp] theorem State.setTc_dbg (n : Nat) (t : Tc) : (s.setTc n t).dbg = s.dbg := rfl
@[simp] theorem State.setTc_pipes (n : Nat) (t : Tc) : (s.setTc n t).pipes = s.pipes := rfl
@[simp] theorem State.setTc_lanes (n : Nat) (t : Tc) : (s.setTc n t).lanes = s.lanes := rfl
@[simp] theorem State.setTc_isl (n : Nat) (t : Tc) : (s.setTc n t).isl = s.isl := rfl
@[simp] theorem State.setTc_cal (n : Nat) (t : Tc) : (s.setTc n t).cal = s.cal := rfl
@[simp] theorem State.setTc_tw (n : Nat) (t : Tc) : (s.setTc n t).tw = s.tw := rfl
@[simp] theorem State.setTc_sent (n : Nat) (t : Tc) : (s.setTc n t).sent = s.sent := rfl
@[simp] theorem State.setTc_free (n : Nat) (t : Tc) : (s.setTc n t).free = s.free := rfl
@[simp] theorem State.setTc_pending (n : Nat) (t : Tc) : (s.setTc n t).pending = s.pending := rfl
@[simp] theorem State.setTc_rd (n : Nat) (t : Tc) (j : Nat) : (s.setTc n t).rd j = s.rd j := rfl

/-! `emit` -/

@[simp] theorem State.emit_od (p : Path) (b : List Byte) : (s.emit p b).od = s.od := rfl
@[simp] theorem State.emit_dev (p : Path) (b : List Byte) : (s.emit p b).dev = s.dev := rfl
@[simp] theorem State.emit_kp (p : Path) (b : List Byte) : (s.emit p b).kp = s.kp := rfl
@[simp] theorem State.emit_tm (p : Path) (b : List Byte) : (s.emit p b).tm = s.tm := rfl
@[simp] theorem State.emit_doms (p : Path) (b : List Byte) : (s.emit p b).doms = s.doms := rfl
@[simp] theorem State.emit_ptp (p : Path) (b : List Byte) : (s.emit p b).ptp = s.ptp := rfl
@[simp] theorem State.emit_trig (p : Path) (b : List Byte) : (s.emit p b).trig = s.trig := rfl
@[simp] theorem State.emit_ev (p : Path) (b : List Byte) : (s.emit p b).ev = s.ev := rfl
@[simp] theorem State.emit_jr (p : Path) (b : List Byte) : (s.emit p b).jr = s.jr := rfl
@[simp] theorem State.emit_sessions (p : Path) (b : List Byte) : (s.emit p b).sessions = s.sessions := rfl
@[simp] theorem State.emit_staged (p : Path) (b : List Byte) : (s.emit p b).staged = s.staged := rfl
@[simp] theorem State.emit_streams (p : Path) (b : List Byte) : (s.emit p b).streams = s.streams := rfl
@[simp] theorem State.emit_mirrors (p : Path) (b : List Byte) : (s.emit p b).mirrors = s.mirrors := rfl
@[simp] theorem State.emit_cyc (p : Path) (b : List Byte) : (s.emit p b).cyc = s.cyc := rfl
@[simp] theorem State.emit_mem (p : Path) (b : List Byte) : (s.emit p b).mem = s.mem := rfl
@[simp] theorem State.emit_chans (p : Path) (b : List Byte) : (s.emit p b).chans = s.chans := rfl
@[simp] theorem State.emit_layer (p : Path) (b : List Byte) : (s.emit p b).layer = s.layer := rfl
@[simp] theorem State.emit_loops (p : Path) (b : List Byte) : (s.emit p b).loops = s.loops := rfl
@[simp] theorem State.emit_reps (p : Path) (b : List Byte) : (s.emit p b).reps = s.reps := rfl
@[simp] theorem State.emit_lunes (p : Path) (b : List Byte) : (s.emit p b).lunes = s.lunes := rfl
@[simp] theorem State.emit_lat (p : Path) (b : List Byte) : (s.emit p b).lat = s.lat := rfl
@[simp] theorem State.emit_installed (p : Path) (b : List Byte) : (s.emit p b).installed = s.installed := rfl
@[simp] theorem State.emit_axes (p : Path) (b : List Byte) : (s.emit p b).axes = s.axes := rfl
@[simp] theorem State.emit_light (p : Path) (b : List Byte) : (s.emit p b).light = s.light := rfl
@[simp] theorem State.emit_die (p : Path) (b : List Byte) : (s.emit p b).die = s.die := rfl
@[simp] theorem State.emit_pw (p : Path) (b : List Byte) : (s.emit p b).pw = s.pw := rfl
@[simp] theorem State.emit_dbg (p : Path) (b : List Byte) : (s.emit p b).dbg = s.dbg := rfl
@[simp] theorem State.emit_pipes (p : Path) (b : List Byte) : (s.emit p b).pipes = s.pipes := rfl
@[simp] theorem State.emit_lanes (p : Path) (b : List Byte) : (s.emit p b).lanes = s.lanes := rfl
@[simp] theorem State.emit_isl (p : Path) (b : List Byte) : (s.emit p b).isl = s.isl := rfl
@[simp] theorem State.emit_cal (p : Path) (b : List Byte) : (s.emit p b).cal = s.cal := rfl
@[simp] theorem State.emit_tw (p : Path) (b : List Byte) : (s.emit p b).tw = s.tw := rfl
@[simp] theorem State.emit_free (p : Path) (b : List Byte) : (s.emit p b).free = s.free := rfl
@[simp] theorem State.emit_pending (p : Path) (b : List Byte) : (s.emit p b).pending = s.pending := rfl
@[simp] theorem State.emit_rd (p : Path) (b : List Byte) (j : Nat) : (s.emit p b).rd j = s.rd j := rfl

/-! `updSession` -/

@[simp] theorem State.updSession_od (num : Nat) (f : Session → Session) : (s.updSession num f).od = s.od := rfl
@[simp] theorem State.updSession_dev (num : Nat) (f : Session → Session) : (s.updSession num f).dev = s.dev := rfl
@[simp] theorem State.updSession_kp (num : Nat) (f : Session → Session) : (s.updSession num f).kp = s.kp := rfl
@[simp] theorem State.updSession_tm (num : Nat) (f : Session → Session) : (s.updSession num f).tm = s.tm := rfl
@[simp] theorem State.updSession_doms (num : Nat) (f : Session → Session) : (s.updSession num f).doms = s.doms := rfl
@[simp] theorem State.updSession_ptp (num : Nat) (f : Session → Session) : (s.updSession num f).ptp = s.ptp := rfl
@[simp] theorem State.updSession_trig (num : Nat) (f : Session → Session) : (s.updSession num f).trig = s.trig := rfl
@[simp] theorem State.updSession_ev (num : Nat) (f : Session → Session) : (s.updSession num f).ev = s.ev := rfl
@[simp] theorem State.updSession_jr (num : Nat) (f : Session → Session) : (s.updSession num f).jr = s.jr := rfl
@[simp] theorem State.updSession_staged (num : Nat) (f : Session → Session) : (s.updSession num f).staged = s.staged := rfl
@[simp] theorem State.updSession_streams (num : Nat) (f : Session → Session) : (s.updSession num f).streams = s.streams := rfl
@[simp] theorem State.updSession_mirrors (num : Nat) (f : Session → Session) : (s.updSession num f).mirrors = s.mirrors := rfl
@[simp] theorem State.updSession_cyc (num : Nat) (f : Session → Session) : (s.updSession num f).cyc = s.cyc := rfl
@[simp] theorem State.updSession_mem (num : Nat) (f : Session → Session) : (s.updSession num f).mem = s.mem := rfl
@[simp] theorem State.updSession_chans (num : Nat) (f : Session → Session) : (s.updSession num f).chans = s.chans := rfl
@[simp] theorem State.updSession_layer (num : Nat) (f : Session → Session) : (s.updSession num f).layer = s.layer := rfl
@[simp] theorem State.updSession_loops (num : Nat) (f : Session → Session) : (s.updSession num f).loops = s.loops := rfl
@[simp] theorem State.updSession_reps (num : Nat) (f : Session → Session) : (s.updSession num f).reps = s.reps := rfl
@[simp] theorem State.updSession_lunes (num : Nat) (f : Session → Session) : (s.updSession num f).lunes = s.lunes := rfl
@[simp] theorem State.updSession_lat (num : Nat) (f : Session → Session) : (s.updSession num f).lat = s.lat := rfl
@[simp] theorem State.updSession_installed (num : Nat) (f : Session → Session) : (s.updSession num f).installed = s.installed := rfl
@[simp] theorem State.updSession_axes (num : Nat) (f : Session → Session) : (s.updSession num f).axes = s.axes := rfl
@[simp] theorem State.updSession_light (num : Nat) (f : Session → Session) : (s.updSession num f).light = s.light := rfl
@[simp] theorem State.updSession_die (num : Nat) (f : Session → Session) : (s.updSession num f).die = s.die := rfl
@[simp] theorem State.updSession_pw (num : Nat) (f : Session → Session) : (s.updSession num f).pw = s.pw := rfl
@[simp] theorem State.updSession_dbg (num : Nat) (f : Session → Session) : (s.updSession num f).dbg = s.dbg := rfl
@[simp] theorem State.updSession_pipes (num : Nat) (f : Session → Session) : (s.updSession num f).pipes = s.pipes := rfl
@[simp] theorem State.updSession_lanes (num : Nat) (f : Session → Session) : (s.updSession num f).lanes = s.lanes := rfl
@[simp] theorem State.updSession_isl (num : Nat) (f : Session → Session) : (s.updSession num f).isl = s.isl := rfl
@[simp] theorem State.updSession_cal (num : Nat) (f : Session → Session) : (s.updSession num f).cal = s.cal := rfl
@[simp] theorem State.updSession_tw (num : Nat) (f : Session → Session) : (s.updSession num f).tw = s.tw := rfl
@[simp] theorem State.updSession_sent (num : Nat) (f : Session → Session) : (s.updSession num f).sent = s.sent := rfl
@[simp] theorem State.updSession_free (num : Nat) (f : Session → Session) : (s.updSession num f).free = s.free := rfl
@[simp] theorem State.updSession_pending (num : Nat) (f : Session → Session) : (s.updSession num f).pending = s.pending := rfl
@[simp] theorem State.updSession_rd (num : Nat) (f : Session → Session) (j : Nat) : (s.updSession num f).rd j = s.rd j := rfl

/-! `setDom` -/

@[simp] theorem State.setDom_od (d : Nat) (x : Domain) : (s.setDom d x).od = s.od := rfl
@[simp] theorem State.setDom_dev (d : Nat) (x : Domain) : (s.setDom d x).dev = s.dev := rfl
@[simp] theorem State.setDom_kp (d : Nat) (x : Domain) : (s.setDom d x).kp = s.kp := rfl
@[simp] theorem State.setDom_tm (d : Nat) (x : Domain) : (s.setDom d x).tm = s.tm := rfl
@[simp] theorem State.setDom_ptp (d : Nat) (x : Domain) : (s.setDom d x).ptp = s.ptp := rfl
@[simp] theorem State.setDom_trig (d : Nat) (x : Domain) : (s.setDom d x).trig = s.trig := rfl
@[simp] theorem State.setDom_ev (d : Nat) (x : Domain) : (s.setDom d x).ev = s.ev := rfl
@[simp] theorem State.setDom_jr (d : Nat) (x : Domain) : (s.setDom d x).jr = s.jr := rfl
@[simp] theorem State.setDom_sessions (d : Nat) (x : Domain) : (s.setDom d x).sessions = s.sessions := rfl
@[simp] theorem State.setDom_staged (d : Nat) (x : Domain) : (s.setDom d x).staged = s.staged := rfl
@[simp] theorem State.setDom_streams (d : Nat) (x : Domain) : (s.setDom d x).streams = s.streams := rfl
@[simp] theorem State.setDom_mirrors (d : Nat) (x : Domain) : (s.setDom d x).mirrors = s.mirrors := rfl
@[simp] theorem State.setDom_cyc (d : Nat) (x : Domain) : (s.setDom d x).cyc = s.cyc := rfl
@[simp] theorem State.setDom_mem (d : Nat) (x : Domain) : (s.setDom d x).mem = s.mem := rfl
@[simp] theorem State.setDom_chans (d : Nat) (x : Domain) : (s.setDom d x).chans = s.chans := rfl
@[simp] theorem State.setDom_layer (d : Nat) (x : Domain) : (s.setDom d x).layer = s.layer := rfl
@[simp] theorem State.setDom_loops (d : Nat) (x : Domain) : (s.setDom d x).loops = s.loops := rfl
@[simp] theorem State.setDom_reps (d : Nat) (x : Domain) : (s.setDom d x).reps = s.reps := rfl
@[simp] theorem State.setDom_lunes (d : Nat) (x : Domain) : (s.setDom d x).lunes = s.lunes := rfl
@[simp] theorem State.setDom_lat (d : Nat) (x : Domain) : (s.setDom d x).lat = s.lat := rfl
@[simp] theorem State.setDom_installed (d : Nat) (x : Domain) : (s.setDom d x).installed = s.installed := rfl
@[simp] theorem State.setDom_axes (d : Nat) (x : Domain) : (s.setDom d x).axes = s.axes := rfl
@[simp] theorem State.setDom_light (d : Nat) (x : Domain) : (s.setDom d x).light = s.light := rfl
@[simp] theorem State.setDom_die (d : Nat) (x : Domain) : (s.setDom d x).die = s.die := rfl
@[simp] theorem State.setDom_pw (d : Nat) (x : Domain) : (s.setDom d x).pw = s.pw := rfl
@[simp] theorem State.setDom_dbg (d : Nat) (x : Domain) : (s.setDom d x).dbg = s.dbg := rfl
@[simp] theorem State.setDom_pipes (d : Nat) (x : Domain) : (s.setDom d x).pipes = s.pipes := rfl
@[simp] theorem State.setDom_lanes (d : Nat) (x : Domain) : (s.setDom d x).lanes = s.lanes := rfl
@[simp] theorem State.setDom_isl (d : Nat) (x : Domain) : (s.setDom d x).isl = s.isl := rfl
@[simp] theorem State.setDom_cal (d : Nat) (x : Domain) : (s.setDom d x).cal = s.cal := rfl
@[simp] theorem State.setDom_tw (d : Nat) (x : Domain) : (s.setDom d x).tw = s.tw := rfl
@[simp] theorem State.setDom_sent (d : Nat) (x : Domain) : (s.setDom d x).sent = s.sent := rfl
@[simp] theorem State.setDom_free (d : Nat) (x : Domain) : (s.setDom d x).free = s.free := rfl
@[simp] theorem State.setDom_pending (d : Nat) (x : Domain) : (s.setDom d x).pending = s.pending := rfl
@[simp] theorem State.setDom_rd (d : Nat) (x : Domain) (j : Nat) : (s.setDom d x).rd j = s.rd j := rfl

/-! `setPtp` -/

@[simp] theorem State.setPtp_od (p : Nat) (x : PtpPort) : (s.setPtp p x).od = s.od := rfl
@[simp] theorem State.setPtp_dev (p : Nat) (x : PtpPort) : (s.setPtp p x).dev = s.dev := rfl
@[simp] theorem State.setPtp_kp (p : Nat) (x : PtpPort) : (s.setPtp p x).kp = s.kp := rfl
@[simp] theorem State.setPtp_tm (p : Nat) (x : PtpPort) : (s.setPtp p x).tm = s.tm := rfl
@[simp] theorem State.setPtp_doms (p : Nat) (x : PtpPort) : (s.setPtp p x).doms = s.doms := rfl
@[simp] theorem State.setPtp_trig (p : Nat) (x : PtpPort) : (s.setPtp p x).trig = s.trig := rfl
@[simp] theorem State.setPtp_ev (p : Nat) (x : PtpPort) : (s.setPtp p x).ev = s.ev := rfl
@[simp] theorem State.setPtp_jr (p : Nat) (x : PtpPort) : (s.setPtp p x).jr = s.jr := rfl
@[simp] theorem State.setPtp_sessions (p : Nat) (x : PtpPort) : (s.setPtp p x).sessions = s.sessions := rfl
@[simp] theorem State.setPtp_staged (p : Nat) (x : PtpPort) : (s.setPtp p x).staged = s.staged := rfl
@[simp] theorem State.setPtp_streams (p : Nat) (x : PtpPort) : (s.setPtp p x).streams = s.streams := rfl
@[simp] theorem State.setPtp_mirrors (p : Nat) (x : PtpPort) : (s.setPtp p x).mirrors = s.mirrors := rfl
@[simp] theorem State.setPtp_cyc (p : Nat) (x : PtpPort) : (s.setPtp p x).cyc = s.cyc := rfl
@[simp] theorem State.setPtp_mem (p : Nat) (x : PtpPort) : (s.setPtp p x).mem = s.mem := rfl
@[simp] theorem State.setPtp_chans (p : Nat) (x : PtpPort) : (s.setPtp p x).chans = s.chans := rfl
@[simp] theorem State.setPtp_layer (p : Nat) (x : PtpPort) : (s.setPtp p x).layer = s.layer := rfl
@[simp] theorem State.setPtp_loops (p : Nat) (x : PtpPort) : (s.setPtp p x).loops = s.loops := rfl
@[simp] theorem State.setPtp_reps (p : Nat) (x : PtpPort) : (s.setPtp p x).reps = s.reps := rfl
@[simp] theorem State.setPtp_lunes (p : Nat) (x : PtpPort) : (s.setPtp p x).lunes = s.lunes := rfl
@[simp] theorem State.setPtp_lat (p : Nat) (x : PtpPort) : (s.setPtp p x).lat = s.lat := rfl
@[simp] theorem State.setPtp_installed (p : Nat) (x : PtpPort) : (s.setPtp p x).installed = s.installed := rfl
@[simp] theorem State.setPtp_axes (p : Nat) (x : PtpPort) : (s.setPtp p x).axes = s.axes := rfl
@[simp] theorem State.setPtp_light (p : Nat) (x : PtpPort) : (s.setPtp p x).light = s.light := rfl
@[simp] theorem State.setPtp_die (p : Nat) (x : PtpPort) : (s.setPtp p x).die = s.die := rfl
@[simp] theorem State.setPtp_pw (p : Nat) (x : PtpPort) : (s.setPtp p x).pw = s.pw := rfl
@[simp] theorem State.setPtp_dbg (p : Nat) (x : PtpPort) : (s.setPtp p x).dbg = s.dbg := rfl
@[simp] theorem State.setPtp_pipes (p : Nat) (x : PtpPort) : (s.setPtp p x).pipes = s.pipes := rfl
@[simp] theorem State.setPtp_lanes (p : Nat) (x : PtpPort) : (s.setPtp p x).lanes = s.lanes := rfl
@[simp] theorem State.setPtp_isl (p : Nat) (x : PtpPort) : (s.setPtp p x).isl = s.isl := rfl
@[simp] theorem State.setPtp_cal (p : Nat) (x : PtpPort) : (s.setPtp p x).cal = s.cal := rfl
@[simp] theorem State.setPtp_tw (p : Nat) (x : PtpPort) : (s.setPtp p x).tw = s.tw := rfl
@[simp] theorem State.setPtp_sent (p : Nat) (x : PtpPort) : (s.setPtp p x).sent = s.sent := rfl
@[simp] theorem State.setPtp_free (p : Nat) (x : PtpPort) : (s.setPtp p x).free = s.free := rfl
@[simp] theorem State.setPtp_pending (p : Nat) (x : PtpPort) : (s.setPtp p x).pending = s.pending := rfl
@[simp] theorem State.setPtp_rd (p : Nat) (x : PtpPort) (j : Nat) : (s.setPtp p x).rd j = s.rd j := rfl

/-! `setTrigger` -/

@[simp] theorem State.setTrigger_od (n : Nat) (x : Trigger) : (s.setTrigger n x).od = s.od := rfl
@[simp] theorem State.setTrigger_dev (n : Nat) (x : Trigger) : (s.setTrigger n x).dev = s.dev := rfl
@[simp] theorem State.setTrigger_kp (n : Nat) (x : Trigger) : (s.setTrigger n x).kp = s.kp := rfl
@[simp] theorem State.setTrigger_tm (n : Nat) (x : Trigger) : (s.setTrigger n x).tm = s.tm := rfl
@[simp] theorem State.setTrigger_doms (n : Nat) (x : Trigger) : (s.setTrigger n x).doms = s.doms := rfl
@[simp] theorem State.setTrigger_ptp (n : Nat) (x : Trigger) : (s.setTrigger n x).ptp = s.ptp := rfl
@[simp] theorem State.setTrigger_ev (n : Nat) (x : Trigger) : (s.setTrigger n x).ev = s.ev := rfl
@[simp] theorem State.setTrigger_jr (n : Nat) (x : Trigger) : (s.setTrigger n x).jr = s.jr := rfl
@[simp] theorem State.setTrigger_sessions (n : Nat) (x : Trigger) : (s.setTrigger n x).sessions = s.sessions := rfl
@[simp] theorem State.setTrigger_staged (n : Nat) (x : Trigger) : (s.setTrigger n x).staged = s.staged := rfl
@[simp] theorem State.setTrigger_streams (n : Nat) (x : Trigger) : (s.setTrigger n x).streams = s.streams := rfl
@[simp] theorem State.setTrigger_mirrors (n : Nat) (x : Trigger) : (s.setTrigger n x).mirrors = s.mirrors := rfl
@[simp] theorem State.setTrigger_cyc (n : Nat) (x : Trigger) : (s.setTrigger n x).cyc = s.cyc := rfl
@[simp] theorem State.setTrigger_mem (n : Nat) (x : Trigger) : (s.setTrigger n x).mem = s.mem := rfl
@[simp] theorem State.setTrigger_chans (n : Nat) (x : Trigger) : (s.setTrigger n x).chans = s.chans := rfl
@[simp] theorem State.setTrigger_layer (n : Nat) (x : Trigger) : (s.setTrigger n x).layer = s.layer := rfl
@[simp] theorem State.setTrigger_loops (n : Nat) (x : Trigger) : (s.setTrigger n x).loops = s.loops := rfl
@[simp] theorem State.setTrigger_reps (n : Nat) (x : Trigger) : (s.setTrigger n x).reps = s.reps := rfl
@[simp] theorem State.setTrigger_lunes (n : Nat) (x : Trigger) : (s.setTrigger n x).lunes = s.lunes := rfl
@[simp] theorem State.setTrigger_lat (n : Nat) (x : Trigger) : (s.setTrigger n x).lat = s.lat := rfl
@[simp] theorem State.setTrigger_installed (n : Nat) (x : Trigger) : (s.setTrigger n x).installed = s.installed := rfl
@[simp] theorem State.setTrigger_axes (n : Nat) (x : Trigger) : (s.setTrigger n x).axes = s.axes := rfl
@[simp] theorem State.setTrigger_light (n : Nat) (x : Trigger) : (s.setTrigger n x).light = s.light := rfl
@[simp] theorem State.setTrigger_die (n : Nat) (x : Trigger) : (s.setTrigger n x).die = s.die := rfl
@[simp] theorem State.setTrigger_pw (n : Nat) (x : Trigger) : (s.setTrigger n x).pw = s.pw := rfl
@[simp] theorem State.setTrigger_dbg (n : Nat) (x : Trigger) : (s.setTrigger n x).dbg = s.dbg := rfl
@[simp] theorem State.setTrigger_pipes (n : Nat) (x : Trigger) : (s.setTrigger n x).pipes = s.pipes := rfl
@[simp] theorem State.setTrigger_lanes (n : Nat) (x : Trigger) : (s.setTrigger n x).lanes = s.lanes := rfl
@[simp] theorem State.setTrigger_isl (n : Nat) (x : Trigger) : (s.setTrigger n x).isl = s.isl := rfl
@[simp] theorem State.setTrigger_cal (n : Nat) (x : Trigger) : (s.setTrigger n x).cal = s.cal := rfl
@[simp] theorem State.setTrigger_tw (n : Nat) (x : Trigger) : (s.setTrigger n x).tw = s.tw := rfl
@[simp] theorem State.setTrigger_sent (n : Nat) (x : Trigger) : (s.setTrigger n x).sent = s.sent := rfl
@[simp] theorem State.setTrigger_free (n : Nat) (x : Trigger) : (s.setTrigger n x).free = s.free := rfl
@[simp] theorem State.setTrigger_pending (n : Nat) (x : Trigger) : (s.setTrigger n x).pending = s.pending := rfl
@[simp] theorem State.setTrigger_rd (n : Nat) (x : Trigger) (j : Nat) : (s.setTrigger n x).rd j = s.rd j := rfl

/-! `setStream` -/

@[simp] theorem State.setStream_od (e : Nat) (x : Stream) : (s.setStream e x).od = s.od := rfl
@[simp] theorem State.setStream_dev (e : Nat) (x : Stream) : (s.setStream e x).dev = s.dev := rfl
@[simp] theorem State.setStream_kp (e : Nat) (x : Stream) : (s.setStream e x).kp = s.kp := rfl
@[simp] theorem State.setStream_tm (e : Nat) (x : Stream) : (s.setStream e x).tm = s.tm := rfl
@[simp] theorem State.setStream_doms (e : Nat) (x : Stream) : (s.setStream e x).doms = s.doms := rfl
@[simp] theorem State.setStream_ptp (e : Nat) (x : Stream) : (s.setStream e x).ptp = s.ptp := rfl
@[simp] theorem State.setStream_trig (e : Nat) (x : Stream) : (s.setStream e x).trig = s.trig := rfl
@[simp] theorem State.setStream_ev (e : Nat) (x : Stream) : (s.setStream e x).ev = s.ev := rfl
@[simp] theorem State.setStream_jr (e : Nat) (x : Stream) : (s.setStream e x).jr = s.jr := rfl
@[simp] theorem State.setStream_sessions (e : Nat) (x : Stream) : (s.setStream e x).sessions = s.sessions := rfl
@[simp] theorem State.setStream_staged (e : Nat) (x : Stream) : (s.setStream e x).staged = s.staged := rfl
@[simp] theorem State.setStream_mirrors (e : Nat) (x : Stream) : (s.setStream e x).mirrors = s.mirrors := rfl
@[simp] theorem State.setStream_cyc (e : Nat) (x : Stream) : (s.setStream e x).cyc = s.cyc := rfl
@[simp] theorem State.setStream_mem (e : Nat) (x : Stream) : (s.setStream e x).mem = s.mem := rfl
@[simp] theorem State.setStream_chans (e : Nat) (x : Stream) : (s.setStream e x).chans = s.chans := rfl
@[simp] theorem State.setStream_layer (e : Nat) (x : Stream) : (s.setStream e x).layer = s.layer := rfl
@[simp] theorem State.setStream_loops (e : Nat) (x : Stream) : (s.setStream e x).loops = s.loops := rfl
@[simp] theorem State.setStream_reps (e : Nat) (x : Stream) : (s.setStream e x).reps = s.reps := rfl
@[simp] theorem State.setStream_lunes (e : Nat) (x : Stream) : (s.setStream e x).lunes = s.lunes := rfl
@[simp] theorem State.setStream_lat (e : Nat) (x : Stream) : (s.setStream e x).lat = s.lat := rfl
@[simp] theorem State.setStream_installed (e : Nat) (x : Stream) : (s.setStream e x).installed = s.installed := rfl
@[simp] theorem State.setStream_axes (e : Nat) (x : Stream) : (s.setStream e x).axes = s.axes := rfl
@[simp] theorem State.setStream_light (e : Nat) (x : Stream) : (s.setStream e x).light = s.light := rfl
@[simp] theorem State.setStream_die (e : Nat) (x : Stream) : (s.setStream e x).die = s.die := rfl
@[simp] theorem State.setStream_pw (e : Nat) (x : Stream) : (s.setStream e x).pw = s.pw := rfl
@[simp] theorem State.setStream_dbg (e : Nat) (x : Stream) : (s.setStream e x).dbg = s.dbg := rfl
@[simp] theorem State.setStream_pipes (e : Nat) (x : Stream) : (s.setStream e x).pipes = s.pipes := rfl
@[simp] theorem State.setStream_lanes (e : Nat) (x : Stream) : (s.setStream e x).lanes = s.lanes := rfl
@[simp] theorem State.setStream_isl (e : Nat) (x : Stream) : (s.setStream e x).isl = s.isl := rfl
@[simp] theorem State.setStream_cal (e : Nat) (x : Stream) : (s.setStream e x).cal = s.cal := rfl
@[simp] theorem State.setStream_tw (e : Nat) (x : Stream) : (s.setStream e x).tw = s.tw := rfl
@[simp] theorem State.setStream_sent (e : Nat) (x : Stream) : (s.setStream e x).sent = s.sent := rfl
@[simp] theorem State.setStream_free (e : Nat) (x : Stream) : (s.setStream e x).free = s.free := rfl
@[simp] theorem State.setStream_pending (e : Nat) (x : Stream) : (s.setStream e x).pending = s.pending := rfl
@[simp] theorem State.setStream_rd (e : Nat) (x : Stream) (j : Nat) : (s.setStream e x).rd j = s.rd j := rfl

/-! `setLoop` -/

@[simp] theorem State.setLoop_od (m : Nat) (x : Loop) : (s.setLoop m x).od = s.od := rfl
@[simp] theorem State.setLoop_dev (m : Nat) (x : Loop) : (s.setLoop m x).dev = s.dev := rfl
@[simp] theorem State.setLoop_kp (m : Nat) (x : Loop) : (s.setLoop m x).kp = s.kp := rfl
@[simp] theorem State.setLoop_tm (m : Nat) (x : Loop) : (s.setLoop m x).tm = s.tm := rfl
@[simp] theorem State.setLoop_doms (m : Nat) (x : Loop) : (s.setLoop m x).doms = s.doms := rfl
@[simp] theorem State.setLoop_ptp (m : Nat) (x : Loop) : (s.setLoop m x).ptp = s.ptp := rfl
@[simp] theorem State.setLoop_trig (m : Nat) (x : Loop) : (s.setLoop m x).trig = s.trig := rfl
@[simp] theorem State.setLoop_ev (m : Nat) (x : Loop) : (s.setLoop m x).ev = s.ev := rfl
@[simp] theorem State.setLoop_jr (m : Nat) (x : Loop) : (s.setLoop m x).jr = s.jr := rfl
@[simp] theorem State.setLoop_sessions (m : Nat) (x : Loop) : (s.setLoop m x).sessions = s.sessions := rfl
@[simp] theorem State.setLoop_staged (m : Nat) (x : Loop) : (s.setLoop m x).staged = s.staged := rfl
@[simp] theorem State.setLoop_streams (m : Nat) (x : Loop) : (s.setLoop m x).streams = s.streams := rfl
@[simp] theorem State.setLoop_mirrors (m : Nat) (x : Loop) : (s.setLoop m x).mirrors = s.mirrors := rfl
@[simp] theorem State.setLoop_cyc (m : Nat) (x : Loop) : (s.setLoop m x).cyc = s.cyc := rfl
@[simp] theorem State.setLoop_mem (m : Nat) (x : Loop) : (s.setLoop m x).mem = s.mem := rfl
@[simp] theorem State.setLoop_chans (m : Nat) (x : Loop) : (s.setLoop m x).chans = s.chans := rfl
@[simp] theorem State.setLoop_layer (m : Nat) (x : Loop) : (s.setLoop m x).layer = s.layer := rfl
@[simp] theorem State.setLoop_reps (m : Nat) (x : Loop) : (s.setLoop m x).reps = s.reps := rfl
@[simp] theorem State.setLoop_lunes (m : Nat) (x : Loop) : (s.setLoop m x).lunes = s.lunes := rfl
@[simp] theorem State.setLoop_lat (m : Nat) (x : Loop) : (s.setLoop m x).lat = s.lat := rfl
@[simp] theorem State.setLoop_installed (m : Nat) (x : Loop) : (s.setLoop m x).installed = s.installed := rfl
@[simp] theorem State.setLoop_axes (m : Nat) (x : Loop) : (s.setLoop m x).axes = s.axes := rfl
@[simp] theorem State.setLoop_light (m : Nat) (x : Loop) : (s.setLoop m x).light = s.light := rfl
@[simp] theorem State.setLoop_die (m : Nat) (x : Loop) : (s.setLoop m x).die = s.die := rfl
@[simp] theorem State.setLoop_pw (m : Nat) (x : Loop) : (s.setLoop m x).pw = s.pw := rfl
@[simp] theorem State.setLoop_dbg (m : Nat) (x : Loop) : (s.setLoop m x).dbg = s.dbg := rfl
@[simp] theorem State.setLoop_pipes (m : Nat) (x : Loop) : (s.setLoop m x).pipes = s.pipes := rfl
@[simp] theorem State.setLoop_lanes (m : Nat) (x : Loop) : (s.setLoop m x).lanes = s.lanes := rfl
@[simp] theorem State.setLoop_isl (m : Nat) (x : Loop) : (s.setLoop m x).isl = s.isl := rfl
@[simp] theorem State.setLoop_cal (m : Nat) (x : Loop) : (s.setLoop m x).cal = s.cal := rfl
@[simp] theorem State.setLoop_tw (m : Nat) (x : Loop) : (s.setLoop m x).tw = s.tw := rfl
@[simp] theorem State.setLoop_sent (m : Nat) (x : Loop) : (s.setLoop m x).sent = s.sent := rfl
@[simp] theorem State.setLoop_free (m : Nat) (x : Loop) : (s.setLoop m x).free = s.free := rfl
@[simp] theorem State.setLoop_pending (m : Nat) (x : Loop) : (s.setLoop m x).pending = s.pending := rfl
@[simp] theorem State.setLoop_rd (m : Nat) (x : Loop) (j : Nat) : (s.setLoop m x).rd j = s.rd j := rfl

/-! `setRep` -/

@[simp] theorem State.setRep_od (i : Nat) (x : Rep) : (s.setRep i x).od = s.od := rfl
@[simp] theorem State.setRep_dev (i : Nat) (x : Rep) : (s.setRep i x).dev = s.dev := rfl
@[simp] theorem State.setRep_kp (i : Nat) (x : Rep) : (s.setRep i x).kp = s.kp := rfl
@[simp] theorem State.setRep_tm (i : Nat) (x : Rep) : (s.setRep i x).tm = s.tm := rfl
@[simp] theorem State.setRep_doms (i : Nat) (x : Rep) : (s.setRep i x).doms = s.doms := rfl
@[simp] theorem State.setRep_ptp (i : Nat) (x : Rep) : (s.setRep i x).ptp = s.ptp := rfl
@[simp] theorem State.setRep_trig (i : Nat) (x : Rep) : (s.setRep i x).trig = s.trig := rfl
@[simp] theorem State.setRep_ev (i : Nat) (x : Rep) : (s.setRep i x).ev = s.ev := rfl
@[simp] theorem State.setRep_jr (i : Nat) (x : Rep) : (s.setRep i x).jr = s.jr := rfl
@[simp] theorem State.setRep_sessions (i : Nat) (x : Rep) : (s.setRep i x).sessions = s.sessions := rfl
@[simp] theorem State.setRep_staged (i : Nat) (x : Rep) : (s.setRep i x).staged = s.staged := rfl
@[simp] theorem State.setRep_streams (i : Nat) (x : Rep) : (s.setRep i x).streams = s.streams := rfl
@[simp] theorem State.setRep_mirrors (i : Nat) (x : Rep) : (s.setRep i x).mirrors = s.mirrors := rfl
@[simp] theorem State.setRep_cyc (i : Nat) (x : Rep) : (s.setRep i x).cyc = s.cyc := rfl
@[simp] theorem State.setRep_mem (i : Nat) (x : Rep) : (s.setRep i x).mem = s.mem := rfl
@[simp] theorem State.setRep_chans (i : Nat) (x : Rep) : (s.setRep i x).chans = s.chans := rfl
@[simp] theorem State.setRep_layer (i : Nat) (x : Rep) : (s.setRep i x).layer = s.layer := rfl
@[simp] theorem State.setRep_loops (i : Nat) (x : Rep) : (s.setRep i x).loops = s.loops := rfl
@[simp] theorem State.setRep_lunes (i : Nat) (x : Rep) : (s.setRep i x).lunes = s.lunes := rfl
@[simp] theorem State.setRep_lat (i : Nat) (x : Rep) : (s.setRep i x).lat = s.lat := rfl
@[simp] theorem State.setRep_installed (i : Nat) (x : Rep) : (s.setRep i x).installed = s.installed := rfl
@[simp] theorem State.setRep_axes (i : Nat) (x : Rep) : (s.setRep i x).axes = s.axes := rfl
@[simp] theorem State.setRep_light (i : Nat) (x : Rep) : (s.setRep i x).light = s.light := rfl
@[simp] theorem State.setRep_die (i : Nat) (x : Rep) : (s.setRep i x).die = s.die := rfl
@[simp] theorem State.setRep_pw (i : Nat) (x : Rep) : (s.setRep i x).pw = s.pw := rfl
@[simp] theorem State.setRep_dbg (i : Nat) (x : Rep) : (s.setRep i x).dbg = s.dbg := rfl
@[simp] theorem State.setRep_pipes (i : Nat) (x : Rep) : (s.setRep i x).pipes = s.pipes := rfl
@[simp] theorem State.setRep_lanes (i : Nat) (x : Rep) : (s.setRep i x).lanes = s.lanes := rfl
@[simp] theorem State.setRep_isl (i : Nat) (x : Rep) : (s.setRep i x).isl = s.isl := rfl
@[simp] theorem State.setRep_cal (i : Nat) (x : Rep) : (s.setRep i x).cal = s.cal := rfl
@[simp] theorem State.setRep_tw (i : Nat) (x : Rep) : (s.setRep i x).tw = s.tw := rfl
@[simp] theorem State.setRep_sent (i : Nat) (x : Rep) : (s.setRep i x).sent = s.sent := rfl
@[simp] theorem State.setRep_free (i : Nat) (x : Rep) : (s.setRep i x).free = s.free := rfl
@[simp] theorem State.setRep_pending (i : Nat) (x : Rep) : (s.setRep i x).pending = s.pending := rfl
@[simp] theorem State.setRep_rd (i : Nat) (x : Rep) (j : Nat) : (s.setRep i x).rd j = s.rd j := rfl

/-! `setAxis` -/

@[simp] theorem State.setAxis_od (k : Nat) (x : Axis) : (s.setAxis k x).od = s.od := rfl
@[simp] theorem State.setAxis_dev (k : Nat) (x : Axis) : (s.setAxis k x).dev = s.dev := rfl
@[simp] theorem State.setAxis_kp (k : Nat) (x : Axis) : (s.setAxis k x).kp = s.kp := rfl
@[simp] theorem State.setAxis_tm (k : Nat) (x : Axis) : (s.setAxis k x).tm = s.tm := rfl
@[simp] theorem State.setAxis_doms (k : Nat) (x : Axis) : (s.setAxis k x).doms = s.doms := rfl
@[simp] theorem State.setAxis_ptp (k : Nat) (x : Axis) : (s.setAxis k x).ptp = s.ptp := rfl
@[simp] theorem State.setAxis_trig (k : Nat) (x : Axis) : (s.setAxis k x).trig = s.trig := rfl
@[simp] theorem State.setAxis_ev (k : Nat) (x : Axis) : (s.setAxis k x).ev = s.ev := rfl
@[simp] theorem State.setAxis_jr (k : Nat) (x : Axis) : (s.setAxis k x).jr = s.jr := rfl
@[simp] theorem State.setAxis_sessions (k : Nat) (x : Axis) : (s.setAxis k x).sessions = s.sessions := rfl
@[simp] theorem State.setAxis_staged (k : Nat) (x : Axis) : (s.setAxis k x).staged = s.staged := rfl
@[simp] theorem State.setAxis_streams (k : Nat) (x : Axis) : (s.setAxis k x).streams = s.streams := rfl
@[simp] theorem State.setAxis_mirrors (k : Nat) (x : Axis) : (s.setAxis k x).mirrors = s.mirrors := rfl
@[simp] theorem State.setAxis_cyc (k : Nat) (x : Axis) : (s.setAxis k x).cyc = s.cyc := rfl
@[simp] theorem State.setAxis_mem (k : Nat) (x : Axis) : (s.setAxis k x).mem = s.mem := rfl
@[simp] theorem State.setAxis_chans (k : Nat) (x : Axis) : (s.setAxis k x).chans = s.chans := rfl
@[simp] theorem State.setAxis_layer (k : Nat) (x : Axis) : (s.setAxis k x).layer = s.layer := rfl
@[simp] theorem State.setAxis_loops (k : Nat) (x : Axis) : (s.setAxis k x).loops = s.loops := rfl
@[simp] theorem State.setAxis_reps (k : Nat) (x : Axis) : (s.setAxis k x).reps = s.reps := rfl
@[simp] theorem State.setAxis_lunes (k : Nat) (x : Axis) : (s.setAxis k x).lunes = s.lunes := rfl
@[simp] theorem State.setAxis_lat (k : Nat) (x : Axis) : (s.setAxis k x).lat = s.lat := rfl
@[simp] theorem State.setAxis_installed (k : Nat) (x : Axis) : (s.setAxis k x).installed = s.installed := rfl
@[simp] theorem State.setAxis_light (k : Nat) (x : Axis) : (s.setAxis k x).light = s.light := rfl
@[simp] theorem State.setAxis_die (k : Nat) (x : Axis) : (s.setAxis k x).die = s.die := rfl
@[simp] theorem State.setAxis_pw (k : Nat) (x : Axis) : (s.setAxis k x).pw = s.pw := rfl
@[simp] theorem State.setAxis_dbg (k : Nat) (x : Axis) : (s.setAxis k x).dbg = s.dbg := rfl
@[simp] theorem State.setAxis_pipes (k : Nat) (x : Axis) : (s.setAxis k x).pipes = s.pipes := rfl
@[simp] theorem State.setAxis_lanes (k : Nat) (x : Axis) : (s.setAxis k x).lanes = s.lanes := rfl
@[simp] theorem State.setAxis_isl (k : Nat) (x : Axis) : (s.setAxis k x).isl = s.isl := rfl
@[simp] theorem State.setAxis_cal (k : Nat) (x : Axis) : (s.setAxis k x).cal = s.cal := rfl
@[simp] theorem State.setAxis_tw (k : Nat) (x : Axis) : (s.setAxis k x).tw = s.tw := rfl
@[simp] theorem State.setAxis_sent (k : Nat) (x : Axis) : (s.setAxis k x).sent = s.sent := rfl
@[simp] theorem State.setAxis_free (k : Nat) (x : Axis) : (s.setAxis k x).free = s.free := rfl
@[simp] theorem State.setAxis_pending (k : Nat) (x : Axis) : (s.setAxis k x).pending = s.pending := rfl
@[simp] theorem State.setAxis_rd (k : Nat) (x : Axis) (j : Nat) : (s.setAxis k x).rd j = s.rd j := rfl

/-! `setPipe` -/

@[simp] theorem State.setPipe_od (k : Nat) (x : Pipe) : (s.setPipe k x).od = s.od := rfl
@[simp] theorem State.setPipe_dev (k : Nat) (x : Pipe) : (s.setPipe k x).dev = s.dev := rfl
@[simp] theorem State.setPipe_kp (k : Nat) (x : Pipe) : (s.setPipe k x).kp = s.kp := rfl
@[simp] theorem State.setPipe_tm (k : Nat) (x : Pipe) : (s.setPipe k x).tm = s.tm := rfl
@[simp] theorem State.setPipe_doms (k : Nat) (x : Pipe) : (s.setPipe k x).doms = s.doms := rfl
@[simp] theorem State.setPipe_ptp (k : Nat) (x : Pipe) : (s.setPipe k x).ptp = s.ptp := rfl
@[simp] theorem State.setPipe_trig (k : Nat) (x : Pipe) : (s.setPipe k x).trig = s.trig := rfl
@[simp] theorem State.setPipe_ev (k : Nat) (x : Pipe) : (s.setPipe k x).ev = s.ev := rfl
@[simp] theorem State.setPipe_jr (k : Nat) (x : Pipe) : (s.setPipe k x).jr = s.jr := rfl
@[simp] theorem State.setPipe_sessions (k : Nat) (x : Pipe) : (s.setPipe k x).sessions = s.sessions := rfl
@[simp] theorem State.setPipe_staged (k : Nat) (x : Pipe) : (s.setPipe k x).staged = s.staged := rfl
@[simp] theorem State.setPipe_streams (k : Nat) (x : Pipe) : (s.setPipe k x).streams = s.streams := rfl
@[simp] theorem State.setPipe_mirrors (k : Nat) (x : Pipe) : (s.setPipe k x).mirrors = s.mirrors := rfl
@[simp] theorem State.setPipe_cyc (k : Nat) (x : Pipe) : (s.setPipe k x).cyc = s.cyc := rfl
@[simp] theorem State.setPipe_mem (k : Nat) (x : Pipe) : (s.setPipe k x).mem = s.mem := rfl
@[simp] theorem State.setPipe_chans (k : Nat) (x : Pipe) : (s.setPipe k x).chans = s.chans := rfl
@[simp] theorem State.setPipe_layer (k : Nat) (x : Pipe) : (s.setPipe k x).layer = s.layer := rfl
@[simp] theorem State.setPipe_loops (k : Nat) (x : Pipe) : (s.setPipe k x).loops = s.loops := rfl
@[simp] theorem State.setPipe_reps (k : Nat) (x : Pipe) : (s.setPipe k x).reps = s.reps := rfl
@[simp] theorem State.setPipe_lunes (k : Nat) (x : Pipe) : (s.setPipe k x).lunes = s.lunes := rfl
@[simp] theorem State.setPipe_lat (k : Nat) (x : Pipe) : (s.setPipe k x).lat = s.lat := rfl
@[simp] theorem State.setPipe_installed (k : Nat) (x : Pipe) : (s.setPipe k x).installed = s.installed := rfl
@[simp] theorem State.setPipe_axes (k : Nat) (x : Pipe) : (s.setPipe k x).axes = s.axes := rfl
@[simp] theorem State.setPipe_light (k : Nat) (x : Pipe) : (s.setPipe k x).light = s.light := rfl
@[simp] theorem State.setPipe_die (k : Nat) (x : Pipe) : (s.setPipe k x).die = s.die := rfl
@[simp] theorem State.setPipe_pw (k : Nat) (x : Pipe) : (s.setPipe k x).pw = s.pw := rfl
@[simp] theorem State.setPipe_dbg (k : Nat) (x : Pipe) : (s.setPipe k x).dbg = s.dbg := rfl
@[simp] theorem State.setPipe_lanes (k : Nat) (x : Pipe) : (s.setPipe k x).lanes = s.lanes := rfl
@[simp] theorem State.setPipe_isl (k : Nat) (x : Pipe) : (s.setPipe k x).isl = s.isl := rfl
@[simp] theorem State.setPipe_cal (k : Nat) (x : Pipe) : (s.setPipe k x).cal = s.cal := rfl
@[simp] theorem State.setPipe_tw (k : Nat) (x : Pipe) : (s.setPipe k x).tw = s.tw := rfl
@[simp] theorem State.setPipe_sent (k : Nat) (x : Pipe) : (s.setPipe k x).sent = s.sent := rfl
@[simp] theorem State.setPipe_free (k : Nat) (x : Pipe) : (s.setPipe k x).free = s.free := rfl
@[simp] theorem State.setPipe_pending (k : Nat) (x : Pipe) : (s.setPipe k x).pending = s.pending := rfl
@[simp] theorem State.setPipe_rd (k : Nat) (x : Pipe) (j : Nat) : (s.setPipe k x).rd j = s.rd j := rfl

/-! `setLane` -/

@[simp] theorem State.setLane_od (l : Nat) (x : Lane) : (s.setLane l x).od = s.od := rfl
@[simp] theorem State.setLane_dev (l : Nat) (x : Lane) : (s.setLane l x).dev = s.dev := rfl
@[simp] theorem State.setLane_kp (l : Nat) (x : Lane) : (s.setLane l x).kp = s.kp := rfl
@[simp] theorem State.setLane_tm (l : Nat) (x : Lane) : (s.setLane l x).tm = s.tm := rfl
@[simp] theorem State.setLane_doms (l : Nat) (x : Lane) : (s.setLane l x).doms = s.doms := rfl
@[simp] theorem State.setLane_ptp (l : Nat) (x : Lane) : (s.setLane l x).ptp = s.ptp := rfl
@[simp] theorem State.setLane_trig (l : Nat) (x : Lane) : (s.setLane l x).trig = s.trig := rfl
@[simp] theorem State.setLane_ev (l : Nat) (x : Lane) : (s.setLane l x).ev = s.ev := rfl
@[simp] theorem State.setLane_jr (l : Nat) (x : Lane) : (s.setLane l x).jr = s.jr := rfl
@[simp] theorem State.setLane_sessions (l : Nat) (x : Lane) : (s.setLane l x).sessions = s.sessions := rfl
@[simp] theorem State.setLane_staged (l : Nat) (x : Lane) : (s.setLane l x).staged = s.staged := rfl
@[simp] theorem State.setLane_streams (l : Nat) (x : Lane) : (s.setLane l x).streams = s.streams := rfl
@[simp] theorem State.setLane_mirrors (l : Nat) (x : Lane) : (s.setLane l x).mirrors = s.mirrors := rfl
@[simp] theorem State.setLane_cyc (l : Nat) (x : Lane) : (s.setLane l x).cyc = s.cyc := rfl
@[simp] theorem State.setLane_mem (l : Nat) (x : Lane) : (s.setLane l x).mem = s.mem := rfl
@[simp] theorem State.setLane_chans (l : Nat) (x : Lane) : (s.setLane l x).chans = s.chans := rfl
@[simp] theorem State.setLane_layer (l : Nat) (x : Lane) : (s.setLane l x).layer = s.layer := rfl
@[simp] theorem State.setLane_loops (l : Nat) (x : Lane) : (s.setLane l x).loops = s.loops := rfl
@[simp] theorem State.setLane_reps (l : Nat) (x : Lane) : (s.setLane l x).reps = s.reps := rfl
@[simp] theorem State.setLane_lunes (l : Nat) (x : Lane) : (s.setLane l x).lunes = s.lunes := rfl
@[simp] theorem State.setLane_lat (l : Nat) (x : Lane) : (s.setLane l x).lat = s.lat := rfl
@[simp] theorem State.setLane_installed (l : Nat) (x : Lane) : (s.setLane l x).installed = s.installed := rfl
@[simp] theorem State.setLane_axes (l : Nat) (x : Lane) : (s.setLane l x).axes = s.axes := rfl
@[simp] theorem State.setLane_light (l : Nat) (x : Lane) : (s.setLane l x).light = s.light := rfl
@[simp] theorem State.setLane_die (l : Nat) (x : Lane) : (s.setLane l x).die = s.die := rfl
@[simp] theorem State.setLane_pw (l : Nat) (x : Lane) : (s.setLane l x).pw = s.pw := rfl
@[simp] theorem State.setLane_dbg (l : Nat) (x : Lane) : (s.setLane l x).dbg = s.dbg := rfl
@[simp] theorem State.setLane_pipes (l : Nat) (x : Lane) : (s.setLane l x).pipes = s.pipes := rfl
@[simp] theorem State.setLane_isl (l : Nat) (x : Lane) : (s.setLane l x).isl = s.isl := rfl
@[simp] theorem State.setLane_cal (l : Nat) (x : Lane) : (s.setLane l x).cal = s.cal := rfl
@[simp] theorem State.setLane_tw (l : Nat) (x : Lane) : (s.setLane l x).tw = s.tw := rfl
@[simp] theorem State.setLane_sent (l : Nat) (x : Lane) : (s.setLane l x).sent = s.sent := rfl
@[simp] theorem State.setLane_free (l : Nat) (x : Lane) : (s.setLane l x).free = s.free := rfl
@[simp] theorem State.setLane_pending (l : Nat) (x : Lane) : (s.setLane l x).pending = s.pending := rfl
@[simp] theorem State.setLane_rd (l : Nat) (x : Lane) (j : Nat) : (s.setLane l x).rd j = s.rd j := rfl

/-! `setCell`: only the memory and the lattice change (R255) -/

theorem State.cellsToBytes_form (pp : Nat) : ∃ m l, s.cellsToBytes pp = { s with mem := m, lat := l } := ⟨_, _, rfl⟩

theorem State.setPhysByte_form (a : Nat) (b : Byte) : ∃ m l, s.setPhysByte a b = { s with mem := m, lat := l } := by
  unfold State.setPhysByte
  split
  · exact ⟨_, _, rfl⟩
  · split
    · exact ⟨_, _, rfl⟩
    · exact ⟨_, _, rfl⟩

theorem State.setCell_form (c : Nat) (v : Cell) : ∃ m l, s.setCell c v = { s with mem := m, lat := l } := by
  have hf : ∀ (l : List Nat) (f : Nat → Nat) (g : Nat → Byte) (s : State),
      ∃ m k, l.foldl (fun s i => s.setPhysByte (f i) (g i)) s = { s with mem := m, lat := k } := by
    intro l f g
    induction l with
    | nil => exact fun s => ⟨_, _, rfl⟩
    | cons i l ih =>
      intro s
      obtain ⟨m, k, h⟩ := s.setPhysByte_form (f i) (g i)
      rw [List.foldl_cons, h]
      exact ih _
  unfold State.setCell
  dsimp only
  split
  · exact ⟨_, _, rfl⟩
  · exact hf _ _ _ s

@[simp] theorem State.setCell_od (c : Nat) (v : Cell) : (s.setCell c v).od = s.od := by
  obtain ⟨_, _, h⟩ := s.setCell_form c v; rw [h]
@[simp] theorem State.setCell_dev (c : Nat) (v : Cell) : (s.setCell c v).dev = s.dev := by
  obtain ⟨_, _, h⟩ := s.setCell_form c v; rw [h]
@[simp] theorem State.setCell_kp (c : Nat) (v : Cell) : (s.setCell c v).kp = s.kp := by
  obtain ⟨_, _, h⟩ := s.setCell_form c v; rw [h]
@[simp] theorem State.setCell_tm (c : Nat) (v : Cell) : (s.setCell c v).tm = s.tm := by
  obtain ⟨_, _, h⟩ := s.setCell_form c v; rw [h]
@[simp] theorem State.setCell_doms (c : Nat) (v : Cell) : (s.setCell c v).doms = s.doms := by
  obtain ⟨_, _, h⟩ := s.setCell_form c v; rw [h]
@[simp] theorem State.setCell_ptp (c : Nat) (v : Cell) : (s.setCell c v).ptp = s.ptp := by
  obtain ⟨_, _, h⟩ := s.setCell_form c v; rw [h]
@[simp] theorem State.setCell_trig (c : Nat) (v : Cell) : (s.setCell c v).trig = s.trig := by
  obtain ⟨_, _, h⟩ := s.setCell_form c v; rw [h]
@[simp] theorem State.setCell_ev (c : Nat) (v : Cell) : (s.setCell c v).ev = s.ev := by
  obtain ⟨_, _, h⟩ := s.setCell_form c v; rw [h]
@[simp] theorem State.setCell_jr (c : Nat) (v : Cell) : (s.setCell c v).jr = s.jr := by
  obtain ⟨_, _, h⟩ := s.setCell_form c v; rw [h]
@[simp] theorem State.setCell_sessions (c : Nat) (v : Cell) : (s.setCell c v).sessions = s.sessions := by
  obtain ⟨_, _, h⟩ := s.setCell_form c v; rw [h]
@[simp] theorem State.setCell_staged (c : Nat) (v : Cell) : (s.setCell c v).staged = s.staged := by
  obtain ⟨_, _, h⟩ := s.setCell_form c v; rw [h]
@[simp] theorem State.setCell_streams (c : Nat) (v : Cell) : (s.setCell c v).streams = s.streams := by
  obtain ⟨_, _, h⟩ := s.setCell_form c v; rw [h]
@[simp] theorem State.setCell_mirrors (c : Nat) (v : Cell) : (s.setCell c v).mirrors = s.mirrors := by
  obtain ⟨_, _, h⟩ := s.setCell_form c v; rw [h]
@[simp] theorem State.setCell_cyc (c : Nat) (v : Cell) : (s.setCell c v).cyc = s.cyc := by
  obtain ⟨_, _, h⟩ := s.setCell_form c v; rw [h]
@[simp] theorem State.setCell_chans (c : Nat) (v : Cell) : (s.setCell c v).chans = s.chans := by
  obtain ⟨_, _, h⟩ := s.setCell_form c v; rw [h]
@[simp] theorem State.setCell_layer (c : Nat) (v : Cell) : (s.setCell c v).layer = s.layer := by
  obtain ⟨_, _, h⟩ := s.setCell_form c v; rw [h]
@[simp] theorem State.setCell_loops (c : Nat) (v : Cell) : (s.setCell c v).loops = s.loops := by
  obtain ⟨_, _, h⟩ := s.setCell_form c v; rw [h]
@[simp] theorem State.setCell_reps (c : Nat) (v : Cell) : (s.setCell c v).reps = s.reps := by
  obtain ⟨_, _, h⟩ := s.setCell_form c v; rw [h]
@[simp] theorem State.setCell_lunes (c : Nat) (v : Cell) : (s.setCell c v).lunes = s.lunes := by
  obtain ⟨_, _, h⟩ := s.setCell_form c v; rw [h]
@[simp] theorem State.setCell_installed (c : Nat) (v : Cell) : (s.setCell c v).installed = s.installed := by
  obtain ⟨_, _, h⟩ := s.setCell_form c v; rw [h]
@[simp] theorem State.setCell_axes (c : Nat) (v : Cell) : (s.setCell c v).axes = s.axes := by
  obtain ⟨_, _, h⟩ := s.setCell_form c v; rw [h]
@[simp] theorem State.setCell_light (c : Nat) (v : Cell) : (s.setCell c v).light = s.light := by
  obtain ⟨_, _, h⟩ := s.setCell_form c v; rw [h]
@[simp] theorem State.setCell_die (c : Nat) (v : Cell) : (s.setCell c v).die = s.die := by
  obtain ⟨_, _, h⟩ := s.setCell_form c v; rw [h]
@[simp] theorem State.setCell_pw (c : Nat) (v : Cell) : (s.setCell c v).pw = s.pw := by
  obtain ⟨_, _, h⟩ := s.setCell_form c v; rw [h]
@[simp] theorem State.setCell_dbg (c : Nat) (v : Cell) : (s.setCell c v).dbg = s.dbg := by
  obtain ⟨_, _, h⟩ := s.setCell_form c v; rw [h]
@[simp] theorem State.setCell_pipes (c : Nat) (v : Cell) : (s.setCell c v).pipes = s.pipes := by
  obtain ⟨_, _, h⟩ := s.setCell_form c v; rw [h]
@[simp] theorem State.setCell_lanes (c : Nat) (v : Cell) : (s.setCell c v).lanes = s.lanes := by
  obtain ⟨_, _, h⟩ := s.setCell_form c v; rw [h]
@[simp] theorem State.setCell_isl (c : Nat) (v : Cell) : (s.setCell c v).isl = s.isl := by
  obtain ⟨_, _, h⟩ := s.setCell_form c v; rw [h]
@[simp] theorem State.setCell_cal (c : Nat) (v : Cell) : (s.setCell c v).cal = s.cal := by
  obtain ⟨_, _, h⟩ := s.setCell_form c v; rw [h]
@[simp] theorem State.setCell_tw (c : Nat) (v : Cell) : (s.setCell c v).tw = s.tw := by
  obtain ⟨_, _, h⟩ := s.setCell_form c v; rw [h]
@[simp] theorem State.setCell_sent (c : Nat) (v : Cell) : (s.setCell c v).sent = s.sent := by
  obtain ⟨_, _, h⟩ := s.setCell_form c v; rw [h]
@[simp] theorem State.setCell_free (c : Nat) (v : Cell) : (s.setCell c v).free = s.free := by
  obtain ⟨_, _, h⟩ := s.setCell_form c v; rw [h]
@[simp] theorem State.setCell_pending (c : Nat) (v : Cell) : (s.setCell c v).pending = s.pending := by
  obtain ⟨_, _, h⟩ := s.setCell_form c v; rw [h]
@[simp] theorem State.setCell_rd (c : Nat) (v : Cell) (j : Nat) : (s.setCell c v).rd j = s.rd j := by
  simp only [State.rd, State.setCell_od]

/-! `setPage` -/

@[simp] theorem State.setPage_od (tc jp : Nat) (p : Option Page) : (s.setPage tc jp p).od = s.od := rfl
@[simp] theorem State.setPage_dev (tc jp : Nat) (p : Option Page) : (s.setPage tc jp p).dev = s.dev := rfl
@[simp] theorem State.setPage_kp (tc jp : Nat) (p : Option Page) : (s.setPage tc jp p).kp = s.kp := rfl
@[simp] theorem State.setPage_tm (tc jp : Nat) (p : Option Page) : (s.setPage tc jp p).tm = s.tm := rfl
@[simp] theorem State.setPage_doms (tc jp : Nat) (p : Option Page) : (s.setPage tc jp p).doms = s.doms := rfl
@[simp] theorem State.setPage_ptp (tc jp : Nat) (p : Option Page) : (s.setPage tc jp p).ptp = s.ptp := rfl
@[simp] theorem State.setPage_trig (tc jp : Nat) (p : Option Page) : (s.setPage tc jp p).trig = s.trig := rfl
@[simp] theorem State.setPage_ev (tc jp : Nat) (p : Option Page) : (s.setPage tc jp p).ev = s.ev := rfl
@[simp] theorem State.setPage_jr (tc jp : Nat) (p : Option Page) : (s.setPage tc jp p).jr = s.jr := rfl
@[simp] theorem State.setPage_sessions (tc jp : Nat) (p : Option Page) : (s.setPage tc jp p).sessions = s.sessions := rfl
@[simp] theorem State.setPage_staged (tc jp : Nat) (p : Option Page) : (s.setPage tc jp p).staged = s.staged := rfl
@[simp] theorem State.setPage_streams (tc jp : Nat) (p : Option Page) : (s.setPage tc jp p).streams = s.streams := rfl
@[simp] theorem State.setPage_mirrors (tc jp : Nat) (p : Option Page) : (s.setPage tc jp p).mirrors = s.mirrors := rfl
@[simp] theorem State.setPage_cyc (tc jp : Nat) (p : Option Page) : (s.setPage tc jp p).cyc = s.cyc := rfl
@[simp] theorem State.setPage_chans (tc jp : Nat) (p : Option Page) : (s.setPage tc jp p).chans = s.chans := rfl
@[simp] theorem State.setPage_layer (tc jp : Nat) (p : Option Page) : (s.setPage tc jp p).layer = s.layer := rfl
@[simp] theorem State.setPage_loops (tc jp : Nat) (p : Option Page) : (s.setPage tc jp p).loops = s.loops := rfl
@[simp] theorem State.setPage_reps (tc jp : Nat) (p : Option Page) : (s.setPage tc jp p).reps = s.reps := rfl
@[simp] theorem State.setPage_lunes (tc jp : Nat) (p : Option Page) : (s.setPage tc jp p).lunes = s.lunes := rfl
@[simp] theorem State.setPage_lat (tc jp : Nat) (p : Option Page) : (s.setPage tc jp p).lat = s.lat := rfl
@[simp] theorem State.setPage_installed (tc jp : Nat) (p : Option Page) : (s.setPage tc jp p).installed = s.installed := rfl
@[simp] theorem State.setPage_axes (tc jp : Nat) (p : Option Page) : (s.setPage tc jp p).axes = s.axes := rfl
@[simp] theorem State.setPage_light (tc jp : Nat) (p : Option Page) : (s.setPage tc jp p).light = s.light := rfl
@[simp] theorem State.setPage_die (tc jp : Nat) (p : Option Page) : (s.setPage tc jp p).die = s.die := rfl
@[simp] theorem State.setPage_pw (tc jp : Nat) (p : Option Page) : (s.setPage tc jp p).pw = s.pw := rfl
@[simp] theorem State.setPage_dbg (tc jp : Nat) (p : Option Page) : (s.setPage tc jp p).dbg = s.dbg := rfl
@[simp] theorem State.setPage_pipes (tc jp : Nat) (p : Option Page) : (s.setPage tc jp p).pipes = s.pipes := rfl
@[simp] theorem State.setPage_lanes (tc jp : Nat) (p : Option Page) : (s.setPage tc jp p).lanes = s.lanes := rfl
@[simp] theorem State.setPage_isl (tc jp : Nat) (p : Option Page) : (s.setPage tc jp p).isl = s.isl := rfl
@[simp] theorem State.setPage_cal (tc jp : Nat) (p : Option Page) : (s.setPage tc jp p).cal = s.cal := rfl
@[simp] theorem State.setPage_tw (tc jp : Nat) (p : Option Page) : (s.setPage tc jp p).tw = s.tw := rfl
@[simp] theorem State.setPage_sent (tc jp : Nat) (p : Option Page) : (s.setPage tc jp p).sent = s.sent := rfl
@[simp] theorem State.setPage_free (tc jp : Nat) (p : Option Page) : (s.setPage tc jp p).free = s.free := rfl
@[simp] theorem State.setPage_pending (tc jp : Nat) (p : Option Page) : (s.setPage tc jp p).pending = s.pending := rfl
@[simp] theorem State.setPage_rd (tc jp : Nat) (p : Option Page) (j : Nat) : (s.setPage tc jp p).rd j = s.rd j := rfl

/-! Reading back -/

/-- An entry that was written reads the value. -/
@[simp] theorem State.rd_wr_same (k v : Nat) : (s.wr k v).rd k = v := Tab.get_set_same _ _ _

/-- Another entry reads as before. -/
theorem State.rd_wr_other {j k : Nat} (v : Nat) (h : j ≠ k) : (s.wr k v).rd j = s.rd j := Tab.get_set_other _ _ h

/-- Both together. -/
theorem State.rd_wr (j k v : Nat) : (s.wr k v).rd j = if j = k then v else s.rd j := by
  split
  · next h => subst h; exact s.rd_wr_same _ _
  · next h => exact s.rd_wr_other _ h

@[simp] theorem State.chan_setChan_same (n : Nat) (c : Chan) : (s.setChan n c).chan n = c := Tab.get_set_same _ _ _

/-- Another channel is as before. -/
theorem State.chan_setChan_other {j n : Nat} (c : Chan) (h : j ≠ n) : (s.setChan n c).chan j = s.chan j := Tab.get_set_other _ _ h

@[simp] theorem State.tc_setTc_same (n : Nat) (t : Tc) : (s.setTc n t).tc n = t := Tab.get_set_same _ _ _

@[simp] theorem State.page_setPage_same (tc jp : Nat) (p : Option Page) : (s.setPage tc jp p).page tc jp = p := Tab.get_set_same _ _ _

/-! `wrs`: several entries at once -/

@[simp] theorem State.wrs_dev (l : List (Nat × Nat)) : (s.wrs l).dev = s.dev := by induction l generalizing s with | nil => rfl | cons e l ih => exact ih _
@[simp] theorem State.wrs_kp (l : List (Nat × Nat)) : (s.wrs l).kp = s.kp := by induction l generalizing s with | nil => rfl | cons e l ih => exact ih _
@[simp] theorem State.wrs_tm (l : List (Nat × Nat)) : (s.wrs l).tm = s.tm := by induction l generalizing s with | nil => rfl | cons e l ih => exact ih _
@[simp] theorem State.wrs_doms (l : List (Nat × Nat)) : (s.wrs l).doms = s.doms := by induction l generalizing s with | nil => rfl | cons e l ih => exact ih _
@[simp] theorem State.wrs_ptp (l : List (Nat × Nat)) : (s.wrs l).ptp = s.ptp := by induction l generalizing s with | nil => rfl | cons e l ih => exact ih _
@[simp] theorem State.wrs_trig (l : List (Nat × Nat)) : (s.wrs l).trig = s.trig := by induction l generalizing s with | nil => rfl | cons e l ih => exact ih _
@[simp] theorem State.wrs_ev (l : List (Nat × Nat)) : (s.wrs l).ev = s.ev := by induction l generalizing s with | nil => rfl | cons e l ih => exact ih _
@[simp] theorem State.wrs_jr (l : List (Nat × Nat)) : (s.wrs l).jr = s.jr := by induction l generalizing s with | nil => rfl | cons e l ih => exact ih _
@[simp] theorem State.wrs_sessions (l : List (Nat × Nat)) : (s.wrs l).sessions = s.sessions := by induction l generalizing s with | nil => rfl | cons e l ih => exact ih _
@[simp] theorem State.wrs_staged (l : List (Nat × Nat)) : (s.wrs l).staged = s.staged := by induction l generalizing s with | nil => rfl | cons e l ih => exact ih _
@[simp] theorem State.wrs_streams (l : List (Nat × Nat)) : (s.wrs l).streams = s.streams := by induction l generalizing s with | nil => rfl | cons e l ih => exact ih _
@[simp] theorem State.wrs_mirrors (l : List (Nat × Nat)) : (s.wrs l).mirrors = s.mirrors := by induction l generalizing s with | nil => rfl | cons e l ih => exact ih _
@[simp] theorem State.wrs_cyc (l : List (Nat × Nat)) : (s.wrs l).cyc = s.cyc := by induction l generalizing s with | nil => rfl | cons e l ih => exact ih _
@[simp] theorem State.wrs_mem (l : List (Nat × Nat)) : (s.wrs l).mem = s.mem := by induction l generalizing s with | nil => rfl | cons e l ih => exact ih _
@[simp] theorem State.wrs_chans (l : List (Nat × Nat)) : (s.wrs l).chans = s.chans := by induction l generalizing s with | nil => rfl | cons e l ih => exact ih _
@[simp] theorem State.wrs_layer (l : List (Nat × Nat)) : (s.wrs l).layer = s.layer := by induction l generalizing s with | nil => rfl | cons e l ih => exact ih _
@[simp] theorem State.wrs_loops (l : List (Nat × Nat)) : (s.wrs l).loops = s.loops := by induction l generalizing s with | nil => rfl | cons e l ih => exact ih _
@[simp] theorem State.wrs_reps (l : List (Nat × Nat)) : (s.wrs l).reps = s.reps := by induction l generalizing s with | nil => rfl | cons e l ih => exact ih _
@[simp] theorem State.wrs_lunes (l : List (Nat × Nat)) : (s.wrs l).lunes = s.lunes := by induction l generalizing s with | nil => rfl | cons e l ih => exact ih _
@[simp] theorem State.wrs_lat (l : List (Nat × Nat)) : (s.wrs l).lat = s.lat := by induction l generalizing s with | nil => rfl | cons e l ih => exact ih _
@[simp] theorem State.wrs_installed (l : List (Nat × Nat)) : (s.wrs l).installed = s.installed := by induction l generalizing s with | nil => rfl | cons e l ih => exact ih _
@[simp] theorem State.wrs_axes (l : List (Nat × Nat)) : (s.wrs l).axes = s.axes := by induction l generalizing s with | nil => rfl | cons e l ih => exact ih _
@[simp] theorem State.wrs_light (l : List (Nat × Nat)) : (s.wrs l).light = s.light := by induction l generalizing s with | nil => rfl | cons e l ih => exact ih _
@[simp] theorem State.wrs_die (l : List (Nat × Nat)) : (s.wrs l).die = s.die := by induction l generalizing s with | nil => rfl | cons e l ih => exact ih _
@[simp] theorem State.wrs_pw (l : List (Nat × Nat)) : (s.wrs l).pw = s.pw := by induction l generalizing s with | nil => rfl | cons e l ih => exact ih _
@[simp] theorem State.wrs_dbg (l : List (Nat × Nat)) : (s.wrs l).dbg = s.dbg := by induction l generalizing s with | nil => rfl | cons e l ih => exact ih _
@[simp] theorem State.wrs_pipes (l : List (Nat × Nat)) : (s.wrs l).pipes = s.pipes := by induction l generalizing s with | nil => rfl | cons e l ih => exact ih _
@[simp] theorem State.wrs_lanes (l : List (Nat × Nat)) : (s.wrs l).lanes = s.lanes := by induction l generalizing s with | nil => rfl | cons e l ih => exact ih _
@[simp] theorem State.wrs_isl (l : List (Nat × Nat)) : (s.wrs l).isl = s.isl := by induction l generalizing s with | nil => rfl | cons e l ih => exact ih _
@[simp] theorem State.wrs_cal (l : List (Nat × Nat)) : (s.wrs l).cal = s.cal := by induction l generalizing s with | nil => rfl | cons e l ih => exact ih _
@[simp] theorem State.wrs_tw (l : List (Nat × Nat)) : (s.wrs l).tw = s.tw := by induction l generalizing s with | nil => rfl | cons e l ih => exact ih _
@[simp] theorem State.wrs_sent (l : List (Nat × Nat)) : (s.wrs l).sent = s.sent := by induction l generalizing s with | nil => rfl | cons e l ih => exact ih _
@[simp] theorem State.wrs_free (l : List (Nat × Nat)) : (s.wrs l).free = s.free := by induction l generalizing s with | nil => rfl | cons e l ih => exact ih _
@[simp] theorem State.wrs_pending (l : List (Nat × Nat)) : (s.wrs l).pending = s.pending := by induction l generalizing s with | nil => rfl | cons e l ih => exact ih _

/-- An entry that none of the writes names reads as before. -/
theorem State.rd_wrs_other {j : Nat} (l : List (Nat × Nat)) (h : ∀ e ∈ l, j ≠ e.1) : (s.wrs l).rd j = s.rd j := by
  induction l generalizing s with
  | nil => rfl
  | cons e l ih =>
    obtain ⟨k, v⟩ := e
    have h1 := ih (s.wr k v) fun e he => h e (List.mem_cons_of_mem _ he)
    exact h1.trans (s.rd_wr_other v (h _ (List.mem_cons_self ..)))

end Sys2Proof.Machine
end

