-- ==== Sys2Proof/Laws/Event.lean ====
section
/-! SUPPORT. All that raising an event can do: the event lists, and the entries of event sources and of the notice queue. -/

namespace Sys2Proof.Machine

/-- `t` is `s` but for the event lists and for the entries of event sources and of the notice queue. -/
structure Raised (s t : State) : Prop where
  form : t = { s with od := t.od, ev := t.ev }
  rd : ∀ k, eventKey k = false → t.rd k = s.rd k

variable {s t u : State}

theorem Raised.refl : Raised s s := ⟨rfl, fun _ _ => rfl⟩

theorem Raised.trans (h : Raised s t) (h' : Raised t u) : Raised s u :=
  ⟨by rw [h'.form, h.form], fun k hk => (h'.rd k hk).trans (h.rd k hk)⟩

theorem Raised.wr (h : Raised s t) (k v : Nat) (hk : eventKey k = true) : Raised s (t.wr k v) :=
  h.trans ⟨rfl, fun j hj => t.rd_wr_other v (by rintro rfl; rw [hk] at hj; cases hj)⟩

theorem Raised.inc (h : Raised s t) (k : Nat) (hk : eventKey k = true) : Raised s (t.inc k) := h.wr _ _ hk

theorem Raised.ev (h : Raised s t) (e : Events) : Raised s { t with ev := e } := h.trans ⟨rfl, fun _ _ => rfl⟩

/-- The entries of a source that exists are event entries. -/
theorem eventKey_source {src : Nat} (h : src < 256) {i : Nat} (hi : i < 256) : eventKey (0x900000 + i + src * 256) = true := by
  simp only [eventKey, Bool.or_eq_true, Bool.and_eq_true, decide_eq_true_eq]
  left; omega

theorem State.countQueue_raised (h : Raised s t) : Raised s t.countQueue := by
  unfold State.countQueue
  dsimp only
  split
  · exact (h.wr _ _ (by decide)).wr _ _ (by decide)
  · exact h.wr _ _ (by decide)

theorem State.decideNotice_raised (e : EvRec) (he : e.source < 256) (h : Raised s t) : Raised s (t.decideNotice e).2 := by
  unfold State.decideNotice
  split
  · exact h
  · split
    · refine Raised.inc ?_ _ ?_
      · exact State.countQueue_raised (h.ev _)
      · exact eventKey_source he (i := 6) (by decide)
    · refine Raised.inc (Raised.inc (h.ev _) _ ?_) _ (by decide)
      exact eventKey_source he (i := 7) (by decide)

theorem State.decideNotice_source {s : State} (e : EvRec) : (s.decideNotice e).1.source = e.source := by
  unfold State.decideNotice
  split
  · rfl
  · split <;> rfl

theorem State.showEvent_raised (e : EvRec) (he : e.source < 256) (h : Raised s t) : Raised s (t.showEvent e) :=
  ((h.wr _ _ (eventKey_source he (i := 3) (by decide))).wr _ _ (eventKey_source he (i := 4) (by decide))).wr _ _
    (eventKey_source he (i := 5) (by decide))

/-- All that raising an event can do. -/
theorem State.raiseAt_raised (t src code cls inst data : Nat) (ext : List (List Byte)) (series : Bool) :
    Raised s (s.raiseAt t src code cls inst data ext series) := by
  unfold State.raiseAt
  split
  · exact Raised.refl
  · next hs =>
    have hsrc : src < 256 := by
      simp only [Bool.or_eq_true, decide_eq_true_eq, not_or] at hs
      omega
    dsimp only
    split
    · next o ho =>
      have hos : o.source = src := by
        cases series with
        | true => cases ho
        | false => have := List.find?_some ho; simp only [Bool.and_eq_true, beq_iff_eq] at this; exact this.1.2
      have hm : ∀ e : EvRec, e.source = src → (o.merge e).source < 256 := fun e he => by
        have : (o.merge e).source = src := by
          unfold EvRec.merge
          dsimp only
          repeat' split
          all_goals assumption
        omega
      have h1 := ((Raised.refl (s := s)).ev { s.ev with hits := s.ev.hits ++ [(src, code, t)], nextId := s.ev.nextId + 1 }).inc
        (K.EV_MERGED src) (eventKey_source hsrc (i := 8) (by decide))
      split
      · refine State.showEvent_raised _ ?_ (Raised.ev (State.decideNotice_raised _ (hm _ rfl) h1) _)
        rw [State.decideNotice_source]
        exact hm _ rfl
      · exact State.showEvent_raised _ (hm _ rfl) (h1.ev _)
    · refine Raised.ev (State.decideNotice_raised _ hsrc ?_) _
      exact State.showEvent_raised _ hsrc ((Raised.refl.ev _).inc _ (eventKey_source hsrc (i := 2) (by decide)))

theorem State.raise_raised (src code cls inst data : Nat) : Raised s (s.raise src code cls inst data) :=
  s.raiseAt_raised ..

end Sys2Proof.Machine
end

