-- ==== Sys2Proof/Laws/Kept.lean ====
section
/-! SUPPORT. `Kept q s`: the queue is `q` and the tables of `s` are canonical. The lemmas of the files beside this one say that every
operation of the model keeps both; here are the primitive ones. -/

namespace Sys2Proof.Machine

/-- The queue is `q`, and the tables are in canonical form. -/
structure Kept (q : List Instr) (s : State) : Prop where
  queue : s.pending = q
  canon : s.Canonical

variable {q : List Instr} {s t : State}

/-- The outcome is a next state, and that state is kept. -/
def KeptOut (q : List Instr) (o : Host.Outcome State Fault Refusal) : Prop := ∃ t, o = .next t ∧ Kept q t

/-- A state that has the queue, dictionary, memory and lattice cells of a kept one is kept. -/
theorem Kept.of (h : Kept q s) (hp : t.pending = s.pending) (ho : t.od = s.od) (hb : t.mem.bytes = s.mem.bytes)
    (hg : t.mem.pages = s.mem.pages) (hc : t.lat.cells = s.lat.cells) : Kept q t :=
  ⟨hp.trans h.queue, by rw [ho]; exact h.canon.od, by rw [Memory.wf, hb, hg]; exact h.canon.mem, by rw [hc]; exact h.canon.cells⟩

/-- The same for a state written out field by field, as an update of a record is. -/
theorem Kept.of_mk {od : Tab Nat} {dev : DevPhase} {kp : Keep} {tm : Time} {doms : Tab Domain} {ptp : Tab PtpPort}
    {trig : Tab Trigger} {ev : Events} {jr : Journal} {sessions : List Session} {staged : Tab (Option Staged)}
    {streams : Tab Stream} {mirrors : List Mirror} {cyc : Cyclic} {mem : Mem} {chans : Tab Chan} {layer : Layer}
    {loops : Tab Loop} {reps : Tab Rep} {lunes : Tab Lune} {lat : Lattice} {installed : Tab (Option CalRec)} {axes : Tab Axis}
    {light : Light} {die : Die} {pw : Supply} {dbg : Debug} {pipes : Tab Pipe} {lanes : Tab Lane} {isl : Island} {cal : Cal}
    {tw : Twin} {sent : List Sent} {free : Nat} {pending : List Instr}
    (h : Kept q s) (hp : pending = s.pending) (ho : od = s.od) (hb : mem.bytes = s.mem.bytes) (hg : mem.pages = s.mem.pages)
    (hc : lat.cells = s.lat.cells) :
    Kept q ⟨od, dev, kp, tm, doms, ptp, trig, ev, jr, sessions, staged, streams, mirrors, cyc, mem, chans, layer, loops, reps, lunes, lat, installed, axes, light, die, pw, dbg, pipes, lanes, isl, cal, tw, sent, free, pending⟩ :=
  Kept.of h hp ho hb hg hc

/-- The same with the lattice cleared. -/
theorem Kept.of_cleared {od : Tab Nat} {dev : DevPhase} {kp : Keep} {tm : Time} {doms : Tab Domain} {ptp : Tab PtpPort}
    {trig : Tab Trigger} {ev : Events} {jr : Journal} {sessions : List Session} {staged : Tab (Option Staged)}
    {streams : Tab Stream} {mirrors : List Mirror} {cyc : Cyclic} {mem : Mem} {chans : Tab Chan} {layer : Layer}
    {loops : Tab Loop} {reps : Tab Rep} {lunes : Tab Lune} {lat : Lattice} {installed : Tab (Option CalRec)} {axes : Tab Axis}
    {light : Light} {die : Die} {pw : Supply} {dbg : Debug} {pipes : Tab Pipe} {lanes : Tab Lane} {isl : Island} {cal : Cal}
    {tw : Twin} {sent : List Sent} {free : Nat} {pending : List Instr}
    (h : Kept q s) (hp : pending = s.pending) (ho : od = s.od) (hb : mem.bytes = s.mem.bytes) (hg : mem.pages = s.mem.pages)
    (hc : lat.cells = []) :
    Kept q ⟨od, dev, kp, tm, doms, ptp, trig, ev, jr, sessions, staged, streams, mirrors, cyc, mem, chans, layer, loops, reps, lunes, lat, installed, axes, light, die, pw, dbg, pipes, lanes, isl, cal, tw, sent, free, pending⟩ :=
  ⟨hp.trans h.queue, by rw [ho]; exact h.canon.od, by rw [Memory.wf, hb, hg]; exact h.canon.mem, by rw [hc]; rfl⟩

theorem Kept.foldl {β : Type} {f : State → β → State} {l : List β} (hs : Kept q s) (hf : ∀ s b, Kept q s → Kept q (f s b)) :
    Kept q (l.foldl f s) := by
  induction l generalizing s with
  | nil => exact hs
  | cons b l ih => exact ih (hf s b hs)

theorem Kept.ite {c : Prop} [Decidable c] {a b : State} (ha : c → Kept q a) (hb : ¬c → Kept q b) : Kept q (if c then a else b) := by
  split
  · next h => exact ha h
  · next h => exact hb h

theorem Kept.ite2 {β : Type} {c : Prop} [Decidable c] {a b : β × State} (ha : Kept q a.2) (hb : Kept q b.2) :
    Kept q (if c then a else b).2 := by
  split
  · exact ha
  · exact hb

theorem Kept.foldl2 {β γ : Type} {f : γ × State → β → γ × State} {l : List β} {a : γ × State} (ha : Kept q a.2)
    (hf : ∀ a b, Kept q a.2 → Kept q (f a b).2) : Kept q (l.foldl f a).2 := by
  induction l generalizing a with
  | nil => exact ha
  | cons b l ih => exact ih (hf a b ha)

theorem Kept.foldlBind {β : Type} {f : State → β → Option State} (hf : ∀ s b t, Kept q s → f s b = some t → Kept q t) {l : List β}
    (hs : Kept q s) (ht : l.foldl (fun (a : Option State) b => a.bind fun s => f s b) (some s) = some t) : Kept q t := by
  induction l generalizing s with
  | nil => cases ht; exact hs
  | cons b l ih =>
    simp only [List.foldl_cons, Option.bind_some] at ht
    cases hb : f s b with
    | none =>
      rw [hb] at ht
      have : ∀ l : List β, l.foldl (fun (a : Option State) b => a.bind fun s => f s b) none = none := by
        intro l
        induction l with
        | nil => rfl
        | cons b l ih => exact ih
      rw [this] at ht; cases ht
    | some u => rw [hb] at ht; exact ih (hf _ _ _ hs hb) ht

theorem State.wr_kept (h : Kept q s) (k v : Nat) : Kept q (s.wr k v) :=
  ⟨h.queue, Tab.wf_set k v h.canon.od, h.canon.mem, h.canon.cells⟩

theorem State.wrs_kept (h : Kept q s) (l : List (Nat × Nat)) : Kept q (s.wrs l) := by
  induction l generalizing s with
  | nil => exact h
  | cons e l ih => exact ih (State.wr_kept h _ _)

theorem State.setPage_kept (h : Kept q s) (tc jp : Nat) (p : Option Page) : Kept q (s.setPage tc jp p) :=
  ⟨h.queue, h.canon.od, ⟨h.canon.mem.1, Tab.wf_set _ _ h.canon.mem.2⟩, h.canon.cells⟩

/-- The bytes of a page stand in a canonical table, below everything above the page and with no key under the page's first. -/
theorem State.cellBytes_wf (s : State) (pp n : Nat) {t : Tab Byte} (ht : Tab.wf (fun _ => 0) t = true)
    (hk : ∀ e ∈ t, pp * 65536 + n ≤ e.1) :
    Tab.wf (fun _ => 0) (s.cellBytes pp n t) = true ∧ ∀ e ∈ s.cellBytes pp n t, pp * 65536 ≤ e.1 := by
  induction n generalizing t with
  | zero => exact ⟨ht, fun e he => Nat.le_trans (Nat.le_add_right _ _) (hk e he)⟩
  | succ n ih =>
    unfold State.cellBytes
    dsimp only
    split
    · exact ih ht fun e he => by have := hk e he; omega
    · next hb =>
      refine ih (Tab.wf_iff.mpr ?_) ?_
      · rw [Tab.wf_iff] at ht
        refine ⟨List.pairwise_cons.mpr ⟨fun e he => ?_, ht.1⟩, List.forall_mem_cons.mpr ⟨hb, ht.2⟩⟩
        have := hk e he
        simp only; omega
      · refine List.forall_mem_cons.mpr ⟨by simp only; omega, fun e he => ?_⟩
        have := hk e he
        omega

theorem State.cellsToBytes_kept (h : Kept q s) (pp : Nat) : Kept q (s.cellsToBytes pp) := by
  have hw : ∀ n, 65536 = n → Tab.wf (fun _ => 0) (s.mem.bytes.filter (fun e => decide (e.1 / 65536 < pp)) ++
      s.cellBytes pp n (s.mem.bytes.filter (fun e => decide (pp < e.1 / 65536)))) = true := by
    intro n hn
    have ha := s.cellBytes_wf pp n (Tab.wf_filter (fun e => decide (pp < e.1 / 65536)) h.canon.mem.1) (by
      intro e he
      have := List.of_mem_filter he
      simp only [decide_eq_true_eq] at this
      omega)
    refine Tab.wf_append (Tab.wf_filter _ h.canon.mem.1) ha.1 fun e he f hf => ?_
    have he := List.of_mem_filter he
    simp only [decide_eq_true_eq] at he
    have hf := ha.2 f hf
    omega
  exact ⟨h.queue, h.canon.od, ⟨hw 65536 rfl, h.canon.mem.2⟩, Tab.wf_filter _ h.canon.cells⟩

theorem State.setPhysByte_kept (h : Kept q s) (a : Nat) (b : Byte) : Kept q (s.setPhysByte a b) := by
  unfold State.setPhysByte
  split
  · exact ⟨h.queue, h.canon.od, h.canon.mem, Tab.wf_set _ _ h.canon.cells⟩
  · have hu : Kept q (if s.lat.pages.testBit (a / 65536) then s.cellsToBytes (a / 65536) else s) :=
      Kept.ite (fun _ => State.cellsToBytes_kept h _) fun _ => h
    exact ⟨hu.queue, hu.canon.od, ⟨Tab.wf_set _ _ hu.canon.mem.1, hu.canon.mem.2⟩, hu.canon.cells⟩

theorem State.setCell_kept (h : Kept q s) (c : Nat) (v : Cell) : Kept q (s.setCell c v) := by
  unfold State.setCell
  dsimp only
  split
  · exact ⟨h.queue, h.canon.od, h.canon.mem, Tab.wf_set _ _ h.canon.cells⟩
  · exact Kept.foldl h fun s i hs => State.setPhysByte_kept hs _ _

theorem State.clearCells_kept (h : Kept q s) : Kept q s.clearCells :=
  ⟨h.queue, h.canon.od, ⟨Tab.wf_filter _ h.canon.mem.1, h.canon.mem.2⟩, Tab.wf_filter _ h.canon.cells⟩

theorem State.takeCells_kept (h : Kept q s) : Kept q s.takeCells := by
  refine ⟨h.queue, h.canon.od, ⟨Tab.wf_filter _ h.canon.mem.1, h.canon.mem.2⟩, ?_⟩
  have hf : ∀ (l : List Nat) (t : Tab Cell), Tab.wf (fun _ => Cell.cleared) t = true →
      Tab.wf (fun _ => Cell.cleared) (l.foldl (fun t p => Tab.set (fun _ => Cell.cleared) t p
        (Cell.ofImage (leNat ((List.range 16).map fun i => s.physByte (16 * p + i))))) t) = true := by
    intro l
    induction l with
    | nil => exact fun _ ht => ht
    | cons p l ih => exact fun t ht => ih _ (Tab.wf_set _ _ ht)
  exact hf _ _ h.canon.cells

theorem State.writeMem_kept (h : Kept q s) (tc addr : Nat) (l : List Byte) : Kept q (s.writeMem tc addr l) := by
  induction l generalizing s addr with
  | nil => exact h
  | cons b l ih =>
    unfold State.writeMem
    dsimp only
    split
    · exact ih (State.setPhysByte_kept h _ _) _
    · exact ih h _

end Sys2Proof.Machine
end

