-- ==== Sys2Proof/Laws/KeptCore.lean ====
section
/-! SUPPORT. Every operation and every command of memory, the dictionary and the message path leaves the queue as it is and keeps the tables canonical: one lemma
for each definition, its name with `_kept` after it. -/

namespace Sys2Proof.Machine

/-! Machine/Ops.lean -/

theorem State.wrS_kept {q : List Instr} {s : State} (w k : Nat) (v : Int) (hk : Kept q s) :
    Kept q (State.wrS s w k v) := by
  unfold State.wrS
  try dsimp only
  repeat' (first | with_reducible exact hk | with_reducible assumption | with_reducible apply State.wr_kept)

theorem State.bump_kept {q : List Instr} {s : State} (w k n : Nat) (hk : Kept q s) :
    Kept q (State.bump s w k n) := by
  unfold State.bump
  try dsimp only
  repeat' (first | with_reducible exact hk | with_reducible assumption | with_reducible apply State.wr_kept)

theorem State.inc_kept {q : List Instr} {s : State} (k : Nat) (hk : Kept q s) :
    Kept q (State.inc s k) := by
  unfold State.inc
  try dsimp only
  repeat' (first | with_reducible exact hk | with_reducible assumption | with_reducible apply State.bump_kept)

theorem State.clr_kept {q : List Instr} {s : State} (k : Nat) (hk : Kept q s) :
    Kept q (State.clr s k) := by
  unfold State.clr
  try dsimp only
  repeat' (first | with_reducible exact hk | with_reducible assumption | with_reducible apply State.wr_kept)

theorem State.setChan_kept {q : List Instr} {s : State} (n : Nat) (c : Chan) (hk : Kept q s) :
    Kept q (State.setChan s n c) := by
  unfold State.setChan
  try dsimp only
  repeat' (first
    | with_reducible exact hk | with_reducible assumption | with_reducible apply Kept.ite | fail_if_no_progress intros | dsimp only
    | fail_if_no_progress refine Kept.of_mk ?_ rfl rfl rfl rfl rfl)

theorem State.setTc_kept {q : List Instr} {s : State} (n : Nat) (t : Tc) (hk : Kept q s) :
    Kept q (State.setTc s n t) := by
  unfold State.setTc
  try dsimp only
  repeat' (first
    | with_reducible exact hk | with_reducible assumption | with_reducible apply Kept.ite | fail_if_no_progress intros | dsimp only
    | fail_if_no_progress refine Kept.of_mk ?_ rfl rfl rfl rfl rfl)

theorem State.emit_kept {q : List Instr} {s : State} (p : Path) (b : List Byte) (hk : Kept q s) :
    Kept q (State.emit s p b) := by
  unfold State.emit
  try dsimp only
  repeat' (first
    | with_reducible exact hk | with_reducible assumption | with_reducible apply Kept.ite | fail_if_no_progress intros | dsimp only
    | fail_if_no_progress refine Kept.of_mk ?_ rfl rfl rfl rfl rfl)

theorem State.draw_kept {q : List Instr} {s : State} (hk : Kept q s) :
    Kept q (State.draw s).2 := by
  unfold State.draw
  try dsimp only
  repeat' (first
    | with_reducible exact hk | with_reducible assumption | with_reducible apply Kept.ite | with_reducible apply Kept.ite2
    | fail_if_no_progress intros | dsimp only | fail_if_no_progress refine Kept.of_mk ?_ rfl rfl rfl rfl rfl)

theorem State.countQueue_kept {q : List Instr} {s : State} (hk : Kept q s) :
    Kept q (State.countQueue s) := by
  unfold State.countQueue
  try dsimp only
  repeat' (first
    | with_reducible exact hk | with_reducible assumption | with_reducible apply State.wr_kept | with_reducible apply Kept.ite
    | fail_if_no_progress intros)

theorem State.decideNotice_kept {q : List Instr} {s : State} (e : EvRec) (hk : Kept q s) :
    Kept q (State.decideNotice s e).2 := by
  unfold State.decideNotice
  try dsimp only
  repeat' (first
    | with_reducible exact hk | with_reducible assumption | with_reducible apply State.countQueue_kept
    | with_reducible apply State.inc_kept | with_reducible apply Kept.ite | with_reducible apply Kept.ite2
    | fail_if_no_progress intros | dsimp only | fail_if_no_progress refine Kept.of_mk ?_ rfl rfl rfl rfl rfl)

theorem State.putOpen_kept {q : List Instr} {s : State} (e : EvRec) (hk : Kept q s) :
    Kept q (State.putOpen s e) := by
  unfold State.putOpen
  try dsimp only
  repeat' (first
    | with_reducible exact hk | with_reducible assumption | with_reducible apply Kept.ite | fail_if_no_progress intros | dsimp only
    | fail_if_no_progress refine Kept.of_mk ?_ rfl rfl rfl rfl rfl)

theorem State.keepNames_kept {q : List Instr} {s : State} (hk : Kept q s) :
    Kept q (State.keepNames s) := by
  unfold State.keepNames
  try dsimp only
  repeat' (first
    | with_reducible exact hk | with_reducible assumption | with_reducible apply Kept.ite | fail_if_no_progress intros | dsimp only
    | fail_if_no_progress refine Kept.of_mk ?_ rfl rfl rfl rfl rfl)

theorem State.showEvent_kept {q : List Instr} {s : State} (e : EvRec) (hk : Kept q s) :
    Kept q (State.showEvent s e) := by
  unfold State.showEvent
  try dsimp only
  repeat' (first | with_reducible exact hk | with_reducible assumption | with_reducible apply State.wrs_kept)

theorem State.raiseAt_kept {q : List Instr} {s : State} (t src code cls inst data : Nat) (ext : List (List Byte)) (series : Bool) (hk : Kept q s) :
    Kept q (State.raiseAt s t src code cls inst data ext series) := by
  unfold State.raiseAt
  try dsimp only
  repeat' (first
    | with_reducible exact hk | with_reducible assumption | with_reducible apply State.decideNotice_kept
    | with_reducible apply State.inc_kept | with_reducible apply State.putOpen_kept | with_reducible apply State.showEvent_kept
    | with_reducible apply Kept.ite | fail_if_no_progress intros | dsimp only
    | fail_if_no_progress refine Kept.of_mk ?_ rfl rfl rfl rfl rfl | split)

theorem State.raise_kept {q : List Instr} {s : State} (src code cls inst data : Nat) (hk : Kept q s) :
    Kept q (State.raise s src code cls inst data) := by
  unfold State.raise
  try dsimp only
  repeat' (first | with_reducible exact hk | with_reducible assumption | with_reducible apply State.raiseAt_kept)

theorem State.raiseExt_kept {q : List Instr} {s : State} (src code cls inst data : Nat) (ext : List Byte) (hk : Kept q s) :
    Kept q (State.raiseExt s src code cls inst data ext) := by
  unfold State.raiseExt
  try dsimp only
  repeat' (first | with_reducible exact hk | with_reducible assumption | with_reducible apply State.raiseAt_kept)

theorem State.raiseSeries_kept {q : List Instr} {s : State} (src code cls data : Nat) (ext : List (List Byte)) (hk : Kept q s) :
    Kept q (State.raiseSeries s src code cls data ext) := by
  unfold State.raiseSeries
  try dsimp only
  repeat' (first | with_reducible exact hk | with_reducible assumption | with_reducible apply State.raiseAt_kept)

/-! Machine/Memory.lean -/

theorem State.park_kept {q : List Instr} {s : State} (tc kind addr : Nat) (write : Bool) (hk : Kept q s) :
    Kept q (State.park s tc kind addr write) := by
  unfold State.park
  try dsimp only
  repeat' (first
    | with_reducible exact hk | with_reducible assumption | with_reducible apply State.inc_kept
    | with_reducible apply State.raise_kept | with_reducible apply State.setTc_kept | with_reducible apply State.wrs_kept
    | with_reducible apply Kept.ite | fail_if_no_progress intros)

theorem State.lockEvent_kept {q : List Instr} {s : State} (tc pp : Nat) (hk : Kept q s) :
    Kept q (State.lockEvent s tc pp) := by
  unfold State.lockEvent
  try dsimp only
  repeat' (first | with_reducible exact hk | with_reducible assumption | with_reducible apply State.raise_kept)

theorem State.countBeats_kept {q : List Instr} {s : State} (tc n : Nat) (hk : Kept q s) :
    Kept q (State.countBeats s tc n) := by
  unfold State.countBeats
  try dsimp only
  repeat' (first
    | with_reducible exact hk | with_reducible assumption | with_reducible apply State.bump_kept
    | with_reducible apply State.setTc_kept | with_reducible apply State.wr_kept | with_reducible apply Kept.ite
    | fail_if_no_progress intros | dsimp only | fail_if_no_progress refine Kept.of_mk ?_ rfl rfl rfl rfl rfl)

theorem State.setTable_kept {q : List Instr} {s : State} (tc span : Nat) (t : Option Nat) (hk : Kept q s) :
    Kept q (State.setTable s tc span t) := by
  unfold State.setTable
  try dsimp only
  repeat' (first
    | with_reducible exact hk | with_reducible assumption | with_reducible apply Kept.ite | fail_if_no_progress intros | dsimp only
    | fail_if_no_progress refine Kept.of_mk ?_ rfl rfl rfl rfl rfl)

theorem State.takeTable_kept {q : List Instr} {s : State} (tc span : Nat) (hk : Kept q s) :
    Kept q (State.takeTable s tc span) := by
  unfold State.takeTable
  try dsimp only
  repeat' (first
    | with_reducible exact hk | with_reducible assumption | with_reducible apply State.draw_kept
    | with_reducible apply State.setTable_kept | with_reducible apply State.wr_kept | with_reducible apply Kept.ite
    | fail_if_no_progress intros)

theorem mapPages_kept {q : List Instr} {s : State} (tc jp pp : Nat) (write : Bool) (n : Nat) (hk : Kept q s) :
    Kept q (mapPages tc jp pp write n s) := by
  induction n generalizing s jp pp with
  | zero => exact hk
  | succ n ih => exact ih _ _ (State.setPage_kept hk _ _ _)

theorem State.autoResume_kept {q : List Instr} {s : State} (tc jp count : Nat) (hk : Kept q s) :
    Kept q (State.autoResume s tc jp count) := by
  unfold State.autoResume
  try dsimp only
  repeat' (first
    | with_reducible exact hk | with_reducible assumption | with_reducible apply State.setTc_kept | with_reducible apply Kept.ite
    | fail_if_no_progress intros)

theorem State.pin_kept {q : List Instr} {s : State} (tc jp : Nat) (hk : Kept q s) :
    Kept q (State.pin s tc jp) := by
  unfold State.pin
  try dsimp only
  repeat' (first
    | with_reducible exact hk | with_reducible assumption | with_reducible apply State.setPage_kept
    | with_reducible apply State.wr_kept | with_reducible apply Kept.ite | fail_if_no_progress intros | dsimp only
    | fail_if_no_progress refine Kept.of_mk ?_ rfl rfl rfl rfl rfl | split)

theorem State.startJournal_kept {q : List Instr} {s : State} (hk : Kept q s) :
    Kept q (State.startJournal s) := by
  unfold State.startJournal
  try dsimp only
  repeat' (first
    | with_reducible exact hk | with_reducible assumption | with_reducible apply State.pin_kept | with_reducible apply Kept.foldl
    | with_reducible apply Kept.ite | fail_if_no_progress intros | dsimp only
    | fail_if_no_progress refine Kept.of_mk ?_ rfl rfl rfl rfl rfl)

theorem State.holdTwin_kept {q : List Instr} {s : State} (tc : Nat) (hk : Kept q s) :
    Kept q (State.holdTwin s tc) := by
  unfold State.holdTwin
  try dsimp only
  repeat' (first
    | with_reducible exact hk | with_reducible assumption | with_reducible apply State.pin_kept | with_reducible apply Kept.foldl
    | with_reducible apply Kept.ite | fail_if_no_progress intros | dsimp only
    | fail_if_no_progress refine Kept.of_mk ?_ rfl rfl rfl rfl rfl | split)

theorem tcMapEff_kept {q : List Instr} {s : State} (tc req : Nat) (hk : Kept q s) :
    Kept q (tcMapEff tc req s).2 := by
  unfold tcMapEff
  try dsimp only
  repeat' (first
    | with_reducible exact hk | with_reducible assumption | with_reducible apply State.autoResume_kept
    | with_reducible apply State.holdTwin_kept | with_reducible apply State.startJournal_kept
    | with_reducible apply State.takeTable_kept | with_reducible apply State.wr_kept | with_reducible apply mapPages_kept
    | with_reducible apply Kept.foldl | with_reducible apply Kept.ite | with_reducible apply Kept.ite2 | fail_if_no_progress intros)

theorem State.dropPage_kept {q : List Instr} {s : State} (tc jp : Nat) (hk : Kept q s) :
    Kept q (State.dropPage s tc jp) := by
  unfold State.dropPage
  try dsimp only
  repeat' (first
    | with_reducible exact hk | with_reducible assumption | with_reducible apply State.setPage_kept
    | with_reducible apply State.setTable_kept | with_reducible apply State.wr_kept | with_reducible apply Kept.ite
    | fail_if_no_progress intros)

theorem unmapPages_kept {q : List Instr} {s : State} (tc jp : Nat) (n : Nat) (hk : Kept q s) : Kept q (unmapPages tc jp n s) := by
  induction n generalizing s jp with
  | zero => exact hk
  | succ n ih =>
    unfold unmapPages
    refine ih _ ?_
    split
    · exact hk
    · exact Kept.ite (fun _ => State.dropPage_kept _ _ hk) fun _ => State.inc_kept _ (State.setPage_kept hk _ _ _)

theorem tcUnmapEff_kept {q : List Instr} {s : State} (tc req : Nat) (hk : Kept q s) :
    Kept q (tcUnmapEff tc req s).2 := by
  unfold tcUnmapEff
  try dsimp only
  repeat' (first
    | with_reducible exact hk | with_reducible assumption | with_reducible apply unmapPages_kept | with_reducible apply Kept.ite
    | with_reducible apply Kept.ite2)

theorem State.unpin_kept {q : List Instr} {s : State} (tc jp : Nat) (hk : Kept q s) :
    Kept q (State.unpin s tc jp) := by
  unfold State.unpin
  try dsimp only
  repeat' (first
    | with_reducible exact hk | with_reducible assumption | with_reducible apply State.dropPage_kept
    | with_reducible apply State.raise_kept | with_reducible apply State.setPage_kept | with_reducible apply State.wr_kept
    | with_reducible apply Kept.ite | fail_if_no_progress intros | dsimp only
    | fail_if_no_progress refine Kept.of_mk ?_ rfl rfl rfl rfl rfl | split)

theorem State.pinsGone_kept {q : List Instr} {s : State} (tc low count : Nat) (hk : Kept q s) :
    Kept q (State.pinsGone s tc low count) := by
  unfold State.pinsGone
  try dsimp only
  repeat' (first
    | with_reducible exact hk | with_reducible assumption | with_reducible apply State.putOpen_kept
    | with_reducible apply State.raise_kept | with_reducible apply State.showEvent_kept | with_reducible apply Kept.ite
    | fail_if_no_progress intros | dsimp only | fail_if_no_progress refine Kept.of_mk ?_ rfl rfl rfl rfl rfl | split)

theorem State.unpinAll_kept {q : List Instr} {s : State} (tc : Nat) (pages : List Nat) (hk : Kept q s) :
    Kept q (State.unpinAll s tc pages) := by
  unfold State.unpinAll
  try dsimp only
  repeat' (first
    | with_reducible exact hk | with_reducible assumption | with_reducible apply State.pinsGone_kept
    | with_reducible apply State.unpin_kept | with_reducible apply Kept.foldl | with_reducible apply Kept.ite
    | fail_if_no_progress intros | dsimp only | fail_if_no_progress refine Kept.of_mk ?_ rfl rfl rfl rfl rfl | split)

theorem State.stopJournal_kept {q : List Instr} {s : State} (hk : Kept q s) :
    Kept q (State.stopJournal s) := by
  unfold State.stopJournal
  try dsimp only
  repeat' (first
    | with_reducible exact hk | with_reducible assumption | with_reducible apply State.unpinAll_kept | with_reducible apply Kept.ite
    | fail_if_no_progress intros | dsimp only | fail_if_no_progress refine Kept.of_mk ?_ rfl rfl rfl rfl rfl | split)

theorem State.twinPins_kept {q : List Instr} {s : State} (hk : Kept q s) :
    Kept q (State.twinPins s) := by
  unfold State.twinPins
  try dsimp only
  repeat' (first
    | with_reducible exact hk | with_reducible assumption | with_reducible apply State.holdTwin_kept
    | with_reducible apply State.unpinAll_kept | with_reducible apply Kept.foldl | with_reducible apply Kept.ite
    | fail_if_no_progress intros)

theorem State.idleTc_kept {q : List Instr} {s : State} (tc : Nat) (hk : Kept q s) :
    Kept q (State.idleTc s tc) := by
  unfold State.idleTc
  try dsimp only
  repeat' (first
    | with_reducible exact hk | with_reducible assumption | with_reducible apply State.setTc_kept
    | with_reducible apply State.wr_kept)

theorem State.nextJob_kept {q : List Instr} {s : State} (tc : Nat) (hk : Kept q s) :
    Kept q (State.nextJob s tc) := by
  unfold State.nextJob
  try dsimp only
  repeat' (first
    | with_reducible exact hk | with_reducible assumption | with_reducible apply State.idleTc_kept
    | with_reducible apply State.setTc_kept | with_reducible apply State.wr_kept | with_reducible apply Kept.ite
    | fail_if_no_progress intros | dsimp only | fail_if_no_progress refine Kept.of_mk ?_ rfl rfl rfl rfl rfl | split)

theorem State.parkJob_kept {q : List Instr} {s : State} (tc : Nat) (j : Job) (hk : Kept q s) :
    Kept q (State.parkJob s tc j) := by
  unfold State.parkJob
  try dsimp only
  repeat' (first | with_reducible exact hk | with_reducible assumption | with_reducible apply State.setTc_kept)

theorem State.resumed_kept {q : List Instr} {s : State} (tc : Nat) (hk : Kept q s) :
    Kept q (State.resumed s tc) := by
  unfold State.resumed
  try dsimp only
  repeat' (first
    | with_reducible exact hk | with_reducible assumption | with_reducible apply State.setTc_kept
    | with_reducible apply State.wr_kept)

theorem tcResumeEff_kept {q : List Instr} {s : State} (tc : Nat) (hk : Kept q s) :
    Kept q (tcResumeEff tc s).2 := by
  unfold tcResumeEff
  try dsimp only
  repeat' (first
    | with_reducible exact hk | with_reducible assumption | with_reducible apply State.park_kept
    | with_reducible apply State.resumed_kept | with_reducible apply Kept.ite | with_reducible apply Kept.ite2
    | fail_if_no_progress intros | dsimp only | fail_if_no_progress refine Kept.of_mk ?_ rfl rfl rfl rfl rfl | split)

theorem State.partOver_kept {q : List Instr} {s : State} (tc start : Nat) (hk : Kept q s) :
    Kept q (State.partOver s tc start) := by
  unfold State.partOver
  try dsimp only
  repeat' (first
    | with_reducible exact hk | with_reducible assumption | with_reducible apply State.setTc_kept | with_reducible apply Kept.ite
    | fail_if_no_progress intros)

theorem State.writeBeats_kept {q : List Instr} {s : State} (tc start : Nat) (n addr : Nat) (data : List Byte) (lock : Bool)
    (hk : Kept q s) : Kept q (s.writeBeats tc start n addr data lock).2 := by
  induction n generalizing s addr data lock with
  | zero => exact hk
  | succ n ih =>
    unfold State.writeBeats
    refine Kept.ite2 (State.partOver_kept _ _ hk) ?_
    dsimp only
    refine Kept.ite2 (ih _ _ _ hk) ?_
    split
    · exact State.park_kept _ _ _ _ (State.setTc_kept _ _ hk)
    · split
      · exact ih _ _ _ (Kept.ite (fun _ => hk) fun _ => State.lockEvent_kept _ _ hk)
      · exact ih _ _ _ (State.countBeats_kept _ _ (State.writeMem_kept hk _ _ _))

theorem State.tryWrite_kept {q : List Instr} {s : State} (tc addr : Nat) (data : List Byte) (hk : Kept q s) :
    Kept q (State.tryWrite s tc addr data).2 := by
  unfold State.tryWrite
  try dsimp only
  repeat' (first
    | with_reducible exact hk | with_reducible assumption | with_reducible apply State.writeBeats_kept
    | with_reducible apply Kept.ite | with_reducible apply Kept.ite2)

theorem State.sendWrite_kept {q : List Instr} {s : State} (tc addr : Nat) (data : List Byte) (hk : Kept q s) :
    Kept q (State.sendWrite s tc addr data) := by
  unfold State.sendWrite
  try dsimp only
  repeat' (first
    | with_reducible exact hk | with_reducible assumption | with_reducible apply State.parkJob_kept
    | with_reducible apply State.partOver_kept | with_reducible apply State.setTc_kept | with_reducible apply State.tryWrite_kept
    | with_reducible apply Kept.ite | fail_if_no_progress intros)

theorem State.resumeDue_kept {q : List Instr} {s : State} (hk : Kept q s) :
    Kept q (State.resumeDue s) := by
  unfold State.resumeDue
  try dsimp only
  repeat' (first
    | with_reducible exact hk | with_reducible assumption | with_reducible apply State.resumed_kept
    | with_reducible apply Kept.foldl | with_reducible apply Kept.ite | fail_if_no_progress intros | dsimp only
    | fail_if_no_progress refine Kept.of_mk ?_ rfl rfl rfl rfl rfl | split)

/-! Machine/Operands.lean -/

theorem State.setCursor_kept {q : List Instr} {s : State} (n : Nat) (c : Cursor) (hk : Kept q s) :
    Kept q (State.setCursor s n c) := by
  unfold State.setCursor
  try dsimp only
  repeat' (first
    | with_reducible exact hk | with_reducible assumption | with_reducible apply State.setChan_kept
    | with_reducible apply State.wrs_kept)

/-! Machine/Access.lean -/

theorem State.wake_kept {q : List Instr} {s : State} (n t : Nat) (hk : Kept q s) :
    Kept q (State.wake s n t) := by
  unfold State.wake
  try dsimp only
  repeat' (first
    | with_reducible exact hk | with_reducible assumption | with_reducible apply State.setChan_kept
    | with_reducible apply State.setCursor_kept | with_reducible apply State.wrs_kept | with_reducible apply Kept.ite
    | fail_if_no_progress intros)

theorem State.rcHit_kept {q : List Instr} {s : State} (h : Nat × Nat × Nat) (hk : Kept q s) :
    Kept q (State.rcHit s h) := by
  unfold State.rcHit
  try dsimp only
  repeat' (first
    | with_reducible exact hk | with_reducible assumption | with_reducible apply State.wr_kept | with_reducible apply Kept.foldl
    | with_reducible apply Kept.ite | fail_if_no_progress intros)

theorem State.settle_kept {q : List Instr} {s : State} (hk : Kept q s) :
    Kept q (State.settle s) := by
  unfold State.settle
  try dsimp only
  repeat' (first
    | with_reducible exact hk | with_reducible assumption | with_reducible apply State.rcHit_kept
    | with_reducible apply State.wake_kept | with_reducible apply Kept.foldl | with_reducible apply Kept.ite
    | fail_if_no_progress intros | dsimp only | fail_if_no_progress refine Kept.of_mk ?_ rfl rfl rfl rfl rfl)

theorem State.digestPending_kept {q : List Instr} {s : State} (hk : Kept q s) :
    Kept q (State.digestPending s) := by
  unfold State.digestPending
  try dsimp only
  repeat' (first
    | with_reducible exact hk | with_reducible assumption | with_reducible apply State.wr_kept | with_reducible apply Kept.ite
    | fail_if_no_progress intros | dsimp only | fail_if_no_progress refine Kept.of_mk ?_ rfl rfl rfl rfl rfl)

theorem State.noteKeep_kept {q : List Instr} {s : State} (key : Nat) (hk : Kept q s) :
    Kept q (State.noteKeep s key) := by
  unfold State.noteKeep
  try dsimp only
  repeat' (first
    | with_reducible exact hk | with_reducible assumption | with_reducible apply State.digestPending_kept
    | with_reducible apply State.wr_kept | with_reducible apply Kept.ite | fail_if_no_progress intros | dsimp only
    | fail_if_no_progress refine Kept.of_mk ?_ rfl rfl rfl rfl rfl | split)

theorem State.applyWrite_kept {q : List Instr} {s : State} (debug remote : Bool) (key len v : Nat) (eff : Nat → State → Nat × State) (hk : Kept q s) (hf : ∀ s, Kept q s → Kept q (eff v s).2) :
    Kept q (State.applyWrite s debug remote key len v eff).2 := by
  unfold State.applyWrite
  split
  · exact hk
  · refine Kept.ite2 hk ?_
    have h := hf s hk
    dsimp only
    generalize eff v s = r at h ⊢
    split
    · next d _ => cases (d.keep && d.acc != .rwg && r.2.rd key != s.rd key) <;> first | exact h | exact State.noteKeep_kept _ h
    · exact h

theorem plainEff_kept {q : List Instr} {s : State} (key v : Nat) (hk : Kept q s) :
    Kept q (plainEff key v s).2 := by
  unfold plainEff
  try dsimp only
  repeat' (first | with_reducible exact hk | with_reducible assumption | with_reducible apply State.wr_kept)

theorem State.dropFrame_kept {q : List Instr} {s : State} (p : Nat) (hk : Kept q s) :
    Kept q (State.dropFrame s p) := by
  unfold State.dropFrame
  try dsimp only
  repeat' (first | with_reducible exact hk | with_reducible assumption | with_reducible apply State.inc_kept)

theorem State.sendFrame_kept {q : List Instr} {s : State} (p : Nat) (dest b : List Byte) (hk : Kept q s) :
    Kept q (State.sendFrame s p dest b) := by
  unfold State.sendFrame
  try dsimp only
  repeat' (first
    | with_reducible exact hk | with_reducible assumption | with_reducible apply State.emit_kept
    | with_reducible apply State.inc_kept)

theorem State.sendPort_kept {q : List Instr} {s : State} (p : Nat) (b : List Byte) (hk : Kept q s) :
    Kept q (State.sendPort s p b) := by
  unfold State.sendPort
  try dsimp only
  repeat' (first | with_reducible exact hk | with_reducible assumption | with_reducible apply State.sendFrame_kept)

theorem State.updSession_kept {q : List Instr} {s : State} (num : Nat) (f : Session → Session) (hk : Kept q s) :
    Kept q (State.updSession s num f) := by
  unfold State.updSession
  try dsimp only
  repeat' (first
    | with_reducible exact hk | with_reducible assumption | with_reducible apply Kept.ite | fail_if_no_progress intros | dsimp only
    | fail_if_no_progress refine Kept.of_mk ?_ rfl rfl rfl rfl rfl)

theorem State.reply_kept {q : List Instr} {s : State} (port session seq kind code : Nat) (data : List Byte) (hk : Kept q s) :
    Kept q (State.reply s port session seq kind code data) := by
  unfold State.reply
  try dsimp only
  repeat' (first
    | with_reducible exact hk | with_reducible assumption | with_reducible apply State.sendPort_kept
    | with_reducible apply State.updSession_kept)

theorem State.hostEvent_kept {q : List Instr} {s : State} (kind key code session : Nat) (hk : Kept q s) :
    Kept q (State.hostEvent s kind key code session) := by
  unfold State.hostEvent
  try dsimp only
  repeat' (first
    | with_reducible exact hk | with_reducible assumption | with_reducible apply State.raise_kept | with_reducible apply Kept.ite
    | fail_if_no_progress intros)

theorem State.resend_kept {q : List Instr} {s : State} (p : Nat) (b : List Byte) (hk : Kept q s) :
    Kept q (State.resend s p b) := by
  unfold State.resend
  try dsimp only
  repeat' (first | with_reducible exact hk | with_reducible assumption | with_reducible apply State.sendPort_kept)

theorem hostCmd_kept {q : List Instr} {s : State} (m : Msg) (kind key : Nat) (fit : Bool) (k : State → Option (Nat × List Byte) × State) (hk : Kept q s) (hf : ∀ s, Kept q s → Kept q (k s).2) :
    Kept q (hostCmd m kind key fit k s) := by
  unfold hostCmd
  refine Kept.ite (fun _ => State.dropFrame_kept _ hk) fun _ => ?_
  have h0 : Kept q (s.inc (K.RX_FRAMES m.port.val)) := State.inc_kept _ hk
  generalize s.inc (K.RX_FRAMES m.port.val) = s at h0 ⊢
  refine Kept.ite (fun _ => State.sendPort_kept _ _ h0) fun _ => Kept.ite (fun _ => State.sendPort_kept _ _ h0) fun _ => ?_
  split
  · exact State.sendPort_kept _ _ h0
  · next ss _ =>
    have h1 : Kept q (s.updSession ss.num fun x => { x with lastTick := s.tm.tick, lastPort := m.port.val }) :=
      State.updSession_kept _ _ h0
    dsimp only
    generalize (s.updSession ss.num fun x => { x with lastTick := s.tm.tick, lastPort := m.port.val }) = s at h1 ⊢
    refine Kept.ite (fun _ => ?_) fun _ => ?_
    · have h2 := State.updSession_kept ss.num (fun x => { x with next := (ss.next + 1) % 2 ^ 32 }) h1
      generalize (s.updSession ss.num fun x => { x with next := (ss.next + 1) % 2 ^ 32 }) = s at h2 ⊢
      refine Kept.ite (fun _ => State.hostEvent_kept _ _ _ _ (State.reply_kept _ _ _ _ _ _ h2)) fun _ => ?_
      have h3 := hf s h2
      generalize k s = r at h3 ⊢
      obtain ⟨o, s⟩ := r
      cases o with
      | none => exact h3
      | some a => exact State.hostEvent_kept _ _ _ _ (State.reply_kept _ _ _ _ _ _ h3)
    · split
      · exact State.resend_kept _ _ h1
      · exact Kept.ite (fun _ => Kept.of_mk h1 rfl rfl rfl rfl rfl) fun _ => State.sendPort_kept _ _ h1

theorem State.sendPartner_kept {q : List Instr} {s : State} (type : Nat) (body : List Byte) (hk : Kept q s) :
    Kept q (State.sendPartner s type body) := by
  unfold State.sendPartner
  try dsimp only
  repeat' (first
    | with_reducible exact hk | with_reducible assumption | with_reducible apply Kept.ite | fail_if_no_progress intros | dsimp only
    | fail_if_no_progress refine Kept.of_mk ?_ rfl rfl rfl rfl rfl)

theorem State.sendMirror_kept {q : List Instr} {s : State} (type : Nat) (body : List Byte) (hk : Kept q s) :
    Kept q (State.sendMirror s type body) := by
  unfold State.sendMirror
  try dsimp only
  repeat' (first
    | with_reducible exact hk | with_reducible assumption | with_reducible apply State.sendPartner_kept
    | with_reducible apply Kept.ite | fail_if_no_progress intros | dsimp only
    | fail_if_no_progress refine Kept.of_mk ?_ rfl rfl rfl rfl rfl)

theorem State.tellPartner_kept {q : List Instr} {s : State} (type : Nat) (body : List Byte) (hk : Kept q s) :
    Kept q (State.tellPartner s type body) := by
  unfold State.tellPartner
  try dsimp only
  repeat' (first
    | with_reducible exact hk | with_reducible assumption | with_reducible apply State.sendMirror_kept
    | with_reducible apply Kept.ite | fail_if_no_progress intros)

theorem State.mirrorBytes_kept {q : List Instr} {s : State} (tc n addr : Nat) (data : List Byte) (hk : Kept q s) :
    Kept q (State.mirrorBytes tc n addr data s) := by
  induction n generalizing s addr data with
  | zero => exact hk
  | succ n ih => exact ih _ _ (State.sendMirror_kept _ _ hk)

theorem State.mirrorMemory_kept {q : List Instr} {s : State} (tc addr : Nat) (data : List Byte) (hk : Kept q s) :
    Kept q (State.mirrorMemory s tc addr data) := by
  unfold State.mirrorMemory
  try dsimp only
  repeat' (first
    | with_reducible exact hk | with_reducible assumption | with_reducible apply State.mirrorBytes_kept
    | with_reducible apply Kept.ite | fail_if_no_progress intros)

theorem State.defer_kept {q : List Instr} {s : State} (m : Msg) (kind key party proposal : Nat) (body bytes : List Byte) (hk : Kept q s) :
    Kept q (State.defer s m kind key party proposal body bytes) := by
  unfold State.defer
  try dsimp only
  repeat' (first
    | with_reducible exact hk | with_reducible assumption | with_reducible apply State.sendMirror_kept
    | with_reducible apply State.wr_kept | with_reducible apply Kept.ite | fail_if_no_progress intros | dsimp only
    | fail_if_no_progress refine Kept.of_mk ?_ rfl rfl rfl rfl rfl)

theorem hostWrite_kept {q : List Instr} {s : State} (m : Msg) (key len v : Nat) (eff : Nat → State → Nat × State) (hk : Kept q s) (hf : ∀ s, Kept q s → Kept q (eff v s).2) :
    Kept q (hostWrite m key len v eff s) := by
  unfold hostWrite
  try dsimp only
  repeat' (first
    | with_reducible exact hk | with_reducible assumption | with_reducible apply State.applyWrite_kept
    | with_reducible apply State.defer_kept | with_reducible apply hostCmd_kept | with_reducible apply hf
    | with_reducible apply Kept.ite | fail_if_no_progress intros | dsimp only
    | fail_if_no_progress refine Kept.of_mk ?_ rfl rfl rfl rfl rfl | split)

theorem State.sendNotice_kept {q : List Instr} {s : State} (ss : Session) (n : Notice) (num : Nat) (retry : Bool) (hk : Kept q s) :
    Kept q (State.sendNotice s ss n num retry) := by
  unfold State.sendNotice
  try dsimp only
  repeat' (first | with_reducible exact hk | with_reducible assumption | with_reducible apply State.sendPort_kept)

theorem pumpQueue_kept {q : List Instr} (num : Nat) (l : List Notice) :
    ∀ (done : List Notice) (s : State), Kept q s → Kept q (pumpQueue num done l s) := by
  induction l with
  | nil => intro done s hk; exact Kept.of_mk hk rfl rfl rfl rfl rfl
  | cons n l ih =>
    intro done s hk
    unfold pumpQueue
    split
    · exact Kept.of_mk hk rfl rfl rfl rfl rfl
    · refine Kept.ite (fun _ => Kept.of_mk hk rfl rfl rfl rfl rfl) fun _ => Kept.ite (fun _ => ?_) fun _ => ih _ _ hk
      exact ih _ _ (State.updSession_kept _ _ (State.sendNotice_kept _ _ _ _ hk))

theorem State.pump_kept {q : List Instr} {s : State} (hk : Kept q s) :
    Kept q (State.pump s) := by
  unfold State.pump
  exact Kept.foldl hk fun s ss h => pumpQueue_kept _ _ _ _ h

theorem State.takeQueue_kept {q0 : List Instr} {s : State} (q : List Notice) (hk : Kept q0 s) :
    Kept q0 (State.takeQueue s q) := by
  unfold State.takeQueue
  try dsimp only
  repeat' (first
    | with_reducible exact hk | with_reducible assumption | with_reducible apply State.countQueue_kept
    | with_reducible apply State.inc_kept | with_reducible apply Kept.ite | fail_if_no_progress intros | dsimp only
    | fail_if_no_progress refine Kept.of_mk ?_ rfl rfl rfl rfl rfl)

theorem State.freeNotices_kept {q : List Instr} {s : State} (hk : Kept q s) :
    Kept q (State.freeNotices s) := by
  unfold State.freeNotices
  try dsimp only
  repeat' (first | with_reducible exact hk | with_reducible assumption | with_reducible apply State.takeQueue_kept)

theorem live_kept {q : List Instr} {s : State} {f : State → State} (hk : Kept q s) (hf : ∀ s, Kept q s → Kept q (f s)) :
    KeptOut q (live f s) :=
  ⟨_, rfl, Kept.ite (fun _ => State.settle_kept (hf s hk)) fun _ => hk⟩

theorem writeCmd_kept {q : List Instr} {s : State} {m : Msg} {key len v : Nat} {eff : Nat → State → Nat × State} (hk : Kept q s)
    (hf : ∀ s, Kept q s → Kept q (eff v s).2) : KeptOut q (writeCmd m key len v eff s) :=
  live_kept hk fun _ h => hostWrite_kept _ _ _ _ _ h hf

end Sys2Proof.Machine
end

