-- ==== Sys2Proof/Laws/KeptEngine.lean ====
section
/-! SUPPORT. Every operation and every command of the lattice, plans, facets, lunes and channels leaves the queue as it is and keeps the tables canonical: one lemma
for each definition, its name with `_kept` after it. -/

namespace Sys2Proof.Machine

/-! Machine/LoopBase.lean -/

theorem State.setLoop_kept {q : List Instr} {s : State} (m : Nat) (x : Loop) (hk : Kept q s) :
    Kept q (State.setLoop s m x) := by
  unfold State.setLoop
  try dsimp only
  repeat' (first
    | with_reducible exact hk | with_reducible assumption | with_reducible apply Kept.ite | fail_if_no_progress intros | dsimp only
    | fail_if_no_progress refine Kept.of_mk ?_ rfl rfl rfl rfl rfl)

theorem State.setRep_kept {q : List Instr} {s : State} (i : Nat) (x : Rep) (hk : Kept q s) :
    Kept q (State.setRep s i x) := by
  unfold State.setRep
  try dsimp only
  repeat' (first
    | with_reducible exact hk | with_reducible assumption | with_reducible apply Kept.ite | fail_if_no_progress intros | dsimp only
    | fail_if_no_progress refine Kept.of_mk ?_ rfl rfl rfl rfl rfl)

theorem State.syncRep_kept {q : List Instr} {s : State} (i : Nat) (hk : Kept q s) :
    Kept q (State.syncRep s i) := by
  unfold State.syncRep
  try dsimp only
  repeat' (first | with_reducible exact hk | with_reducible assumption | with_reducible apply State.wr_kept)

theorem State.setLoopState_kept {q : List Instr} {s : State} (m st cause : Nat) (hk : Kept q s) :
    Kept q (State.setLoopState s m st cause) := by
  unfold State.setLoopState
  try dsimp only
  repeat' (first
    | with_reducible exact hk | with_reducible assumption | with_reducible apply State.syncRep_kept
    | with_reducible apply State.wrs_kept | with_reducible apply Kept.foldl)

theorem State.closeLoop_kept {q : List Instr} {s : State} (m : Nat) (hk : Kept q s) :
    Kept q (State.closeLoop s m) := by
  unfold State.closeLoop
  try dsimp only
  repeat' (first
    | with_reducible exact hk | with_reducible assumption | with_reducible apply State.setLoop_kept
    | with_reducible apply State.setLoopState_kept | with_reducible apply State.wr_kept)

theorem State.idleLoop_kept {q : List Instr} {s : State} (m : Nat) (hk : Kept q s) :
    Kept q (State.idleLoop s m) := by
  unfold State.idleLoop
  try dsimp only
  repeat' (first
    | with_reducible exact hk | with_reducible assumption | with_reducible apply State.setLoopState_kept
    | with_reducible apply State.wr_kept)

theorem State.holdLoop_kept {q : List Instr} {s : State} (m cause : Nat) (hk : Kept q s) :
    Kept q (State.holdLoop s m cause) := by
  unfold State.holdLoop
  try dsimp only
  repeat' (first
    | with_reducible exact hk | with_reducible assumption | with_reducible apply State.hold_kept
    | with_reducible apply State.setLoopState_kept | with_reducible apply Kept.ite | fail_if_no_progress intros)

theorem State.unholdLoop_kept {q : List Instr} {s : State} (m cause : Nat) (hk : Kept q s) :
    Kept q (State.unholdLoop s m cause) := by
  unfold State.unholdLoop
  try dsimp only
  repeat' (first
    | with_reducible exact hk | with_reducible assumption | with_reducible apply State.hold_kept
    | with_reducible apply State.setLoopState_kept | with_reducible apply Kept.ite | fail_if_no_progress intros)

theorem State.loopEvent_kept {q : List Instr} {s : State} (m code cls detail : Nat) (value : Int) (hk : Kept q s) :
    Kept q (State.loopEvent s m code cls detail value) := by
  unfold State.loopEvent
  try dsimp only
  repeat' (first | with_reducible exact hk | with_reducible assumption | with_reducible apply State.raise_kept)

theorem State.rampLoop_kept {q : List Instr} {s : State} (m : Nat) (hk : Kept q s) :
    Kept q (State.rampLoop s m) := by
  unfold State.rampLoop
  try dsimp only
  repeat' (first
    | with_reducible exact hk | with_reducible assumption | with_reducible apply State.setLoop_kept
    | with_reducible apply State.wrS_kept | with_reducible apply Kept.ite | fail_if_no_progress intros)

theorem State.feed_kept {q : List Instr} {s : State} (m : Nat) (y : Int) (seq : Nat) (hk : Kept q s) :
    Kept q (State.feed s m y seq) := by
  unfold State.feed
  try dsimp only
  repeat' (first
    | with_reducible exact hk | with_reducible assumption | with_reducible apply State.setLoop_kept
    | with_reducible apply State.wrS_kept)

theorem State.feedLate_kept {q : List Instr} {s : State} (m : Nat) (y : Int) (seq : Nat) (hk : Kept q s) :
    Kept q (State.feedLate s m y seq) := by
  unfold State.feedLate
  try dsimp only
  repeat' (first
    | with_reducible exact hk | with_reducible assumption | with_reducible apply State.setLoop_kept
    | with_reducible apply State.wrS_kept)

/-! Machine/Lattice.lean -/

theorem State.useTile_kept {q : List Instr} {s : State} (t : Nat) (hk : Kept q s) :
    Kept q (State.useTile s t) := by
  unfold State.useTile
  try dsimp only
  repeat' (first
    | with_reducible exact hk | with_reducible assumption | with_reducible apply Kept.ite | fail_if_no_progress intros | dsimp only
    | fail_if_no_progress refine Kept.of_mk ?_ rfl rfl rfl rfl rfl)

theorem State.touchTile_kept {q : List Instr} {s : State} (t : Nat) (hk : Kept q s) :
    Kept q (State.touchTile s t) := by
  unfold State.touchTile
  try dsimp only
  repeat' (first
    | with_reducible exact hk | with_reducible assumption | with_reducible apply Kept.ite | fail_if_no_progress intros | dsimp only
    | fail_if_no_progress refine Kept.of_mk ?_ rfl rfl rfl rfl rfl)

theorem State.writeCell_kept {q : List Instr} {s : State} (w : CellWrite) (hk : Kept q s) :
    Kept q (State.writeCell s w) := by
  unfold State.writeCell
  try dsimp only
  repeat' (first
    | with_reducible exact hk | with_reducible assumption | with_reducible apply State.inc_kept
    | with_reducible apply State.raise_kept | with_reducible apply State.setCell_kept | with_reducible apply State.touchTile_kept
    | with_reducible apply Kept.ite | fail_if_no_progress intros | dsimp only
    | fail_if_no_progress refine Kept.of_mk ?_ rfl rfl rfl rfl rfl | split)

theorem State.putCell_kept {q : List Instr} {s : State} (w : CellWrite) (hk : Kept q s) :
    Kept q (State.putCell s w) := by
  unfold State.putCell
  try dsimp only
  repeat' (first
    | with_reducible exact hk | with_reducible assumption | with_reducible apply State.inc_kept
    | with_reducible apply State.raise_kept | with_reducible apply State.wr_kept | with_reducible apply State.writeCell_kept
    | with_reducible apply Kept.ite | fail_if_no_progress intros | dsimp only
    | fail_if_no_progress refine Kept.of_mk ?_ rfl rfl rfl rfl rfl)

theorem State.deposit_kept {q : List Instr} {s : State} (ch inst e : Nat) (x y : Int) (floating : Bool) (hk : Kept q s) :
    Kept q (State.deposit s ch inst e x y floating) := by
  unfold State.deposit
  try dsimp only
  repeat' (first
    | with_reducible exact hk | with_reducible assumption | with_reducible apply State.bump_kept
    | with_reducible apply State.inc_kept | with_reducible apply State.putCell_kept | with_reducible apply Kept.foldl
    | with_reducible apply Kept.ite | fail_if_no_progress intros)

theorem State.latPush_kept {q : List Instr} {s : State} (w : LatWrite) (hk : Kept q s) :
    Kept q (State.latPush s w) := by
  unfold State.latPush
  try dsimp only
  repeat' (first
    | with_reducible exact hk | with_reducible assumption | with_reducible apply Kept.ite | fail_if_no_progress intros | dsimp only
    | fail_if_no_progress refine Kept.of_mk ?_ rfl rfl rfl rfl rfl)

theorem State.undoSample_kept {q : List Instr} {s : State} (n a : Nat) (hk : Kept q s) :
    Kept q (State.undoSample s n a) := by
  unfold State.undoSample
  try dsimp only
  repeat' (first
    | with_reducible exact hk | with_reducible assumption | with_reducible apply Kept.ite | fail_if_no_progress intros | dsimp only
    | fail_if_no_progress refine Kept.of_mk ?_ rfl rfl rfl rfl rfl)

theorem State.latApply_kept {q : List Instr} {s : State} (w : LatWrite) (hk : Kept q s) :
    Kept q (State.latApply s w) := by
  unfold State.latApply
  try dsimp only
  repeat' (first
    | with_reducible exact hk | with_reducible assumption | with_reducible apply State.deposit_kept
    | with_reducible apply State.putCell_kept | with_reducible apply Kept.foldl | with_reducible apply Kept.ite
    | fail_if_no_progress intros | dsimp only | fail_if_no_progress refine Kept.of_mk ?_ rfl rfl rfl rfl rfl | split)

theorem State.tellCells_kept {q : List Instr} {s : State} (a n : Nat) (l : List (Nat × Cell)) (hk : Kept q s) :
    Kept q (State.tellCells a n l s) := by
  induction n generalizing s l with
  | zero => exact hk
  | succ n ih => exact ih _ (State.tellPartner_kept _ _ hk)

theorem State.tellDeposits_kept {q : List Instr} {s : State} (before : Tab Cell) (a : Nat) (hk : Kept q s) :
    Kept q (State.tellDeposits s before a) := by
  unfold State.tellDeposits
  try dsimp only
  repeat' (first | with_reducible exact hk | with_reducible assumption | with_reducible apply State.tellCells_kept)

theorem State.latticeDeposit_kept {q : List Instr} {s : State} (hk : Kept q s) :
    Kept q (State.latticeDeposit s) := by
  unfold State.latticeDeposit
  try dsimp only
  repeat' (first
    | with_reducible exact hk | with_reducible assumption | with_reducible apply State.latApply_kept
    | with_reducible apply State.tellDeposits_kept | with_reducible apply Kept.foldl | with_reducible apply Kept.ite
    | fail_if_no_progress intros | dsimp only | fail_if_no_progress refine Kept.of_mk ?_ rfl rfl rfl rfl rfl)

theorem State.ffRead_kept {q : List Instr} {s : State} (n : Nat) (noFF : Bool) (x y : Int) (inst : Nat) (hk : Kept q s) :
    Kept q (State.ffRead s n noFF x y inst).2 := by
  unfold State.ffRead
  try dsimp only
  repeat' (first
    | with_reducible exact hk | with_reducible assumption | with_reducible apply State.inc_kept
    | with_reducible apply State.useTile_kept | with_reducible apply State.wr_kept | with_reducible apply State.wrs_kept
    | with_reducible apply Kept.ite | with_reducible apply Kept.ite2 | fail_if_no_progress intros | dsimp only
    | fail_if_no_progress refine Kept.of_mk ?_ rfl rfl rfl rfl rfl | split)

theorem State.dwellRead_kept {q : List Instr} {s : State} (n : Nat) (x y : Int) (h : Option Nat) (hk : Kept q s) :
    Kept q (State.dwellRead s n x y h) := by
  unfold State.dwellRead
  try dsimp only
  repeat' (first
    | with_reducible exact hk | with_reducible assumption | with_reducible apply State.useTile_kept
    | with_reducible apply State.wr_kept | with_reducible apply Kept.ite | fail_if_no_progress intros | dsimp only
    | fail_if_no_progress refine Kept.of_mk ?_ rfl rfl rfl rfl rfl | split)

theorem State.recordPeak_kept {q : List Instr} {s : State} (n mid peak : Nat) (hk : Kept q s) :
    Kept q (State.recordPeak s n mid peak) := by
  unfold State.recordPeak
  try dsimp only
  repeat' (first
    | with_reducible exact hk | with_reducible assumption | with_reducible apply State.putCell_kept | with_reducible apply Kept.ite
    | fail_if_no_progress intros | dsimp only | fail_if_no_progress refine Kept.of_mk ?_ rfl rfl rfl rfl rfl | split)

theorem State.noteDeposit_kept {q : List Instr} {s : State} (n inst : Nat) (x y : Int) (hk : Kept q s) :
    Kept q (State.noteDeposit s n inst x y) := by
  unfold State.noteDeposit
  try dsimp only
  repeat' (first
    | with_reducible exact hk | with_reducible assumption | with_reducible apply Kept.ite | fail_if_no_progress intros | dsimp only
    | fail_if_no_progress refine Kept.of_mk ?_ rfl rfl rfl rfl rfl | split)

theorem latClearEff_kept {q : List Instr} {s : State} (x_v : Nat) (hk : Kept q s) :
    Kept q (latClearEff x_v s).2 := by
  unfold latClearEff
  try dsimp only
  repeat' (first
    | with_reducible exact hk | with_reducible assumption | with_reducible apply State.clearCells_kept
    | with_reducible apply State.wr_kept | with_reducible apply Kept.ite | with_reducible apply Kept.ite2
    | fail_if_no_progress intros | dsimp only | fail_if_no_progress refine Kept.of_mk ?_ rfl rfl rfl rfl rfl)

theorem State.latClearDone_kept {q : List Instr} {s : State} (hk : Kept q s) :
    Kept q (State.latClearDone s) := by
  unfold State.latClearDone
  try dsimp only
  repeat' (first
    | with_reducible exact hk | with_reducible assumption | with_reducible apply State.clearCells_kept
    | with_reducible apply State.wr_kept | with_reducible apply Kept.ite | fail_if_no_progress intros | dsimp only
    | fail_if_no_progress refine Kept.of_mk ?_ rfl rfl rfl rfl rfl)

theorem State.enableLat_kept {q : List Instr} {s : State} (pages : List Nat) (hk : Kept q s) :
    Kept q (State.enableLat s pages) := by
  unfold State.enableLat
  try dsimp only
  repeat' (first
    | with_reducible exact hk | with_reducible assumption | with_reducible apply State.pin_kept
    | with_reducible apply State.takeCells_kept | with_reducible apply State.wrs_kept | with_reducible apply Kept.foldl
    | with_reducible apply Kept.ite | fail_if_no_progress intros | dsimp only
    | fail_if_no_progress refine Kept.of_mk ?_ rfl rfl rfl rfl rfl)

theorem State.disableLat_kept {q : List Instr} {s : State} (pages : List Nat) (hk : Kept q s) :
    Kept q (State.disableLat s pages) := by
  unfold State.disableLat
  try dsimp only
  repeat' (first
    | with_reducible exact hk | with_reducible assumption | with_reducible apply State.unpinAll_kept
    | with_reducible apply State.wrs_kept | with_reducible apply Kept.ite | fail_if_no_progress intros | dsimp only
    | fail_if_no_progress refine Kept.of_mk ?_ rfl rfl rfl rfl rfl)

theorem latEnableEff_kept {q : List Instr} {s : State} (v : Nat) (hk : Kept q s) :
    Kept q (latEnableEff v s).2 := by
  unfold latEnableEff
  try dsimp only
  repeat' (first
    | with_reducible exact hk | with_reducible assumption | with_reducible apply State.disableLat_kept
    | with_reducible apply State.enableLat_kept | with_reducible apply Kept.ite | with_reducible apply Kept.ite2)

theorem latKernelEff_kept {q : List Instr} {s : State} (v : Nat) (hk : Kept q s) :
    Kept q (latKernelEff v s).2 := by
  unfold latKernelEff
  try dsimp only
  repeat' (first
    | with_reducible exact hk | with_reducible assumption | with_reducible apply State.wr_kept | with_reducible apply Kept.foldl
    | with_reducible apply Kept.ite | with_reducible apply Kept.ite2)

theorem State.snapEnd_kept {q : List Instr} {s : State} (st code : Nat) (hk : Kept q s) :
    Kept q (State.snapEnd s st code) := by
  unfold State.snapEnd
  try dsimp only
  repeat' (first
    | with_reducible exact hk | with_reducible assumption | with_reducible apply State.raise_kept
    | with_reducible apply State.wrs_kept | with_reducible apply Kept.ite | fail_if_no_progress intros | dsimp only
    | fail_if_no_progress refine Kept.of_mk ?_ rfl rfl rfl rfl rfl)

theorem snapControlEff_kept {q : List Instr} {s : State} (v : Nat) (hk : Kept q s) :
    Kept q (snapControlEff v s).2 := by
  unfold snapControlEff
  try dsimp only
  repeat' (first
    | with_reducible exact hk | with_reducible assumption | with_reducible apply State.snapEnd_kept
    | with_reducible apply State.wrs_kept | with_reducible apply Kept.ite | with_reducible apply Kept.ite2
    | fail_if_no_progress intros | dsimp only | fail_if_no_progress refine Kept.of_mk ?_ rfl rfl rfl rfl rfl)

theorem State.snapNext_kept {q : List Instr} {s : State} (hk : Kept q s) :
    Kept q (State.snapNext s) := by
  unfold State.snapNext
  try dsimp only
  repeat' (first
    | with_reducible exact hk | with_reducible assumption | with_reducible apply State.snapEnd_kept
    | with_reducible apply State.wr_kept | with_reducible apply Kept.ite | fail_if_no_progress intros | dsimp only
    | fail_if_no_progress refine Kept.of_mk ?_ rfl rfl rfl rfl rfl)

theorem State.snapTile_kept {q : List Instr} {s : State} (tc addr : Nat) (img : List Byte) (hk : Kept q s) :
    Kept q (State.snapTile s tc addr img) := by
  unfold State.snapTile
  try dsimp only
  repeat' (first
    | with_reducible exact hk | with_reducible assumption | with_reducible apply State.sendWrite_kept
    | with_reducible apply State.snapNext_kept | with_reducible apply Kept.ite | fail_if_no_progress intros | dsimp only
    | fail_if_no_progress refine Kept.of_mk ?_ rfl rfl rfl rfl rfl)

theorem State.snapshotTile_kept {q : List Instr} {s : State} (hk : Kept q s) :
    Kept q (State.snapshotTile s) := by
  unfold State.snapshotTile
  try dsimp only
  repeat' (first
    | with_reducible exact hk | with_reducible assumption | with_reducible apply State.snapNext_kept
    | with_reducible apply State.snapTile_kept | with_reducible apply Kept.ite | fail_if_no_progress intros | dsimp only
    | fail_if_no_progress refine Kept.of_mk ?_ rfl rfl rfl rfl rfl | split)

theorem State.refreshVisit_kept {q : List Instr} {s : State} (t : Nat) (hk : Kept q s) :
    Kept q (State.refreshVisit s t) := by
  unfold State.refreshVisit
  try dsimp only
  repeat' (first
    | with_reducible exact hk | with_reducible assumption | with_reducible apply State.putCell_kept
    | with_reducible apply State.tellDeposits_kept | with_reducible apply State.wr_kept | with_reducible apply Kept.foldl
    | with_reducible apply Kept.ite | fail_if_no_progress intros | dsimp only
    | fail_if_no_progress refine Kept.of_mk ?_ rfl rfl rfl rfl rfl)

theorem State.tileWriteBack_kept {q : List Instr} {s : State} (t : Nat) (hk : Kept q s) :
    Kept q (State.tileWriteBack s t) := by
  unfold State.tileWriteBack
  try dsimp only
  repeat' (first
    | with_reducible exact hk | with_reducible assumption | with_reducible apply State.countBeats_kept
    | with_reducible apply Kept.ite | fail_if_no_progress intros | dsimp only
    | fail_if_no_progress refine Kept.of_mk ?_ rfl rfl rfl rfl rfl)

theorem State.evict_kept {q : List Instr} {s : State} (hk : Kept q s) :
    Kept q (State.evict s) := by
  unfold State.evict
  try dsimp only
  repeat' (first
    | with_reducible exact hk | with_reducible assumption | with_reducible apply State.tileWriteBack_kept
    | with_reducible apply Kept.ite | fail_if_no_progress intros | dsimp only
    | fail_if_no_progress refine Kept.of_mk ?_ rfl rfl rfl rfl rfl | split)

theorem State.fillErrors_kept {q : List Instr} {s : State} (t : Nat) (hk : Kept q s) :
    Kept q (State.fillErrors s t) := by
  unfold State.fillErrors
  try dsimp only
  repeat' (first
    | with_reducible exact hk | with_reducible assumption | with_reducible apply State.park_kept | with_reducible apply Kept.foldl
    | with_reducible apply Kept.ite | fail_if_no_progress intros)

theorem State.tileFill_kept {q : List Instr} {s : State} (t : Nat) (hk : Kept q s) :
    Kept q (State.tileFill s t) := by
  unfold State.tileFill
  try dsimp only
  repeat' (first
    | with_reducible exact hk | with_reducible assumption | with_reducible apply State.countBeats_kept
    | with_reducible apply State.evict_kept | with_reducible apply State.fillErrors_kept | with_reducible apply State.inc_kept
    | with_reducible apply State.writeCell_kept | with_reducible apply Kept.foldl | with_reducible apply Kept.ite
    | fail_if_no_progress intros | dsimp only | fail_if_no_progress refine Kept.of_mk ?_ rfl rfl rfl rfl rfl)

theorem probeCellEff_kept {q : List Instr} {s : State} (v : Nat) (hk : Kept q s) :
    Kept q (probeCellEff v s).2 := by
  unfold probeCellEff
  try dsimp only
  repeat' (first
    | with_reducible exact hk | with_reducible assumption | with_reducible apply State.wr_kept | with_reducible apply Kept.ite
    | with_reducible apply Kept.ite2)

theorem execLatticeDeposit_kept {q : List Instr} {s : State} (hk : Kept q s) :
    KeptOut q (execLatticeDeposit s) := by
  unfold execLatticeDeposit
  try dsimp only
  repeat' (first | with_reducible assumption | with_reducible apply live_kept hk | with_reducible apply State.latticeDeposit_kept)

theorem execLatClear_kept {q : List Instr} {s : State} (m : Msg) (hk : Kept q s) :
    KeptOut q (execLatClear m s) := by
  unfold execLatClear
  try dsimp only
  repeat' (first
    | with_reducible assumption | with_reducible apply writeCmd_kept hk | with_reducible apply latClearEff_kept
    | with_reducible apply Kept.ite | with_reducible apply Kept.ite2 | fail_if_no_progress intros)

theorem execLatClearDone_kept {q : List Instr} {s : State} (hk : Kept q s) :
    KeptOut q (execLatClearDone s) := by
  unfold execLatClearDone
  try dsimp only
  repeat' (first | with_reducible assumption | with_reducible apply live_kept hk | with_reducible apply State.latClearDone_kept)

theorem execLatEnable_kept {q : List Instr} {s : State} (m : Msg) (hk : Kept q s) :
    KeptOut q (execLatEnable m s) := by
  unfold execLatEnable
  try dsimp only
  repeat' (first
    | with_reducible assumption | with_reducible apply writeCmd_kept hk | with_reducible apply latEnableEff_kept
    | with_reducible apply Kept.ite | with_reducible apply Kept.ite2 | fail_if_no_progress intros)

theorem execLatDisable_kept {q : List Instr} {s : State} (m : Msg) (hk : Kept q s) :
    KeptOut q (execLatDisable m s) := by
  unfold execLatDisable
  try dsimp only
  repeat' (first
    | with_reducible assumption | with_reducible apply writeCmd_kept hk | with_reducible apply latEnableEff_kept
    | with_reducible apply Kept.ite | with_reducible apply Kept.ite2 | fail_if_no_progress intros)

theorem execSnapshotStart_kept {q : List Instr} {s : State} (m : Msg) (hk : Kept q s) :
    KeptOut q (execSnapshotStart m s) := by
  unfold execSnapshotStart
  try dsimp only
  repeat' (first
    | with_reducible assumption | with_reducible apply writeCmd_kept hk | with_reducible apply snapControlEff_kept
    | with_reducible apply Kept.ite | with_reducible apply Kept.ite2 | fail_if_no_progress intros)

theorem execSnapshotAbort_kept {q : List Instr} {s : State} (m : Msg) (hk : Kept q s) :
    KeptOut q (execSnapshotAbort m s) := by
  unfold execSnapshotAbort
  try dsimp only
  repeat' (first
    | with_reducible assumption | with_reducible apply writeCmd_kept hk | with_reducible apply snapControlEff_kept
    | with_reducible apply Kept.ite | with_reducible apply Kept.ite2 | fail_if_no_progress intros)

theorem execSnapshotTile_kept {q : List Instr} {s : State} (hk : Kept q s) :
    KeptOut q (execSnapshotTile s) := by
  unfold execSnapshotTile
  try dsimp only
  repeat' (first | with_reducible assumption | with_reducible apply live_kept hk | with_reducible apply State.snapshotTile_kept)

theorem execRefreshVisit_kept {q : List Instr} {s : State} (tile : Fin 4096) (hk : Kept q s) :
    KeptOut q (execRefreshVisit tile s) := by
  unfold execRefreshVisit
  try dsimp only
  repeat' (first
    | with_reducible assumption | with_reducible apply live_kept hk | with_reducible apply State.refreshVisit_kept
    | with_reducible apply Kept.ite | with_reducible apply Kept.ite2 | fail_if_no_progress intros)

theorem execTileWriteBack_kept {q : List Instr} {s : State} (tile : Fin 4096) (hk : Kept q s) :
    KeptOut q (execTileWriteBack tile s) := by
  unfold execTileWriteBack
  try dsimp only
  repeat' (first
    | with_reducible assumption | with_reducible apply live_kept hk | with_reducible apply State.tileWriteBack_kept
    | with_reducible apply Kept.ite | with_reducible apply Kept.ite2 | fail_if_no_progress intros)

theorem execTileFill_kept {q : List Instr} {s : State} (tile : Fin 4096) (hk : Kept q s) :
    KeptOut q (execTileFill tile s) := by
  unfold execTileFill
  try dsimp only
  repeat' (first
    | with_reducible assumption | with_reducible apply live_kept hk | with_reducible apply State.tileFill_kept
    | with_reducible apply Kept.ite | with_reducible apply Kept.ite2 | fail_if_no_progress intros)

/-! Machine/Plan.lean -/

theorem State.keepGate_kept {q : List Instr} {s : State} (n on off : Nat) (g : Gate) (hk : Kept q s) :
    Kept q (State.keepGate s n on off g) := by
  unfold State.keepGate
  try dsimp only
  repeat' (first
    | with_reducible exact hk | with_reducible assumption | with_reducible apply State.raise_kept
    | with_reducible apply State.setChan_kept | with_reducible apply Kept.ite | fail_if_no_progress intros)

theorem State.placeGates_kept {q : List Instr} {s : State} (n addr : Nat) (l : List Gate) (hk : Kept q s) :
    Kept q (s.placeGates n addr l) := by
  induction l generalizing s with
  | nil => exact hk
  | cons g l ih => exact ih (State.keepGate_kept _ _ _ _ (State.bump_kept _ _ _ hk))

theorem State.replaceGate_kept {q : List Instr} {s : State} (n : Nat) (g : Gate) (nomOff spanLast : Nat) (hk : Kept q s) :
    Kept q (State.replaceGate s n g nomOff spanLast) := by
  unfold State.replaceGate
  try dsimp only
  repeat' (first
    | with_reducible exact hk | with_reducible assumption | with_reducible apply State.bump_kept
    | with_reducible apply State.keepGate_kept | with_reducible apply State.setChan_kept)

/-! Machine/Facet.lean -/

theorem State.setCommits_kept {q : List Instr} {s : State} (n slot : Nat) (l : List Commit) (hk : Kept q s) :
    Kept q (State.setCommits s n slot l) := by
  unfold State.setCommits
  try dsimp only
  repeat' (first
    | with_reducible exact hk | with_reducible assumption | with_reducible apply State.setChan_kept
    | with_reducible apply State.wr_kept | with_reducible apply Kept.foldl | with_reducible apply Kept.ite
    | fail_if_no_progress intros)

theorem State.updCommit_kept {q : List Instr} {s : State} (n slot num : Nat) (f : Commit → Commit) (hk : Kept q s) :
    Kept q (State.updCommit s n slot num f) := by
  unfold State.updCommit
  try dsimp only
  repeat' (first | with_reducible exact hk | with_reducible assumption | with_reducible apply State.setCommits_kept)

theorem State.retire_kept {q : List Instr} {s : State} (n slot : Nat) (hk : Kept q s) :
    Kept q (State.retire s n slot) := by
  unfold State.retire
  try dsimp only
  repeat' (first
    | with_reducible exact hk | with_reducible assumption | with_reducible apply State.raiseSeries_kept
    | with_reducible apply State.updCommit_kept | with_reducible apply Kept.foldl | with_reducible apply Kept.ite
    | fail_if_no_progress intros)

theorem State.dropPins_kept {q : List Instr} {s : State} (n slot num : Nat) (hk : Kept q s) :
    Kept q (State.dropPins s n slot num) := by
  unfold State.dropPins
  try dsimp only
  repeat' (first
    | with_reducible exact hk | with_reducible assumption | with_reducible apply State.unpinAll_kept
    | with_reducible apply State.updCommit_kept | with_reducible apply Kept.ite | fail_if_no_progress intros | dsimp only
    | fail_if_no_progress refine Kept.of_mk ?_ rfl rfl rfl rfl rfl | split)

theorem State.syncSlots_kept {q : List Instr} {s : State} (n : Nat) (hk : Kept q s) :
    Kept q (State.syncSlots s n) := by
  unfold State.syncSlots
  try dsimp only
  repeat' (first
    | with_reducible exact hk | with_reducible assumption | with_reducible apply State.wr_kept | with_reducible apply Kept.foldl
    | with_reducible apply Kept.ite | fail_if_no_progress intros)

theorem State.dropHeld_kept {q : List Instr} {s : State} (n slot keep : Nat) (hk : Kept q s) :
    Kept q (State.dropHeld s n slot keep) := by
  unfold State.dropHeld
  try dsimp only
  repeat' (first
    | with_reducible exact hk | with_reducible assumption | with_reducible apply State.dropPins_kept
    | with_reducible apply State.retire_kept | with_reducible apply Kept.foldl | with_reducible apply Kept.ite
    | fail_if_no_progress intros)

theorem fxCommitEff_kept {q : List Instr} {s : State} (n slot x_v : Nat) (hk : Kept q s) :
    Kept q (fxCommitEff n slot x_v s).2 := by
  unfold fxCommitEff
  try dsimp only
  repeat' (first
    | with_reducible exact hk | with_reducible assumption | with_reducible apply State.dropPins_kept
    | with_reducible apply State.retire_kept | with_reducible apply State.setCommits_kept
    | with_reducible apply State.updCommit_kept | with_reducible apply State.wrs_kept | with_reducible apply Kept.foldl
    | with_reducible apply Kept.ite | with_reducible apply Kept.ite2 | fail_if_no_progress intros)

theorem fxClearEff_kept {q : List Instr} {s : State} (n slot x_v : Nat) (hk : Kept q s) :
    Kept q (fxClearEff n slot x_v s).2 := by
  unfold fxClearEff
  try dsimp only
  repeat' (first
    | with_reducible exact hk | with_reducible assumption | with_reducible apply State.dropPins_kept
    | with_reducible apply State.retire_kept | with_reducible apply State.updCommit_kept | with_reducible apply State.wrs_kept
    | with_reducible apply Kept.foldl | with_reducible apply Kept.ite | with_reducible apply Kept.ite2 | fail_if_no_progress intros)

theorem fxModeEff_kept {q : List Instr} {s : State} (n slot v : Nat) (hk : Kept q s) :
    Kept q (fxModeEff n slot v s).2 := by
  unfold fxModeEff
  try dsimp only
  repeat' (first
    | with_reducible exact hk | with_reducible assumption | with_reducible apply State.wr_kept | with_reducible apply Kept.ite
    | with_reducible apply Kept.ite2)

theorem State.useCommit_kept {q : List Instr} {s : State} (n slot num passNo : Nat) (hk : Kept q s) :
    Kept q (State.useCommit s n slot num passNo) := by
  unfold State.useCommit
  try dsimp only
  repeat' (first
    | with_reducible exact hk | with_reducible assumption | with_reducible apply State.raise_kept
    | with_reducible apply State.updCommit_kept | with_reducible apply State.wr_kept | with_reducible apply Kept.foldl
    | with_reducible apply Kept.ite | fail_if_no_progress intros | dsimp only
    | fail_if_no_progress refine Kept.of_mk ?_ rfl rfl rfl rfl rfl | split)

theorem execFxCommit_kept {q : List Instr} {s : State} (m : Msg) (n : Fin 16) (slot : Fin 8) (hk : Kept q s) :
    KeptOut q (execFxCommit m n slot s) := by
  unfold execFxCommit
  try dsimp only
  repeat' (first
    | with_reducible assumption | with_reducible apply writeCmd_kept hk | with_reducible apply fxCommitEff_kept
    | with_reducible apply Kept.ite | with_reducible apply Kept.ite2 | fail_if_no_progress intros)

theorem execFxClear_kept {q : List Instr} {s : State} (m : Msg) (n : Fin 16) (slot : Fin 8) (hk : Kept q s) :
    KeptOut q (execFxClear m n slot s) := by
  unfold execFxClear
  try dsimp only
  repeat' (first
    | with_reducible assumption | with_reducible apply writeCmd_kept hk | with_reducible apply fxClearEff_kept
    | with_reducible apply Kept.ite | with_reducible apply Kept.ite2 | fail_if_no_progress intros)

/-! Machine/Lune.lean -/

theorem State.setLune_kept {q : List Instr} {s : State} (l : Nat) (x : Lune) (hk : Kept q s) :
    Kept q (State.setLune s l x) := by
  unfold State.setLune
  try dsimp only
  repeat' (first
    | with_reducible exact hk | with_reducible assumption | with_reducible apply State.wr_kept | with_reducible apply Kept.ite
    | fail_if_no_progress intros | dsimp only | fail_if_no_progress refine Kept.of_mk ?_ rfl rfl rfl rfl rfl)

theorem State.enqueue_kept {q : List Instr} {s : State} (l : Nat) (front : Bool) (its : List Item) (hk : Kept q s) :
    Kept q (State.enqueue s l front its) := by
  unfold State.enqueue
  try dsimp only
  repeat' (first
    | with_reducible exact hk | with_reducible assumption | with_reducible apply State.setLune_kept | with_reducible apply Kept.ite
    | fail_if_no_progress intros)

theorem State.post_kept {q : List Instr} {s : State} (l : Nat) (its : List Item) (hk : Kept q s) :
    Kept q (State.post s l its) := by
  unfold State.post
  try dsimp only
  repeat' (first
    | with_reducible exact hk | with_reducible assumption | with_reducible apply State.enqueue_kept
    | with_reducible apply State.wr_kept | with_reducible apply Kept.foldl | with_reducible apply Kept.ite
    | fail_if_no_progress intros | dsimp only | fail_if_no_progress refine Kept.of_mk ?_ rfl rfl rfl rfl rfl)

theorem State.freeEntries_kept {q : List Instr} {s : State} (l : Nat) (i : Item) (hk : Kept q s) :
    Kept q (State.freeEntries s l i) := by
  unfold State.freeEntries
  try dsimp only
  repeat' (first | with_reducible exact hk | with_reducible assumption | with_reducible apply State.wr_kept)

theorem State.syncLive_kept {q : List Instr} {s : State} (n : Nat) (hk : Kept q s) :
    Kept q (State.syncLive s n) := by
  unfold State.syncLive
  try dsimp only
  repeat' (first
    | with_reducible exact hk | with_reducible assumption | with_reducible apply State.raise_kept
    | with_reducible apply State.setLune_kept | with_reducible apply State.wr_kept | with_reducible apply Kept.foldl
    | with_reducible apply Kept.ite | fail_if_no_progress intros)

theorem State.syncMasks_kept {q : List Instr} {s : State} (hk : Kept q s) :
    Kept q (State.syncMasks s) := by
  unfold State.syncMasks
  try dsimp only
  repeat' (first
    | with_reducible exact hk | with_reducible assumption | with_reducible apply State.wr_kept | with_reducible apply Kept.foldl
    | with_reducible apply Kept.ite | fail_if_no_progress intros)

theorem luneEnableEff_kept {q : List Instr} {s : State} (l v : Nat) (hk : Kept q s) :
    Kept q (luneEnableEff l v s).2 := by
  unfold luneEnableEff
  try dsimp only
  repeat' (first
    | with_reducible exact hk | with_reducible assumption | with_reducible apply State.syncMasks_kept
    | with_reducible apply State.wr_kept | with_reducible apply Kept.ite | with_reducible apply Kept.ite2)

theorem lunePostEff_kept {q : List Instr} {s : State} (l x_v : Nat) (hk : Kept q s) :
    Kept q (lunePostEff l x_v s).2 := by
  unfold lunePostEff
  try dsimp only
  repeat' (first
    | with_reducible exact hk | with_reducible assumption | with_reducible apply State.expose_kept
    | with_reducible apply State.post_kept | with_reducible apply Kept.ite | with_reducible apply Kept.ite2
    | fail_if_no_progress intros | dsimp only | fail_if_no_progress refine Kept.of_mk ?_ rfl rfl rfl rfl rfl | split)

theorem State.skipItems_kept {q : List Instr} {s : State} (n : Nat) (lunes : List Nat) (hk : Kept q s) :
    Kept q (State.skipItems s n lunes) := by
  unfold State.skipItems
  try dsimp only
  repeat' (first
    | with_reducible exact hk | with_reducible assumption | with_reducible apply State.bump_kept
    | with_reducible apply State.setLune_kept | with_reducible apply Kept.foldl | with_reducible apply Kept.ite
    | fail_if_no_progress intros)

theorem State.takeItem_kept {q : List Instr} {s : State} (l : Nat) (i : Item) (hk : Kept q s) :
    Kept q (State.takeItem s l i) := by
  unfold State.takeItem
  try dsimp only
  repeat' (first | with_reducible exact hk | with_reducible assumption | with_reducible apply State.setLune_kept)

theorem State.uncovered_kept {q : List Instr} {s : State} (n form lune ch addr : Nat) (pts : List (Int × Int)) (count : Nat) (hk : Kept q s) :
    Kept q (State.uncovered s n form lune ch addr pts count) := by
  unfold State.uncovered
  try dsimp only
  repeat' (first | with_reducible exact hk | with_reducible assumption | with_reducible apply State.raiseSeries_kept)

theorem State.discardLune_kept {q : List Instr} {s : State} (l : Nat) (hk : Kept q s) :
    Kept q (State.discardLune s l) := by
  unfold State.discardLune
  try dsimp only
  repeat' (first
    | with_reducible exact hk | with_reducible assumption | with_reducible apply State.bump_kept
    | with_reducible apply State.freeEntries_kept | with_reducible apply State.setLune_kept
    | with_reducible apply State.uncovered_kept | with_reducible apply Kept.foldl | with_reducible apply Kept.ite
    | fail_if_no_progress intros)

theorem State.remnants_kept {q : List Instr} {s : State} (left : List Planned) (hk : Kept q s) :
    Kept q (State.remnants s left) := by
  unfold State.remnants
  try dsimp only
  repeat' (first
    | with_reducible exact hk | with_reducible assumption | with_reducible apply State.enqueue_kept
    | with_reducible apply Kept.foldl | with_reducible apply Kept.ite | fail_if_no_progress intros)

theorem execLuneEnable_kept {q : List Instr} {s : State} (m : Msg) (l : Fin 128) (hk : Kept q s) :
    KeptOut q (execLuneEnable m l s) := by
  unfold execLuneEnable
  try dsimp only
  repeat' (first
    | with_reducible assumption | with_reducible apply writeCmd_kept hk | with_reducible apply luneEnableEff_kept
    | with_reducible apply Kept.ite | with_reducible apply Kept.ite2 | fail_if_no_progress intros)

theorem execLunePost_kept {q : List Instr} {s : State} (m : Msg) (l : Fin 128) (hk : Kept q s) :
    KeptOut q (execLunePost m l s) := by
  unfold execLunePost
  try dsimp only
  repeat' (first
    | with_reducible assumption | with_reducible apply writeCmd_kept hk | with_reducible apply lunePostEff_kept
    | with_reducible apply Kept.ite | with_reducible apply Kept.ite2 | fail_if_no_progress intros)

/-! Machine/Beam.lean -/

theorem State.syncHeld_kept {q : List Instr} {s : State} (n : Nat) (hk : Kept q s) :
    Kept q (State.syncHeld s n) := by
  unfold State.syncHeld
  try dsimp only
  repeat' (first | with_reducible exact hk | with_reducible assumption | with_reducible apply State.wr_kept)

theorem State.setBc_kept {q : List Instr} {s : State} (n st : Nat) (hk : Kept q s) :
    Kept q (State.setBc s n st) := by
  unfold State.setBc
  try dsimp only
  repeat' (first
    | with_reducible exact hk | with_reducible assumption | with_reducible apply State.raise_kept
    | with_reducible apply State.wrs_kept)

theorem State.noWait_kept {q : List Instr} {s : State} (n : Nat) (hk : Kept q s) :
    Kept q (State.noWait s n) := by
  unfold State.noWait
  try dsimp only
  repeat' (first
    | with_reducible exact hk | with_reducible assumption | with_reducible apply State.setChan_kept
    | with_reducible apply State.wrs_kept)

theorem State.dropRun_kept {q : List Instr} {s : State} (n : Nat) (hk : Kept q s) :
    Kept q (State.dropRun s n) := by
  unfold State.dropRun
  try dsimp only
  repeat' (first
    | with_reducible exact hk | with_reducible assumption | with_reducible apply State.dropPins_kept
    | with_reducible apply State.enqueue_kept | with_reducible apply State.noWait_kept | with_reducible apply State.remnants_kept
    | with_reducible apply State.retire_kept | with_reducible apply State.setChan_kept | with_reducible apply State.syncHeld_kept
    | with_reducible apply State.syncSlots_kept | with_reducible apply State.wr_kept | with_reducible apply Kept.ite
    | fail_if_no_progress intros | dsimp only | fail_if_no_progress refine Kept.of_mk ?_ rfl rfl rfl rfl rfl | split)

theorem State.holdSeq_kept {q : List Instr} {s : State} (n cause : Nat) (hk : Kept q s) :
    Kept q (State.holdSeq s n cause) := by
  unfold State.holdSeq
  try dsimp only
  repeat' (first
    | with_reducible exact hk | with_reducible assumption | with_reducible apply State.dropRun_kept
    | with_reducible apply State.hold_kept | with_reducible apply State.setBc_kept | with_reducible apply State.wrs_kept)

theorem State.runSeq_kept {q : List Instr} {s : State} (n t : Nat) (hk : Kept q s) :
    Kept q (State.runSeq s n t) := by
  unfold State.runSeq
  try dsimp only
  repeat' (first
    | with_reducible exact hk | with_reducible assumption | with_reducible apply State.setBc_kept
    | with_reducible apply State.setChan_kept | with_reducible apply State.wrs_kept)

theorem State.holdDebug_kept {q : List Instr} {s : State} (n : Nat) (hk : Kept q s) :
    Kept q (State.holdDebug s n) := by
  unfold State.holdDebug
  try dsimp only
  repeat' (first
    | with_reducible exact hk | with_reducible assumption | with_reducible apply State.holdSeq_kept
    | with_reducible apply State.inc_kept | with_reducible apply State.raise_kept | with_reducible apply State.setChan_kept
    | with_reducible apply State.wrs_kept | with_reducible apply Kept.ite | fail_if_no_progress intros)

theorem State.parkFetch_kept {q : List Instr} {s : State} (n a : Nat) (hk : Kept q s) :
    Kept q (State.parkFetch s n a) := by
  unfold State.parkFetch
  try dsimp only
  repeat' (first
    | with_reducible exact hk | with_reducible assumption | with_reducible apply State.park_kept | with_reducible apply Kept.ite
    | fail_if_no_progress intros)

theorem State.holdFetch_kept {q : List Instr} {s : State} (n a : Nat) (hk : Kept q s) :
    Kept q (State.holdFetch s n a) := by
  unfold State.holdFetch
  try dsimp only
  repeat' (first
    | with_reducible exact hk | with_reducible assumption | with_reducible apply State.holdSeq_kept
    | with_reducible apply State.parkFetch_kept)

theorem State.fetchAhead_kept {q : List Instr} {s : State} (n : Nat) (hk : Kept q s) :
    Kept q (State.fetchAhead s n) := by
  unfold State.fetchAhead
  try dsimp only
  repeat' (first
    | with_reducible exact hk | with_reducible assumption | with_reducible apply State.parkFetch_kept
    | with_reducible apply Kept.ite | fail_if_no_progress intros | dsimp only
    | fail_if_no_progress refine Kept.of_mk ?_ rfl rfl rfl rfl rfl | split)

theorem State.fetchCheck_kept {q : List Instr} {s : State} (n : Nat) (hk : Kept q s) :
    Kept q (State.fetchCheck s n) := by
  unfold State.fetchCheck
  try dsimp only
  repeat' (first
    | with_reducible exact hk | with_reducible assumption | with_reducible apply State.fetchAhead_kept
    | with_reducible apply State.holdFetch_kept | with_reducible apply Kept.ite | fail_if_no_progress intros | dsimp only
    | fail_if_no_progress refine Kept.of_mk ?_ rfl rfl rfl rfl rfl | split)

theorem State.trimWindow_kept {q : List Instr} {s : State} (n : Nat) (hk : Kept q s) :
    Kept q (State.trimWindow s n) := by
  unfold State.trimWindow
  try dsimp only
  repeat' (first
    | with_reducible exact hk | with_reducible assumption | with_reducible apply State.hold_kept
    | with_reducible apply State.setTc_kept | with_reducible apply State.unpinAll_kept | with_reducible apply Kept.ite
    | fail_if_no_progress intros)

theorem State.moveTo_kept {q : List Instr} {s : State} (n : Nat) (c : Cursor) (hk : Kept q s) :
    Kept q (State.moveTo s n c) := by
  unfold State.moveTo
  try dsimp only
  repeat' (first
    | with_reducible exact hk | with_reducible assumption | with_reducible apply State.countBeats_kept
    | with_reducible apply State.setCursor_kept | with_reducible apply State.trimWindow_kept | with_reducible apply Kept.ite
    | fail_if_no_progress intros)

theorem State.reachClose_kept {q : List Instr} {s : State} (n : Nat) (hk : Kept q s) :
    Kept q (State.reachClose s n) := by
  unfold State.reachClose
  try dsimp only
  repeat' (first
    | with_reducible exact hk | with_reducible assumption | with_reducible apply State.noWait_kept
    | with_reducible apply State.setChan_kept | with_reducible apply State.syncLive_kept
    | with_reducible apply State.trimWindow_kept | with_reducible apply State.wr_kept)

theorem State.claimOver_kept {q : List Instr} {s : State} (n : Nat) (hk : Kept q s) :
    Kept q (State.claimOver s n) := by
  unfold State.claimOver
  try dsimp only
  repeat' (first
    | with_reducible exact hk | with_reducible assumption | with_reducible apply State.moveTo_kept
    | with_reducible apply State.noWait_kept | with_reducible apply State.setChan_kept | with_reducible apply State.wr_kept
    | with_reducible apply Kept.ite | fail_if_no_progress intros)

theorem State.claimEmpty_kept {q : List Instr} {s : State} (n : Nat) (hk : Kept q s) :
    Kept q (State.claimEmpty s n) := by
  unfold State.claimEmpty
  try dsimp only
  repeat' (first
    | with_reducible exact hk | with_reducible assumption | with_reducible apply State.claimOver_kept
    | with_reducible apply State.fetchCheck_kept | with_reducible apply State.reachClose_kept
    | with_reducible apply State.setChan_kept | with_reducible apply Kept.ite | fail_if_no_progress intros | dsimp only
    | fail_if_no_progress refine Kept.of_mk ?_ rfl rfl rfl rfl rfl | split)

theorem State.postWaiting_kept {q : List Instr} {s : State} (n b : Nat) (hk : Kept q s) :
    Kept q (State.postWaiting s n b) := by
  unfold State.postWaiting
  try dsimp only
  repeat' (first
    | with_reducible exact hk | with_reducible assumption | with_reducible apply State.bump_kept
    | with_reducible apply State.fetchCheck_kept | with_reducible apply State.moveTo_kept | with_reducible apply State.noWait_kept
    | with_reducible apply State.post_kept | with_reducible apply State.setChan_kept | with_reducible apply State.wr_kept
    | with_reducible apply Kept.ite | fail_if_no_progress intros | dsimp only
    | fail_if_no_progress refine Kept.of_mk ?_ rfl rfl rfl rfl rfl | split)

theorem State.itemEnd_kept {q : List Instr} {s : State} (n l : Nat) (i : Item) (b : Nat) (hk : Kept q s) :
    Kept q (State.itemEnd s n l i b) := by
  unfold State.itemEnd
  try dsimp only
  repeat' (first
    | with_reducible exact hk | with_reducible assumption | with_reducible apply State.claimEmpty_kept
    | with_reducible apply State.claimOver_kept | with_reducible apply State.freeEntries_kept | with_reducible apply State.inc_kept
    | with_reducible apply State.moveTo_kept | with_reducible apply State.postWaiting_kept | with_reducible apply State.setChan_kept
    | with_reducible apply State.wr_kept | with_reducible apply Kept.ite | fail_if_no_progress intros | dsimp only
    | fail_if_no_progress refine Kept.of_mk ?_ rfl rfl rfl rfl rfl | split)

theorem State.finishHead_kept {q : List Instr} {s : State} (n : Nat) (hk : Kept q s) :
    Kept q (State.finishHead s n) := by
  unfold State.finishHead
  try dsimp only
  repeat' (first
    | with_reducible exact hk | with_reducible assumption | with_reducible apply State.inc_kept
    | with_reducible apply State.itemEnd_kept | with_reducible apply State.moveTo_kept | with_reducible apply State.park_kept
    | with_reducible apply State.setChan_kept | with_reducible apply State.syncHeld_kept | with_reducible apply State.syncSlots_kept
    | with_reducible apply State.wr_kept | with_reducible apply Kept.ite | fail_if_no_progress intros | dsimp only
    | fail_if_no_progress refine Kept.of_mk ?_ rfl rfl rfl rfl rfl | split)

theorem State.dropRepair_kept {q : List Instr} {s : State} (n : Nat) (r : Repair) (hk : Kept q s) :
    Kept q (State.dropRepair s n r) := by
  unfold State.dropRepair
  try dsimp only
  repeat' (first
    | with_reducible exact hk | with_reducible assumption | with_reducible apply State.bump_kept
    | with_reducible apply State.raise_kept | with_reducible apply State.unpinAll_kept)

theorem State.dropRepairs_kept {q : List Instr} {s : State} (n : Nat) (hk : Kept q s) :
    Kept q (State.dropRepairs s n) := by
  unfold State.dropRepairs
  try dsimp only
  repeat' (first
    | with_reducible exact hk | with_reducible assumption | with_reducible apply State.dropRepair_kept
    | with_reducible apply State.retire_kept | with_reducible apply State.setChan_kept | with_reducible apply State.syncSlots_kept
    | with_reducible apply State.wr_kept | with_reducible apply Kept.foldl | with_reducible apply Kept.ite
    | fail_if_no_progress intros)

theorem State.recordRepair_kept {q : List Instr} {s : State} (n : Nat) (p : Pass) (line pixel : Nat) (hk : Kept q s) :
    Kept q (State.recordRepair s n p line pixel) := by
  unfold State.recordRepair
  try dsimp only
  repeat' (first
    | with_reducible exact hk | with_reducible assumption | with_reducible apply State.bump_kept
    | with_reducible apply State.pin_kept | with_reducible apply State.raise_kept | with_reducible apply State.setChan_kept
    | with_reducible apply State.wr_kept | with_reducible apply Kept.foldl | with_reducible apply Kept.ite
    | fail_if_no_progress intros)

theorem State.endRepair_kept {q : List Instr} {s : State} (n i : Nat) (hk : Kept q s) :
    Kept q (State.endRepair s n i) := by
  unfold State.endRepair
  try dsimp only
  repeat' (first
    | with_reducible exact hk | with_reducible assumption | with_reducible apply State.setChan_kept
    | with_reducible apply State.unpinAll_kept)

theorem State.failRepair_kept {q : List Instr} {s : State} (n i passNo : Nat) (hk : Kept q s) :
    Kept q (State.failRepair s n i passNo) := by
  unfold State.failRepair
  try dsimp only
  repeat' (first
    | with_reducible exact hk | with_reducible assumption | with_reducible apply State.bump_kept
    | with_reducible apply State.endRepair_kept | with_reducible apply State.raise_kept)

theorem State.cutFacet_kept {q : List Instr} {s : State} (n : Nat) (hk : Kept q s) :
    Kept q (State.cutFacet s n) := by
  unfold State.cutFacet
  try dsimp only
  repeat' (first
    | with_reducible exact hk | with_reducible assumption | with_reducible apply State.failRepair_kept
    | with_reducible apply State.latPush_kept | with_reducible apply State.recordRepair_kept
    | with_reducible apply State.setChan_kept | with_reducible apply Kept.ite | fail_if_no_progress intros | dsimp only
    | fail_if_no_progress refine Kept.of_mk ?_ rfl rfl rfl rfl rfl | split)

theorem State.barrierTry_kept {q : List Instr} {s : State} (hk : Kept q s) :
    Kept q (State.barrierTry s) := by
  unfold State.barrierTry
  try dsimp only
  repeat' (first
    | with_reducible exact hk | with_reducible assumption | with_reducible apply State.wake_kept | with_reducible apply Kept.foldl
    | with_reducible apply Kept.ite | fail_if_no_progress intros | dsimp only
    | fail_if_no_progress refine Kept.of_mk ?_ rfl rfl rfl rfl rfl | split)

theorem State.leaveLayer_kept {q : List Instr} {s : State} (n : Nat) (cur : Cursor) (x y : Int) (hk : Kept q s) :
    Kept q (State.leaveLayer s n cur x y) := by
  unfold State.leaveLayer
  try dsimp only
  repeat' (first
    | with_reducible exact hk | with_reducible assumption | with_reducible apply State.setChan_kept
    | with_reducible apply State.syncLive_kept | with_reducible apply Kept.ite | fail_if_no_progress intros | dsimp only
    | fail_if_no_progress refine Kept.of_mk ?_ rfl rfl rfl rfl rfl)

theorem State.finishDue_kept {q : List Instr} {s : State} (n : Nat) (k : Nat) (hk : Kept q s) : Kept q (State.finishDue n k s) := by
  induction k generalizing s with
  | zero => exact hk
  | succ k ih =>
    unfold State.finishDue
    split
    · exact Kept.ite (fun _ => ih (State.finishHead_kept _ hk)) fun _ => hk
    · exact hk

theorem State.darken_kept {q : List Instr} {s : State} (n : Nat) (hk : Kept q s) :
    Kept q (State.darken s n) := by
  unfold State.darken
  try dsimp only
  repeat' (first
    | with_reducible exact hk | with_reducible assumption | with_reducible apply State.setChan_kept
    | with_reducible apply State.undoSample_kept | with_reducible apply Kept.ite | fail_if_no_progress intros | dsimp only
    | fail_if_no_progress refine Kept.of_mk ?_ rfl rfl rfl rfl rfl)

theorem State.chanOff_kept {q : List Instr} {s : State} (n : Nat) (hk : Kept q s) :
    Kept q (State.chanOff s n) := by
  unfold State.chanOff
  try dsimp only
  repeat' (first
    | with_reducible exact hk | with_reducible assumption | with_reducible apply State.barrierTry_kept
    | with_reducible apply State.darken_kept | with_reducible apply State.dropRepairs_kept | with_reducible apply State.dropRun_kept
    | with_reducible apply State.idleLoop_kept | with_reducible apply State.leaveLayer_kept | with_reducible apply State.setBc_kept
    | with_reducible apply State.setChan_kept | with_reducible apply State.wrs_kept | with_reducible apply Kept.foldl
    | with_reducible apply Kept.ite | fail_if_no_progress intros)

theorem State.faultAgain_kept {q : List Instr} {s : State} (n cause : Nat) (hk : Kept q s) :
    Kept q (State.faultAgain s n cause) := by
  unfold State.faultAgain
  try dsimp only
  repeat' (first
    | with_reducible exact hk | with_reducible assumption | with_reducible apply State.putOpen_kept
    | with_reducible apply State.showEvent_kept | with_reducible apply State.wr_kept | with_reducible apply Kept.ite
    | fail_if_no_progress intros | dsimp only | fail_if_no_progress refine Kept.of_mk ?_ rfl rfl rfl rfl rfl | split)

theorem State.chanFault_kept {q : List Instr} {s : State} (n cause : Nat) (hk : Kept q s) :
    Kept q (State.chanFault s n cause) := by
  unfold State.chanFault
  try dsimp only
  repeat' (first
    | with_reducible exact hk | with_reducible assumption | with_reducible apply State.chanOff_kept
    | with_reducible apply State.cutFacet_kept | with_reducible apply State.darken_kept
    | with_reducible apply State.dropRepairs_kept | with_reducible apply State.dropRun_kept
    | with_reducible apply State.faultAgain_kept | with_reducible apply State.finishDue_kept
    | with_reducible apply State.freeEntries_kept | with_reducible apply State.inc_kept | with_reducible apply State.leaveLayer_kept
    | with_reducible apply State.park_kept | with_reducible apply State.raise_kept | with_reducible apply State.raiseExt_kept
    | with_reducible apply State.setChan_kept | with_reducible apply State.underrun_kept
    | with_reducible apply State.unholdLoop_kept | with_reducible apply State.wrs_kept | with_reducible apply Kept.ite
    | fail_if_no_progress intros | dsimp only | fail_if_no_progress refine Kept.of_mk ?_ rfl rfl rfl rfl rfl | split)

theorem State.holdRefused_kept {q : List Instr} {s : State} (n : Nat) (hk : Kept q s) :
    Kept q (State.holdRefused s n) := by
  unfold State.holdRefused
  try dsimp only
  repeat' (first
    | with_reducible exact hk | with_reducible assumption | with_reducible apply State.enqueue_kept
    | with_reducible apply State.holdSeq_kept | with_reducible apply State.raise_kept | with_reducible apply State.setChan_kept
    | with_reducible apply State.wrs_kept | with_reducible apply Kept.ite | fail_if_no_progress intros | dsimp only
    | fail_if_no_progress refine Kept.of_mk ?_ rfl rfl rfl rfl rfl | split)

theorem State.holdTimeout_kept {q : List Instr} {s : State} (n : Nat) (hk : Kept q s) :
    Kept q (State.holdTimeout s n) := by
  unfold State.holdTimeout
  try dsimp only
  repeat' (first
    | with_reducible exact hk | with_reducible assumption | with_reducible apply State.holdSeq_kept
    | with_reducible apply State.setChan_kept)

theorem State.parkRun_kept {q : List Instr} {s : State} (n : Nat) (hk : Kept q s) :
    Kept q (State.parkRun s n) := by
  unfold State.parkRun
  try dsimp only
  repeat' (first
    | with_reducible exact hk | with_reducible assumption | with_reducible apply State.park_kept
    | with_reducible apply State.setChan_kept)

theorem State.stopHere_kept {q : List Instr} {s : State} (n : Nat) (hk : Kept q s) :
    Kept q (State.stopHere s n) := by
  unfold State.stopHere
  try dsimp only
  repeat' (first
    | with_reducible exact hk | with_reducible assumption | with_reducible apply State.chanOff_kept
    | with_reducible apply State.dropRun_kept | with_reducible apply State.parkRun_kept | with_reducible apply Kept.ite
    | fail_if_no_progress intros)

theorem State.boundaryStops_kept {q : List Instr} {s : State} (n b : Nat) (chord : Bool) (hk : Kept q s) :
    Kept q (State.boundaryStops s n b chord) := by
  unfold State.boundaryStops
  try dsimp only
  repeat' (first
    | with_reducible exact hk | with_reducible assumption | with_reducible apply State.chanFault_kept
    | with_reducible apply State.chanOff_kept | with_reducible apply State.fetchCheck_kept
    | with_reducible apply State.holdDebug_kept | with_reducible apply State.holdRefused_kept
    | with_reducible apply State.holdSeq_kept | with_reducible apply State.holdTimeout_kept | with_reducible apply State.inc_kept
    | with_reducible apply State.mismatch_kept | with_reducible apply State.setChan_kept | with_reducible apply State.stopHere_kept
    | with_reducible apply Kept.ite | fail_if_no_progress intros)

theorem State.chordComplete_kept {q : List Instr} {s : State} (n : Nat) (hk : Kept q s) :
    Kept q (State.chordComplete s n) := by
  unfold State.chordComplete
  try dsimp only
  repeat' (first
    | with_reducible exact hk | with_reducible assumption | with_reducible apply State.boundaryStops_kept
    | with_reducible apply State.finishHead_kept | with_reducible apply State.park_kept | with_reducible apply Kept.ite
    | fail_if_no_progress intros | dsimp only | fail_if_no_progress refine Kept.of_mk ?_ rfl rfl rfl rfl rfl | split)

theorem State.endRunFrom_kept {q : List Instr} {s : State} (n t : Nat) (hk : Kept q s) :
    Kept q (State.endRunFrom s n t) := by
  unfold State.endRunFrom
  try dsimp only
  repeat' (first
    | with_reducible exact hk | with_reducible assumption | with_reducible apply State.replaceGate_kept
    | with_reducible apply State.setChan_kept | with_reducible apply Kept.ite | fail_if_no_progress intros | dsimp only
    | fail_if_no_progress refine Kept.of_mk ?_ rfl rfl rfl rfl rfl | split)

theorem execChordComplete_kept {q : List Instr} {s : State} (n : Fin 16) (hk : Kept q s) :
    KeptOut q (execChordComplete n s) := by
  unfold execChordComplete
  try dsimp only
  repeat' (first
    | with_reducible assumption | with_reducible apply live_kept hk | with_reducible apply State.chordComplete_kept
    | with_reducible apply Kept.ite | with_reducible apply Kept.ite2 | fail_if_no_progress intros)

end Sys2Proof.Machine
end

