-- ==== Sys2Proof/Laws/KeptLoops.lean ====
section
/-! SUPPORT. Every operation and every command of permits, heads, loops, triggers, axes and light leaves the queue as it is and keeps the tables canonical: one lemma
for each definition, its name with `_kept` after it. -/

namespace Sys2Proof.Machine

/-! Machine/Permits.lean -/

theorem State.joinEvent_kept {q : List Instr} {s : State} (src code cls inst data : Nat) (f : Nat → Nat) (hk : Kept q s) :
    Kept q (State.joinEvent s src code cls inst data f) := by
  unfold State.joinEvent
  try dsimp only
  repeat' (first
    | with_reducible exact hk | with_reducible assumption | with_reducible apply State.putOpen_kept
    | with_reducible apply State.raise_kept | with_reducible apply State.showEvent_kept | with_reducible apply Kept.ite
    | fail_if_no_progress intros | dsimp only | fail_if_no_progress refine Kept.of_mk ?_ rfl rfl rfl rfl rfl | split)

theorem State.drivePermits_kept {q : List Instr} {s : State} (m : Nat) (hk : Kept q s) :
    Kept q (State.drivePermits s m) := by
  unfold State.drivePermits
  try dsimp only
  repeat' (first
    | with_reducible exact hk | with_reducible assumption | with_reducible apply State.emit_kept
    | with_reducible apply State.pin_kept | with_reducible apply Kept.foldl | with_reducible apply Kept.ite
    | fail_if_no_progress intros)

theorem State.withdraw_kept {q : List Instr} {s : State} (mask cause : Nat) (hk : Kept q s) :
    Kept q (State.withdraw s mask cause) := by
  unfold State.withdraw
  try dsimp only
  repeat' (first
    | with_reducible exact hk | with_reducible assumption | with_reducible apply State.chanFault_kept
    | with_reducible apply State.drivePermits_kept | with_reducible apply State.inc_kept | with_reducible apply State.joinEvent_kept
    | with_reducible apply State.wrs_kept | with_reducible apply Kept.foldl | with_reducible apply Kept.ite
    | fail_if_no_progress intros | dsimp only | fail_if_no_progress refine Kept.of_mk ?_ rfl rfl rfl rfl rfl)

/-! Machine/Head.lean -/

theorem State.takeSetPoints_kept {q : List Instr} {s : State} (n a : Nat) (hk : Kept q s) :
    Kept q (State.takeSetPoints s n a) := by
  unfold State.takeSetPoints
  try dsimp only
  repeat' (first | with_reducible exact hk | with_reducible assumption | with_reducible apply State.setChan_kept)

theorem State.keepPhase_kept {q : List Instr} {s : State} (hk : Kept q s) :
    Kept q (State.keepPhase s) := by
  unfold State.keepPhase
  try dsimp only
  repeat' (first
    | with_reducible exact hk | with_reducible assumption | with_reducible apply Kept.ite | fail_if_no_progress intros | dsimp only
    | fail_if_no_progress refine Kept.of_mk ?_ rfl rfl rfl rfl rfl)

theorem State.setPhase_kept {q : List Instr} {s : State} (p : Nat) (hk : Kept q s) :
    Kept q (State.setPhase s p) := by
  unfold State.setPhase
  try dsimp only
  repeat' (first
    | with_reducible exact hk | with_reducible assumption | with_reducible apply State.keepPhase_kept
    | with_reducible apply State.wr_kept | with_reducible apply Kept.ite | fail_if_no_progress intros)

theorem State.tripState_kept {q : List Instr} {s : State} (m cause : Nat) (hk : Kept q s) :
    Kept q (State.tripState s m cause) := by
  unfold State.tripState
  try dsimp only
  repeat' (first
    | with_reducible exact hk | with_reducible assumption | with_reducible apply State.hold_kept
    | with_reducible apply State.setLoop_kept | with_reducible apply State.setLoopState_kept
    | with_reducible apply State.withdraw_kept | with_reducible apply Kept.ite | fail_if_no_progress intros | dsimp only
    | fail_if_no_progress refine Kept.of_mk ?_ rfl rfl rfl rfl rfl | split)

theorem State.tripLoop_kept {q : List Instr} {s : State} (m cause code : Nat) (value : Int) (hk : Kept q s) :
    Kept q (State.tripLoop s m cause code value) := by
  unfold State.tripLoop
  try dsimp only
  repeat' (first
    | with_reducible exact hk | with_reducible assumption | with_reducible apply State.hold_kept
    | with_reducible apply State.loopEvent_kept | with_reducible apply State.tripState_kept | with_reducible apply Kept.ite
    | fail_if_no_progress intros)

theorem State.missFeedback_kept {q : List Instr} {s : State} (m : Nat) (hk : Kept q s) :
    Kept q (State.missFeedback s m) := by
  unfold State.missFeedback
  try dsimp only
  repeat' (first
    | with_reducible exact hk | with_reducible assumption | with_reducible apply State.inc_kept
    | with_reducible apply State.setLoop_kept | with_reducible apply State.tripLoop_kept | with_reducible apply State.wr_kept
    | with_reducible apply Kept.ite | fail_if_no_progress intros)

/-! Machine/Loops.lean -/

theorem State.repLearn_kept {q : List Instr} {s : State} (i : Nat) (en : Int) (sat : Bool) (hk : Kept q s) :
    Kept q (State.repLearn s i en sat) := by
  unfold State.repLearn
  try dsimp only
  repeat' (first
    | with_reducible exact hk | with_reducible assumption | with_reducible apply State.setRep_kept
    | with_reducible apply State.wr_kept | with_reducible apply Kept.ite | fail_if_no_progress intros)

theorem State.putSetpoint_kept {q : List Instr} {s : State} (m : Nat) (v : Int) (hk : Kept q s) :
    Kept q (State.putSetpoint s m v) := by
  unfold State.putSetpoint
  try dsimp only
  repeat' (first
    | with_reducible exact hk | with_reducible assumption | with_reducible apply State.setLoop_kept
    | with_reducible apply State.wrS_kept)

theorem State.layerMove_kept {q : List Instr} {s : State} (m : Nat) (hk : Kept q s) :
    Kept q (State.layerMove s m) := by
  unfold State.layerMove
  try dsimp only
  repeat' (first
    | with_reducible exact hk | with_reducible assumption | with_reducible apply State.putSetpoint_kept
    | with_reducible apply Kept.ite | fail_if_no_progress intros | dsimp only
    | fail_if_no_progress refine Kept.of_mk ?_ rfl rfl rfl rfl rfl | split)

theorem State.recoatCheck_kept {q : List Instr} {s : State} (m : Nat) (e : Int) (hk : Kept q s) :
    Kept q (State.recoatCheck s m e) := by
  unfold State.recoatCheck
  try dsimp only
  repeat' (first
    | with_reducible exact hk | with_reducible assumption | with_reducible apply State.expose_kept
    | with_reducible apply State.setPhase_kept | with_reducible apply Kept.ite | fail_if_no_progress intros | dsimp only
    | fail_if_no_progress refine Kept.of_mk ?_ rfl rfl rfl rfl rfl | split)

theorem State.freezeCheck_kept {q : List Instr} {s : State} (m : Nat) (y : Int) (cmd : Option Int) (hk : Kept q s) :
    Kept q (State.freezeCheck s m y cmd) := by
  unfold State.freezeCheck
  try dsimp only
  repeat' (first
    | with_reducible exact hk | with_reducible assumption | with_reducible apply State.setLoop_kept
    | with_reducible apply State.tripLoop_kept | with_reducible apply Kept.foldl | with_reducible apply Kept.ite
    | fail_if_no_progress intros | dsimp only | fail_if_no_progress refine Kept.of_mk ?_ rfl rfl rfl rfl rfl | split)

theorem State.oscCheck_kept {q : List Instr} {s : State} (m : Nat) (en : Int) (hk : Kept q s) :
    Kept q (State.oscCheck s m en) := by
  unfold State.oscCheck
  try dsimp only
  repeat' (first
    | with_reducible exact hk | with_reducible assumption | with_reducible apply State.holdLoop_kept
    | with_reducible apply State.inc_kept | with_reducible apply State.loopEvent_kept | with_reducible apply State.setLoop_kept
    | with_reducible apply State.tripState_kept | with_reducible apply State.wr_kept | with_reducible apply Kept.ite
    | fail_if_no_progress intros)

theorem State.followCheck_kept {q : List Instr} {s : State} (m : Nat) (e : Int) (hk : Kept q s) :
    Kept q (State.followCheck s m e) := by
  unfold State.followCheck
  try dsimp only
  repeat' (first
    | with_reducible exact hk | with_reducible assumption | with_reducible apply State.setLoop_kept
    | with_reducible apply State.tripLoop_kept | with_reducible apply Kept.ite | fail_if_no_progress intros)

theorem State.lawSample_kept {q : List Instr} {s : State} (m : Nat) (rraw : Int) (cmd : Option (Option Int)) (hk : Kept q s) :
    Kept q (State.lawSample s m rraw cmd) := by
  unfold State.lawSample
  try dsimp only
  repeat' (first
    | with_reducible exact hk | with_reducible assumption | with_reducible apply State.followCheck_kept
    | with_reducible apply State.freezeCheck_kept | with_reducible apply State.inc_kept | with_reducible apply State.layerMove_kept
    | with_reducible apply State.loopEvent_kept | with_reducible apply State.oscCheck_kept
    | with_reducible apply State.recoatCheck_kept | with_reducible apply State.repLearn_kept
    | with_reducible apply State.setLoop_kept | with_reducible apply State.wr_kept | with_reducible apply State.wrS_kept
    | with_reducible apply Kept.foldl | with_reducible apply Kept.ite | fail_if_no_progress intros)

theorem State.facetSlots_kept {q : List Instr} {s : State} (m n a : Nat) (hk : Kept q s) :
    Kept q (State.facetSlots s m n a) := by
  unfold State.facetSlots
  try dsimp only
  repeat' (first
    | with_reducible exact hk | with_reducible assumption | with_reducible apply State.setRep_kept
    | with_reducible apply State.syncRep_kept | with_reducible apply State.wr_kept | with_reducible apply Kept.foldl
    | with_reducible apply Kept.ite | fail_if_no_progress intros)

theorem State.galvoSample_kept {q : List Instr} {s : State} (m : Nat) (hk : Kept q s) :
    Kept q (State.galvoSample s m) := by
  unfold State.galvoSample
  try dsimp only
  repeat' (first
    | with_reducible exact hk | with_reducible assumption | with_reducible apply State.facetSlots_kept
    | with_reducible apply State.lawSample_kept | with_reducible apply State.setLoop_kept
    | with_reducible apply State.takeSetPoints_kept | with_reducible apply Kept.ite | fail_if_no_progress intros)

theorem State.poolSample_kept {q : List Instr} {s : State} (m : Nat) (hk : Kept q s) :
    Kept q (State.poolSample s m) := by
  unfold State.poolSample
  try dsimp only
  repeat' (first
    | with_reducible exact hk | with_reducible assumption | with_reducible apply State.feed_kept
    | with_reducible apply State.lawSample_kept | with_reducible apply State.missFeedback_kept
    | with_reducible apply State.rampLoop_kept | with_reducible apply State.setLoop_kept | with_reducible apply Kept.ite
    | fail_if_no_progress intros | dsimp only | fail_if_no_progress refine Kept.of_mk ?_ rfl rfl rfl rfl rfl | split)

theorem State.generalSample_kept {q : List Instr} {s : State} (m : Nat) (hk : Kept q s) :
    Kept q (State.generalSample s m) := by
  unfold State.generalSample
  try dsimp only
  repeat' (first
    | with_reducible exact hk | with_reducible assumption | with_reducible apply State.feed_kept
    | with_reducible apply State.lawSample_kept | with_reducible apply State.missFeedback_kept
    | with_reducible apply State.rampLoop_kept | with_reducible apply State.setLoop_kept | with_reducible apply Kept.ite
    | fail_if_no_progress intros)

theorem State.loopSample_kept {q : List Instr} {s : State} (m : Nat) (hk : Kept q s) :
    Kept q (State.loopSample s m) := by
  unfold State.loopSample
  try dsimp only
  repeat' (first
    | with_reducible exact hk | with_reducible assumption | with_reducible apply State.galvoSample_kept
    | with_reducible apply State.generalSample_kept | with_reducible apply State.poolSample_kept | with_reducible apply Kept.ite
    | fail_if_no_progress intros)

theorem State.tellLoop_kept {q : List Instr} {s : State} (m : Nat) (before : Option Nat) (hk : Kept q s) :
    Kept q (State.tellLoop s m before) := by
  unfold State.tellLoop
  try dsimp only
  repeat' (first
    | with_reducible exact hk | with_reducible assumption | with_reducible apply State.tellPartner_kept
    | with_reducible apply Kept.ite | fail_if_no_progress intros)

theorem State.loopDeadline_kept {q : List Instr} {s : State} (m : Nat) (overrun : Bool) (hk : Kept q s) :
    Kept q (State.loopDeadline s m overrun) := by
  unfold State.loopDeadline
  try dsimp only
  repeat' (first
    | with_reducible exact hk | with_reducible assumption | with_reducible apply State.inc_kept
    | with_reducible apply State.loopEvent_kept | with_reducible apply State.wrs_kept | with_reducible apply Kept.ite
    | fail_if_no_progress intros)

theorem State.loopHold_kept {q : List Instr} {s : State} (n : Nat) (hk : Kept q s) :
    Kept q (State.loopHold s n) := by
  unfold State.loopHold
  try dsimp only
  repeat' (first
    | with_reducible exact hk | with_reducible assumption | with_reducible apply State.holdLoop_kept
    | with_reducible apply State.unholdLoop_kept | with_reducible apply Kept.ite | fail_if_no_progress intros)

theorem State.closeHeld_kept {q : List Instr} {s : State} (m : Nat) (hk : Kept q s) :
    Kept q (State.closeHeld s m) := by
  unfold State.closeHeld
  try dsimp only
  repeat' (first
    | with_reducible exact hk | with_reducible assumption | with_reducible apply State.holdLoop_kept
    | with_reducible apply State.loopHold_kept | with_reducible apply State.setLoopState_kept
    | with_reducible apply State.underrun_kept | with_reducible apply Kept.ite | fail_if_no_progress intros)

theorem loopCloseEff_kept {q : List Instr} {s : State} (m : Nat) (hk : Kept q s) :
    Kept q (loopCloseEff m s).2 := by
  unfold loopCloseEff
  try dsimp only
  repeat' (first
    | with_reducible exact hk | with_reducible assumption | with_reducible apply State.closeHeld_kept
    | with_reducible apply State.closeLoop_kept | with_reducible apply State.driveSilent_kept | with_reducible apply State.hold_kept
    | with_reducible apply Kept.ite | with_reducible apply Kept.ite2)

theorem loopHoldEff_kept {q : List Instr} {s : State} (m : Nat) (hk : Kept q s) :
    Kept q (loopHoldEff m s).2 := by
  unfold loopHoldEff
  try dsimp only
  repeat' (first
    | with_reducible exact hk | with_reducible assumption | with_reducible apply State.holdLoop_kept | with_reducible apply Kept.ite
    | with_reducible apply Kept.ite2)

theorem loopOpenEff_kept {q : List Instr} {s : State} (m : Nat) (hk : Kept q s) :
    Kept q (loopOpenEff m s).2 := by
  unfold loopOpenEff
  try dsimp only
  repeat' (first
    | with_reducible exact hk | with_reducible assumption | with_reducible apply State.hold_kept
    | with_reducible apply State.idleLoop_kept | with_reducible apply Kept.ite | with_reducible apply Kept.ite2)

theorem loopResetEff_kept {q : List Instr} {s : State} (m : Nat) (hk : Kept q s) :
    Kept q (loopResetEff m s).2 := by
  unfold loopResetEff
  try dsimp only
  repeat' (first
    | with_reducible exact hk | with_reducible assumption | with_reducible apply State.idleLoop_kept | with_reducible apply Kept.ite
    | with_reducible apply Kept.ite2)

theorem loopTripEff_kept {q : List Instr} {s : State} (m : Nat) (hk : Kept q s) :
    Kept q (loopTripEff m s).2 := by
  unfold loopTripEff
  try dsimp only
  repeat' (first
    | with_reducible exact hk | with_reducible assumption | with_reducible apply State.hold_kept
    | with_reducible apply State.tripLoop_kept | with_reducible apply Kept.ite | with_reducible apply Kept.ite2)

theorem loopControlEff_kept {q : List Instr} {s : State} (m v : Nat) (hk : Kept q s) :
    Kept q (loopControlEff m v s).2 := by
  unfold loopControlEff
  try dsimp only
  repeat' (first
    | with_reducible exact hk | with_reducible assumption | with_reducible apply loopCloseEff_kept
    | with_reducible apply loopHoldEff_kept | with_reducible apply loopOpenEff_kept | with_reducible apply loopResetEff_kept
    | with_reducible apply loopTripEff_kept | with_reducible apply Kept.ite | with_reducible apply Kept.ite2
    | fail_if_no_progress intros | dsimp only | fail_if_no_progress refine Kept.of_mk ?_ rfl rfl rfl rfl rfl | split)

theorem rcClearEff_kept {q : List Instr} {s : State} (i x_v : Nat) (hk : Kept q s) :
    Kept q (rcClearEff i x_v s).2 := by
  unfold rcClearEff
  try dsimp only
  repeat' (first
    | with_reducible exact hk | with_reducible assumption | with_reducible apply State.setRep_kept | with_reducible apply Kept.ite
    | with_reducible apply Kept.ite2)

theorem fbSourceEff_kept {q : List Instr} {s : State} (m v : Nat) (hk : Kept q s) :
    Kept q (fbSourceEff m v s).2 := by
  unfold fbSourceEff
  try dsimp only
  repeat' (first
    | with_reducible exact hk | with_reducible assumption | with_reducible apply State.wr_kept | with_reducible apply Kept.ite
    | with_reducible apply Kept.ite2)

theorem outTargetEff_kept {q : List Instr} {s : State} (m v : Nat) (hk : Kept q s) :
    Kept q (outTargetEff m v s).2 := by
  unfold outTargetEff
  try dsimp only
  repeat' (first
    | with_reducible exact hk | with_reducible assumption | with_reducible apply State.wr_kept | with_reducible apply Kept.ite
    | with_reducible apply Kept.ite2)

theorem setpointEff_kept {q : List Instr} {s : State} (m v : Nat) (hk : Kept q s) :
    Kept q (setpointEff m v s).2 := by
  unfold setpointEff
  try dsimp only
  repeat' (first
    | with_reducible exact hk | with_reducible assumption | with_reducible apply State.putSetpoint_kept
    | with_reducible apply Kept.ite | with_reducible apply Kept.ite2)

theorem loopWriteEff_kept {q : List Instr} {s : State} (m x k v : Nat) (hk : Kept q s) :
    Kept q (loopWriteEff m x k v s).2 := by
  unfold loopWriteEff
  try dsimp only
  repeat' (first
    | with_reducible exact hk | with_reducible assumption | with_reducible apply State.feed_kept
    | with_reducible apply State.wr_kept | with_reducible apply fbSourceEff_kept | with_reducible apply loopControlEff_kept
    | with_reducible apply outTargetEff_kept | with_reducible apply setpointEff_kept | with_reducible apply Kept.ite
    | with_reducible apply Kept.ite2 | fail_if_no_progress intros | dsimp only
    | fail_if_no_progress refine Kept.of_mk ?_ rfl rfl rfl rfl rfl | split)

theorem rcWriteEff_kept {q : List Instr} {s : State} (i k v : Nat) (hk : Kept q s) :
    Kept q (rcWriteEff i k v s).2 := by
  unfold rcWriteEff
  try dsimp only
  repeat' (first
    | with_reducible exact hk | with_reducible assumption | with_reducible apply State.setRep_kept
    | with_reducible apply State.syncRep_kept | with_reducible apply State.wr_kept | with_reducible apply rcClearEff_kept
    | with_reducible apply Kept.ite | with_reducible apply Kept.ite2 | fail_if_no_progress intros | dsimp only
    | fail_if_no_progress refine Kept.of_mk ?_ rfl rfl rfl rfl rfl | split)

theorem execLoopSample_kept {q : List Instr} {s : State} (l : Fin 96) (hk : Kept q s) :
    KeptOut q (execLoopSample l s) := by
  unfold execLoopSample
  try dsimp only
  repeat' (first
    | with_reducible assumption | with_reducible apply live_kept hk | with_reducible apply State.loopSample_kept
    | with_reducible apply State.tellLoop_kept | with_reducible apply Kept.ite | with_reducible apply Kept.ite2
    | fail_if_no_progress intros)

theorem execLoopDeadline_kept {q : List Instr} {s : State} (l : Fin 96) (overrun : Bool) (hk : Kept q s) :
    KeptOut q (execLoopDeadline l overrun s) := by
  unfold execLoopDeadline
  try dsimp only
  repeat' (first
    | with_reducible assumption | with_reducible apply live_kept hk | with_reducible apply State.loopDeadline_kept
    | with_reducible apply Kept.ite | with_reducible apply Kept.ite2 | fail_if_no_progress intros)

theorem execLoopClose_kept {q : List Instr} {s : State} (m : Msg) (l : Fin 96) (hk : Kept q s) :
    KeptOut q (execLoopClose m l s) := by
  unfold execLoopClose
  try dsimp only
  repeat' (first
    | with_reducible assumption | with_reducible apply writeCmd_kept hk | with_reducible apply loopControlEff_kept
    | with_reducible apply Kept.ite | with_reducible apply Kept.ite2 | fail_if_no_progress intros)

theorem execLoopHold_kept {q : List Instr} {s : State} (m : Msg) (l : Fin 96) (hk : Kept q s) :
    KeptOut q (execLoopHold m l s) := by
  unfold execLoopHold
  try dsimp only
  repeat' (first
    | with_reducible assumption | with_reducible apply writeCmd_kept hk | with_reducible apply loopControlEff_kept
    | with_reducible apply Kept.ite | with_reducible apply Kept.ite2 | fail_if_no_progress intros)

theorem execLoopOpen_kept {q : List Instr} {s : State} (m : Msg) (l : Fin 96) (hk : Kept q s) :
    KeptOut q (execLoopOpen m l s) := by
  unfold execLoopOpen
  try dsimp only
  repeat' (first
    | with_reducible assumption | with_reducible apply writeCmd_kept hk | with_reducible apply loopControlEff_kept
    | with_reducible apply Kept.ite | with_reducible apply Kept.ite2 | fail_if_no_progress intros)

theorem execLoopReset_kept {q : List Instr} {s : State} (m : Msg) (l : Fin 96) (hk : Kept q s) :
    KeptOut q (execLoopReset m l s) := by
  unfold execLoopReset
  try dsimp only
  repeat' (first
    | with_reducible assumption | with_reducible apply writeCmd_kept hk | with_reducible apply loopControlEff_kept
    | with_reducible apply Kept.ite | with_reducible apply Kept.ite2 | fail_if_no_progress intros)

theorem execLoopTrip_kept {q : List Instr} {s : State} (m : Msg) (l : Fin 96) (hk : Kept q s) :
    KeptOut q (execLoopTrip m l s) := by
  unfold execLoopTrip
  try dsimp only
  repeat' (first
    | with_reducible assumption | with_reducible apply writeCmd_kept hk | with_reducible apply loopControlEff_kept
    | with_reducible apply Kept.ite | with_reducible apply Kept.ite2 | fail_if_no_progress intros)

theorem execRcClear_kept {q : List Instr} {s : State} (m : Msg) (i : Fin 32) (hk : Kept q s) :
    KeptOut q (execRcClear m i s) := by
  unfold execRcClear
  try dsimp only
  repeat' (first
    | with_reducible assumption | with_reducible apply writeCmd_kept hk | with_reducible apply rcClearEff_kept
    | with_reducible apply Kept.ite | with_reducible apply Kept.ite2 | fail_if_no_progress intros)

/-! Machine/Trigger.lean -/

theorem State.setTrigger_kept {q : List Instr} {s : State} (n : Nat) (t : Trigger) (hk : Kept q s) :
    Kept q (State.setTrigger s n t) := by
  unfold State.setTrigger
  try dsimp only
  repeat' (first
    | with_reducible exact hk | with_reducible assumption | with_reducible apply Kept.ite | fail_if_no_progress intros | dsimp only
    | fail_if_no_progress refine Kept.of_mk ?_ rfl rfl rfl rfl rfl)

theorem State.armTrigger_kept {q : List Instr} {s : State} (n : Nat) (hk : Kept q s) :
    Kept q (State.armTrigger s n) := by
  unfold State.armTrigger
  try dsimp only
  repeat' (first
    | with_reducible exact hk | with_reducible assumption | with_reducible apply State.setTrigger_kept
    | with_reducible apply State.wr_kept | with_reducible apply State.wrs_kept | with_reducible apply Kept.ite
    | fail_if_no_progress intros)

theorem ttArmEff_kept {q : List Instr} {s : State} (n v : Nat) (hk : Kept q s) :
    Kept q (ttArmEff n v s).2 := by
  unfold ttArmEff
  try dsimp only
  repeat' (first
    | with_reducible exact hk | with_reducible assumption | with_reducible apply State.armTrigger_kept
    | with_reducible apply State.setTrigger_kept | with_reducible apply State.wr_kept | with_reducible apply Kept.ite
    | with_reducible apply Kept.ite2)

theorem State.fireEvent_kept {q : List Instr} {s : State} (n : Nat) (late : Bool) (hk : Kept q s) :
    Kept q (State.fireEvent s n late) := by
  unfold State.fireEvent
  try dsimp only
  repeat' (first
    | with_reducible exact hk | with_reducible assumption | with_reducible apply State.putOpen_kept
    | with_reducible apply State.raise_kept | with_reducible apply State.showEvent_kept | with_reducible apply Kept.ite
    | fail_if_no_progress intros | dsimp only | fail_if_no_progress refine Kept.of_mk ?_ rfl rfl rfl rfl rfl | split)

theorem State.fireTrigger_kept {q : List Instr} {s : State} (n : Nat) (hk : Kept q s) :
    Kept q (State.fireTrigger s n) := by
  unfold State.fireTrigger
  try dsimp only
  repeat' (first
    | with_reducible exact hk | with_reducible assumption | with_reducible apply State.fireEvent_kept
    | with_reducible apply State.setTrigger_kept | with_reducible apply State.wr_kept | with_reducible apply State.wrs_kept
    | with_reducible apply Kept.ite | fail_if_no_progress intros)

theorem execTtArm_kept {q : List Instr} {s : State} (m : Msg) (n : Fin 64) (hk : Kept q s) :
    KeptOut q (execTtArm m n s) := by
  unfold execTtArm
  try dsimp only
  repeat' (first
    | with_reducible assumption | with_reducible apply writeCmd_kept hk | with_reducible apply ttArmEff_kept
    | with_reducible apply Kept.ite | with_reducible apply Kept.ite2 | fail_if_no_progress intros)

theorem execTtDisarm_kept {q : List Instr} {s : State} (m : Msg) (n : Fin 64) (hk : Kept q s) :
    KeptOut q (execTtDisarm m n s) := by
  unfold execTtDisarm
  try dsimp only
  repeat' (first
    | with_reducible assumption | with_reducible apply writeCmd_kept hk | with_reducible apply ttArmEff_kept
    | with_reducible apply Kept.ite | with_reducible apply Kept.ite2 | fail_if_no_progress intros)

/-! Machine/Axis.lean -/

theorem State.setAxis_kept {q : List Instr} {s : State} (k : Nat) (x : Axis) (hk : Kept q s) :
    Kept q (State.setAxis s k x) := by
  unfold State.setAxis
  try dsimp only
  repeat' (first
    | with_reducible exact hk | with_reducible assumption | with_reducible apply Kept.ite | fail_if_no_progress intros | dsimp only
    | fail_if_no_progress refine Kept.of_mk ?_ rfl rfl rfl rfl rfl)

theorem State.axisFault_kept {q : List Instr} {s : State} (k bits : Nat) (hk : Kept q s) :
    Kept q (State.axisFault s k bits) := by
  unfold State.axisFault
  try dsimp only
  repeat' (first
    | with_reducible exact hk | with_reducible assumption | with_reducible apply State.raise_kept
    | with_reducible apply State.setAxis_kept | with_reducible apply State.wr_kept | with_reducible apply Kept.ite
    | fail_if_no_progress intros)

theorem State.axisClear_kept {q : List Instr} {s : State} (k bits : Nat) (hk : Kept q s) :
    Kept q (State.axisClear s k bits) := by
  unfold State.axisClear
  try dsimp only
  repeat' (first
    | with_reducible exact hk | with_reducible assumption | with_reducible apply State.raise_kept
    | with_reducible apply State.setAxis_kept | with_reducible apply State.wr_kept | with_reducible apply Kept.ite
    | fail_if_no_progress intros)

theorem State.formPos_kept {q : List Instr} {s : State} (k : Nat) (hk : Kept q s) :
    Kept q (State.formPos s k) := by
  unfold State.formPos
  try dsimp only
  repeat' (first
    | with_reducible exact hk | with_reducible assumption | with_reducible apply State.axisClear_kept
    | with_reducible apply State.axisFault_kept | with_reducible apply State.draw_kept | with_reducible apply State.wr_kept
    | with_reducible apply State.wrS_kept | with_reducible apply Kept.ite | fail_if_no_progress intros)

theorem State.putCount_kept {q : List Instr} {s : State} (k : Nat) (c : Int) (hk : Kept q s) :
    Kept q (State.putCount s k c) := by
  unfold State.putCount
  try dsimp only
  repeat' (first
    | with_reducible exact hk | with_reducible assumption | with_reducible apply State.setAxis_kept
    | with_reducible apply State.wrS_kept)

theorem State.shiftCount_kept {q : List Instr} {s : State} (k : Nat) (d : Int) (preset : Bool) (hk : Kept q s) :
    Kept q (State.shiftCount s k d preset) := by
  unfold State.shiftCount
  try dsimp only
  repeat' (first
    | with_reducible exact hk | with_reducible assumption | with_reducible apply State.setAxis_kept
    | with_reducible apply State.wrS_kept)

theorem State.markAhead_kept {q : List Instr} {s : State} (k : Nat) (hk : Kept q s) :
    Kept q (State.markAhead s k) := by
  unfold State.markAhead
  try dsimp only
  repeat' (first | with_reducible exact hk | with_reducible assumption | with_reducible apply State.setAxis_kept)

theorem State.judge_kept {q : List Instr} {s : State} (k c : Nat) (hk : Kept q s) :
    Kept q (State.judge s k c) := by
  unfold State.judge
  try dsimp only
  repeat' (first
    | with_reducible exact hk | with_reducible assumption | with_reducible apply State.setAxis_kept | with_reducible apply Kept.ite
    | fail_if_no_progress intros)

theorem State.judgeAll_kept {q : List Instr} {s : State} (k : Nat) (hk : Kept q s) :
    Kept q (State.judgeAll s k) := by
  unfold State.judgeAll
  try dsimp only
  repeat' (first
    | with_reducible exact hk | with_reducible assumption | with_reducible apply State.judge_kept | with_reducible apply Kept.foldl
    | with_reducible apply Kept.ite | fail_if_no_progress intros)

theorem State.behindDue_kept {q : List Instr} {s : State} (k : Nat) (hk : Kept q s) :
    Kept q (State.behindDue s k) := by
  unfold State.behindDue
  try dsimp only
  repeat' (first
    | with_reducible exact hk | with_reducible assumption | with_reducible apply State.raise_kept
    | with_reducible apply State.setAxis_kept | with_reducible apply Kept.foldl | with_reducible apply Kept.ite
    | fail_if_no_progress intros)

theorem State.stallFrom_kept {q : List Instr} {s : State} (b : Int) (hk : Kept q s) :
    Kept q (State.stallFrom s b) := by
  unfold State.stallFrom
  try dsimp only
  repeat' (first
    | with_reducible exact hk | with_reducible assumption | with_reducible apply Kept.ite | fail_if_no_progress intros | dsimp only
    | fail_if_no_progress refine Kept.of_mk ?_ rfl rfl rfl rfl rfl)

theorem State.bladeMotion_kept {q : List Instr} {s : State} (k : Nat) (hk : Kept q s) :
    Kept q (State.bladeMotion s k) := by
  unfold State.bladeMotion
  try dsimp only
  repeat' (first
    | with_reducible exact hk | with_reducible assumption | with_reducible apply State.stallFrom_kept
    | with_reducible apply State.wrS_kept | with_reducible apply Kept.ite | fail_if_no_progress intros)

theorem State.aoFollow_kept {q : List Instr} {s : State} (k : Nat) (hk : Kept q s) :
    Kept q (State.aoFollow s k) := by
  unfold State.aoFollow
  try dsimp only
  repeat' (first
    | with_reducible exact hk | with_reducible assumption | with_reducible apply State.emit_kept
    | with_reducible apply State.pin_kept | with_reducible apply State.setAxis_kept | with_reducible apply State.wr_kept
    | with_reducible apply Kept.ite | fail_if_no_progress intros)

theorem State.axisMove_kept {q : List Instr} {s : State} (k : Nat) (d : Int) (hk : Kept q s) :
    Kept q (State.axisMove s k d) := by
  unfold State.axisMove
  try dsimp only
  repeat' (first
    | with_reducible exact hk | with_reducible assumption | with_reducible apply State.aoFollow_kept
    | with_reducible apply State.bladeMotion_kept | with_reducible apply State.formPos_kept
    | with_reducible apply State.markAhead_kept | with_reducible apply State.putCount_kept | with_reducible apply State.setAxis_kept
    | with_reducible apply Kept.ite | fail_if_no_progress intros)

theorem State.axisPair_kept {q : List Instr} {s : State} (k : Nat) (sn cs : Int) (hk : Kept q s) :
    Kept q (State.axisPair s k sn cs) := by
  unfold State.axisPair
  try dsimp only
  repeat' (first
    | with_reducible exact hk | with_reducible assumption | with_reducible apply State.axisMove_kept
    | with_reducible apply State.bladeMotion_kept | with_reducible apply State.formPos_kept
    | with_reducible apply State.markAhead_kept | with_reducible apply State.putCount_kept | with_reducible apply State.setAxis_kept
    | with_reducible apply State.wr_kept | with_reducible apply Kept.ite | fail_if_no_progress intros | dsimp only
    | fail_if_no_progress refine Kept.of_mk ?_ rfl rfl rfl rfl rfl | split)

theorem State.axisMotion_kept {q : List Instr} {s : State} (k : Nat) (i : AxisInput) (hk : Kept q s) :
    Kept q (State.axisMotion s k i) := by
  unfold State.axisMotion
  try dsimp only
  repeat' (first
    | with_reducible exact hk | with_reducible assumption | with_reducible apply State.axisMove_kept
    | with_reducible apply State.axisPair_kept | with_reducible apply Kept.ite | fail_if_no_progress intros | dsimp only
    | fail_if_no_progress refine Kept.of_mk ?_ rfl rfl rfl rfl rfl | split)

theorem axEnableEff_kept {q : List Instr} {s : State} (k v : Nat) (hk : Kept q s) :
    Kept q (axEnableEff k v s).2 := by
  unfold axEnableEff
  try dsimp only
  repeat' (first
    | with_reducible exact hk | with_reducible assumption | with_reducible apply State.bladeMotion_kept
    | with_reducible apply State.formPos_kept | with_reducible apply State.judgeAll_kept | with_reducible apply State.setAxis_kept
    | with_reducible apply State.wr_kept | with_reducible apply State.wrs_kept | with_reducible apply Kept.ite
    | with_reducible apply Kept.ite2)

theorem State.axisReady_kept {q : List Instr} {s : State} (k : Nat) (hk : Kept q s) :
    Kept q (State.axisReady s k) := by
  unfold State.axisReady
  try dsimp only
  repeat' (first
    | with_reducible exact hk | with_reducible assumption | with_reducible apply State.wr_kept | with_reducible apply Kept.ite
    | fail_if_no_progress intros)

theorem State.signalRecovered_kept {q : List Instr} {s : State} (k : Nat) (hk : Kept q s) :
    Kept q (State.signalRecovered s k) := by
  unfold State.signalRecovered
  try dsimp only
  repeat' (first
    | with_reducible exact hk | with_reducible assumption | with_reducible apply State.axisClear_kept
    | with_reducible apply State.axisReady_kept | with_reducible apply Kept.ite | fail_if_no_progress intros)

theorem axAckEff_kept {q : List Instr} {s : State} (k x_v : Nat) (hk : Kept q s) :
    Kept q (axAckEff k x_v s).2 := by
  unfold axAckEff
  try dsimp only
  repeat' (first
    | with_reducible exact hk | with_reducible assumption | with_reducible apply State.wr_kept | with_reducible apply Kept.ite
    | with_reducible apply Kept.ite2)

theorem axPresetEff_kept {q : List Instr} {s : State} (k v : Nat) (hk : Kept q s) :
    Kept q (axPresetEff k v s).2 := by
  unfold axPresetEff
  try dsimp only
  repeat' (first
    | with_reducible exact hk | with_reducible assumption | with_reducible apply State.formPos_kept
    | with_reducible apply State.judgeAll_kept | with_reducible apply State.setAxis_kept
    | with_reducible apply State.shiftCount_kept | with_reducible apply State.wrs_kept | with_reducible apply Kept.ite
    | with_reducible apply Kept.ite2)

theorem State.checkIndex_kept {q : List Instr} {s : State} (k t : Nat) (latch r : Int) (cleared : Bool) (hk : Kept q s) :
    Kept q (State.checkIndex s k t latch r cleared) := by
  unfold State.checkIndex
  try dsimp only
  repeat' (first
    | with_reducible exact hk | with_reducible assumption | with_reducible apply State.raiseAt_kept
    | with_reducible apply State.wrS_kept | with_reducible apply Kept.ite | fail_if_no_progress intros)

theorem State.indexPulse_kept {q : List Instr} {s : State} (k delay : Nat) (hk : Kept q s) :
    Kept q (State.indexPulse s k delay) := by
  unfold State.indexPulse
  try dsimp only
  repeat' (first
    | with_reducible exact hk | with_reducible assumption | with_reducible apply State.aoFollow_kept
    | with_reducible apply State.checkIndex_kept | with_reducible apply State.inc_kept | with_reducible apply State.raiseAt_kept
    | with_reducible apply State.setAxis_kept | with_reducible apply State.wrs_kept | with_reducible apply Kept.ite
    | fail_if_no_progress intros | dsimp only | fail_if_no_progress refine Kept.of_mk ?_ rfl rfl rfl rfl rfl | split)

theorem State.axCorrected_kept {q : List Instr} {s : State} (k : Nat) (hk : Kept q s) :
    Kept q (State.axCorrected s k) := by
  unfold State.axCorrected
  try dsimp only
  repeat' (first
    | with_reducible exact hk | with_reducible assumption | with_reducible apply State.formPos_kept
    | with_reducible apply State.judgeAll_kept | with_reducible apply State.raise_kept | with_reducible apply State.setAxis_kept
    | with_reducible apply State.shiftCount_kept | with_reducible apply State.wr_kept | with_reducible apply Kept.ite
    | fail_if_no_progress intros)

theorem cmpArmEff_kept {q : List Instr} {s : State} (k c v : Nat) (hk : Kept q s) :
    Kept q (cmpArmEff k c v s).2 := by
  unfold cmpArmEff
  try dsimp only
  repeat' (first
    | with_reducible exact hk | with_reducible assumption | with_reducible apply State.judge_kept
    | with_reducible apply State.setAxis_kept | with_reducible apply State.wr_kept | with_reducible apply State.wrs_kept
    | with_reducible apply Kept.ite | with_reducible apply Kept.ite2)

theorem cmpPositionEff_kept {q : List Instr} {s : State} (k c v : Nat) (hk : Kept q s) :
    Kept q (cmpPositionEff k c v s).2 := by
  unfold cmpPositionEff
  try dsimp only
  repeat' (first
    | with_reducible exact hk | with_reducible assumption | with_reducible apply State.judge_kept
    | with_reducible apply State.wr_kept)

theorem State.fireCompare_kept {q : List Instr} {s : State} (k c : Nat) (hk : Kept q s) :
    Kept q (State.fireCompare s k c) := by
  unfold State.fireCompare
  try dsimp only
  repeat' (first
    | with_reducible exact hk | with_reducible assumption | with_reducible apply State.bump_kept
    | with_reducible apply State.inc_kept | with_reducible apply State.raise_kept | with_reducible apply State.setAxis_kept
    | with_reducible apply State.wr_kept | with_reducible apply State.wrS_kept | with_reducible apply Kept.ite
    | fail_if_no_progress intros)

theorem aoEnableEff_kept {q : List Instr} {s : State} (k v : Nat) (hk : Kept q s) :
    Kept q (aoEnableEff k v s).2 := by
  unfold aoEnableEff
  try dsimp only
  repeat' (first
    | with_reducible exact hk | with_reducible assumption | with_reducible apply State.emit_kept
    | with_reducible apply State.pin_kept | with_reducible apply State.setAxis_kept | with_reducible apply State.wrs_kept
    | with_reducible apply Kept.ite | with_reducible apply Kept.ite2 | fail_if_no_progress intros)

theorem State.aoOverspeed_kept {q : List Instr} {s : State} (k : Nat) (hk : Kept q s) :
    Kept q (State.aoOverspeed s k) := by
  unfold State.aoOverspeed
  try dsimp only
  repeat' (first
    | with_reducible exact hk | with_reducible assumption | with_reducible apply State.aoFollow_kept
    | with_reducible apply State.inc_kept | with_reducible apply State.raise_kept | with_reducible apply State.setAxis_kept
    | with_reducible apply Kept.ite | fail_if_no_progress intros)

theorem State.rcsync_kept {q : List Instr} {s : State} (delay : Nat) (hk : Kept q s) :
    Kept q (State.rcsync s delay) := by
  unfold State.rcsync
  try dsimp only
  repeat' (first
    | with_reducible exact hk | with_reducible assumption | with_reducible apply State.bladeMotion_kept
    | with_reducible apply State.raiseAt_kept | with_reducible apply State.stallFrom_kept | with_reducible apply State.wr_kept
    | with_reducible apply State.wrS_kept | with_reducible apply State.wrs_kept | with_reducible apply Kept.ite
    | fail_if_no_progress intros | dsimp only | fail_if_no_progress refine Kept.of_mk ?_ rfl rfl rfl rfl rfl)

theorem State.recoatStall_kept {q : List Instr} {s : State} (hk : Kept q s) :
    Kept q (State.recoatStall s) := by
  unfold State.recoatStall
  try dsimp only
  repeat' (first
    | with_reducible exact hk | with_reducible assumption | with_reducible apply State.hold_kept
    | with_reducible apply State.raise_kept | with_reducible apply State.wr_kept | with_reducible apply Kept.ite
    | fail_if_no_progress intros | dsimp only | fail_if_no_progress refine Kept.of_mk ?_ rfl rfl rfl rfl rfl | split)

theorem recoatCommandEff_kept {q : List Instr} {s : State} (x_v : Nat) (hk : Kept q s) :
    Kept q (recoatCommandEff x_v s).2 := by
  unfold recoatCommandEff
  try dsimp only
  repeat' (first
    | with_reducible exact hk | with_reducible assumption | with_reducible apply State.putSetpoint_kept
    | with_reducible apply State.stallFrom_kept | with_reducible apply State.wr_kept | with_reducible apply Kept.ite
    | with_reducible apply Kept.ite2 | fail_if_no_progress intros | dsimp only
    | fail_if_no_progress refine Kept.of_mk ?_ rfl rfl rfl rfl rfl | split)

theorem State.axisLatch_kept {q : List Instr} {s : State} (k : Nat) (hk : Kept q s) :
    Kept q (State.axisLatch s k) := by
  unfold State.axisLatch
  try dsimp only
  repeat' (first
    | with_reducible exact hk | with_reducible assumption | with_reducible apply State.raise_kept
    | with_reducible apply State.wrs_kept)

theorem indexCorrectEff_kept {q : List Instr} {s : State} (k v : Nat) (hk : Kept q s) :
    Kept q (indexCorrectEff k v s).2 := by
  unfold indexCorrectEff
  try dsimp only
  repeat' (first
    | with_reducible exact hk | with_reducible assumption | with_reducible apply State.wr_kept | with_reducible apply Kept.ite
    | with_reducible apply Kept.ite2 | fail_if_no_progress intros)

theorem State.axisTick_kept {q : List Instr} {s : State} (hk : Kept q s) :
    Kept q (State.axisTick s) := by
  unfold State.axisTick
  try dsimp only
  repeat' (first
    | with_reducible exact hk | with_reducible assumption | with_reducible apply State.aoFollow_kept
    | with_reducible apply State.axisReady_kept | with_reducible apply State.behindDue_kept | with_reducible apply Kept.foldl
    | with_reducible apply Kept.ite | fail_if_no_progress intros)

theorem execAxisMotion_kept {q : List Instr} {s : State} (k : Fin 4) (i : AxisInput) (hk : Kept q s) :
    KeptOut q (execAxisMotion k i s) := by
  unfold execAxisMotion
  try dsimp only
  repeat' (first
    | with_reducible assumption | with_reducible apply live_kept hk | with_reducible apply State.axisMotion_kept
    | with_reducible apply Kept.ite | with_reducible apply Kept.ite2 | fail_if_no_progress intros)

theorem execAxEnable_kept {q : List Instr} {s : State} (m : Msg) (k : Fin 4) (v : BitVec 8) (hk : Kept q s) :
    KeptOut q (execAxEnable m k v s) := by
  unfold execAxEnable
  try dsimp only
  repeat' (first
    | with_reducible assumption | with_reducible apply writeCmd_kept hk | with_reducible apply axEnableEff_kept
    | with_reducible apply Kept.ite | with_reducible apply Kept.ite2 | fail_if_no_progress intros)

theorem execSignalFault_kept {q : List Instr} {s : State} (k : Fin 4) (bits : BitVec 4) (hk : Kept q s) :
    KeptOut q (execSignalFault k bits s) := by
  unfold execSignalFault
  try dsimp only
  repeat' (first
    | with_reducible assumption | with_reducible apply live_kept hk | with_reducible apply State.axisFault_kept
    | with_reducible apply Kept.ite | with_reducible apply Kept.ite2 | fail_if_no_progress intros)

theorem execSignalRecovered_kept {q : List Instr} {s : State} (k : Fin 4) (hk : Kept q s) :
    KeptOut q (execSignalRecovered k s) := by
  unfold execSignalRecovered
  try dsimp only
  repeat' (first
    | with_reducible assumption | with_reducible apply live_kept hk | with_reducible apply State.signalRecovered_kept
    | with_reducible apply Kept.ite | with_reducible apply Kept.ite2 | fail_if_no_progress intros)

theorem execAxFaultAck_kept {q : List Instr} {s : State} (m : Msg) (k : Fin 4) (hk : Kept q s) :
    KeptOut q (execAxFaultAck m k s) := by
  unfold execAxFaultAck
  try dsimp only
  repeat' (first
    | with_reducible assumption | with_reducible apply writeCmd_kept hk | with_reducible apply axAckEff_kept
    | with_reducible apply Kept.ite | with_reducible apply Kept.ite2 | fail_if_no_progress intros)

theorem execAxCountPreset_kept {q : List Instr} {s : State} (m : Msg) (k : Fin 4) (v : BitVec 64) (hk : Kept q s) :
    KeptOut q (execAxCountPreset m k v s) := by
  unfold execAxCountPreset
  try dsimp only
  repeat' (first
    | with_reducible assumption | with_reducible apply writeCmd_kept hk | with_reducible apply axPresetEff_kept
    | with_reducible apply Kept.ite | with_reducible apply Kept.ite2 | fail_if_no_progress intros)

theorem execIndex_kept {q : List Instr} {s : State} (k : Fin 4) (delay : BitVec 8) (hk : Kept q s) :
    KeptOut q (execIndex k delay s) := by
  unfold execIndex
  try dsimp only
  repeat' (first
    | with_reducible assumption | with_reducible apply live_kept hk | with_reducible apply State.indexPulse_kept
    | with_reducible apply Kept.ite | with_reducible apply Kept.ite2 | fail_if_no_progress intros)

theorem execAxCorrected_kept {q : List Instr} {s : State} (k : Fin 4) (hk : Kept q s) :
    KeptOut q (execAxCorrected k s) := by
  unfold execAxCorrected
  try dsimp only
  repeat' (first
    | with_reducible assumption | with_reducible apply live_kept hk | with_reducible apply State.axCorrected_kept
    | with_reducible apply Kept.ite | with_reducible apply Kept.ite2 | fail_if_no_progress intros)

theorem execCmpArm_kept {q : List Instr} {s : State} (m : Msg) (k : Fin 4) (c : Fin 8) (hk : Kept q s) :
    KeptOut q (execCmpArm m k c s) := by
  unfold execCmpArm
  try dsimp only
  repeat' (first
    | with_reducible assumption | with_reducible apply writeCmd_kept hk | with_reducible apply cmpArmEff_kept
    | with_reducible apply Kept.ite | with_reducible apply Kept.ite2 | fail_if_no_progress intros)

theorem execCmpDisarm_kept {q : List Instr} {s : State} (m : Msg) (k : Fin 4) (c : Fin 8) (hk : Kept q s) :
    KeptOut q (execCmpDisarm m k c s) := by
  unfold execCmpDisarm
  try dsimp only
  repeat' (first
    | with_reducible assumption | with_reducible apply writeCmd_kept hk | with_reducible apply cmpArmEff_kept
    | with_reducible apply Kept.ite | with_reducible apply Kept.ite2 | fail_if_no_progress intros)

theorem execAoEnable_kept {q : List Instr} {s : State} (m : Msg) (k : Fin 4) (v : BitVec 8) (hk : Kept q s) :
    KeptOut q (execAoEnable m k v s) := by
  unfold execAoEnable
  try dsimp only
  repeat' (first
    | with_reducible assumption | with_reducible apply writeCmd_kept hk | with_reducible apply aoEnableEff_kept
    | with_reducible apply Kept.ite | with_reducible apply Kept.ite2 | fail_if_no_progress intros)

theorem execAoOverspeed_kept {q : List Instr} {s : State} (k : Fin 4) (hk : Kept q s) :
    KeptOut q (execAoOverspeed k s) := by
  unfold execAoOverspeed
  try dsimp only
  repeat' (first
    | with_reducible assumption | with_reducible apply live_kept hk | with_reducible apply State.aoOverspeed_kept
    | with_reducible apply Kept.ite | with_reducible apply Kept.ite2 | fail_if_no_progress intros)

theorem execRcsync_kept {q : List Instr} {s : State} (delay : Nat) (hk : Kept q s) :
    KeptOut q (execRcsync delay s) := by
  unfold execRcsync
  try dsimp only
  repeat' (first
    | with_reducible assumption | with_reducible apply live_kept hk | with_reducible apply State.rcsync_kept
    | with_reducible apply Kept.ite | with_reducible apply Kept.ite2 | fail_if_no_progress intros)

theorem execRecoatStall_kept {q : List Instr} {s : State} (hk : Kept q s) :
    KeptOut q (execRecoatStall s) := by
  unfold execRecoatStall
  try dsimp only
  repeat' (first | with_reducible assumption | with_reducible apply live_kept hk | with_reducible apply State.recoatStall_kept)

theorem execRecoatCommand_kept {q : List Instr} {s : State} (m : Msg) (hk : Kept q s) :
    KeptOut q (execRecoatCommand m s) := by
  unfold execRecoatCommand
  try dsimp only
  repeat' (first
    | with_reducible assumption | with_reducible apply writeCmd_kept hk | with_reducible apply recoatCommandEff_kept
    | with_reducible apply Kept.ite | with_reducible apply Kept.ite2 | fail_if_no_progress intros)

/-! Machine/Light.lean -/

theorem State.setSegStatus_kept {q : List Instr} {s : State} (seg v : Nat) (hk : Kept q s) :
    Kept q (State.setSegStatus s seg v) := by
  unfold State.setSegStatus
  try dsimp only
  repeat' (first | with_reducible exact hk | with_reducible assumption | with_reducible apply State.wr_kept)

theorem State.lightEvent_kept {q : List Instr} {s : State} (t src code cls num detail : Nat) (hk : Kept q s) :
    Kept q (State.lightEvent s t src code cls num detail) := by
  unfold State.lightEvent
  try dsimp only
  repeat' (first | with_reducible exact hk | with_reducible assumption | with_reducible apply State.raiseAt_kept)

theorem State.undiagnose_kept {q : List Instr} {s : State} (seg : Nat) (hk : Kept q s) :
    Kept q (State.undiagnose s seg) := by
  unfold State.undiagnose
  try dsimp only
  repeat' (first
    | with_reducible exact hk | with_reducible assumption | with_reducible apply State.lightEvent_kept
    | with_reducible apply State.setSegStatus_kept | with_reducible apply Kept.ite | fail_if_no_progress intros)

theorem State.countSlot_kept {q : List Instr} {s : State} (r : Nat) (hk : Kept q s) :
    Kept q (State.countSlot s r) := by
  unfold State.countSlot
  try dsimp only
  repeat' (first
    | with_reducible exact hk | with_reducible assumption | with_reducible apply State.undiagnose_kept
    | with_reducible apply Kept.foldl | with_reducible apply Kept.ite | fail_if_no_progress intros | dsimp only
    | fail_if_no_progress refine Kept.of_mk ?_ rfl rfl rfl rfl rfl)

theorem State.lightRow_kept {q : List Instr} {s : State} (t r : Nat) (on : Nat → Nat) (hk : Kept q s) :
    Kept q (State.lightRow s t r on) := by
  unfold State.lightRow
  try dsimp only
  repeat' (first
    | with_reducible exact hk | with_reducible assumption | with_reducible apply State.emit_kept
    | with_reducible apply State.pin_kept | with_reducible apply Kept.foldl | with_reducible apply Kept.ite
    | fail_if_no_progress intros | dsimp only | fail_if_no_progress refine Kept.of_mk ?_ rfl rfl rfl rfl rfl)

theorem State.cutLight_kept {q : List Instr} {s : State} (hk : Kept q s) :
    Kept q (State.cutLight s) := by
  unfold State.cutLight
  try dsimp only
  repeat' (first
    | with_reducible exact hk | with_reducible assumption | with_reducible apply State.emit_kept
    | with_reducible apply State.pin_kept | with_reducible apply Kept.foldl | with_reducible apply Kept.ite
    | fail_if_no_progress intros | dsimp only | fail_if_no_progress refine Kept.of_mk ?_ rfl rfl rfl rfl rfl)

theorem State.rowSlot_kept {q : List Instr} {s : State} (hk : Kept q s) :
    Kept q (State.rowSlot s) := by
  unfold State.rowSlot
  try dsimp only
  repeat' (first
    | with_reducible exact hk | with_reducible assumption | with_reducible apply State.countSlot_kept
    | with_reducible apply State.lightRow_kept | with_reducible apply Kept.ite | fail_if_no_progress intros | dsimp only
    | fail_if_no_progress refine Kept.of_mk ?_ rfl rfl rfl rfl rfl | split)

theorem State.flashOver_kept {q : List Instr} {s : State} (f next : Nat) (hk : Kept q s) :
    Kept q (State.flashOver s f next) := by
  unfold State.flashOver
  try dsimp only
  repeat' (first
    | with_reducible exact hk | with_reducible assumption | with_reducible apply State.inc_kept
    | with_reducible apply State.lightEvent_kept | with_reducible apply State.wr_kept | with_reducible apply Kept.ite
    | fail_if_no_progress intros | dsimp only | fail_if_no_progress refine Kept.of_mk ?_ rfl rfl rfl rfl rfl)

theorem State.fireFlash_kept {q : List Instr} {s : State} (f : Nat) (hk : Kept q s) :
    Kept q (State.fireFlash s f) := by
  unfold State.fireFlash
  try dsimp only
  repeat' (first
    | with_reducible exact hk | with_reducible assumption | with_reducible apply State.cutLight_kept
    | with_reducible apply State.flashOver_kept | with_reducible apply State.inc_kept | with_reducible apply State.lightEvent_kept
    | with_reducible apply State.wrs_kept | with_reducible apply Kept.ite | fail_if_no_progress intros | dsimp only
    | fail_if_no_progress refine Kept.of_mk ?_ rfl rfl rfl rfl rfl)

theorem State.flashDone_kept {q : List Instr} {s : State} (hk : Kept q s) :
    Kept q (State.flashDone s) := by
  unfold State.flashDone
  try dsimp only
  repeat' (first
    | with_reducible exact hk | with_reducible assumption | with_reducible apply State.flashOver_kept
    | with_reducible apply Kept.ite | fail_if_no_progress intros | dsimp only
    | fail_if_no_progress refine Kept.of_mk ?_ rfl rfl rfl rfl rfl | split)

theorem State.startScan_kept {q : List Instr} {s : State} (hk : Kept q s) :
    Kept q (State.startScan s) := by
  unfold State.startScan
  try dsimp only
  repeat' (first
    | with_reducible exact hk | with_reducible assumption | with_reducible apply State.undiagnose_kept
    | with_reducible apply State.wr_kept | with_reducible apply Kept.foldl | with_reducible apply Kept.ite
    | fail_if_no_progress intros | dsimp only | fail_if_no_progress refine Kept.of_mk ?_ rfl rfl rfl rfl rfl)

theorem lmEnableEff_kept {q : List Instr} {s : State} (v : Nat) (hk : Kept q s) :
    Kept q (lmEnableEff v s).2 := by
  unfold lmEnableEff
  try dsimp only
  repeat' (first
    | with_reducible exact hk | with_reducible assumption | with_reducible apply State.cutLight_kept
    | with_reducible apply State.flashOver_kept | with_reducible apply State.startScan_kept | with_reducible apply State.wr_kept
    | with_reducible apply Kept.ite | with_reducible apply Kept.ite2 | fail_if_no_progress intros | dsimp only
    | fail_if_no_progress refine Kept.of_mk ?_ rfl rfl rfl rfl rfl | split)

theorem lmTimingEff_kept {q : List Instr} {s : State} (key v : Nat) (hk : Kept q s) :
    Kept q (lmTimingEff key v s).2 := by
  unfold lmTimingEff
  try dsimp only
  repeat' (first | with_reducible exact hk | with_reducible assumption | with_reducible apply State.wr_kept)

theorem State.diagnoseSegment_kept {q : List Instr} {s : State} (seg result : Nat) (hk : Kept q s) :
    Kept q (State.diagnoseSegment s seg result) := by
  unfold State.diagnoseSegment
  try dsimp only
  repeat' (first
    | with_reducible exact hk | with_reducible assumption | with_reducible apply State.inc_kept
    | with_reducible apply State.lightEvent_kept | with_reducible apply State.setSegStatus_kept | with_reducible apply Kept.ite
    | fail_if_no_progress intros | dsimp only | fail_if_no_progress refine Kept.of_mk ?_ rfl rfl rfl rfl rfl)

theorem State.lampHold_kept {q : List Instr} {s : State} (hk : Kept q s) :
    Kept q (State.lampHold s) := by
  unfold State.lampHold
  try dsimp only
  repeat' (first
    | with_reducible exact hk | with_reducible assumption | with_reducible apply State.wr_kept | with_reducible apply Kept.ite
    | fail_if_no_progress intros)

theorem State.lampFail_kept {q : List Instr} {s : State} (w : Nat) (hk : Kept q s) :
    Kept q (State.lampFail s w) := by
  unfold State.lampFail
  try dsimp only
  repeat' (first
    | with_reducible exact hk | with_reducible assumption | with_reducible apply State.inc_kept
    | with_reducible apply State.lightEvent_kept | with_reducible apply State.withdraw_kept | with_reducible apply State.wr_kept
    | with_reducible apply Kept.ite | fail_if_no_progress intros)

theorem State.setLamp_kept {q : List Instr} {s : State} (w : Nat) (x : Lamp) (hk : Kept q s) :
    Kept q (State.setLamp s w x) := by
  unfold State.setLamp
  try dsimp only
  repeat' (first
    | with_reducible exact hk | with_reducible assumption | with_reducible apply Kept.ite | fail_if_no_progress intros | dsimp only
    | fail_if_no_progress refine Kept.of_mk ?_ rfl rfl rfl rfl rfl)

theorem State.diagnoseLamp_kept {q : List Instr} {s : State} (w result : Nat) (hk : Kept q s) :
    Kept q (State.diagnoseLamp s w result) := by
  unfold State.diagnoseLamp
  try dsimp only
  repeat' (first
    | with_reducible exact hk | with_reducible assumption | with_reducible apply State.lampFail_kept
    | with_reducible apply State.lampHold_kept | with_reducible apply State.lightEvent_kept
    | with_reducible apply State.setLamp_kept | with_reducible apply State.wr_kept | with_reducible apply Kept.ite
    | fail_if_no_progress intros)

theorem State.lampOverdue_kept {q : List Instr} {s : State} (w : Nat) (hk : Kept q s) :
    Kept q (State.lampOverdue s w) := by
  unfold State.lampOverdue
  try dsimp only
  repeat' (first
    | with_reducible exact hk | with_reducible assumption | with_reducible apply State.lampFail_kept
    | with_reducible apply State.wr_kept | with_reducible apply Kept.ite | fail_if_no_progress intros)

theorem wlAckEff_kept {q : List Instr} {s : State} (w x_v : Nat) (hk : Kept q s) :
    Kept q (wlAckEff w x_v s).2 := by
  unfold wlAckEff
  try dsimp only
  repeat' (first
    | with_reducible exact hk | with_reducible assumption | with_reducible apply State.setLamp_kept | with_reducible apply Kept.ite
    | with_reducible apply Kept.ite2)

theorem State.driveLamp_kept {q : List Instr} {s : State} (w : Nat) (hk : Kept q s) :
    Kept q (State.driveLamp s w) := by
  unfold State.driveLamp
  try dsimp only
  repeat' (first | with_reducible exact hk | with_reducible assumption | with_reducible apply State.emit_kept)

theorem wlModeEff_kept {q : List Instr} {s : State} (w v : Nat) (hk : Kept q s) :
    Kept q (wlModeEff w v s).2 := by
  unfold wlModeEff
  try dsimp only
  repeat' (first
    | with_reducible exact hk | with_reducible assumption | with_reducible apply State.driveLamp_kept
    | with_reducible apply State.lampFail_kept | with_reducible apply State.setLamp_kept | with_reducible apply State.wr_kept
    | with_reducible apply Kept.ite | with_reducible apply Kept.ite2 | fail_if_no_progress intros)

theorem lampEntryEff_kept {q : List Instr} {s : State} (w k v : Nat) (hk : Kept q s) :
    Kept q (lampEntryEff w k v s).2 := by
  unfold lampEntryEff
  try dsimp only
  repeat' (first
    | with_reducible exact hk | with_reducible assumption | with_reducible apply State.driveLamp_kept
    | with_reducible apply State.wr_kept | with_reducible apply Kept.ite | with_reducible apply Kept.ite2)

theorem State.policyChanged_kept {q : List Instr} {s : State} (old : Nat) (hk : Kept q s) :
    Kept q (State.policyChanged s old) := by
  unfold State.policyChanged
  try dsimp only
  repeat' (first
    | with_reducible exact hk | with_reducible assumption | with_reducible apply State.withdraw_kept
    | with_reducible apply State.wr_kept | with_reducible apply Kept.ite | fail_if_no_progress intros)

theorem execRowSlot_kept {q : List Instr} {s : State} (hk : Kept q s) :
    KeptOut q (execRowSlot s) := by
  unfold execRowSlot
  try dsimp only
  repeat' (first | with_reducible assumption | with_reducible apply live_kept hk | with_reducible apply State.rowSlot_kept)

theorem execFlashDone_kept {q : List Instr} {s : State} (hk : Kept q s) :
    KeptOut q (execFlashDone s) := by
  unfold execFlashDone
  try dsimp only
  repeat' (first | with_reducible assumption | with_reducible apply live_kept hk | with_reducible apply State.flashDone_kept)

theorem execLmEnable_kept {q : List Instr} {s : State} (m : Msg) (v : BitVec 8) (hk : Kept q s) :
    KeptOut q (execLmEnable m v s) := by
  unfold execLmEnable
  try dsimp only
  repeat' (first
    | with_reducible assumption | with_reducible apply writeCmd_kept hk | with_reducible apply lmEnableEff_kept
    | with_reducible apply Kept.ite | with_reducible apply Kept.ite2 | fail_if_no_progress intros)

theorem execDiagnosis_kept {q : List Instr} {s : State} (what : Lit) (result : BitVec 2) (hk : Kept q s) :
    KeptOut q (execDiagnosis what result s) := by
  unfold execDiagnosis
  try dsimp only
  repeat' (first
    | with_reducible assumption | with_reducible apply live_kept hk | with_reducible apply State.diagnoseLamp_kept
    | with_reducible apply State.diagnoseSegment_kept | with_reducible apply Kept.ite | with_reducible apply Kept.ite2
    | fail_if_no_progress intros | dsimp only | fail_if_no_progress refine Kept.of_mk ?_ rfl rfl rfl rfl rfl | split)

theorem execLampOverdue_kept {q : List Instr} {s : State} (w : Fin 4) (hk : Kept q s) :
    KeptOut q (execLampOverdue w s) := by
  unfold execLampOverdue
  try dsimp only
  repeat' (first
    | with_reducible assumption | with_reducible apply live_kept hk | with_reducible apply State.lampOverdue_kept
    | with_reducible apply Kept.ite | with_reducible apply Kept.ite2 | fail_if_no_progress intros)

theorem execWlAck_kept {q : List Instr} {s : State} (m : Msg) (w : Fin 4) (hk : Kept q s) :
    KeptOut q (execWlAck m w s) := by
  unfold execWlAck
  try dsimp only
  repeat' (first
    | with_reducible assumption | with_reducible apply writeCmd_kept hk | with_reducible apply wlAckEff_kept
    | with_reducible apply Kept.ite | with_reducible apply Kept.ite2 | fail_if_no_progress intros)

theorem execWlMode_kept {q : List Instr} {s : State} (m : Msg) (w : Fin 4) (v : BitVec 8) (hk : Kept q s) :
    KeptOut q (execWlMode m w v s) := by
  unfold execWlMode
  try dsimp only
  repeat' (first
    | with_reducible assumption | with_reducible apply writeCmd_kept hk | with_reducible apply wlModeEff_kept
    | with_reducible apply Kept.ite | with_reducible apply Kept.ite2 | fail_if_no_progress intros)

end Sys2Proof.Machine
end

