-- ==== Sys2Proof/Laws/KeptSeq.lean ====
section
/-! SUPPORT. Every operation and every command of sharing, the pool, sequencers, the bed engine and the fleet leaves the queue as it is and keeps the tables canonical: one lemma
for each definition, its name with `_kept` after it. -/

namespace Sys2Proof.Machine

/-! Machine/Share.lean -/

theorem State.dwellAt_kept {q : List Instr} {s : State} (n limit : Nat) (p : Option (Int × Int)) (a : Nat) (hk : Kept q s) :
    Kept q (State.dwellAt s n limit p a).2 := by
  unfold State.dwellAt
  try dsimp only
  repeat' (first
    | with_reducible exact hk | with_reducible assumption | with_reducible apply State.dwellRead_kept
    | with_reducible apply Kept.ite | with_reducible apply Kept.ite2 | fail_if_no_progress intros | dsimp only
    | fail_if_no_progress refine Kept.of_mk ?_ rfl rfl rfl rfl rfl | split)

theorem State.addRun_kept {q : List Instr} {s : State} (n addr : Nat) (ps : List Planned) (item : Option (Nat × Item)) (hk : Kept q s) :
    Kept q (State.addRun s n addr ps item) := by
  unfold State.addRun
  try dsimp only
  repeat' (first
    | with_reducible exact hk | with_reducible assumption | with_reducible apply State.placeGates_kept
    | with_reducible apply State.setChan_kept | with_reducible apply State.syncHeld_kept | with_reducible apply State.wr_kept)

theorem State.startFacet_kept {q : List Instr} {s : State} (n : Nat) (ch : Chord) (after : Option Cursor) (item : Option (Nat × Item)) (a : Nat) (p0 : PlanAt) (pre : Option Pass) (hk : Kept q s) :
    Kept q (State.startFacet s n ch after item a p0 pre) := by
  unfold State.startFacet
  try dsimp only
  repeat' (first
    | with_reducible exact hk | with_reducible assumption | with_reducible apply State.countBeats_kept
    | with_reducible apply State.dropHeld_kept | with_reducible apply State.dropPins_kept | with_reducible apply State.retire_kept
    | with_reducible apply State.setChan_kept | with_reducible apply State.syncHeld_kept | with_reducible apply State.syncSlots_kept
    | with_reducible apply State.useCommit_kept | with_reducible apply State.wr_kept | with_reducible apply Kept.ite
    | fail_if_no_progress intros | dsimp only | fail_if_no_progress refine Kept.of_mk ?_ rfl rfl rfl rfl rfl | split)

theorem State.grantRun_kept {q : List Instr} {s : State} (n a : Nat) (p0 : PlanAt) (chs : List (Chord × Option Cursor)) (item : Option (Nat × Item)) (next : Option Chord) (hk : Kept q s) :
    Kept q (State.grantRun s n a p0 chs item next) := by
  unfold State.grantRun
  try dsimp only
  repeat' (first
    | with_reducible exact hk | with_reducible assumption | with_reducible apply State.addRun_kept
    | with_reducible apply State.startFacet_kept | with_reducible apply Kept.ite | fail_if_no_progress intros | dsimp only
    | fail_if_no_progress refine Kept.of_mk ?_ rfl rfl rfl rfl rfl | split)

theorem State.note_kept {q : List Instr} {s : State} (v : Verdict) (hk : Kept q s) :
    Kept q (State.note s v) := by
  unfold State.note
  try dsimp only
  repeat' (first
    | with_reducible exact hk | with_reducible assumption | with_reducible apply Kept.ite | fail_if_no_progress intros | dsimp only
    | fail_if_no_progress refine Kept.of_mk ?_ rfl rfl rfl rfl rfl)

theorem State.waitFor_kept {q : List Instr} {s : State} (n a test blk : Nat) (d : Cand) (claim : Bool) (hk : Kept q s) :
    Kept q (State.waitFor s n a test blk d claim) := by
  unfold State.waitFor
  try dsimp only
  repeat' (first
    | with_reducible exact hk | with_reducible assumption | with_reducible apply State.inc_kept
    | with_reducible apply State.note_kept | with_reducible apply State.setChan_kept | with_reducible apply State.syncSlots_kept
    | with_reducible apply State.wrs_kept | with_reducible apply Kept.ite | fail_if_no_progress intros)

theorem State.countForced_kept {q : List Instr} {s : State} (n addr : Nat) (hk : Kept q s) :
    Kept q (State.countForced s n addr) := by
  unfold State.countForced
  try dsimp only
  repeat' (first
    | with_reducible exact hk | with_reducible assumption | with_reducible apply State.inc_kept
    | with_reducible apply State.raise_kept)

theorem State.dwellDecide_kept {q : List Instr} {s : State} (n : Nat) (d : Cand) (own : Bool) (timeout : Nat) (hk : Kept q s) :
    Kept q (State.dwellDecide s n d own timeout).2.2.2 := by
  unfold State.dwellDecide
  try dsimp only
  repeat' (first
    | with_reducible exact hk | with_reducible assumption | with_reducible apply State.inc_kept | with_reducible apply Kept.ite
    | with_reducible apply Kept.ite2 | fail_if_no_progress intros | dsimp only
    | fail_if_no_progress refine Kept.of_mk ?_ rfl rfl rfl rfl rfl | split)

theorem State.granted_kept {q : List Instr} {s : State} (n : Nat) (forced : Bool) (addr lune item : Nat) (hk : Kept q s) :
    Kept q (State.granted s n forced addr lune item) := by
  unfold State.granted
  try dsimp only
  repeat' (first
    | with_reducible exact hk | with_reducible assumption | with_reducible apply State.countForced_kept
    | with_reducible apply State.noWait_kept | with_reducible apply State.note_kept | with_reducible apply Kept.ite
    | fail_if_no_progress intros)

theorem State.decideRun_kept {q : List Instr} {s : State} (n a : Nat) (d : Cand) (chs : List (Chord × Option Cursor)) (go : State → State) (hk : Kept q s) (hf : ∀ s, Kept q s → Kept q (go s)) :
    Kept q (State.decideRun s n a d chs go) := by
  unfold State.decideRun
  try dsimp only
  repeat' (first
    | with_reducible exact hk | with_reducible assumption | with_reducible apply State.dwellAt_kept
    | with_reducible apply State.dwellDecide_kept | with_reducible apply State.granted_kept
    | with_reducible apply State.waitFor_kept | with_reducible apply hf | with_reducible apply Kept.ite | fail_if_no_progress intros
    | dsimp only | fail_if_no_progress refine Kept.of_mk ?_ rfl rfl rfl rfl rfl | split)

theorem State.groupPick_kept {q : List Instr} {s : State} (n a limit : Nat) (starts : List (Option (Int × Int))) (hk : Kept q s) :
    Kept q (State.groupPick s n a limit starts).2 := by
  unfold State.groupPick
  refine Kept.foldl2 hk fun a i h => ?_
  split
  · exact h
  · exact State.dwellAt_kept _ _ _ _ h

theorem State.decideGroup_kept {q : List Instr} {s : State} (n a : Nat) (d : Cand) (hk : Kept q s) :
    Kept q (State.decideGroup s n a d) := by
  unfold State.decideGroup
  try dsimp only
  repeat' (first
    | with_reducible exact hk | with_reducible assumption | with_reducible apply State.bump_kept
    | with_reducible apply State.dwellDecide_kept | with_reducible apply State.grantRun_kept
    | with_reducible apply State.granted_kept | with_reducible apply State.groupPick_kept | with_reducible apply State.setChan_kept
    | with_reducible apply State.waitFor_kept | with_reducible apply Kept.ite | fail_if_no_progress intros | dsimp only
    | fail_if_no_progress refine Kept.of_mk ?_ rfl rfl rfl rfl rfl | split)

theorem State.decideClaim_kept {q : List Instr} {s : State} (n a : Nat) (any : Bool) (lune : Nat) (par : Params) (d : Cand) (hk : Kept q s) :
    Kept q (State.decideClaim s n a any lune par d) := by
  unfold State.decideClaim
  try dsimp only
  repeat' (first
    | with_reducible exact hk | with_reducible assumption | with_reducible apply State.claimEmpty_kept
    | with_reducible apply State.dwellAt_kept | with_reducible apply State.grantRun_kept | with_reducible apply State.granted_kept
    | with_reducible apply State.inc_kept | with_reducible apply State.noWait_kept | with_reducible apply State.setChan_kept
    | with_reducible apply State.skipItems_kept | with_reducible apply State.takeItem_kept | with_reducible apply State.waitFor_kept
    | with_reducible apply Kept.ite | fail_if_no_progress intros | dsimp only
    | fail_if_no_progress refine Kept.of_mk ?_ rfl rfl rfl rfl rfl | split)

theorem State.breakHit_kept {q : List Instr} {s : State} (n b : Nat) (hk : Kept q s) :
    Kept q (State.breakHit s n b) := by
  unfold State.breakHit
  try dsimp only
  repeat' (first
    | with_reducible exact hk | with_reducible assumption | with_reducible apply State.endRunFrom_kept
    | with_reducible apply State.inc_kept | with_reducible apply State.raise_kept | with_reducible apply State.setChan_kept
    | with_reducible apply State.wr_kept | with_reducible apply State.wrs_kept | with_reducible apply Kept.ite
    | fail_if_no_progress intros)

theorem State.breakHits_kept {q : List Instr} {s : State} (n : Nat) (l : List Nat) (hk : Kept q s) :
    Kept q (State.breakHits s n l) := by
  unfold State.breakHits
  try dsimp only
  repeat' (first
    | with_reducible exact hk | with_reducible assumption | with_reducible apply State.breakHit_kept
    | with_reducible apply Kept.foldl | with_reducible apply Kept.ite | fail_if_no_progress intros)

theorem State.breakOn_kept {q : List Instr} {s : State} (n : Nat) (seen : List Nat) (hk : Kept q s) :
    Kept q (State.breakOn s n seen) := by
  unfold State.breakOn
  try dsimp only
  repeat' (first
    | with_reducible exact hk | with_reducible assumption | with_reducible apply State.breakHits_kept
    | with_reducible apply State.setChan_kept | with_reducible apply Kept.ite | fail_if_no_progress intros | dsimp only
    | fail_if_no_progress refine Kept.of_mk ?_ rfl rfl rfl rfl rfl | split)

theorem State.breakTick_kept {q : List Instr} {s : State} (n a : Nat) (hk : Kept q s) :
    Kept q (State.breakTick s n a) := by
  unfold State.breakTick
  try dsimp only
  repeat' (first
    | with_reducible exact hk | with_reducible assumption | with_reducible apply State.breakOn_kept | with_reducible apply Kept.ite
    | fail_if_no_progress intros | dsimp only | fail_if_no_progress refine Kept.of_mk ?_ rfl rfl rfl rfl rfl | split)

theorem State.planJump_kept {q : List Instr} {s : State} (n a : Nat) (p0 : PlanAt) (c : Chord) (after : Cursor) (k : Nat) (hk : Kept q s) :
    Kept q (State.planJump s n a p0 c after k) := by
  unfold State.planJump
  try dsimp only
  repeat' (first
    | with_reducible exact hk | with_reducible assumption | with_reducible apply State.addRun_kept
    | with_reducible apply State.noWait_kept)

theorem State.decideOwn_kept {q : List Instr} {s : State} (n a : Nat) (d : Cand) (hk : Kept q s) :
    Kept q (State.decideOwn s n a d) := by
  unfold State.decideOwn
  try dsimp only
  repeat' (first
    | with_reducible exact hk | with_reducible assumption | with_reducible apply State.countBeats_kept
    | with_reducible apply State.decideClaim_kept | with_reducible apply State.decideGroup_kept
    | with_reducible apply State.decideRun_kept | with_reducible apply State.expose_kept | with_reducible apply State.grantRun_kept
    | with_reducible apply State.planJump_kept | with_reducible apply State.setChan_kept | with_reducible apply Kept.ite
    | fail_if_no_progress intros | dsimp only | fail_if_no_progress refine Kept.of_mk ?_ rfl rfl rfl rfl rfl | split)

theorem State.decideRepair_kept {q : List Instr} {s : State} (n a : Nat) (d : Cand) (hk : Kept q s) :
    Kept q (State.decideRepair s n a d) := by
  unfold State.decideRepair
  try dsimp only
  repeat' (first
    | with_reducible exact hk | with_reducible assumption | with_reducible apply State.decideRun_kept
    | with_reducible apply State.startFacet_kept | with_reducible apply State.wr_kept | with_reducible apply Kept.ite
    | fail_if_no_progress intros | dsimp only | fail_if_no_progress refine Kept.of_mk ?_ rfl rfl rfl rfl rfl | split)

theorem State.decidePinned_kept {q : List Instr} {s : State} (n a : Nat) (d : Cand) (hk : Kept q s) :
    Kept q (State.decidePinned s n a d) := by
  unfold State.decidePinned
  try dsimp only
  repeat' (first
    | with_reducible exact hk | with_reducible assumption | with_reducible apply State.decideRun_kept
    | with_reducible apply State.note_kept | with_reducible apply State.startFacet_kept | with_reducible apply Kept.ite
    | fail_if_no_progress intros | dsimp only | fail_if_no_progress refine Kept.of_mk ?_ rfl rfl rfl rfl rfl | split)

theorem State.decide1_kept {q : List Instr} {s : State} (n a : Nat) (hk : Kept q s) :
    Kept q (State.decide1 s n a) := by
  unfold State.decide1
  try dsimp only
  repeat' (first
    | with_reducible exact hk | with_reducible assumption | with_reducible apply State.decideClaim_kept
    | with_reducible apply State.decideOwn_kept | with_reducible apply State.decidePinned_kept
    | with_reducible apply State.decideRepair_kept | with_reducible apply State.pinWait_kept | with_reducible apply Kept.ite
    | fail_if_no_progress intros | dsimp only | fail_if_no_progress refine Kept.of_mk ?_ rfl rfl rfl rfl rfl | split)

theorem State.endFetchWait_kept {q : List Instr} {s : State} (n : Nat) (hk : Kept q s) :
    Kept q (State.endFetchWait s n) := by
  unfold State.endFetchWait
  try dsimp only
  repeat' (first
    | with_reducible exact hk | with_reducible assumption | with_reducible apply State.hold_kept
    | with_reducible apply State.parkFetch_kept | with_reducible apply State.runSeq_kept | with_reducible apply Kept.ite
    | fail_if_no_progress intros | dsimp only | fail_if_no_progress refine Kept.of_mk ?_ rfl rfl rfl rfl rfl | split)

theorem State.decideAll_kept {q : List Instr} {s : State} (a : Nat) (hk : Kept q s) :
    Kept q (State.decideAll s a) := by
  unfold State.decideAll
  try dsimp only
  repeat' (first
    | with_reducible exact hk | with_reducible assumption | with_reducible apply State.breakTick_kept
    | with_reducible apply State.decide1_kept | with_reducible apply State.endFetchWait_kept | with_reducible apply Kept.foldl
    | with_reducible apply Kept.ite | fail_if_no_progress intros)

theorem State.openDecision_kept {q : List Instr} {s : State} (hk : Kept q s) :
    Kept q (State.openDecision s) := by
  unfold State.openDecision
  try dsimp only
  repeat' (first
    | with_reducible exact hk | with_reducible assumption | with_reducible apply Kept.ite | fail_if_no_progress intros | dsimp only
    | fail_if_no_progress refine Kept.of_mk ?_ rfl rfl rfl rfl rfl)

theorem State.tellDecision_kept {q : List Instr} {s : State} (hk : Kept q s) :
    Kept q (State.tellDecision s) := by
  unfold State.tellDecision
  try dsimp only
  repeat' (first
    | with_reducible exact hk | with_reducible assumption | with_reducible apply State.tellPartner_kept
    | with_reducible apply Kept.ite | fail_if_no_progress intros | dsimp only
    | fail_if_no_progress refine Kept.of_mk ?_ rfl rfl rfl rfl rfl)

theorem State.shareDecision_kept {q : List Instr} {s : State} (hk : Kept q s) :
    Kept q (State.shareDecision s) := by
  unfold State.shareDecision
  try dsimp only
  repeat' (first
    | with_reducible exact hk | with_reducible assumption | with_reducible apply State.decideAll_kept
    | with_reducible apply State.openDecision_kept | with_reducible apply State.tellDecision_kept | with_reducible apply Kept.ite
    | fail_if_no_progress intros)

theorem State.dwellForced_kept {q : List Instr} {s : State} (n : Nat) (hk : Kept q s) :
    Kept q (State.dwellForced s n) := by
  unfold State.dwellForced
  try dsimp only
  repeat' (first
    | with_reducible exact hk | with_reducible assumption | with_reducible apply State.countForced_kept
    | with_reducible apply State.setChan_kept | with_reducible apply Kept.ite | fail_if_no_progress intros | dsimp only
    | fail_if_no_progress refine Kept.of_mk ?_ rfl rfl rfl rfl rfl | split)

theorem execShareDecision_kept {q : List Instr} {s : State} (hk : Kept q s) :
    KeptOut q (execShareDecision s) := by
  unfold execShareDecision
  try dsimp only
  repeat' (first | with_reducible assumption | with_reducible apply live_kept hk | with_reducible apply State.shareDecision_kept)

theorem execDwellForced_kept {q : List Instr} {s : State} (n : Fin 16) (hk : Kept q s) :
    KeptOut q (execDwellForced n s) := by
  unfold execDwellForced
  try dsimp only
  repeat' (first
    | with_reducible assumption | with_reducible apply live_kept hk | with_reducible apply State.dwellForced_kept
    | with_reducible apply Kept.ite | with_reducible apply Kept.ite2 | fail_if_no_progress intros)

/-! Machine/LaneBase.lean -/

theorem State.setLane_kept {q : List Instr} {s : State} (l : Nat) (x : Lane) (hk : Kept q s) :
    Kept q (State.setLane s l x) := by
  unfold State.setLane
  try dsimp only
  repeat' (first
    | with_reducible exact hk | with_reducible assumption | with_reducible apply Kept.ite | fail_if_no_progress intros | dsimp only
    | fail_if_no_progress refine Kept.of_mk ?_ rfl rfl rfl rfl rfl)

theorem State.laneEvent_kept {q : List Instr} {s : State} (l code cls detail v : Nat) (hk : Kept q s) :
    Kept q (State.laneEvent s l code cls detail v) := by
  unfold State.laneEvent
  try dsimp only
  repeat' (first | with_reducible exact hk | with_reducible assumption | with_reducible apply State.raise_kept)

theorem State.badFrame_kept {q : List Instr} {s : State} (l : Nat) (hk : Kept q s) :
    Kept q (State.badFrame s l) := by
  unfold State.badFrame
  try dsimp only
  repeat' (first
    | with_reducible exact hk | with_reducible assumption | with_reducible apply State.inc_kept
    | with_reducible apply State.laneEvent_kept | with_reducible apply State.setLane_kept | with_reducible apply Kept.ite
    | fail_if_no_progress intros)

theorem State.queueMsg_kept {q : List Instr} {s : State} (l type : Nat) (body : List Byte) (hk : Kept q s) :
    Kept q (State.queueMsg s l type body) := by
  unfold State.queueMsg
  try dsimp only
  repeat' (first | with_reducible exact hk | with_reducible assumption | with_reducible apply State.setLane_kept)

theorem State.laneUpState_kept {q : List Instr} {s : State} (l v : Nat) (hk : Kept q s) :
    Kept q (State.laneUpState s l v) := by
  unfold State.laneUpState
  try dsimp only
  repeat' (first
    | with_reducible exact hk | with_reducible assumption | with_reducible apply State.laneEvent_kept
    | with_reducible apply State.setLane_kept | with_reducible apply State.wr_kept | with_reducible apply Kept.ite
    | fail_if_no_progress intros)

theorem State.laneAwake_kept {q : List Instr} {s : State} (l : Nat) (hk : Kept q s) :
    Kept q (State.laneAwake s l) := by
  unfold State.laneAwake
  try dsimp only
  repeat' (first
    | with_reducible exact hk | with_reducible assumption | with_reducible apply State.laneUpState_kept
    | with_reducible apply Kept.ite | fail_if_no_progress intros)

theorem State.rxFrame_kept {q : List Instr} {s : State} (l : Nat) (hk : Kept q s) :
    Kept q (State.rxFrame s l) := by
  unfold State.rxFrame
  try dsimp only
  repeat' (first
    | with_reducible exact hk | with_reducible assumption | with_reducible apply State.inc_kept
    | with_reducible apply State.laneAwake_kept | with_reducible apply State.setLane_kept)

/-! Machine/Pool.lean -/

theorem State.setPipe_kept {q : List Instr} {s : State} (k : Nat) (x : Pipe) (hk : Kept q s) :
    Kept q (State.setPipe s k x) := by
  unfold State.setPipe
  try dsimp only
  repeat' (first
    | with_reducible exact hk | with_reducible assumption | with_reducible apply Kept.ite | fail_if_no_progress intros | dsimp only
    | fail_if_no_progress refine Kept.of_mk ?_ rfl rfl rfl rfl rfl)

theorem State.syncPipe_kept {q : List Instr} {s : State} (k : Nat) (hk : Kept q s) :
    Kept q (State.syncPipe s k) := by
  unfold State.syncPipe
  try dsimp only
  repeat' (first | with_reducible exact hk | with_reducible assumption | with_reducible apply State.wr_kept)

theorem State.syncPipes_kept {q : List Instr} {s : State} (l : Nat) (hk : Kept q s) :
    Kept q (State.syncPipes s l) := by
  unfold State.syncPipes
  try dsimp only
  repeat' (first
    | with_reducible exact hk | with_reducible assumption | with_reducible apply State.syncPipe_kept
    | with_reducible apply Kept.foldl | with_reducible apply Kept.ite | fail_if_no_progress intros)

theorem State.showClaim_kept {q : List Instr} {s : State} (k : Nat) (hk : Kept q s) :
    Kept q (State.showClaim s k) := by
  unfold State.showClaim
  try dsimp only
  repeat' (first | with_reducible exact hk | with_reducible assumption | with_reducible apply State.wr_kept)

theorem State.showClaims_kept {q : List Instr} {s : State} (o : Nat) (hk : Kept q s) :
    Kept q (State.showClaims s o) := by
  unfold State.showClaims
  try dsimp only
  repeat' (first
    | with_reducible exact hk | with_reducible assumption | with_reducible apply State.showClaim_kept
    | with_reducible apply Kept.foldl)

theorem State.commitSet_kept {q : List Instr} {s : State} (o : Nat) (hk : Kept q s) :
    Kept q (State.commitSet s o) := by
  unfold State.commitSet
  try dsimp only
  repeat' (first
    | with_reducible exact hk | with_reducible assumption | with_reducible apply State.queueMsg_kept
    | with_reducible apply State.setPipe_kept | with_reducible apply State.showClaims_kept | with_reducible apply State.wr_kept
    | with_reducible apply Kept.ite | fail_if_no_progress intros)

theorem setApplyEff_kept {q : List Instr} {s : State} (k x_v : Nat) (hk : Kept q s) :
    Kept q (setApplyEff k x_v s).2 := by
  unfold setApplyEff
  try dsimp only
  repeat' (first
    | with_reducible exact hk | with_reducible assumption | with_reducible apply State.commitSet_kept
    | with_reducible apply Kept.ite | with_reducible apply Kept.ite2)

theorem State.pcOn_kept {q : List Instr} {s : State} (k : Nat) (hk : Kept q s) :
    Kept q (State.pcOn s k).2 := by
  unfold State.pcOn
  try dsimp only
  repeat' (first
    | with_reducible exact hk | with_reducible assumption | with_reducible apply State.commitSet_kept
    | with_reducible apply State.setPipe_kept | with_reducible apply State.showClaim_kept | with_reducible apply State.syncPipe_kept
    | with_reducible apply State.wr_kept | with_reducible apply Kept.ite | with_reducible apply Kept.ite2
    | fail_if_no_progress intros)

theorem pcSourceEff_kept {q : List Instr} {s : State} (k v : Nat) (hk : Kept q s) :
    Kept q (pcSourceEff k v s).2 := by
  unfold pcSourceEff
  try dsimp only
  repeat' (first
    | with_reducible exact hk | with_reducible assumption | with_reducible apply State.showClaim_kept
    | with_reducible apply State.syncPipe_kept | with_reducible apply State.wr_kept | with_reducible apply Kept.ite
    | with_reducible apply Kept.ite2)

theorem State.discardFrame_kept {q : List Instr} {s : State} (k cause number : Nat) (hk : Kept q s) :
    Kept q (State.discardFrame s k cause number) := by
  unfold State.discardFrame
  try dsimp only
  repeat' (first
    | with_reducible exact hk | with_reducible assumption | with_reducible apply State.inc_kept
    | with_reducible apply State.raise_kept)

theorem State.pcOff_kept {q : List Instr} {s : State} (k : Nat) (hk : Kept q s) :
    Kept q (State.pcOff s k) := by
  unfold State.pcOff
  try dsimp only
  repeat' (first
    | with_reducible exact hk | with_reducible assumption | with_reducible apply State.discardFrame_kept
    | with_reducible apply State.setPipe_kept | with_reducible apply State.syncPipe_kept | with_reducible apply State.wr_kept
    | with_reducible apply Kept.ite | fail_if_no_progress intros | dsimp only
    | fail_if_no_progress refine Kept.of_mk ?_ rfl rfl rfl rfl rfl | split)

theorem pcEnableEff_kept {q : List Instr} {s : State} (k v : Nat) (hk : Kept q s) :
    Kept q (pcEnableEff k v s).2 := by
  unfold pcEnableEff
  try dsimp only
  repeat' (first
    | with_reducible exact hk | with_reducible assumption | with_reducible apply State.pcOff_kept
    | with_reducible apply State.pcOn_kept | with_reducible apply Kept.ite | with_reducible apply Kept.ite2)

theorem minPeriodEff_kept {q : List Instr} {s : State} (k v : Nat) (hk : Kept q s) :
    Kept q (minPeriodEff k v s).2 := by
  unfold minPeriodEff
  try dsimp only
  repeat' (first
    | with_reducible exact hk | with_reducible assumption | with_reducible apply State.showClaim_kept
    | with_reducible apply State.wr_kept | with_reducible apply Kept.ite | with_reducible apply Kept.ite2)

theorem shadowEff_kept {q : List Instr} {s : State} (k v : Nat) (hk : Kept q s) :
    Kept q (shadowEff k v s).2 := by
  unfold shadowEff
  try dsimp only
  repeat' (first
    | with_reducible exact hk | with_reducible assumption | with_reducible apply State.wr_kept | with_reducible apply Kept.ite
    | with_reducible apply Kept.ite2)

theorem State.expose_kept {q : List Instr} {s : State} (o : Nat) (hk : Kept q s) :
    Kept q (State.expose s o) := by
  unfold State.expose
  try dsimp only
  repeat' (first
    | with_reducible exact hk | with_reducible assumption | with_reducible apply State.queueMsg_kept
    | with_reducible apply State.setLane_kept | with_reducible apply State.setPipe_kept | with_reducible apply Kept.foldl
    | with_reducible apply Kept.ite | fail_if_no_progress intros | dsimp only
    | fail_if_no_progress refine Kept.of_mk ?_ rfl rfl rfl rfl rfl | split)

theorem State.malformed_kept {q : List Instr} {s : State} (k : Nat) (f : PFrame) (hk : Kept q s) :
    Kept q (State.malformed s k f) := by
  unfold State.malformed
  try dsimp only
  repeat' (first
    | with_reducible exact hk | with_reducible assumption | with_reducible apply State.discardFrame_kept
    | with_reducible apply State.setPipe_kept)

theorem State.endFrame_kept {q : List Instr} {s : State} (k : Nat) (hk : Kept q s) :
    Kept q (State.endFrame s k) := by
  unfold State.endFrame
  try dsimp only
  repeat' (first
    | with_reducible exact hk | with_reducible assumption | with_reducible apply State.setPipe_kept | with_reducible apply Kept.ite
    | fail_if_no_progress intros | dsimp only | fail_if_no_progress refine Kept.of_mk ?_ rfl rfl rfl rfl rfl | split)

theorem State.sliceStart_kept {q : List Instr} {s : State} (k o number start tag w h : Nat) (hk : Kept q s) :
    Kept q (State.sliceStart s k o number start tag w h) := by
  unfold State.sliceStart
  try dsimp only
  repeat' (first
    | with_reducible exact hk | with_reducible assumption | with_reducible apply State.discardFrame_kept
    | with_reducible apply State.endFrame_kept | with_reducible apply State.inc_kept | with_reducible apply State.raise_kept
    | with_reducible apply State.setPipe_kept | with_reducible apply State.wrs_kept | with_reducible apply Kept.ite
    | fail_if_no_progress intros | dsimp only | fail_if_no_progress refine Kept.of_mk ?_ rfl rfl rfl rfl rfl | split)

theorem State.slicePixels_kept {q : List Instr} {s : State} (k number offset : Nat) (px : List Nat) (hk : Kept q s) :
    Kept q (State.slicePixels s k number offset px) := by
  unfold State.slicePixels
  try dsimp only
  repeat' (first
    | with_reducible exact hk | with_reducible assumption | with_reducible apply State.discardFrame_kept
    | with_reducible apply State.malformed_kept | with_reducible apply State.setPipe_kept | with_reducible apply Kept.ite
    | fail_if_no_progress intros | dsimp only | fail_if_no_progress refine Kept.of_mk ?_ rfl rfl rfl rfl rfl | split)

theorem State.sliceEnd_kept {q : List Instr} {s : State} (k number : Nat) (hk : Kept q s) :
    Kept q (State.sliceEnd s k number) := by
  unfold State.sliceEnd
  try dsimp only
  repeat' (first
    | with_reducible exact hk | with_reducible assumption | with_reducible apply State.endFrame_kept
    | with_reducible apply State.malformed_kept | with_reducible apply Kept.ite | fail_if_no_progress intros | dsimp only
    | fail_if_no_progress refine Kept.of_mk ?_ rfl rfl rfl rfl rfl | split)

theorem State.onLink_kept {q : List Instr} {s : State} (o : Nat) (f : Nat → State → State) (hk : Kept q s) (hf : ∀ k s, Kept q s → Kept q (f k s)) :
    Kept q (State.onLink s o f) := by
  unfold State.onLink
  try dsimp only
  repeat' (first
    | with_reducible exact hk | with_reducible assumption | with_reducible apply State.rxFrame_kept | with_reducible apply hf
    | with_reducible apply Kept.foldl | with_reducible apply Kept.ite | fail_if_no_progress intros)

theorem State.frameTimeout_kept {q : List Instr} {s : State} (k : Nat) (hk : Kept q s) :
    Kept q (State.frameTimeout s k) := by
  unfold State.frameTimeout
  try dsimp only
  repeat' (first
    | with_reducible exact hk | with_reducible assumption | with_reducible apply State.endFrame_kept | with_reducible apply Kept.ite
    | fail_if_no_progress intros | dsimp only | fail_if_no_progress refine Kept.of_mk ?_ rfl rfl rfl rfl rfl | split)

theorem State.markLoop_kept {q : List Instr} {s : State} (n kind : Nat) (v : Int) (inst : Nat) (hk : Kept q s) :
    Kept q (State.markLoop s n kind v inst) := by
  unfold State.markLoop
  try dsimp only
  repeat' (first
    | with_reducible exact hk | with_reducible assumption | with_reducible apply State.setLoop_kept | with_reducible apply Kept.ite
    | fail_if_no_progress intros)

theorem State.frameMissing_kept {q : List Instr} {s : State} (k : Nat) (hk : Kept q s) :
    Kept q (State.frameMissing s k) := by
  unfold State.frameMissing
  try dsimp only
  repeat' (first
    | with_reducible exact hk | with_reducible assumption | with_reducible apply State.inc_kept
    | with_reducible apply State.markLoop_kept | with_reducible apply State.raise_kept | with_reducible apply State.setPipe_kept
    | with_reducible apply Kept.ite | fail_if_no_progress intros | dsimp only
    | fail_if_no_progress refine Kept.of_mk ?_ rfl rfl rfl rfl rfl | split)

theorem State.putRecord_kept {q : List Instr} {s : State} (k : Nat) (r : List Byte) (hk : Kept q s) :
    Kept q (State.putRecord s k r).2 := by
  unfold State.putRecord
  try dsimp only
  repeat' (first
    | with_reducible exact hk | with_reducible assumption | with_reducible apply State.inc_kept
    | with_reducible apply State.tryWrite_kept | with_reducible apply Kept.ite | with_reducible apply Kept.ite2
    | fail_if_no_progress intros)

theorem flushRecords_kept {q : List Instr} {s : State} (k : Nat) (l : List (List Byte)) (hk : Kept q s) :
    Kept q (flushRecords k l s) := by
  induction l generalizing s with
  | nil => exact State.setPipe_kept _ _ hk
  | cons r l ih =>
    unfold flushRecords
    have h := State.putRecord_kept k r hk
    exact Kept.ite (fun _ => ih h) fun _ => State.setPipe_kept _ _ h

theorem State.sendStats_kept {q : List Instr} {s : State} (k : Nat) (r : List Byte) (hk : Kept q s) :
    Kept q (State.sendStats s k r) := by
  unfold State.sendStats
  try dsimp only
  repeat' (first
    | with_reducible exact hk | with_reducible assumption | with_reducible apply State.inc_kept
    | with_reducible apply State.putRecord_kept | with_reducible apply State.setPipe_kept | with_reducible apply Kept.ite
    | fail_if_no_progress intros | dsimp only | fail_if_no_progress refine Kept.of_mk ?_ rfl rfl rfl rfl rfl | split)

theorem State.sendRaw_kept {q : List Instr} {s : State} (k : Nat) (f : PFrame) (r : List Byte) (hk : Kept q s) :
    Kept q (State.sendRaw s k f r) := by
  unfold State.sendRaw
  try dsimp only
  repeat' (first
    | with_reducible exact hk | with_reducible assumption | with_reducible apply State.inc_kept
    | with_reducible apply State.sendWrite_kept | with_reducible apply Kept.ite | fail_if_no_progress intros)

theorem State.measureDark_kept {q : List Instr} {s : State} (k o : Nat) (f : PFrame) (hk : Kept q s) :
    Kept q (State.measureDark s k o f) := by
  unfold State.measureDark
  try dsimp only
  repeat' (first
    | with_reducible exact hk | with_reducible assumption | with_reducible apply State.draw_kept
    | with_reducible apply State.wr_kept | with_reducible apply Kept.ite | fail_if_no_progress intros | dsimp only
    | fail_if_no_progress refine Kept.of_mk ?_ rfl rfl rfl rfl rfl)

theorem State.closeStats_kept {q : List Instr} {s : State} (k o : Nat) (f : PFrame) (hk : Kept q s) :
    Kept q (State.closeStats s k o f) := by
  unfold State.closeStats
  try dsimp only
  repeat' (first
    | with_reducible exact hk | with_reducible assumption | with_reducible apply State.inc_kept
    | with_reducible apply State.markLoop_kept | with_reducible apply State.measureDark_kept
    | with_reducible apply State.recordPeak_kept | with_reducible apply State.sendRaw_kept
    | with_reducible apply State.sendStats_kept | with_reducible apply Kept.ite | fail_if_no_progress intros)

theorem State.statsClose_kept {q : List Instr} {s : State} (k : Nat) (hk : Kept q s) :
    Kept q (State.statsClose s k) := by
  unfold State.statsClose
  try dsimp only
  repeat' (first
    | with_reducible exact hk | with_reducible assumption | with_reducible apply State.closeStats_kept
    | with_reducible apply State.setPipe_kept | with_reducible apply Kept.ite | fail_if_no_progress intros | dsimp only
    | fail_if_no_progress refine Kept.of_mk ?_ rfl rfl rfl rfl rfl | split)

theorem execSetApply_kept {q : List Instr} {s : State} (m : Msg) (k : Fin 24) (hk : Kept q s) :
    KeptOut q (execSetApply m k s) := by
  unfold execSetApply
  try dsimp only
  repeat' (first
    | with_reducible assumption | with_reducible apply writeCmd_kept hk | with_reducible apply setApplyEff_kept
    | with_reducible apply Kept.ite | with_reducible apply Kept.ite2 | fail_if_no_progress intros)

theorem execPcEnable_kept {q : List Instr} {s : State} (m : Msg) (k : Fin 24) (hk : Kept q s) :
    KeptOut q (execPcEnable m k s) := by
  unfold execPcEnable
  try dsimp only
  repeat' (first
    | with_reducible assumption | with_reducible apply writeCmd_kept hk | with_reducible apply pcEnableEff_kept
    | with_reducible apply Kept.ite | with_reducible apply Kept.ite2 | fail_if_no_progress intros)

theorem execPcDisable_kept {q : List Instr} {s : State} (m : Msg) (k : Fin 24) (hk : Kept q s) :
    KeptOut q (execPcDisable m k s) := by
  unfold execPcDisable
  try dsimp only
  repeat' (first
    | with_reducible assumption | with_reducible apply writeCmd_kept hk | with_reducible apply pcEnableEff_kept
    | with_reducible apply Kept.ite | with_reducible apply Kept.ite2 | fail_if_no_progress intros)

theorem execSensorSliceStart_kept {q : List Instr} {s : State} (n : Fin 16) (frame : BitVec 32) (start : BitVec 64) (tag w h : BitVec 16) (hk : Kept q s) :
    KeptOut q (execSensorSliceStart n frame start tag w h s) := by
  unfold execSensorSliceStart
  try dsimp only
  repeat' (first
    | with_reducible assumption | with_reducible apply live_kept hk | with_reducible apply State.onLink_kept
    | with_reducible apply State.sliceStart_kept | with_reducible apply Kept.ite | with_reducible apply Kept.ite2
    | fail_if_no_progress intros)

theorem execSensorSlicePixels_kept {q : List Instr} {s : State} (n : Fin 16) (frame offset : BitVec 32) (pixels : List (BitVec 16)) (hk : Kept q s) :
    KeptOut q (execSensorSlicePixels n frame offset pixels s) := by
  unfold execSensorSlicePixels
  try dsimp only
  repeat' (first
    | with_reducible assumption | with_reducible apply live_kept hk | with_reducible apply State.onLink_kept
    | with_reducible apply State.slicePixels_kept | with_reducible apply Kept.ite | with_reducible apply Kept.ite2
    | fail_if_no_progress intros)

theorem execSensorSliceEnd_kept {q : List Instr} {s : State} (n : Fin 16) (frame x_sent : BitVec 32) (hk : Kept q s) :
    KeptOut q (execSensorSliceEnd n frame x_sent s) := by
  unfold execSensorSliceEnd
  try dsimp only
  repeat' (first
    | with_reducible assumption | with_reducible apply live_kept hk | with_reducible apply State.onLink_kept
    | with_reducible apply State.sliceEnd_kept | with_reducible apply Kept.ite | with_reducible apply Kept.ite2
    | fail_if_no_progress intros)

theorem execFrameTimeout_kept {q : List Instr} {s : State} (k : Fin 24) (hk : Kept q s) :
    KeptOut q (execFrameTimeout k s) := by
  unfold execFrameTimeout
  try dsimp only
  repeat' (first
    | with_reducible assumption | with_reducible apply live_kept hk | with_reducible apply State.frameTimeout_kept
    | with_reducible apply Kept.ite | with_reducible apply Kept.ite2 | fail_if_no_progress intros)

theorem execFrameMissing_kept {q : List Instr} {s : State} (k : Fin 24) (hk : Kept q s) :
    KeptOut q (execFrameMissing k s) := by
  unfold execFrameMissing
  try dsimp only
  repeat' (first
    | with_reducible assumption | with_reducible apply live_kept hk | with_reducible apply State.frameMissing_kept
    | with_reducible apply Kept.ite | with_reducible apply Kept.ite2 | fail_if_no_progress intros)

theorem execStatsClose_kept {q : List Instr} {s : State} (k : Fin 24) (hk : Kept q s) :
    KeptOut q (execStatsClose k s) := by
  unfold execStatsClose
  try dsimp only
  repeat' (first
    | with_reducible assumption | with_reducible apply live_kept hk | with_reducible apply State.statsClose_kept
    | with_reducible apply Kept.ite | with_reducible apply Kept.ite2 | fail_if_no_progress intros)

/-! Machine/Seq.lean -/

theorem State.holdProgram_kept {q : List Instr} {s : State} (n code addr : Nat) (hk : Kept q s) :
    Kept q (State.holdProgram s n code addr) := by
  unfold State.holdProgram
  try dsimp only
  repeat' (first
    | with_reducible exact hk | with_reducible assumption | with_reducible apply State.holdSeq_kept
    | with_reducible apply State.raise_kept | with_reducible apply State.wrs_kept)

theorem State.decodeAt_kept {q : List Instr} {s : State} (n op : Nat) (eff : Cmd → Cursor → State → State) (hk : Kept q s) (hf : ∀ c k s, Kept q s → Kept q (eff c k s)) :
    Kept q (State.decodeAt s n op eff) := by
  unfold State.decodeAt
  try dsimp only
  repeat' (first
    | with_reducible exact hk | with_reducible assumption | with_reducible apply State.breakOn_kept
    | with_reducible apply State.holdProgram_kept | with_reducible apply hf | with_reducible apply Kept.ite
    | fail_if_no_progress intros | dsimp only | fail_if_no_progress refine Kept.of_mk ?_ rfl rfl rfl rfl rfl | split)

theorem State.passCmd_kept {q : List Instr} {s : State} (n : Nat) (cur : Cursor) (hk : Kept q s) :
    Kept q (State.passCmd s n cur) := by
  unfold State.passCmd
  try dsimp only
  repeat' (first
    | with_reducible exact hk | with_reducible assumption | with_reducible apply State.fetchCheck_kept
    | with_reducible apply State.moveTo_kept | with_reducible apply State.setChan_kept)

theorem State.chordUp_kept {q : List Instr} {s : State} (n : Nat) (c : Cmd) (cur : Cursor) (hk : Kept q s) :
    Kept q (State.chordUp s n c cur) := by
  unfold State.chordUp
  try dsimp only
  repeat' (first
    | with_reducible exact hk | with_reducible assumption | with_reducible apply State.expose_kept
    | with_reducible apply State.planJump_kept | with_reducible apply State.setChan_kept | with_reducible apply State.syncSlots_kept
    | with_reducible apply Kept.ite | fail_if_no_progress intros | dsimp only
    | fail_if_no_progress refine Kept.of_mk ?_ rfl rfl rfl rfl rfl | split)

theorem State.unlessStep_kept {q : List Instr} {s : State} (n : Nat) (k : State → State) (hk : Kept q s) (hf : ∀ s, Kept q s → Kept q (k s)) :
    Kept q (State.unlessStep s n k) := by
  unfold State.unlessStep
  try dsimp only
  repeat' (first
    | with_reducible exact hk | with_reducible assumption | with_reducible apply State.holdDebug_kept | with_reducible apply hf
    | with_reducible apply Kept.ite | fail_if_no_progress intros)

theorem State.markCmd_kept {q : List Instr} {s : State} (n : Nat) (hk : Kept q s) :
    Kept q (State.markCmd s n) := by
  unfold State.markCmd
  try dsimp only
  repeat' (first
    | with_reducible exact hk | with_reducible assumption | with_reducible apply State.chordUp_kept
    | with_reducible apply State.decodeAt_kept | with_reducible apply Kept.ite | fail_if_no_progress intros)

theorem State.arcCmd_kept {q : List Instr} {s : State} (n : Nat) (hk : Kept q s) :
    Kept q (State.arcCmd s n) := by
  unfold State.arcCmd
  try dsimp only
  repeat' (first
    | with_reducible exact hk | with_reducible assumption | with_reducible apply State.chordUp_kept
    | with_reducible apply State.decodeAt_kept | with_reducible apply Kept.ite | fail_if_no_progress intros)

theorem State.jumpCmd_kept {q : List Instr} {s : State} (n : Nat) (hk : Kept q s) :
    Kept q (State.jumpCmd s n) := by
  unfold State.jumpCmd
  try dsimp only
  repeat' (first
    | with_reducible exact hk | with_reducible assumption | with_reducible apply State.chordUp_kept
    | with_reducible apply State.decodeAt_kept | with_reducible apply Kept.ite | fail_if_no_progress intros)

theorem State.facetCmd_kept {q : List Instr} {s : State} (n : Nat) (hk : Kept q s) :
    Kept q (State.facetCmd s n) := by
  unfold State.facetCmd
  try dsimp only
  repeat' (first
    | with_reducible exact hk | with_reducible assumption | with_reducible apply State.chordUp_kept
    | with_reducible apply State.decodeAt_kept | with_reducible apply Kept.ite | fail_if_no_progress intros)

theorem State.floatCmd_kept {q : List Instr} {s : State} (n : Nat) (hk : Kept q s) :
    Kept q (State.floatCmd s n) := by
  unfold State.floatCmd
  try dsimp only
  repeat' (first
    | with_reducible exact hk | with_reducible assumption | with_reducible apply State.bump_kept
    | with_reducible apply State.countBeats_kept | with_reducible apply State.decodeAt_kept
    | with_reducible apply State.dropRun_kept | with_reducible apply State.holdFetch_kept | with_reducible apply State.noWait_kept
    | with_reducible apply State.passCmd_kept | with_reducible apply State.post_kept | with_reducible apply State.setChan_kept
    | with_reducible apply State.wr_kept | with_reducible apply Kept.ite | fail_if_no_progress intros | dsimp only
    | fail_if_no_progress refine Kept.of_mk ?_ rfl rfl rfl rfl rfl | split)

theorem State.postingRelease_kept {q : List Instr} {s : State} (n : Nat) (hk : Kept q s) :
    Kept q (State.postingRelease s n) := by
  unfold State.postingRelease
  try dsimp only
  repeat' (first
    | with_reducible exact hk | with_reducible assumption | with_reducible apply State.postWaiting_kept
    | with_reducible apply State.setChan_kept | with_reducible apply Kept.ite | fail_if_no_progress intros)

theorem State.claimCmd_kept {q : List Instr} {s : State} (n : Nat) (hk : Kept q s) :
    Kept q (State.claimCmd s n) := by
  unfold State.claimCmd
  try dsimp only
  repeat' (first
    | with_reducible exact hk | with_reducible assumption | with_reducible apply State.claimEmpty_kept
    | with_reducible apply State.decodeAt_kept | with_reducible apply State.holdRefused_kept
    | with_reducible apply State.passCmd_kept | with_reducible apply State.setChan_kept | with_reducible apply State.unlessStep_kept
    | with_reducible apply State.wr_kept | with_reducible apply Kept.ite | fail_if_no_progress intros | dsimp only
    | fail_if_no_progress refine Kept.of_mk ?_ rfl rfl rfl rfl rfl | split)

theorem State.waitTimeCmd_kept {q : List Instr} {s : State} (n : Nat) (hk : Kept q s) :
    Kept q (State.waitTimeCmd s n) := by
  unfold State.waitTimeCmd
  try dsimp only
  repeat' (first
    | with_reducible exact hk | with_reducible assumption | with_reducible apply State.decodeAt_kept
    | with_reducible apply State.fetchCheck_kept | with_reducible apply State.inc_kept | with_reducible apply State.setChan_kept
    | with_reducible apply State.unlessStep_kept | with_reducible apply State.wake_kept | with_reducible apply State.wr_kept
    | with_reducible apply Kept.ite | fail_if_no_progress intros | dsimp only
    | fail_if_no_progress refine Kept.of_mk ?_ rfl rfl rfl rfl rfl | split)

theorem State.waitTimeRelease_kept {q : List Instr} {s : State} (n : Nat) (hk : Kept q s) :
    Kept q (State.waitTimeRelease s n) := by
  unfold State.waitTimeRelease
  try dsimp only
  repeat' (first
    | with_reducible exact hk | with_reducible assumption | with_reducible apply State.fetchCheck_kept
    | with_reducible apply State.wake_kept | with_reducible apply Kept.ite | fail_if_no_progress intros | dsimp only
    | fail_if_no_progress refine Kept.of_mk ?_ rfl rfl rfl rfl rfl | split)

theorem State.waitEventCmd_kept {q : List Instr} {s : State} (n : Nat) (hk : Kept q s) :
    Kept q (State.waitEventCmd s n) := by
  unfold State.waitEventCmd
  try dsimp only
  repeat' (first
    | with_reducible exact hk | with_reducible assumption | with_reducible apply State.decodeAt_kept
    | with_reducible apply State.fetchCheck_kept | with_reducible apply State.setChan_kept
    | with_reducible apply State.unlessStep_kept | with_reducible apply State.wake_kept | with_reducible apply State.wr_kept
    | with_reducible apply Kept.ite | fail_if_no_progress intros | dsimp only
    | fail_if_no_progress refine Kept.of_mk ?_ rfl rfl rfl rfl rfl | split)

theorem State.mismatch_kept {q : List Instr} {s : State} (n : Nat) (hk : Kept q s) :
    Kept q (State.mismatch s n) := by
  unfold State.mismatch
  try dsimp only
  repeat' (first
    | with_reducible exact hk | with_reducible assumption | with_reducible apply State.holdSeq_kept
    | with_reducible apply State.setChan_kept | with_reducible apply Kept.ite | fail_if_no_progress intros)

theorem State.barrierCmd_kept {q : List Instr} {s : State} (n : Nat) (hk : Kept q s) :
    Kept q (State.barrierCmd s n) := by
  unfold State.barrierCmd
  try dsimp only
  repeat' (first
    | with_reducible exact hk | with_reducible assumption | with_reducible apply State.barrierTry_kept
    | with_reducible apply State.decodeAt_kept | with_reducible apply State.hold_kept | with_reducible apply State.holdSeq_kept
    | with_reducible apply State.mismatch_kept | with_reducible apply State.setChan_kept
    | with_reducible apply State.unlessStep_kept | with_reducible apply State.wr_kept | with_reducible apply Kept.foldl
    | with_reducible apply Kept.ite | fail_if_no_progress intros | dsimp only
    | fail_if_no_progress refine Kept.of_mk ?_ rfl rfl rfl rfl rfl | split)

theorem State.setCmd_kept {q : List Instr} {s : State} (n : Nat) (hk : Kept q s) :
    Kept q (State.setCmd s n) := by
  unfold State.setCmd
  try dsimp only
  repeat' (first
    | with_reducible exact hk | with_reducible assumption | with_reducible apply State.decodeAt_kept
    | with_reducible apply State.passCmd_kept | with_reducible apply State.wr_kept | with_reducible apply Kept.ite
    | fail_if_no_progress intros | dsimp only | fail_if_no_progress refine Kept.of_mk ?_ rfl rfl rfl rfl rfl | split)

theorem State.callCmd_kept {q : List Instr} {s : State} (n : Nat) (hk : Kept q s) :
    Kept q (State.callCmd s n) := by
  unfold State.callCmd
  try dsimp only
  repeat' (first
    | with_reducible exact hk | with_reducible assumption | with_reducible apply State.decodeAt_kept
    | with_reducible apply State.passCmd_kept | with_reducible apply Kept.ite | fail_if_no_progress intros | dsimp only
    | fail_if_no_progress refine Kept.of_mk ?_ rfl rfl rfl rfl rfl | split)

theorem State.retCmd_kept {q : List Instr} {s : State} (n : Nat) (hk : Kept q s) :
    Kept q (State.retCmd s n) := by
  unfold State.retCmd
  try dsimp only
  repeat' (first
    | with_reducible exact hk | with_reducible assumption | with_reducible apply State.decodeAt_kept
    | with_reducible apply State.passCmd_kept | with_reducible apply Kept.ite | fail_if_no_progress intros | dsimp only
    | fail_if_no_progress refine Kept.of_mk ?_ rfl rfl rfl rfl rfl | split)

theorem State.repCmd_kept {q : List Instr} {s : State} (n : Nat) (hk : Kept q s) :
    Kept q (State.repCmd s n) := by
  unfold State.repCmd
  try dsimp only
  repeat' (first
    | with_reducible exact hk | with_reducible assumption | with_reducible apply State.decodeAt_kept
    | with_reducible apply State.passCmd_kept | with_reducible apply Kept.ite | fail_if_no_progress intros | dsimp only
    | fail_if_no_progress refine Kept.of_mk ?_ rfl rfl rfl rfl rfl | split)

theorem State.markerCmd_kept {q : List Instr} {s : State} (n : Nat) (hk : Kept q s) :
    Kept q (State.markerCmd s n) := by
  unfold State.markerCmd
  try dsimp only
  repeat' (first
    | with_reducible exact hk | with_reducible assumption | with_reducible apply State.decodeAt_kept
    | with_reducible apply State.passCmd_kept | with_reducible apply State.raise_kept | with_reducible apply Kept.ite
    | fail_if_no_progress intros | dsimp only | fail_if_no_progress refine Kept.of_mk ?_ rfl rfl rfl rfl rfl | split)

theorem State.closeCmd_kept {q : List Instr} {s : State} (n : Nat) (hk : Kept q s) :
    Kept q (State.closeCmd s n) := by
  unfold State.closeCmd
  try dsimp only
  repeat' (first
    | with_reducible exact hk | with_reducible assumption | with_reducible apply State.decodeAt_kept
    | with_reducible apply State.reachClose_kept | with_reducible apply State.setChan_kept
    | with_reducible apply State.unlessStep_kept | with_reducible apply State.wr_kept | with_reducible apply Kept.ite
    | fail_if_no_progress intros)

theorem State.haltCmd_kept {q : List Instr} {s : State} (n : Nat) (hk : Kept q s) :
    Kept q (State.haltCmd s n) := by
  unfold State.haltCmd
  try dsimp only
  repeat' (first
    | with_reducible exact hk | with_reducible assumption | with_reducible apply State.decodeAt_kept
    | with_reducible apply State.holdSeq_kept | with_reducible apply Kept.ite | fail_if_no_progress intros)

theorem State.badOpcode_kept {q : List Instr} {s : State} (n : Nat) (hk : Kept q s) :
    Kept q (State.badOpcode s n) := by
  unfold State.badOpcode
  try dsimp only
  repeat' (first
    | with_reducible exact hk | with_reducible assumption | with_reducible apply State.holdProgram_kept
    | with_reducible apply Kept.ite | fail_if_no_progress intros | dsimp only
    | fail_if_no_progress refine Kept.of_mk ?_ rfl rfl rfl rfl rfl | split)

theorem State.goOn_kept {q : List Instr} {s : State} (n : Nat) (hk : Kept q s) :
    Kept q (State.goOn s n) := by
  unfold State.goOn
  try dsimp only
  repeat' (first
    | with_reducible exact hk | with_reducible assumption | with_reducible apply State.barrierTry_kept
    | with_reducible apply State.fetchCheck_kept | with_reducible apply State.holdSeq_kept
    | with_reducible apply State.mismatch_kept | with_reducible apply State.runSeq_kept | with_reducible apply State.setChan_kept
    | with_reducible apply State.wake_kept | with_reducible apply State.wr_kept | with_reducible apply Kept.ite
    | fail_if_no_progress intros)

theorem csResumeEff_kept {q : List Instr} {s : State} (n : Nat) (hk : Kept q s) :
    Kept q (csResumeEff n s).2 := by
  unfold csResumeEff
  try dsimp only
  repeat' (first
    | with_reducible exact hk | with_reducible assumption | with_reducible apply State.goOn_kept
    | with_reducible apply State.hold_kept | with_reducible apply State.moveTo_kept | with_reducible apply Kept.ite
    | with_reducible apply Kept.ite2 | fail_if_no_progress intros)

theorem csSkipEff_kept {q : List Instr} {s : State} (n : Nat) (hk : Kept q s) :
    Kept q (csSkipEff n s).2 := by
  unfold csSkipEff
  try dsimp only
  repeat' (first
    | with_reducible exact hk | with_reducible assumption | with_reducible apply State.goOn_kept
    | with_reducible apply State.hold_kept | with_reducible apply State.moveTo_kept | with_reducible apply State.reachClose_kept
    | with_reducible apply State.runSeq_kept | with_reducible apply Kept.ite | with_reducible apply Kept.ite2
    | fail_if_no_progress intros | dsimp only | fail_if_no_progress refine Kept.of_mk ?_ rfl rfl rfl rfl rfl | split)

theorem csControlEff_kept {q : List Instr} {s : State} (n v : Nat) (hk : Kept q s) :
    Kept q (csControlEff n v s).2 := by
  unfold csControlEff
  try dsimp only
  repeat' (first
    | with_reducible exact hk | with_reducible assumption | with_reducible apply csResumeEff_kept
    | with_reducible apply csSkipEff_kept | with_reducible apply Kept.ite | with_reducible apply Kept.ite2)

theorem execMark_kept {q : List Instr} {s : State} (n : Fin 16) (hk : Kept q s) :
    KeptOut q (execMark n s) := by
  unfold execMark
  try dsimp only
  repeat' (first
    | with_reducible assumption | with_reducible apply live_kept hk | with_reducible apply State.markCmd_kept
    | with_reducible apply Kept.ite | with_reducible apply Kept.ite2 | fail_if_no_progress intros)

theorem execArc_kept {q : List Instr} {s : State} (n : Fin 16) (hk : Kept q s) :
    KeptOut q (execArc n s) := by
  unfold execArc
  try dsimp only
  repeat' (first
    | with_reducible assumption | with_reducible apply live_kept hk | with_reducible apply State.arcCmd_kept
    | with_reducible apply Kept.ite | with_reducible apply Kept.ite2 | fail_if_no_progress intros)

theorem execJump_kept {q : List Instr} {s : State} (n : Fin 16) (hk : Kept q s) :
    KeptOut q (execJump n s) := by
  unfold execJump
  try dsimp only
  repeat' (first
    | with_reducible assumption | with_reducible apply live_kept hk | with_reducible apply State.jumpCmd_kept
    | with_reducible apply Kept.ite | with_reducible apply Kept.ite2 | fail_if_no_progress intros)

theorem execFacet_kept {q : List Instr} {s : State} (n : Fin 16) (hk : Kept q s) :
    KeptOut q (execFacet n s) := by
  unfold execFacet
  try dsimp only
  repeat' (first
    | with_reducible assumption | with_reducible apply live_kept hk | with_reducible apply State.facetCmd_kept
    | with_reducible apply Kept.ite | with_reducible apply Kept.ite2 | fail_if_no_progress intros)

theorem execFloat_kept {q : List Instr} {s : State} (n : Fin 16) (hk : Kept q s) :
    KeptOut q (execFloat n s) := by
  unfold execFloat
  try dsimp only
  repeat' (first
    | with_reducible assumption | with_reducible apply live_kept hk | with_reducible apply State.floatCmd_kept
    | with_reducible apply Kept.ite | with_reducible apply Kept.ite2 | fail_if_no_progress intros)

theorem execPostingRelease_kept {q : List Instr} {s : State} (n : Fin 16) (hk : Kept q s) :
    KeptOut q (execPostingRelease n s) := by
  unfold execPostingRelease
  try dsimp only
  repeat' (first
    | with_reducible assumption | with_reducible apply live_kept hk | with_reducible apply State.postingRelease_kept
    | with_reducible apply Kept.ite | with_reducible apply Kept.ite2 | fail_if_no_progress intros)

theorem execClaim_kept {q : List Instr} {s : State} (n : Fin 16) (hk : Kept q s) :
    KeptOut q (execClaim n s) := by
  unfold execClaim
  try dsimp only
  repeat' (first
    | with_reducible assumption | with_reducible apply live_kept hk | with_reducible apply State.claimCmd_kept
    | with_reducible apply Kept.ite | with_reducible apply Kept.ite2 | fail_if_no_progress intros)

theorem execWaitTime_kept {q : List Instr} {s : State} (n : Fin 16) (hk : Kept q s) :
    KeptOut q (execWaitTime n s) := by
  unfold execWaitTime
  try dsimp only
  repeat' (first
    | with_reducible assumption | with_reducible apply live_kept hk | with_reducible apply State.waitTimeCmd_kept
    | with_reducible apply Kept.ite | with_reducible apply Kept.ite2 | fail_if_no_progress intros)

theorem execWaitTimeRelease_kept {q : List Instr} {s : State} (n : Fin 16) (hk : Kept q s) :
    KeptOut q (execWaitTimeRelease n s) := by
  unfold execWaitTimeRelease
  try dsimp only
  repeat' (first
    | with_reducible assumption | with_reducible apply live_kept hk | with_reducible apply State.waitTimeRelease_kept
    | with_reducible apply Kept.ite | with_reducible apply Kept.ite2 | fail_if_no_progress intros)

theorem execWaitEvent_kept {q : List Instr} {s : State} (n : Fin 16) (hk : Kept q s) :
    KeptOut q (execWaitEvent n s) := by
  unfold execWaitEvent
  try dsimp only
  repeat' (first
    | with_reducible assumption | with_reducible apply live_kept hk | with_reducible apply State.waitEventCmd_kept
    | with_reducible apply Kept.ite | with_reducible apply Kept.ite2 | fail_if_no_progress intros)

theorem execEventTimeout_kept {q : List Instr} {s : State} (n : Fin 16) (hk : Kept q s) :
    KeptOut q (execEventTimeout n s) := by
  unfold execEventTimeout
  try dsimp only
  repeat' (first
    | with_reducible assumption | with_reducible apply live_kept hk | with_reducible apply State.holdTimeout_kept
    | with_reducible apply Kept.ite | with_reducible apply Kept.ite2 | fail_if_no_progress intros)

theorem execBarrier_kept {q : List Instr} {s : State} (n : Fin 16) (hk : Kept q s) :
    KeptOut q (execBarrier n s) := by
  unfold execBarrier
  try dsimp only
  repeat' (first
    | with_reducible assumption | with_reducible apply live_kept hk | with_reducible apply State.barrierCmd_kept
    | with_reducible apply Kept.ite | with_reducible apply Kept.ite2 | fail_if_no_progress intros)

theorem execSet_kept {q : List Instr} {s : State} (n : Fin 16) (hk : Kept q s) :
    KeptOut q (execSet n s) := by
  unfold execSet
  try dsimp only
  repeat' (first
    | with_reducible assumption | with_reducible apply live_kept hk | with_reducible apply State.setCmd_kept
    | with_reducible apply Kept.ite | with_reducible apply Kept.ite2 | fail_if_no_progress intros)

theorem execCall_kept {q : List Instr} {s : State} (n : Fin 16) (hk : Kept q s) :
    KeptOut q (execCall n s) := by
  unfold execCall
  try dsimp only
  repeat' (first
    | with_reducible assumption | with_reducible apply live_kept hk | with_reducible apply State.callCmd_kept
    | with_reducible apply Kept.ite | with_reducible apply Kept.ite2 | fail_if_no_progress intros)

theorem execReturn_kept {q : List Instr} {s : State} (n : Fin 16) (hk : Kept q s) :
    KeptOut q (execReturn n s) := by
  unfold execReturn
  try dsimp only
  repeat' (first
    | with_reducible assumption | with_reducible apply live_kept hk | with_reducible apply State.retCmd_kept
    | with_reducible apply Kept.ite | with_reducible apply Kept.ite2 | fail_if_no_progress intros)

theorem execRepeat_kept {q : List Instr} {s : State} (n : Fin 16) (hk : Kept q s) :
    KeptOut q (execRepeat n s) := by
  unfold execRepeat
  try dsimp only
  repeat' (first
    | with_reducible assumption | with_reducible apply live_kept hk | with_reducible apply State.repCmd_kept
    | with_reducible apply Kept.ite | with_reducible apply Kept.ite2 | fail_if_no_progress intros)

theorem execMarker_kept {q : List Instr} {s : State} (n : Fin 16) (hk : Kept q s) :
    KeptOut q (execMarker n s) := by
  unfold execMarker
  try dsimp only
  repeat' (first
    | with_reducible assumption | with_reducible apply live_kept hk | with_reducible apply State.markerCmd_kept
    | with_reducible apply Kept.ite | with_reducible apply Kept.ite2 | fail_if_no_progress intros)

theorem execLayerClose_kept {q : List Instr} {s : State} (n : Fin 16) (hk : Kept q s) :
    KeptOut q (execLayerClose n s) := by
  unfold execLayerClose
  try dsimp only
  repeat' (first
    | with_reducible assumption | with_reducible apply live_kept hk | with_reducible apply State.closeCmd_kept
    | with_reducible apply Kept.ite | with_reducible apply Kept.ite2 | fail_if_no_progress intros)

theorem execHalt_kept {q : List Instr} {s : State} (n : Fin 16) (hk : Kept q s) :
    KeptOut q (execHalt n s) := by
  unfold execHalt
  try dsimp only
  repeat' (first
    | with_reducible assumption | with_reducible apply live_kept hk | with_reducible apply State.haltCmd_kept
    | with_reducible apply Kept.ite | with_reducible apply Kept.ite2 | fail_if_no_progress intros)

theorem execBadOpcode_kept {q : List Instr} {s : State} (n : Fin 16) (hk : Kept q s) :
    KeptOut q (execBadOpcode n s) := by
  unfold execBadOpcode
  try dsimp only
  repeat' (first
    | with_reducible assumption | with_reducible apply live_kept hk | with_reducible apply State.badOpcode_kept
    | with_reducible apply Kept.ite | with_reducible apply Kept.ite2 | fail_if_no_progress intros)

theorem execCsResume_kept {q : List Instr} {s : State} (m : Msg) (n : Fin 16) (hk : Kept q s) :
    KeptOut q (execCsResume m n s) := by
  unfold execCsResume
  try dsimp only
  repeat' (first
    | with_reducible assumption | with_reducible apply writeCmd_kept hk | with_reducible apply csControlEff_kept
    | with_reducible apply Kept.ite | with_reducible apply Kept.ite2 | fail_if_no_progress intros)

theorem execCsSkip_kept {q : List Instr} {s : State} (m : Msg) (n : Fin 16) (hk : Kept q s) :
    KeptOut q (execCsSkip m n s) := by
  unfold execCsSkip
  try dsimp only
  repeat' (first
    | with_reducible assumption | with_reducible apply writeCmd_kept hk | with_reducible apply csControlEff_kept
    | with_reducible apply Kept.ite | with_reducible apply Kept.ite2 | fail_if_no_progress intros)

/-! Machine/Actions.lean -/

theorem State.loopCycle_kept {q : List Instr} {s : State} (m : Nat) (hk : Kept q s) :
    Kept q (State.loopCycle s m) := by
  unfold State.loopCycle
  try dsimp only
  repeat' (first
    | with_reducible exact hk | with_reducible assumption | with_reducible apply State.setLoop_kept | with_reducible apply Kept.ite
    | fail_if_no_progress intros)

theorem State.waitRelease_kept {q : List Instr} {s : State} (n : Nat) (hk : Kept q s) :
    Kept q (State.waitRelease s n) := by
  unfold State.waitRelease
  try dsimp only
  repeat' (first
    | with_reducible exact hk | with_reducible assumption | with_reducible apply State.fetchCheck_kept
    | with_reducible apply State.wake_kept | with_reducible apply Kept.ite | fail_if_no_progress intros | dsimp only
    | fail_if_no_progress refine Kept.of_mk ?_ rfl rfl rfl rfl rfl | split)

theorem State.deliver_kept {q : List Instr} {s : State} (action target : Nat) (hk : Kept q s) :
    Kept q (State.deliver s action target) := by
  unfold State.deliver
  try dsimp only
  repeat' (first
    | with_reducible exact hk | with_reducible assumption | with_reducible apply State.axisLatch_kept
    | with_reducible apply State.expose_kept | with_reducible apply State.fireFlash_kept | with_reducible apply State.loopCycle_kept
    | with_reducible apply State.waitRelease_kept | with_reducible apply Kept.ite | fail_if_no_progress intros | dsimp only
    | fail_if_no_progress refine Kept.of_mk ?_ rfl rfl rfl rfl rfl | split)

theorem State.triggerFired_kept {q : List Instr} {s : State} (n : Nat) (hk : Kept q s) :
    Kept q (State.triggerFired s n) := by
  unfold State.triggerFired
  try dsimp only
  repeat' (first
    | with_reducible exact hk | with_reducible assumption | with_reducible apply State.deliver_kept
    | with_reducible apply State.fireTrigger_kept | with_reducible apply Kept.ite | fail_if_no_progress intros)

theorem State.compareFired_kept {q : List Instr} {s : State} (k c : Nat) (hk : Kept q s) :
    Kept q (State.compareFired s k c) := by
  unfold State.compareFired
  try dsimp only
  repeat' (first
    | with_reducible exact hk | with_reducible assumption | with_reducible apply State.deliver_kept
    | with_reducible apply State.fireCompare_kept | with_reducible apply Kept.ite | fail_if_no_progress intros)

theorem execTriggerFired_kept {q : List Instr} {s : State} (n : Fin 64) (hk : Kept q s) :
    KeptOut q (execTriggerFired n s) := by
  unfold execTriggerFired
  try dsimp only
  repeat' (first
    | with_reducible assumption | with_reducible apply live_kept hk | with_reducible apply State.triggerFired_kept
    | with_reducible apply Kept.ite | with_reducible apply Kept.ite2 | fail_if_no_progress intros)

theorem execCompare_kept {q : List Instr} {s : State} (k : Fin 4) (c : Fin 8) (hk : Kept q s) :
    KeptOut q (execCompare k c s) := by
  unfold execCompare
  try dsimp only
  repeat' (first
    | with_reducible assumption | with_reducible apply live_kept hk | with_reducible apply State.compareFired_kept
    | with_reducible apply Kept.ite | with_reducible apply Kept.ite2 | fail_if_no_progress intros)

/-! Machine/Bed.lean -/

theorem State.flushImage_kept {q : List Instr} {s : State} (k : Nat) (f : PFrame) (hk : Kept q s) :
    Kept q (State.flushImage s k f).2 := by
  unfold State.flushImage
  try dsimp only
  repeat' (first
    | with_reducible exact hk | with_reducible assumption | with_reducible apply State.tryWrite_kept | with_reducible apply Kept.ite
    | with_reducible apply Kept.ite2)

theorem State.flushImages_kept {q : List Instr} {s : State} (k : Nat) (hk : Kept q s) :
    Kept q (State.flushImages s k) := by
  unfold State.flushImages
  have h : Kept q ((s.pipe k).closing.foldl
      (fun (a : List PFrame × State) f => let t := a.2.flushImage k f; (a.1 ++ [t.1], t.2)) ([], s)).2 :=
    Kept.foldl2 hk fun a f h => State.flushImage_kept _ _ h
  dsimp only
  generalize ((s.pipe k).closing.foldl
      (fun (a : List PFrame × State) f => let t := a.2.flushImage k f; (a.1 ++ [t.1], t.2)) ([], s)) = r at h ⊢
  have h1 := State.setPipe_kept k { r.2.pipe k with closing := r.1 } h
  generalize r.2.setPipe k { r.2.pipe k with closing := r.1 } = s1 at h1 ⊢
  split
  · exact State.setPipe_kept _ _ (State.flushImage_kept _ _ h1)
  · exact h1

theorem State.pipeTick_kept {q : List Instr} {s : State} (k : Nat) (hk : Kept q s) :
    Kept q (State.pipeTick s k) := by
  unfold State.pipeTick
  try dsimp only
  repeat' (first
    | with_reducible exact hk | with_reducible assumption | with_reducible apply State.flushImages_kept
    | with_reducible apply flushRecords_kept | with_reducible apply Kept.ite | fail_if_no_progress intros)

theorem State.doStripe_kept {q : List Instr} {s : State} (k : Nat) (f : PFrame) (hk : Kept q s) :
    Kept q (State.doStripe s k f).2 := by
  unfold State.doStripe
  try dsimp only
  repeat' (first
    | with_reducible exact hk | with_reducible assumption | with_reducible apply State.park_kept | with_reducible apply Kept.ite
    | with_reducible apply Kept.ite2 | fail_if_no_progress intros | dsimp only
    | fail_if_no_progress refine Kept.of_mk ?_ rfl rfl rfl rfl rfl | split)

theorem State.bedStripe_kept {q : List Instr} {s : State} (k : Nat) (hk : Kept q s) :
    Kept q (State.bedStripe s k) := by
  unfold State.bedStripe
  dsimp only
  split
  · exact hk
  · next f closed _ =>
    refine Kept.ite (fun _ => hk) fun _ => ?_
    have h := State.doStripe_kept k f hk
    generalize s.doStripe k f = r at h ⊢
    obtain ⟨o, s1⟩ := r
    cases o with
    | some f => exact State.setPipe_kept _ _ h
    | none => exact h

theorem State.fiducialImage_kept {q : List Instr} {s : State} (k : Nat) (f : PFrame) (hk : Kept q s) :
    Kept q (State.fiducialImage s k f) := by
  unfold State.fiducialImage
  try dsimp only
  repeat' (first
    | with_reducible exact hk | with_reducible assumption | with_reducible apply Kept.ite | fail_if_no_progress intros | dsimp only
    | fail_if_no_progress refine Kept.of_mk ?_ rfl rfl rfl rfl rfl | split)

theorem State.bedFrameDone_kept {q : List Instr} {s : State} (k : Nat) (hk : Kept q s) :
    Kept q (State.bedFrameDone s k) := by
  unfold State.bedFrameDone
  split
  · exact hk
  · next f rest _ =>
    refine Kept.ite (fun _ => hk) fun _ => ?_
    have h : Kept q (if f.stripes < f.stripeCount then s.doStripe k f else (some f, s)).2 := by
      split
      · exact State.doStripe_kept _ _ hk
      · exact hk
    dsimp only
    generalize (if f.stripes < f.stripeCount then s.doStripe k f else (some f, s)) = r at h ⊢
    obtain ⟨o, s1⟩ := r
    cases o with
    | none => exact h
    | some f =>
      dsimp only at h ⊢
      generalize (s1.bedOutput k f) = out
      have h2 := State.tryWrite_kept (32 + k) (s1.rd (K.BD_OUT_BASE k) + s1.rd (K.BD_OUT_SLOT k) * (s1.rd (K.BD_FRAMES_DONE k) % 4))
        out.1 h
      generalize s1.tryWrite (32 + k) (s1.rd (K.BD_OUT_BASE k) + s1.rd (K.BD_OUT_SLOT k) * (s1.rd (K.BD_FRAMES_DONE k) % 4))
        out.1 = t at h2 ⊢
      refine Kept.ite (fun _ => h2) fun _ => ?_
      have h3 := State.fiducialImage_kept k f h2
      generalize t.2.fiducialImage k f = u at h3 ⊢
      have h4 := State.raise_kept (srcPipe k) 0x0075 4 k 0
        (State.inc_kept (K.BD_FRAMES_DONE k) (State.setPipe_kept k { u.pipe k with closing := rest } h3))
      exact Kept.ite (fun _ => h4) fun _ => State.raise_kept _ _ _ _ _ h4

theorem execCameraSliceStart_kept {q : List Instr} {s : State} (c : Fin 4) (frame : BitVec 32) (start : BitVec 64) (tag w h : BitVec 16) (hk : Kept q s) :
    KeptOut q (execCameraSliceStart c frame start tag w h s) := by
  unfold execCameraSliceStart
  try dsimp only
  repeat' (first
    | with_reducible assumption | with_reducible apply live_kept hk | with_reducible apply State.onLink_kept
    | with_reducible apply State.sliceStart_kept | with_reducible apply Kept.ite | with_reducible apply Kept.ite2
    | fail_if_no_progress intros)

theorem execCameraSlicePixels_kept {q : List Instr} {s : State} (c : Fin 4) (frame offset : BitVec 32) (pixels : List (BitVec 16)) (hk : Kept q s) :
    KeptOut q (execCameraSlicePixels c frame offset pixels s) := by
  unfold execCameraSlicePixels
  try dsimp only
  repeat' (first
    | with_reducible assumption | with_reducible apply live_kept hk | with_reducible apply State.flushImages_kept
    | with_reducible apply State.onLink_kept | with_reducible apply State.slicePixels_kept | with_reducible apply Kept.ite
    | with_reducible apply Kept.ite2 | fail_if_no_progress intros)

theorem execCameraSliceEnd_kept {q : List Instr} {s : State} (c : Fin 4) (frame x_sent : BitVec 32) (hk : Kept q s) :
    KeptOut q (execCameraSliceEnd c frame x_sent s) := by
  unfold execCameraSliceEnd
  try dsimp only
  repeat' (first
    | with_reducible assumption | with_reducible apply live_kept hk | with_reducible apply State.onLink_kept
    | with_reducible apply State.sliceEnd_kept | with_reducible apply Kept.ite | with_reducible apply Kept.ite2
    | fail_if_no_progress intros)

theorem execBedStripe_kept {q : List Instr} {s : State} (k : Fin 24) (hk : Kept q s) :
    KeptOut q (execBedStripe k s) := by
  unfold execBedStripe
  try dsimp only
  repeat' (first
    | with_reducible assumption | with_reducible apply live_kept hk | with_reducible apply State.bedStripe_kept
    | with_reducible apply Kept.ite | with_reducible apply Kept.ite2 | fail_if_no_progress intros)

theorem execBedFrameDone_kept {q : List Instr} {s : State} (k : Fin 24) (hk : Kept q s) :
    KeptOut q (execBedFrameDone k s) := by
  unfold execBedFrameDone
  try dsimp only
  repeat' (first
    | with_reducible assumption | with_reducible apply live_kept hk | with_reducible apply State.bedFrameDone_kept
    | with_reducible apply Kept.ite | with_reducible apply Kept.ite2 | fail_if_no_progress intros)

/-! Machine/Fleet.lean -/

theorem State.nodeSeen_kept {q : List Instr} {s : State} (k d : Nat) (hk : Kept q s) :
    Kept q (State.nodeSeen s k d) := by
  unfold State.nodeSeen
  try dsimp only
  repeat' (first | with_reducible exact hk | with_reducible assumption | with_reducible apply State.wrs_kept)

theorem State.ownDigest_kept {q : List Instr} {s : State} (hk : Kept q s) :
    Kept q (State.ownDigest s) := by
  unfold State.ownDigest
  try dsimp only
  repeat' (first
    | with_reducible exact hk | with_reducible assumption | with_reducible apply State.nodeSeen_kept | with_reducible apply Kept.ite
    | fail_if_no_progress intros)

theorem State.sendDigest_kept {q : List Instr} {s : State} (hk : Kept q s) :
    Kept q (State.sendDigest s) := by
  unfold State.sendDigest
  try dsimp only
  repeat' (first
    | with_reducible exact hk | with_reducible assumption | with_reducible apply State.sendPartner_kept
    | with_reducible apply Kept.ite | fail_if_no_progress intros)

theorem State.setDigestHold_kept {q : List Instr} {s : State} (v : Nat) (hk : Kept q s) :
    Kept q (State.setDigestHold s v) := by
  unfold State.setDigestHold
  try dsimp only
  repeat' (first
    | with_reducible exact hk | with_reducible assumption | with_reducible apply State.sendPartner_kept
    | with_reducible apply State.wr_kept | with_reducible apply Kept.ite | fail_if_no_progress intros)

theorem State.compareFleet_kept {q : List Instr} {s : State} (atClose : Bool) (hk : Kept q s) :
    Kept q (State.compareFleet s atClose) := by
  unfold State.compareFleet
  try dsimp only
  repeat' (first
    | with_reducible exact hk | with_reducible assumption | with_reducible apply State.ownDigest_kept
    | with_reducible apply State.raise_kept | with_reducible apply State.setDigestHold_kept | with_reducible apply State.wrs_kept
    | with_reducible apply Kept.ite | fail_if_no_progress intros)

theorem State.fleetChanged_kept {q : List Instr} {s : State} (hk : Kept q s) :
    Kept q (State.fleetChanged s) := by
  unfold State.fleetChanged
  try dsimp only
  repeat' (first
    | with_reducible exact hk | with_reducible assumption | with_reducible apply State.compareFleet_kept
    | with_reducible apply State.ownDigest_kept | with_reducible apply State.sendDigest_kept)

theorem State.nodeGone_kept {q : List Instr} {s : State} (k : Nat) (hk : Kept q s) :
    Kept q (State.nodeGone s k) := by
  unfold State.nodeGone
  try dsimp only
  repeat' (first
    | with_reducible exact hk | with_reducible assumption | with_reducible apply State.wr_kept | with_reducible apply Kept.ite
    | fail_if_no_progress intros)

theorem State.nodeDigestIn_kept {q : List Instr} {s : State} (k d : Nat) (hk : Kept q s) :
    Kept q (State.nodeDigestIn s k d) := by
  unfold State.nodeDigestIn
  try dsimp only
  repeat' (first
    | with_reducible exact hk | with_reducible assumption | with_reducible apply State.fleetChanged_kept
    | with_reducible apply State.nodeSeen_kept | with_reducible apply Kept.ite | fail_if_no_progress intros)

end Sys2Proof.Machine
end

