-- ==== Sys2Proof/Laws/KeptTime.lean ====
section
/-! SUPPORT. Every operation and every command of time, PTP, cyclic frames, latches, passes and layers leaves the queue as it is and keeps the tables canonical: one lemma
for each definition, its name with `_kept` after it. -/

namespace Sys2Proof.Machine

/-! Machine/TimeBase.lean -/

theorem State.setPtp_kept {q : List Instr} {s : State} (p : Nat) (x : PtpPort) (hk : Kept q s) :
    Kept q (State.setPtp s p x) := by
  unfold State.setPtp
  try dsimp only
  repeat' (first
    | with_reducible exact hk | with_reducible assumption | with_reducible apply Kept.ite | fail_if_no_progress intros | dsimp only
    | fail_if_no_progress refine Kept.of_mk ?_ rfl rfl rfl rfl rfl)

theorem State.setPortState_kept {q : List Instr} {s : State} (p d v : Nat) (hk : Kept q s) :
    Kept q (State.setPortState s p d v) := by
  unfold State.setPortState
  try dsimp only
  repeat' (first
    | with_reducible exact hk | with_reducible assumption | with_reducible apply State.raise_kept
    | with_reducible apply State.wr_kept | with_reducible apply Kept.ite | fail_if_no_progress intros)

theorem State.mastersMove_kept {q : List Instr} {s : State} (old new : Nat) (hk : Kept q s) :
    Kept q (State.mastersMove s old new) := by
  unfold State.mastersMove
  try dsimp only
  repeat' (first
    | with_reducible exact hk | with_reducible assumption | with_reducible apply State.setPortState_kept
    | with_reducible apply Kept.foldl | with_reducible apply Kept.ite | fail_if_no_progress intros)

theorem State.setDom_kept {q : List Instr} {s : State} (d : Nat) (x : Domain) (hk : Kept q s) :
    Kept q (State.setDom s d x) := by
  unfold State.setDom
  try dsimp only
  repeat' (first
    | with_reducible exact hk | with_reducible assumption | with_reducible apply Kept.ite | fail_if_no_progress intros | dsimp only
    | fail_if_no_progress refine Kept.of_mk ?_ rfl rfl rfl rfl rfl)

theorem State.steerFrom_kept {q : List Instr} {s : State} (d : Nat) (hk : Kept q s) :
    Kept q (State.steerFrom s d) := by
  unfold State.steerFrom
  try dsimp only
  repeat' (first
    | with_reducible exact hk | with_reducible assumption | with_reducible apply State.raise_kept
    | with_reducible apply State.wr_kept | with_reducible apply Kept.ite | fail_if_no_progress intros | dsimp only
    | fail_if_no_progress refine Kept.of_mk ?_ rfl rfl rfl rfl rfl)

theorem State.holdover_kept {q : List Instr} {s : State} (hk : Kept q s) :
    Kept q (State.holdover s) := by
  unfold State.holdover
  try dsimp only
  repeat' (first
    | with_reducible exact hk | with_reducible assumption | with_reducible apply State.raise_kept
    | with_reducible apply State.wr_kept | with_reducible apply Kept.ite | fail_if_no_progress intros | dsimp only
    | fail_if_no_progress refine Kept.of_mk ?_ rfl rfl rfl rfl rfl)

theorem State.selectDomain_kept {q : List Instr} {s : State} (d : Nat) (hk : Kept q s) :
    Kept q (State.selectDomain s d) := by
  unfold State.selectDomain
  try dsimp only
  repeat' (first
    | with_reducible exact hk | with_reducible assumption | with_reducible apply State.holdover_kept
    | with_reducible apply State.mastersMove_kept | with_reducible apply State.raise_kept
    | with_reducible apply State.steerFrom_kept | with_reducible apply State.wr_kept | with_reducible apply Kept.ite
    | fail_if_no_progress intros | dsimp only | fail_if_no_progress refine Kept.of_mk ?_ rfl rfl rfl rfl rfl)

theorem State.setDomState_kept {q : List Instr} {s : State} (d v : Nat) (hk : Kept q s) :
    Kept q (State.setDomState s d v) := by
  unfold State.setDomState
  try dsimp only
  repeat' (first
    | with_reducible exact hk | with_reducible assumption | with_reducible apply State.raise_kept
    | with_reducible apply State.wr_kept | with_reducible apply Kept.ite | fail_if_no_progress intros)

theorem State.domainGone_kept {q : List Instr} {s : State} (d : Nat) (hk : Kept q s) :
    Kept q (State.domainGone s d) := by
  unfold State.domainGone
  try dsimp only
  repeat' (first
    | with_reducible exact hk | with_reducible assumption | with_reducible apply State.holdover_kept
    | with_reducible apply State.noteKeep_kept | with_reducible apply State.selectDomain_kept | with_reducible apply Kept.ite
    | fail_if_no_progress intros)

theorem State.acceptSync_kept {q : List Instr} {s : State} (d : Nat) (t : Int) (k stamp : Nat) (hk : Kept q s) :
    Kept q (State.acceptSync s d t k stamp) := by
  unfold State.acceptSync
  try dsimp only
  repeat' (first
    | with_reducible exact hk | with_reducible assumption | with_reducible apply State.noteKeep_kept
    | with_reducible apply State.selectDomain_kept | with_reducible apply State.setDom_kept
    | with_reducible apply State.setDomState_kept | with_reducible apply State.steerFrom_kept | with_reducible apply State.wr_kept
    | with_reducible apply State.wrS_kept | with_reducible apply Kept.ite | fail_if_no_progress intros)

theorem autoSwitchEff_kept {q : List Instr} {s : State} (v : Nat) (hk : Kept q s) :
    Kept q (autoSwitchEff v s).2 := by
  unfold autoSwitchEff
  try dsimp only
  repeat' (first
    | with_reducible exact hk | with_reducible assumption | with_reducible apply State.noteKeep_kept
    | with_reducible apply State.selectDomain_kept | with_reducible apply State.wr_kept | with_reducible apply Kept.ite
    | with_reducible apply Kept.ite2 | fail_if_no_progress intros)

theorem State.advance_kept {q : List Instr} {s : State} (hk : Kept q s) :
    Kept q (State.advance s) := by
  unfold State.advance
  try dsimp only
  repeat' (first
    | with_reducible exact hk | with_reducible assumption | with_reducible apply State.bump_kept
    | with_reducible apply State.inc_kept | with_reducible apply Kept.ite | fail_if_no_progress intros | dsimp only
    | fail_if_no_progress refine Kept.of_mk ?_ rfl rfl rfl rfl rfl)

theorem State.stepTime_kept {q : List Instr} {s : State} (before : Time) (d : Nat) (hk : Kept q s) :
    Kept q (State.stepTime s before d) := by
  unfold State.stepTime
  try dsimp only
  repeat' (first
    | with_reducible exact hk | with_reducible assumption | with_reducible apply State.bump_kept
    | with_reducible apply State.raise_kept | with_reducible apply State.wrs_kept | with_reducible apply Kept.ite
    | fail_if_no_progress intros | dsimp only | fail_if_no_progress refine Kept.of_mk ?_ rfl rfl rfl rfl rfl)

theorem State.takeStep_kept {q : List Instr} {s : State} (before : Time) (hk : Kept q s) :
    Kept q (State.takeStep s before) := by
  unfold State.takeStep
  try dsimp only
  repeat' (first
    | with_reducible exact hk | with_reducible assumption | with_reducible apply State.stepTime_kept | with_reducible apply Kept.ite
    | fail_if_no_progress intros | dsimp only | fail_if_no_progress refine Kept.of_mk ?_ rfl rfl rfl rfl rfl | split)

theorem State.keepSeg_kept {q : List Instr} {s : State} (hk : Kept q s) :
    Kept q (State.keepSeg s) := by
  unfold State.keepSeg
  try dsimp only
  repeat' (first
    | with_reducible exact hk | with_reducible assumption | with_reducible apply State.inc_kept | with_reducible apply Kept.ite
    | fail_if_no_progress intros | dsimp only | fail_if_no_progress refine Kept.of_mk ?_ rfl rfl rfl rfl rfl)

theorem State.steerTick_kept {q : List Instr} {s : State} (before : Time) (hk : Kept q s) :
    Kept q (State.steerTick s before) := by
  unfold State.steerTick
  try dsimp only
  repeat' (first
    | with_reducible exact hk | with_reducible assumption | with_reducible apply State.keepSeg_kept
    | with_reducible apply State.takeStep_kept | with_reducible apply State.wr_kept | with_reducible apply Kept.ite
    | fail_if_no_progress intros | dsimp only | fail_if_no_progress refine Kept.of_mk ?_ rfl rfl rfl rfl rfl)

theorem State.numberEvent_kept {q : List Instr} {s : State} (e : EvRec) (hk : Kept q s) :
    Kept q (State.numberEvent s e).2 := by
  unfold State.numberEvent
  try dsimp only
  repeat' (first
    | with_reducible exact hk | with_reducible assumption | with_reducible apply Kept.ite | with_reducible apply Kept.ite2
    | fail_if_no_progress intros | dsimp only | fail_if_no_progress refine Kept.of_mk ?_ rfl rfl rfl rfl rfl)

theorem State.closeEvent_kept {q : List Instr} {s : State} (e : EvRec) (hk : Kept q s) :
    Kept q (State.closeEvent s e) := by
  unfold State.closeEvent
  try dsimp only
  repeat' (first
    | with_reducible exact hk | with_reducible assumption | with_reducible apply State.numberEvent_kept
    | with_reducible apply Kept.ite | fail_if_no_progress intros | dsimp only
    | fail_if_no_progress refine Kept.of_mk ?_ rfl rfl rfl rfl rfl)

theorem State.closeBefore_kept {q : List Instr} {s : State} (t : Nat) (hk : Kept q s) :
    Kept q (State.closeBefore s t) := by
  unfold State.closeBefore
  try dsimp only
  repeat' (first
    | with_reducible exact hk | with_reducible assumption | with_reducible apply State.closeEvent_kept
    | with_reducible apply Kept.foldl | with_reducible apply Kept.ite | fail_if_no_progress intros | dsimp only
    | fail_if_no_progress refine Kept.of_mk ?_ rfl rfl rfl rfl rfl)

theorem State.tickEff_kept {q : List Instr} {s : State} (hk : Kept q s) :
    Kept q (State.tickEff s) := by
  unfold State.tickEff
  try dsimp only
  repeat' (first
    | with_reducible exact hk | with_reducible assumption | with_reducible apply State.advance_kept
    | with_reducible apply State.closeBefore_kept | with_reducible apply State.keepNames_kept | with_reducible apply State.pump_kept
    | with_reducible apply State.resumeDue_kept | with_reducible apply State.steerTick_kept)

theorem timeSelEff_kept {q : List Instr} {s : State} (v : Nat) (hk : Kept q s) :
    Kept q (timeSelEff v s).2 := by
  unfold timeSelEff
  try dsimp only
  repeat' (first
    | with_reducible exact hk | with_reducible assumption | with_reducible apply State.selectDomain_kept
    | with_reducible apply Kept.ite | with_reducible apply Kept.ite2)

theorem domNumberEff_kept {q : List Instr} {s : State} (d v : Nat) (hk : Kept q s) :
    Kept q (domNumberEff d v s).2 := by
  unfold domNumberEff
  try dsimp only
  repeat' (first
    | with_reducible exact hk | with_reducible assumption | with_reducible apply State.domainGone_kept
    | with_reducible apply State.setDom_kept | with_reducible apply State.setDomState_kept | with_reducible apply State.wr_kept)

theorem execTimeStep_kept {q : List Instr} {s : State} (hk : Kept q s) :
    KeptOut q (execTimeStep s) := by
  unfold execTimeStep
  try dsimp only
  repeat' (first
    | with_reducible assumption | with_reducible apply live_kept hk | with_reducible apply Kept.ite | with_reducible apply Kept.ite2
    | fail_if_no_progress intros | dsimp only | fail_if_no_progress refine Kept.of_mk ?_ rfl rfl rfl rfl rfl)

theorem execTimeSel_kept {q : List Instr} {s : State} (m : Msg) (v : BitVec 8) (hk : Kept q s) :
    KeptOut q (execTimeSel m v s) := by
  unfold execTimeSel
  try dsimp only
  repeat' (first
    | with_reducible assumption | with_reducible apply writeCmd_kept hk | with_reducible apply timeSelEff_kept
    | with_reducible apply Kept.ite | with_reducible apply Kept.ite2 | fail_if_no_progress intros)

theorem execDomNumber_kept {q : List Instr} {s : State} (m : Msg) (d : Fin 2) (v : BitVec 8) (hk : Kept q s) :
    KeptOut q (execDomNumber m d v s) := by
  unfold execDomNumber
  try dsimp only
  repeat' (first
    | with_reducible assumption | with_reducible apply writeCmd_kept hk | with_reducible apply domNumberEff_kept
    | with_reducible apply Kept.ite | with_reducible apply Kept.ite2 | fail_if_no_progress intros)

theorem execDomainLost_kept {q : List Instr} {s : State} (d : Fin 2) (hk : Kept q s) :
    KeptOut q (execDomainLost d s) := by
  unfold execDomainLost
  try dsimp only
  repeat' (first
    | with_reducible assumption | with_reducible apply live_kept hk | with_reducible apply State.domainGone_kept
    | with_reducible apply State.setDomState_kept | with_reducible apply Kept.ite | with_reducible apply Kept.ite2
    | fail_if_no_progress intros)

/-! Machine/PtpPorts.lean -/

theorem ptpIn_kept {q : List Instr} {s : State} (m : Ptp) (k : Nat → State → State) (hk : Kept q s) (hf : ∀ d s, Kept q s → Kept q (k d s)) :
    Kept q (ptpIn m k s) := by
  unfold ptpIn
  try dsimp only
  repeat' (first
    | with_reducible exact hk | with_reducible assumption | with_reducible apply State.dropFrame_kept
    | with_reducible apply State.inc_kept | with_reducible apply hf | with_reducible apply Kept.ite | fail_if_no_progress intros
    | dsimp only | fail_if_no_progress refine Kept.of_mk ?_ rfl rfl rfl rfl rfl | split)

theorem State.txStamp_kept {q : List Instr} {s : State} (p ident bitNo : Nat) (hk : Kept q s) :
    Kept q (State.txStamp s p ident bitNo) := by
  unfold State.txStamp
  try dsimp only
  repeat' (first
    | with_reducible exact hk | with_reducible assumption | with_reducible apply State.inc_kept
    | with_reducible apply State.raise_kept | with_reducible apply State.setPtp_kept | with_reducible apply State.wr_kept
    | with_reducible apply Kept.ite | fail_if_no_progress intros)

theorem State.sendPtp_kept {q : List Instr} {s : State} (p : Nat) (b : List Byte) (hk : Kept q s) :
    Kept q (State.sendPtp s p b) := by
  unfold State.sendPtp
  try dsimp only
  repeat' (first
    | with_reducible exact hk | with_reducible assumption | with_reducible apply State.emit_kept
    | with_reducible apply State.inc_kept)

theorem State.sendPtpEvent_kept {q : List Instr} {s : State} (p seq : Nat) (b : List Byte) (hk : Kept q s) :
    Kept q (State.sendPtpEvent s p seq b) := by
  unfold State.sendPtpEvent
  try dsimp only
  repeat' (first
    | with_reducible exact hk | with_reducible assumption | with_reducible apply State.sendPtp_kept
    | with_reducible apply State.txStamp_kept)

theorem State.startDelay_kept {q : List Instr} {s : State} (p d : Nat) (hk : Kept q s) :
    Kept q (State.startDelay s p d) := by
  unfold State.startDelay
  try dsimp only
  repeat' (first
    | with_reducible exact hk | with_reducible assumption | with_reducible apply State.sendPtpEvent_kept
    | with_reducible apply State.setPtp_kept)

theorem State.hostPortState_kept {q : List Instr} {s : State} (p d v : Nat) (hk : Kept q s) :
    Kept q (State.hostPortState s p d v) := by
  unfold State.hostPortState
  try dsimp only
  repeat' (first
    | with_reducible exact hk | with_reducible assumption | with_reducible apply State.setPortState_kept
    | with_reducible apply Kept.ite | fail_if_no_progress intros)

theorem State.showMaster_kept {q : List Instr} {s : State} (d : Nat) (hk : Kept q s) :
    Kept q (State.showMaster s d) := by
  unfold State.showMaster
  try dsimp only
  repeat' (first
    | with_reducible exact hk | with_reducible assumption | with_reducible apply State.hostPortState_kept
    | with_reducible apply State.masterPort_kept | with_reducible apply Kept.ite | fail_if_no_progress intros | dsimp only
    | fail_if_no_progress refine Kept.of_mk ?_ rfl rfl rfl rfl rfl | split)

theorem State.portDeaf_kept {q : List Instr} {s : State} (p : Nat) (hk : Kept q s) :
    Kept q (State.portDeaf s p) := by
  unfold State.portDeaf
  try dsimp only
  repeat' (first
    | with_reducible exact hk | with_reducible assumption | with_reducible apply State.setDom_kept
    | with_reducible apply State.showMaster_kept | with_reducible apply Kept.foldl | with_reducible apply Kept.ite
    | fail_if_no_progress intros)

theorem txtsReleaseEff_kept {q : List Instr} {s : State} (p v : Nat) (hk : Kept q s) :
    Kept q (txtsReleaseEff p v s).2 := by
  unfold txtsReleaseEff
  try dsimp only
  repeat' (first
    | with_reducible exact hk | with_reducible assumption | with_reducible apply State.setPtp_kept | with_reducible apply Kept.ite
    | with_reducible apply Kept.ite2)

theorem State.masterSend_kept {q : List Instr} {s : State} (p : Nat) (hk : Kept q s) :
    Kept q (State.masterSend s p) := by
  unfold State.masterSend
  try dsimp only
  repeat' (first
    | with_reducible exact hk | with_reducible assumption | with_reducible apply State.sendPtp_kept
    | with_reducible apply State.sendPtpEvent_kept | with_reducible apply State.setPortState_kept
    | with_reducible apply State.setPtp_kept | with_reducible apply State.startDelay_kept | with_reducible apply Kept.ite
    | fail_if_no_progress intros)

theorem State.masterPort_kept {q : List Instr} {s : State} (p : Nat) (hk : Kept q s) :
    Kept q (State.masterPort s p) := by
  unfold State.masterPort
  try dsimp only
  repeat' (first
    | with_reducible exact hk | with_reducible assumption | with_reducible apply State.masterSend_kept
    | with_reducible apply Kept.ite | fail_if_no_progress intros)

theorem execSync_kept {q : List Instr} {s : State} (m : Ptp) (hk : Kept q s) :
    KeptOut q (execSync m s) := by
  unfold execSync
  try dsimp only
  repeat' (first
    | with_reducible assumption | with_reducible apply live_kept hk | with_reducible apply State.inc_kept
    | with_reducible apply State.masterPort_kept | with_reducible apply State.setDom_kept | with_reducible apply ptpIn_kept
    | with_reducible apply Kept.ite | with_reducible apply Kept.ite2 | fail_if_no_progress intros)

theorem execFollowUp_kept {q : List Instr} {s : State} (m : Ptp) (hk : Kept q s) :
    KeptOut q (execFollowUp m s) := by
  unfold execFollowUp
  try dsimp only
  repeat' (first
    | with_reducible assumption | with_reducible apply live_kept hk | with_reducible apply State.acceptSync_kept
    | with_reducible apply State.setDom_kept | with_reducible apply State.setPtp_kept | with_reducible apply State.startDelay_kept
    | with_reducible apply ptpIn_kept | with_reducible apply Kept.ite | with_reducible apply Kept.ite2 | fail_if_no_progress intros
    | dsimp only | fail_if_no_progress refine Kept.of_mk ?_ rfl rfl rfl rfl rfl | split)

theorem execDelayReq_kept {q : List Instr} {s : State} (m : Ptp) (hk : Kept q s) :
    KeptOut q (execDelayReq m s) := by
  unfold execDelayReq
  try dsimp only
  repeat' (first
    | with_reducible assumption | with_reducible apply live_kept hk | with_reducible apply State.sendPtp_kept
    | with_reducible apply ptpIn_kept | with_reducible apply Kept.ite | with_reducible apply Kept.ite2 | fail_if_no_progress intros)

theorem execDelayResp_kept {q : List Instr} {s : State} (m : Ptp) (hk : Kept q s) :
    KeptOut q (execDelayResp m s) := by
  unfold execDelayResp
  try dsimp only
  repeat' (first
    | with_reducible assumption | with_reducible apply live_kept hk | with_reducible apply State.setPtp_kept
    | with_reducible apply State.wrS_kept | with_reducible apply ptpIn_kept | with_reducible apply Kept.ite
    | with_reducible apply Kept.ite2 | fail_if_no_progress intros)

theorem execAnnounce_kept {q : List Instr} {s : State} (m : Ptp) (a : Announce) (hk : Kept q s) :
    KeptOut q (execAnnounce m a s) := by
  unfold execAnnounce
  try dsimp only
  repeat' (first
    | with_reducible assumption | with_reducible apply live_kept hk | with_reducible apply State.setDom_kept
    | with_reducible apply State.showMaster_kept | with_reducible apply ptpIn_kept | with_reducible apply Kept.ite
    | with_reducible apply Kept.ite2 | fail_if_no_progress intros)

theorem execPdelayReq_kept {q : List Instr} {s : State} (m : Ptp) (hk : Kept q s) :
    KeptOut q (execPdelayReq m s) := by
  unfold execPdelayReq
  try dsimp only
  repeat' (first
    | with_reducible assumption | with_reducible apply live_kept hk | with_reducible apply State.sendPtp_kept
    | with_reducible apply State.sendPtpEvent_kept | with_reducible apply ptpIn_kept | with_reducible apply Kept.ite
    | with_reducible apply Kept.ite2 | fail_if_no_progress intros)

theorem execPdelayResp_kept {q : List Instr} {s : State} (m : Ptp) (hk : Kept q s) :
    KeptOut q (execPdelayResp m s) := by
  unfold execPdelayResp
  try dsimp only
  repeat' (first
    | with_reducible assumption | with_reducible apply live_kept hk | with_reducible apply State.setPtp_kept
    | with_reducible apply ptpIn_kept | with_reducible apply Kept.ite | with_reducible apply Kept.ite2 | fail_if_no_progress intros)

theorem execPdelayRespFollowUp_kept {q : List Instr} {s : State} (m : Ptp) (hk : Kept q s) :
    KeptOut q (execPdelayRespFollowUp m s) := by
  unfold execPdelayRespFollowUp
  try dsimp only
  repeat' (first
    | with_reducible assumption | with_reducible apply live_kept hk | with_reducible apply State.setPtp_kept
    | with_reducible apply State.wrS_kept | with_reducible apply ptpIn_kept | with_reducible apply Kept.ite
    | with_reducible apply Kept.ite2 | fail_if_no_progress intros)

theorem execTxtsRelease_kept {q : List Instr} {s : State} (m : Msg) (p : Fin 4) (count : BitVec 8) (hk : Kept q s) :
    KeptOut q (execTxtsRelease m p count s) := by
  unfold execTxtsRelease
  try dsimp only
  repeat' (first
    | with_reducible assumption | with_reducible apply writeCmd_kept hk | with_reducible apply txtsReleaseEff_kept
    | with_reducible apply Kept.ite | with_reducible apply Kept.ite2 | fail_if_no_progress intros)

theorem execMasterSyncInterval_kept {q : List Instr} {s : State} (hk : Kept q s) :
    KeptOut q (execMasterSyncInterval s) := by
  unfold execMasterSyncInterval
  try dsimp only
  repeat' (first
    | with_reducible assumption | with_reducible apply live_kept hk | with_reducible apply State.masterPort_kept
    | with_reducible apply Kept.ite | with_reducible apply Kept.ite2 | fail_if_no_progress intros)

/-! Machine/Cyclic.lean -/

theorem cyclicEnableEff_kept {q : List Instr} {s : State} (v : Nat) (hk : Kept q s) :
    Kept q (cyclicEnableEff v s).2 := by
  unfold cyclicEnableEff
  try dsimp only
  repeat' (first
    | with_reducible exact hk | with_reducible assumption | with_reducible apply State.wr_kept | with_reducible apply Kept.ite
    | with_reducible apply Kept.ite2 | fail_if_no_progress intros | dsimp only
    | fail_if_no_progress refine Kept.of_mk ?_ rfl rfl rfl rfl rfl)

theorem State.cyclicSend_kept {q : List Instr} {s : State} (hk : Kept q s) :
    Kept q (State.cyclicSend s) := by
  unfold State.cyclicSend
  try dsimp only
  repeat' (first
    | with_reducible exact hk | with_reducible assumption | with_reducible apply State.draw_kept
    | with_reducible apply State.inc_kept | with_reducible apply State.sendFrame_kept | with_reducible apply State.txStamp_kept
    | with_reducible apply Kept.foldl | with_reducible apply Kept.ite | fail_if_no_progress intros | dsimp only
    | fail_if_no_progress refine Kept.of_mk ?_ rfl rfl rfl rfl rfl)

theorem State.setSilent_kept {q : List Instr} {s : State} (j n : Nat) (hk : Kept q s) :
    Kept q (State.setSilent s j n) := by
  unfold State.setSilent
  try dsimp only
  repeat' (first
    | with_reducible exact hk | with_reducible assumption | with_reducible apply Kept.ite | fail_if_no_progress intros | dsimp only
    | fail_if_no_progress refine Kept.of_mk ?_ rfl rfl rfl rfl rfl)

theorem State.slotReply_kept {q : List Instr} {s : State} (j status actual digest : Nat) (hk : Kept q s) :
    Kept q (State.slotReply s j status actual digest) := by
  unfold State.slotReply
  try dsimp only
  repeat' (first
    | with_reducible exact hk | with_reducible assumption | with_reducible apply State.feed_kept
    | with_reducible apply State.nodeDigestIn_kept | with_reducible apply State.wr_kept | with_reducible apply Kept.foldl
    | with_reducible apply Kept.ite | fail_if_no_progress intros | dsimp only
    | fail_if_no_progress refine Kept.of_mk ?_ rfl rfl rfl rfl rfl)

theorem State.cyclicReply_kept {q : List Instr} {s : State} (m : Msg) (cycle node status actual digest : Nat) (hk : Kept q s) :
    Kept q (State.cyclicReply s m cycle node status actual digest) := by
  unfold State.cyclicReply
  try dsimp only
  repeat' (first
    | with_reducible exact hk | with_reducible assumption | with_reducible apply State.dropFrame_kept
    | with_reducible apply State.inc_kept | with_reducible apply State.slotReply_kept | with_reducible apply Kept.foldl
    | with_reducible apply Kept.ite | fail_if_no_progress intros)

theorem State.cyclicTick_kept {q : List Instr} {s : State} (hk : Kept q s) :
    Kept q (State.cyclicTick s) := by
  unfold State.cyclicTick
  try dsimp only
  repeat' (first
    | with_reducible exact hk | with_reducible assumption | with_reducible apply State.inc_kept
    | with_reducible apply State.setSilent_kept | with_reducible apply Kept.foldl | with_reducible apply Kept.ite
    | fail_if_no_progress intros)

theorem State.driveSilent_kept {q : List Instr} {s : State} (j : Nat) (hk : Kept q s) :
    Kept q (State.driveSilent s j) := by
  unfold State.driveSilent
  try dsimp only
  repeat' (first
    | with_reducible exact hk | with_reducible assumption | with_reducible apply State.generalSample_kept
    | with_reducible apply State.holdLoop_kept | with_reducible apply State.loopEvent_kept
    | with_reducible apply State.setSilent_kept | with_reducible apply Kept.ite | fail_if_no_progress intros)

theorem State.driveNodes_kept {q : List Instr} {s : State} (hk : Kept q s) :
    Kept q (State.driveNodes s) := by
  unfold State.driveNodes
  try dsimp only
  repeat' (first
    | with_reducible exact hk | with_reducible assumption | with_reducible apply State.nodeGone_kept
    | with_reducible apply State.wr_kept | with_reducible apply Kept.foldl | with_reducible apply Kept.ite
    | fail_if_no_progress intros)

theorem slotNodeEff_kept {q : List Instr} {s : State} (j v : Nat) (hk : Kept q s) :
    Kept q (slotNodeEff j v s).2 := by
  unfold slotNodeEff
  try dsimp only
  repeat' (first
    | with_reducible exact hk | with_reducible assumption | with_reducible apply State.nodeGone_kept
    | with_reducible apply State.wr_kept | with_reducible apply Kept.ite | with_reducible apply Kept.ite2
    | fail_if_no_progress intros)

theorem slotLoopEff_kept {q : List Instr} {s : State} (j v : Nat) (hk : Kept q s) :
    Kept q (slotLoopEff j v s).2 := by
  unfold slotLoopEff
  try dsimp only
  repeat' (first
    | with_reducible exact hk | with_reducible assumption | with_reducible apply State.wr_kept | with_reducible apply Kept.ite
    | with_reducible apply Kept.ite2)

theorem execCyclicEnable_kept {q : List Instr} {s : State} (m : Msg) (v : BitVec 8) (hk : Kept q s) :
    KeptOut q (execCyclicEnable m v s) := by
  unfold execCyclicEnable
  try dsimp only
  repeat' (first
    | with_reducible assumption | with_reducible apply writeCmd_kept hk | with_reducible apply cyclicEnableEff_kept
    | with_reducible apply Kept.ite | with_reducible apply Kept.ite2 | fail_if_no_progress intros)

theorem execCyclicSend_kept {q : List Instr} {s : State} (hk : Kept q s) :
    KeptOut q (execCyclicSend s) := by
  unfold execCyclicSend
  try dsimp only
  repeat' (first | with_reducible assumption | with_reducible apply live_kept hk | with_reducible apply State.cyclicSend_kept)

theorem execCyclicReply_kept {q : List Instr} {s : State} (m : Msg) (cycle : BitVec 32) (node status : BitVec 8) (x_error : BitVec 16) (actual : BitVec 32) (digest : BitVec 64) (hk : Kept q s) :
    KeptOut q (execCyclicReply m cycle node status x_error actual digest s) := by
  unfold execCyclicReply
  try dsimp only
  repeat' (first
    | with_reducible assumption | with_reducible apply live_kept hk | with_reducible apply State.cyclicReply_kept
    | with_reducible apply Kept.ite | with_reducible apply Kept.ite2 | fail_if_no_progress intros)

theorem execDriveSilent_kept {q : List Instr} {s : State} (slot : Fin 8) (hk : Kept q s) :
    KeptOut q (execDriveSilent slot s) := by
  unfold execDriveSilent
  try dsimp only
  repeat' (first
    | with_reducible assumption | with_reducible apply live_kept hk | with_reducible apply State.driveSilent_kept
    | with_reducible apply Kept.ite | with_reducible apply Kept.ite2 | fail_if_no_progress intros)

/-! Machine/DebugBase.lean -/

theorem State.cancelHalts_kept {q : List Instr} {s : State} (hk : Kept q s) :
    Kept q (State.cancelHalts s) := by
  unfold State.cancelHalts
  try dsimp only
  repeat' (first
    | with_reducible exact hk | with_reducible assumption | with_reducible apply State.setChan_kept
    | with_reducible apply State.wr_kept | with_reducible apply Kept.foldl | with_reducible apply Kept.ite
    | fail_if_no_progress intros)

theorem State.disarmBreaks_kept {q : List Instr} {s : State} (hk : Kept q s) :
    Kept q (State.disarmBreaks s) := by
  unfold State.disarmBreaks
  try dsimp only
  repeat' (first
    | with_reducible exact hk | with_reducible assumption | with_reducible apply State.clr_kept | with_reducible apply Kept.foldl
    | with_reducible apply Kept.ite | fail_if_no_progress intros)

theorem State.debugLock_kept {q : List Instr} {s : State} (hk : Kept q s) :
    Kept q (State.debugLock s) := by
  unfold State.debugLock
  try dsimp only
  repeat' (first
    | with_reducible exact hk | with_reducible assumption | with_reducible apply State.cancelHalts_kept
    | with_reducible apply State.disarmBreaks_kept | with_reducible apply State.raise_kept | with_reducible apply State.wrs_kept
    | with_reducible apply Kept.ite | fail_if_no_progress intros | dsimp only
    | fail_if_no_progress refine Kept.of_mk ?_ rfl rfl rfl rfl rfl)

theorem State.debugUnlock_kept {q : List Instr} {s : State} (v : Nat) (hk : Kept q s) :
    Kept q (State.debugUnlock s v) := by
  unfold State.debugUnlock
  try dsimp only
  repeat' (first
    | with_reducible exact hk | with_reducible assumption | with_reducible apply State.debugLock_kept
    | with_reducible apply State.raise_kept | with_reducible apply State.wrs_kept | with_reducible apply Kept.ite
    | fail_if_no_progress intros | dsimp only | fail_if_no_progress refine Kept.of_mk ?_ rfl rfl rfl rfl rfl)

theorem dbgLockEff_kept {q : List Instr} {s : State} (x_v : Nat) (hk : Kept q s) :
    Kept q (dbgLockEff x_v s).2 := by
  unfold dbgLockEff
  try dsimp only
  repeat' (first | with_reducible exact hk | with_reducible assumption | with_reducible apply State.debugLock_kept)

theorem debugHaltEff_kept {q : List Instr} {s : State} (n : Nat) (hk : Kept q s) :
    Kept q (debugHaltEff n s).2 := by
  unfold debugHaltEff
  try dsimp only
  repeat' (first
    | with_reducible exact hk | with_reducible assumption | with_reducible apply State.endRunFrom_kept
    | with_reducible apply State.setChan_kept | with_reducible apply State.wr_kept | with_reducible apply Kept.ite
    | with_reducible apply Kept.ite2 | fail_if_no_progress intros)

theorem debugGoEff_kept {q : List Instr} {s : State} (n : Nat) (step : Bool) (hk : Kept q s) :
    Kept q (debugGoEff n step s).2 := by
  unfold debugGoEff
  try dsimp only
  repeat' (first
    | with_reducible exact hk | with_reducible assumption | with_reducible apply State.goOn_kept
    | with_reducible apply State.hold_kept | with_reducible apply State.setChan_kept | with_reducible apply State.wr_kept
    | with_reducible apply Kept.ite | with_reducible apply Kept.ite2)

theorem seqControlEff_kept {q : List Instr} {s : State} (n : Nat) (debug : Bool) (v : Nat) (hk : Kept q s) :
    Kept q (seqControlEff n debug v s).2 := by
  unfold seqControlEff
  try dsimp only
  repeat' (first
    | with_reducible exact hk | with_reducible assumption | with_reducible apply debugGoEff_kept
    | with_reducible apply debugHaltEff_kept | with_reducible apply Kept.ite | with_reducible apply Kept.ite2
    | fail_if_no_progress intros | dsimp only | fail_if_no_progress refine Kept.of_mk ?_ rfl rfl rfl rfl rfl | split)

theorem State.haltWaiting_kept {q : List Instr} {s : State} (n : Nat) (hk : Kept q s) :
    Kept q (State.haltWaiting s n) := by
  unfold State.haltWaiting
  try dsimp only
  repeat' (first
    | with_reducible exact hk | with_reducible assumption | with_reducible apply State.holdDebug_kept
    | with_reducible apply Kept.ite | fail_if_no_progress intros)

theorem State.cellBreaks_kept {q : List Instr} {s : State} (n a : Nat) (hk : Kept q s) :
    Kept q (State.cellBreaks s n a) := by
  unfold State.cellBreaks
  try dsimp only
  repeat' (first
    | with_reducible exact hk | with_reducible assumption | with_reducible apply State.breakHits_kept
    | with_reducible apply State.setChan_kept | with_reducible apply Kept.ite | fail_if_no_progress intros | dsimp only
    | fail_if_no_progress refine Kept.of_mk ?_ rfl rfl rfl rfl rfl | split)

theorem execDebugLocked_kept {q : List Instr} {s : State} (hk : Kept q s) :
    KeptOut q (execDebugLocked s) := by
  unfold execDebugLocked
  try dsimp only
  repeat' (first
    | with_reducible assumption | with_reducible apply live_kept hk | with_reducible apply State.debugLock_kept
    | with_reducible apply Kept.ite | with_reducible apply Kept.ite2 | fail_if_no_progress intros | dsimp only
    | fail_if_no_progress refine Kept.of_mk ?_ rfl rfl rfl rfl rfl | split)

theorem execDbgLock_kept {q : List Instr} {s : State} (m : Msg) (hk : Kept q s) :
    KeptOut q (execDbgLock m s) := by
  unfold execDbgLock
  try dsimp only
  repeat' (first
    | with_reducible assumption | with_reducible apply writeCmd_kept hk | with_reducible apply dbgLockEff_kept
    | with_reducible apply Kept.ite | with_reducible apply Kept.ite2 | fail_if_no_progress intros)

/-! Machine/Latch.lean -/

theorem State.regionCheck_kept {q : List Instr} {s : State} (n a : Nat) (hk : Kept q s) :
    Kept q (State.regionCheck s n a) := by
  unfold State.regionCheck
  try dsimp only
  repeat' (first
    | with_reducible exact hk | with_reducible assumption | with_reducible apply State.setChan_kept | with_reducible apply Kept.ite
    | fail_if_no_progress intros | dsimp only | fail_if_no_progress refine Kept.of_mk ?_ rfl rfl rfl rfl rfl | split)

theorem State.pinWait_kept {q : List Instr} {s : State} (n a : Nat) (p : Planned) (hk : Kept q s) :
    Kept q (State.pinWait s n a p) := by
  unfold State.pinWait
  try dsimp only
  repeat' (first
    | with_reducible exact hk | with_reducible assumption | with_reducible apply State.boundaryStops_kept
    | with_reducible apply State.inc_kept | with_reducible apply State.raise_kept | with_reducible apply State.remnants_kept
    | with_reducible apply State.setChan_kept | with_reducible apply State.syncHeld_kept
    | with_reducible apply State.syncSlots_kept)

theorem State.pinCheck_kept {q : List Instr} {s : State} (n a : Nat) (hk : Kept q s) :
    Kept q (State.pinCheck s n a) := by
  unfold State.pinCheck
  try dsimp only
  repeat' (first
    | with_reducible exact hk | with_reducible assumption | with_reducible apply State.pinWait_kept | with_reducible apply Kept.ite
    | fail_if_no_progress intros | dsimp only | fail_if_no_progress refine Kept.of_mk ?_ rfl rfl rfl rfl rfl | split)

theorem State.facetPeriods_kept {q : List Instr} {s : State} (n a : Nat) (hk : Kept q s) :
    Kept q (State.facetPeriods s n a) := by
  unfold State.facetPeriods
  try dsimp only
  repeat' (first
    | with_reducible exact hk | with_reducible assumption | with_reducible apply State.raise_kept
    | with_reducible apply State.setRep_kept | with_reducible apply State.syncRep_kept | with_reducible apply Kept.foldl
    | with_reducible apply Kept.ite | fail_if_no_progress intros | dsimp only
    | fail_if_no_progress refine Kept.of_mk ?_ rfl rfl rfl rfl rfl | split)

theorem State.underrun_kept {q : List Instr} {s : State} (n a : Nat) (hk : Kept q s) :
    Kept q (State.underrun s n a) := by
  unfold State.underrun
  try dsimp only
  repeat' (first
    | with_reducible exact hk | with_reducible assumption | with_reducible apply State.holdLoop_kept
    | with_reducible apply State.inc_kept | with_reducible apply State.park_kept | with_reducible apply State.raise_kept
    | with_reducible apply State.recordRepair_kept | with_reducible apply State.setChan_kept | with_reducible apply Kept.ite
    | fail_if_no_progress intros | dsimp only | fail_if_no_progress refine Kept.of_mk ?_ rfl rfl rfl rfl rfl | split)

theorem State.sendRecord_kept {q : List Instr} {s : State} (n a mod : Nat) (g : GateRec) (px : List Byte) (hk : Kept q s) :
    Kept q (State.sendRecord s n a mod g px) := by
  unfold State.sendRecord
  try dsimp only
  repeat' (first
    | with_reducible exact hk | with_reducible assumption | with_reducible apply State.setChan_kept | with_reducible apply Kept.ite
    | fail_if_no_progress intros | dsimp only | fail_if_no_progress refine Kept.of_mk ?_ rfl rfl rfl rfl rfl)

theorem State.reachCheck_kept {q : List Instr} {s : State} (n : Nat) (hk : Kept q s) :
    Kept q (State.reachCheck s n) := by
  unfold State.reachCheck
  try dsimp only
  repeat' (first
    | with_reducible exact hk | with_reducible assumption | with_reducible apply State.chanFault_kept
    | with_reducible apply State.inc_kept | with_reducible apply State.setChan_kept | with_reducible apply Kept.ite
    | fail_if_no_progress intros)

theorem State.showLine_kept {q : List Instr} {s : State} (n a : Nat) (p : Planned) (hk : Kept q s) :
    Kept q (State.showLine s n a p) := by
  unfold State.showLine
  try dsimp only
  repeat' (first
    | with_reducible exact hk | with_reducible assumption | with_reducible apply State.wr_kept | with_reducible apply Kept.ite
    | fail_if_no_progress intros | dsimp only | fail_if_no_progress refine Kept.of_mk ?_ rfl rfl rfl rfl rfl | split)

theorem State.passMarks_kept {q : List Instr} {s : State} (n a : Nat) (ps : List PixelOut) (p : Pass) (hk : Kept q s) :
    Kept q (State.passMarks s n a ps p) := by
  unfold State.passMarks
  try dsimp only
  repeat' (first
    | with_reducible exact hk | with_reducible assumption | with_reducible apply State.latPush_kept | with_reducible apply Kept.ite
    | fail_if_no_progress intros | dsimp only | fail_if_no_progress refine Kept.of_mk ?_ rfl rfl rfl rfl rfl | split)

theorem State.sweepMarks_kept {q : List Instr} {s : State} (n a : Nat) (ps : List PixelOut) (hk : Kept q s) :
    Kept q (State.sweepMarks s n a ps) := by
  unfold State.sweepMarks
  try dsimp only
  repeat' (first
    | with_reducible exact hk | with_reducible assumption | with_reducible apply State.passMarks_kept
    | with_reducible apply Kept.foldl | with_reducible apply Kept.ite | fail_if_no_progress intros)

theorem State.gainRead_kept {q : List Instr} {s : State} (n a : Nat) (hk : Kept q s) :
    Kept q (State.gainRead s n a).2 := by
  unfold State.gainRead
  try dsimp only
  repeat' (first
    | with_reducible exact hk | with_reducible assumption | with_reducible apply State.ffRead_kept
    | with_reducible apply State.setChan_kept | with_reducible apply Kept.ite | with_reducible apply Kept.ite2)

theorem State.gainTick_kept {q : List Instr} {s : State} (n a : Nat) (hk : Kept q s) :
    Kept q (State.gainTick s n a) := by
  unfold State.gainTick
  try dsimp only
  repeat' (first
    | with_reducible exact hk | with_reducible assumption | with_reducible apply State.gainRead_kept | with_reducible apply Kept.ite
    | fail_if_no_progress intros)

theorem State.noteShot_kept {q0 : List Instr} {s : State} (n : Nat) (q : Shot) (hk : Kept q0 s) :
    Kept q0 (State.noteShot s n q) := by
  unfold State.noteShot
  try dsimp only
  repeat' (first | with_reducible exact hk | with_reducible assumption | with_reducible apply State.setChan_kept)

theorem State.latchRun_kept {q : List Instr} {s : State} (n a : Nat) (hk : Kept q s) :
    Kept q (State.latchRun s n a) := by
  unfold State.latchRun
  try dsimp only
  repeat' (first
    | with_reducible exact hk | with_reducible assumption | with_reducible apply State.bump_kept
    | with_reducible apply State.deposit_kept | with_reducible apply State.gainRead_kept | with_reducible apply State.inc_kept
    | with_reducible apply State.latPush_kept | with_reducible apply State.noteDeposit_kept
    | with_reducible apply State.noteShot_kept | with_reducible apply State.raise_kept | with_reducible apply State.sendRecord_kept
    | with_reducible apply State.showLine_kept | with_reducible apply State.sweepMarks_kept | with_reducible apply State.wr_kept
    | with_reducible apply Kept.ite | fail_if_no_progress intros | dsimp only
    | fail_if_no_progress refine Kept.of_mk ?_ rfl rfl rfl rfl rfl | split)

theorem State.latchAt_kept {q : List Instr} {s : State} (n a : Nat) (hk : Kept q s) :
    Kept q (State.latchAt s n a) := by
  unfold State.latchAt
  try dsimp only
  repeat' (first
    | with_reducible exact hk | with_reducible assumption | with_reducible apply State.facetPeriods_kept
    | with_reducible apply State.latchRun_kept | with_reducible apply State.noteShot_kept | with_reducible apply State.pinCheck_kept
    | with_reducible apply State.rampLoop_kept | with_reducible apply State.reachCheck_kept
    | with_reducible apply State.regionCheck_kept | with_reducible apply State.sendRecord_kept
    | with_reducible apply State.takeSetPoints_kept | with_reducible apply State.underrun_kept | with_reducible apply State.wr_kept
    | with_reducible apply Kept.foldl | with_reducible apply Kept.ite | fail_if_no_progress intros)

theorem State.latch_kept {q : List Instr} {s : State} (n : Nat) (hk : Kept q s) :
    Kept q (State.latch s n) := by
  unfold State.latch
  try dsimp only
  repeat' (first
    | with_reducible exact hk | with_reducible assumption | with_reducible apply State.latchAt_kept | with_reducible apply Kept.ite
    | fail_if_no_progress intros)

theorem State.headGap_kept {q : List Instr} {s : State} (n sample : Nat) (hk : Kept q s) :
    Kept q (State.headGap s n sample) := by
  unfold State.headGap
  try dsimp only
  repeat' (first
    | with_reducible exact hk | with_reducible assumption | with_reducible apply State.raise_kept | with_reducible apply Kept.ite
    | fail_if_no_progress intros)

theorem State.servoFeed_kept {q : List Instr} {s : State} (n : Nat) (x y z : Int) (sample status : Nat) (aux : List Int) (hk : Kept q s) :
    Kept q (State.servoFeed s n x y z sample status aux) := by
  unfold State.servoFeed
  try dsimp only
  repeat' (first
    | with_reducible exact hk | with_reducible assumption | with_reducible apply State.feed_kept
    | with_reducible apply State.feedLate_kept | with_reducible apply State.setChan_kept | with_reducible apply Kept.foldl
    | with_reducible apply Kept.ite | fail_if_no_progress intros)

theorem State.servoCounts_kept {q : List Instr} {s : State} (n sample status : Nat) (hk : Kept q s) :
    Kept q (State.servoCounts s n sample status) := by
  unfold State.servoCounts
  try dsimp only
  repeat' (first
    | with_reducible exact hk | with_reducible assumption | with_reducible apply State.bump_kept
    | with_reducible apply State.headGap_kept | with_reducible apply Kept.ite | fail_if_no_progress intros)

theorem State.servoFault_kept {q : List Instr} {s : State} (n old status fault : Nat) (hk : Kept q s) :
    Kept q (State.servoFault s n old status fault) := by
  unfold State.servoFault
  try dsimp only
  repeat' (first
    | with_reducible exact hk | with_reducible assumption | with_reducible apply State.chanFault_kept
    | with_reducible apply State.raise_kept | with_reducible apply Kept.ite | fail_if_no_progress intros)

theorem State.servoSample_kept {q : List Instr} {s : State} (n : Nat) (x y z : Int) (sample status fault : Nat) (aux : List Int) (hk : Kept q s) :
    Kept q (State.servoSample s n x y z sample status fault aux) := by
  unfold State.servoSample
  try dsimp only
  repeat' (first
    | with_reducible exact hk | with_reducible assumption | with_reducible apply State.badFrame_kept
    | with_reducible apply State.rxFrame_kept | with_reducible apply State.servoCounts_kept
    | with_reducible apply State.servoFault_kept | with_reducible apply State.servoFeed_kept | with_reducible apply Kept.ite
    | fail_if_no_progress intros)

theorem State.servoMissing_kept {q : List Instr} {s : State} (n : Nat) (hk : Kept q s) :
    Kept q (State.servoMissing s n) := by
  unfold State.servoMissing
  try dsimp only
  repeat' (first
    | with_reducible exact hk | with_reducible assumption | with_reducible apply State.missFeedback_kept
    | with_reducible apply Kept.foldl | with_reducible apply Kept.ite | fail_if_no_progress intros)

theorem execLatch_kept {q : List Instr} {s : State} (n : Fin 16) (hk : Kept q s) :
    KeptOut q (execLatch n s) := by
  unfold execLatch
  try dsimp only
  repeat' (first
    | with_reducible assumption | with_reducible apply live_kept hk | with_reducible apply State.latch_kept
    | with_reducible apply Kept.ite | with_reducible apply Kept.ite2 | fail_if_no_progress intros)

theorem execServoSample_kept {q : List Instr} {s : State} (n : Fin 16) (x y z : BitVec 32) (sample : BitVec 32) (status fault : BitVec 16) (aux : List (BitVec 32)) (hk : Kept q s) :
    KeptOut q (execServoSample n x y z sample status fault aux s) := by
  unfold execServoSample
  try dsimp only
  repeat' (first
    | with_reducible assumption | with_reducible apply live_kept hk | with_reducible apply State.servoSample_kept
    | with_reducible apply Kept.ite | with_reducible apply Kept.ite2 | fail_if_no_progress intros)

theorem execServoSampleMissing_kept {q : List Instr} {s : State} (n : Fin 16) (hk : Kept q s) :
    KeptOut q (execServoSampleMissing n s) := by
  unfold execServoSampleMissing
  try dsimp only
  repeat' (first
    | with_reducible assumption | with_reducible apply live_kept hk | with_reducible apply State.servoMissing_kept
    | with_reducible apply Kept.ite | with_reducible apply Kept.ite2 | fail_if_no_progress intros)

/-! Machine/Pass.lean -/

theorem State.pinPass_kept {q : List Instr} {s : State} (n : Nat) (l : List (Nat × Nat × List Nat)) (hk : Kept q s) :
    Kept q (s.pinPass n l) := by
  induction l generalizing s with
  | nil => exact hk
  | cons e l ih =>
    unfold State.pinPass
    dsimp only
    refine Kept.ite (fun _ => ih hk) fun _ => Kept.ite (fun _ => hk) fun _ => ?_
    exact Kept.foldl (State.updCommit_kept _ _ _ _ hk) fun s b h => State.pin_kept _ _ h

theorem State.pinRepair_kept {q : List Instr} {s : State} (n i : Nat) (lack : List Nat) (hk : Kept q s) :
    Kept q (State.pinRepair s n i lack) := by
  unfold State.pinRepair
  try dsimp only
  repeat' (first
    | with_reducible exact hk | with_reducible assumption | with_reducible apply State.pin_kept
    | with_reducible apply State.setChan_kept | with_reducible apply Kept.foldl | with_reducible apply Kept.ite
    | fail_if_no_progress intros)

theorem State.pinFacet_kept {q : List Instr} {s : State} (n : Nat) (hk : Kept q s) :
    Kept q (State.pinFacet s n) := by
  unfold State.pinFacet
  try dsimp only
  repeat' (first
    | with_reducible exact hk | with_reducible assumption | with_reducible apply State.park_kept
    | with_reducible apply State.pinPass_kept | with_reducible apply State.pinRepair_kept | with_reducible apply State.pinWait_kept
    | with_reducible apply Kept.ite | fail_if_no_progress intros | dsimp only
    | fail_if_no_progress refine Kept.of_mk ?_ rfl rfl rfl rfl rfl | split)

theorem State.pinChord_kept {q : List Instr} {s : State} (n : Nat) (hk : Kept q s) :
    Kept q (State.pinChord s n) := by
  unfold State.pinChord
  try dsimp only
  repeat' (first
    | with_reducible exact hk | with_reducible assumption | with_reducible apply State.fetchAhead_kept
    | with_reducible apply State.hold_kept | with_reducible apply State.pin_kept | with_reducible apply State.raise_kept
    | with_reducible apply State.setTc_kept | with_reducible apply Kept.ite | fail_if_no_progress intros | dsimp only
    | fail_if_no_progress refine Kept.of_mk ?_ rfl rfl rfl rfl rfl | split)

theorem State.windowPin_kept {q : List Instr} {s : State} (tc : Nat) (hk : Kept q s) :
    Kept q (State.windowPin s tc) := by
  unfold State.windowPin
  try dsimp only
  repeat' (first
    | with_reducible exact hk | with_reducible assumption | with_reducible apply State.pinChord_kept
    | with_reducible apply State.pinFacet_kept | with_reducible apply Kept.ite | fail_if_no_progress intros)

theorem State.releasePass_kept {q : List Instr} {s : State} (n slot num : Nat) (hk : Kept q s) :
    Kept q (State.releasePass s n slot num) := by
  unfold State.releasePass
  try dsimp only
  repeat' (first
    | with_reducible exact hk | with_reducible assumption | with_reducible apply State.dropPins_kept
    | with_reducible apply State.retire_kept | with_reducible apply Kept.ite | fail_if_no_progress intros)

theorem State.countRows_kept {q : List Instr} {s : State} (n : Nat) (p : Pass) (hk : Kept q s) :
    Kept q (State.countRows s n p) := by
  unfold State.countRows
  try dsimp only
  repeat' (first
    | with_reducible exact hk | with_reducible assumption | with_reducible apply State.bump_kept
    | with_reducible apply State.setChan_kept | with_reducible apply Kept.foldl | with_reducible apply Kept.ite
    | fail_if_no_progress intros | dsimp only | fail_if_no_progress refine Kept.of_mk ?_ rfl rfl rfl rfl rfl | split)

theorem State.facetTick_kept {q : List Instr} {s : State} (n : Nat) (hk : Kept q s) :
    Kept q (State.facetTick s n) := by
  unfold State.facetTick
  try dsimp only
  repeat' (first
    | with_reducible exact hk | with_reducible assumption | with_reducible apply State.countRows_kept
    | with_reducible apply State.wr_kept | with_reducible apply Kept.ite | fail_if_no_progress intros | dsimp only
    | fail_if_no_progress refine Kept.of_mk ?_ rfl rfl rfl rfl rfl | split)

theorem State.nextPass_kept {q0 : List Instr} {s : State} (n : Nat) (p : Planned) (q : Pass) (hk : Kept q0 s) :
    Kept q0 (State.nextPass s n p q) := by
  unfold State.nextPass
  try dsimp only
  repeat' (first
    | with_reducible exact hk | with_reducible assumption | with_reducible apply State.countBeats_kept
    | with_reducible apply State.dropHeld_kept | with_reducible apply State.releasePass_kept
    | with_reducible apply State.setChan_kept | with_reducible apply State.useCommit_kept | with_reducible apply Kept.ite
    | fail_if_no_progress intros | dsimp only | fail_if_no_progress refine Kept.of_mk ?_ rfl rfl rfl rfl rfl | split)

theorem State.passBoundary_kept {q : List Instr} {s : State} (n : Nat) (hk : Kept q s) :
    Kept q (State.passBoundary s n) := by
  unfold State.passBoundary
  try dsimp only
  repeat' (first
    | with_reducible exact hk | with_reducible assumption | with_reducible apply State.facetTick_kept
    | with_reducible apply State.nextPass_kept | with_reducible apply State.releasePass_kept
    | with_reducible apply State.underrun_kept | with_reducible apply State.unholdLoop_kept | with_reducible apply Kept.ite
    | fail_if_no_progress intros | dsimp only | fail_if_no_progress refine Kept.of_mk ?_ rfl rfl rfl rfl rfl | split)

theorem State.pinWaitRelease_kept {q : List Instr} {s : State} (n : Nat) (hk : Kept q s) :
    Kept q (State.pinWaitRelease s n) := by
  unfold State.pinWaitRelease
  try dsimp only
  repeat' (first
    | with_reducible exact hk | with_reducible assumption | with_reducible apply State.pinWait_kept
    | with_reducible apply State.setChan_kept | with_reducible apply Kept.ite | fail_if_no_progress intros | dsimp only
    | fail_if_no_progress refine Kept.of_mk ?_ rfl rfl rfl rfl rfl | split)

theorem State.repairDone_kept {q : List Instr} {s : State} (n : Nat) (hk : Kept q s) :
    Kept q (State.repairDone s n) := by
  unfold State.repairDone
  try dsimp only
  repeat' (first
    | with_reducible exact hk | with_reducible assumption | with_reducible apply State.boundaryStops_kept
    | with_reducible apply State.bump_kept | with_reducible apply State.endRepair_kept | with_reducible apply State.failRepair_kept
    | with_reducible apply State.finishHead_kept | with_reducible apply State.raise_kept | with_reducible apply State.retire_kept
    | with_reducible apply State.syncSlots_kept | with_reducible apply State.underrun_kept
    | with_reducible apply State.unholdLoop_kept | with_reducible apply State.wr_kept | with_reducible apply Kept.ite
    | fail_if_no_progress intros | dsimp only | fail_if_no_progress refine Kept.of_mk ?_ rfl rfl rfl rfl rfl | split)

theorem execWindowPin_kept {q : List Instr} {s : State} (tc : Fin 32) (hk : Kept q s) :
    KeptOut q (execWindowPin tc s) := by
  unfold execWindowPin
  try dsimp only
  repeat' (first
    | with_reducible assumption | with_reducible apply live_kept hk | with_reducible apply State.windowPin_kept
    | with_reducible apply Kept.ite | with_reducible apply Kept.ite2 | fail_if_no_progress intros)

theorem execPassBoundary_kept {q : List Instr} {s : State} (n : Fin 16) (hk : Kept q s) :
    KeptOut q (execPassBoundary n s) := by
  unfold execPassBoundary
  try dsimp only
  repeat' (first
    | with_reducible assumption | with_reducible apply live_kept hk | with_reducible apply State.passBoundary_kept
    | with_reducible apply Kept.ite | with_reducible apply Kept.ite2 | fail_if_no_progress intros)

theorem execPinWaitRelease_kept {q : List Instr} {s : State} (n : Fin 16) (hk : Kept q s) :
    KeptOut q (execPinWaitRelease n s) := by
  unfold execPinWaitRelease
  try dsimp only
  repeat' (first
    | with_reducible assumption | with_reducible apply live_kept hk | with_reducible apply State.pinWaitRelease_kept
    | with_reducible apply Kept.ite | with_reducible apply Kept.ite2 | fail_if_no_progress intros)

theorem execRepairDone_kept {q : List Instr} {s : State} (n : Fin 16) (hk : Kept q s) :
    KeptOut q (execRepairDone n s) := by
  unfold execRepairDone
  try dsimp only
  repeat' (first
    | with_reducible assumption | with_reducible apply live_kept hk | with_reducible apply State.repairDone_kept
    | with_reducible apply Kept.ite | with_reducible apply Kept.ite2 | fail_if_no_progress intros)

/-! Machine/Layer.lean -/

theorem layerCommitEff_kept {q : List Instr} {s : State} (n : Nat) (hk : Kept q s) :
    Kept q (layerCommitEff n s).2 := by
  unfold layerCommitEff
  try dsimp only
  repeat' (first
    | with_reducible exact hk | with_reducible assumption | with_reducible apply State.wr_kept | with_reducible apply Kept.ite
    | with_reducible apply Kept.ite2 | fail_if_no_progress intros | dsimp only
    | fail_if_no_progress refine Kept.of_mk ?_ rfl rfl rfl rfl rfl | split)

theorem layerResumeEff_kept {q : List Instr} {s : State} (n : Nat) (hk : Kept q s) :
    Kept q (layerResumeEff n s).2 := by
  unfold layerResumeEff
  try dsimp only
  repeat' (first
    | with_reducible exact hk | with_reducible assumption | with_reducible apply State.keepPhase_kept
    | with_reducible apply State.wr_kept | with_reducible apply Kept.ite | with_reducible apply Kept.ite2)

theorem armEff_kept {q : List Instr} {s : State} (n : Nat) (hk : Kept q s) :
    Kept q (armEff n s).2 := by
  unfold armEff
  try dsimp only
  repeat' (first
    | with_reducible exact hk | with_reducible assumption | with_reducible apply State.closeLoop_kept
    | with_reducible apply State.parkRun_kept | with_reducible apply State.setBc_kept | with_reducible apply State.setChan_kept
    | with_reducible apply State.wrs_kept | with_reducible apply Kept.foldl | with_reducible apply Kept.ite
    | with_reducible apply Kept.ite2)

theorem offEff_kept {q : List Instr} {s : State} (n : Nat) (hk : Kept q s) :
    Kept q (offEff n s).2 := by
  unfold offEff
  try dsimp only
  repeat' (first
    | with_reducible exact hk | with_reducible assumption | with_reducible apply State.chanOff_kept
    | with_reducible apply State.endRunFrom_kept | with_reducible apply State.setChan_kept | with_reducible apply Kept.ite
    | with_reducible apply Kept.ite2)

theorem bcControlEff_kept {q : List Instr} {s : State} (n v : Nat) (hk : Kept q s) :
    Kept q (bcControlEff n v s).2 := by
  unfold bcControlEff
  try dsimp only
  repeat' (first
    | with_reducible exact hk | with_reducible assumption | with_reducible apply armEff_kept | with_reducible apply offEff_kept
    | with_reducible apply Kept.ite | with_reducible apply Kept.ite2)

theorem State.walkEnd_kept {q : List Instr} {s : State} (n addr count : Nat) (hk : Kept q s) :
    Kept q (State.walkEnd s n addr count) := by
  unfold State.walkEnd
  try dsimp only
  repeat' (first
    | with_reducible exact hk | with_reducible assumption | with_reducible apply State.setChan_kept
    | with_reducible apply State.trimWindow_kept | with_reducible apply State.uncovered_kept)

theorem State.walkReport_kept {q : List Instr} {s : State} (n lune : Nat) (l : List (List Chord)) (w : Walk) (hk : Kept q s) :
    Kept q (s.walkReport n lune l w) := by
  induction l generalizing s w with
  | nil => exact State.setChan_kept _ _ hk
  | cons it l ih =>
    unfold State.walkReport
    exact Kept.ite (fun _ => State.walkEnd_kept _ _ _ hk) fun _ => ih _ (State.uncovered_kept _ _ _ _ _ _ _ hk)

theorem State.uncoveredWalk_kept {q : List Instr} {s : State} (n : Nat) (hk : Kept q s) :
    Kept q (State.uncoveredWalk s n) := by
  unfold State.uncoveredWalk
  try dsimp only
  repeat' (first
    | with_reducible exact hk | with_reducible assumption | with_reducible apply State.setChan_kept
    | with_reducible apply State.trimWindow_kept | with_reducible apply State.walkEnd_kept
    | with_reducible apply State.walkReport_kept | with_reducible apply Kept.ite | fail_if_no_progress intros | dsimp only
    | fail_if_no_progress refine Kept.of_mk ?_ rfl rfl rfl rfl rfl | split)

theorem State.reissueAt_kept {q : List Instr} {s : State} (n : Nat) (hk : Kept q s) :
    Kept q (State.reissueAt s n) := by
  unfold State.reissueAt
  try dsimp only
  repeat' (first
    | with_reducible exact hk | with_reducible assumption | with_reducible apply State.reachClose_kept
    | with_reducible apply Kept.ite | fail_if_no_progress intros)

theorem State.reissueWait_kept {q : List Instr} {s : State} (hk : Kept q s) :
    Kept q (State.reissueWait s) := by
  unfold State.reissueWait
  try dsimp only
  repeat' (first
    | with_reducible exact hk | with_reducible assumption | with_reducible apply State.reissueAt_kept
    | with_reducible apply Kept.foldl)

theorem State.repairChan_kept {q : List Instr} {s : State} (n : Nat) (hk : Kept q s) :
    Kept q (State.repairChan s n) := by
  unfold State.repairChan
  try dsimp only
  repeat' (first
    | with_reducible exact hk | with_reducible assumption | with_reducible apply State.dropRepairs_kept
    | with_reducible apply Kept.ite | fail_if_no_progress intros)

theorem State.repairStart_kept {q : List Instr} {s : State} (hk : Kept q s) :
    Kept q (State.repairStart s) := by
  unfold State.repairStart
  try dsimp only
  repeat' (first
    | with_reducible exact hk | with_reducible assumption | with_reducible apply State.discardLune_kept
    | with_reducible apply State.repairChan_kept | with_reducible apply State.setPhase_kept | with_reducible apply Kept.foldl
    | with_reducible apply Kept.ite | fail_if_no_progress intros | dsimp only
    | fail_if_no_progress refine Kept.of_mk ?_ rfl rfl rfl rfl rfl)

theorem execLayerCommit_kept {q : List Instr} {s : State} (m : Msg) (n : BitVec 32) (hk : Kept q s) :
    KeptOut q (execLayerCommit m n s) := by
  unfold execLayerCommit
  try dsimp only
  repeat' (first
    | with_reducible assumption | with_reducible apply writeCmd_kept hk | with_reducible apply layerCommitEff_kept
    | with_reducible apply Kept.ite | with_reducible apply Kept.ite2 | fail_if_no_progress intros)

theorem execLayerResume_kept {q : List Instr} {s : State} (m : Msg) (n : BitVec 32) (hk : Kept q s) :
    KeptOut q (execLayerResume m n s) := by
  unfold execLayerResume
  try dsimp only
  repeat' (first
    | with_reducible assumption | with_reducible apply writeCmd_kept hk | with_reducible apply layerResumeEff_kept
    | with_reducible apply Kept.ite | with_reducible apply Kept.ite2 | fail_if_no_progress intros)

theorem execArm_kept {q : List Instr} {s : State} (m : Msg) (n : Fin 16) (hk : Kept q s) :
    KeptOut q (execArm m n s) := by
  unfold execArm
  try dsimp only
  repeat' (first
    | with_reducible assumption | with_reducible apply writeCmd_kept hk | with_reducible apply bcControlEff_kept
    | with_reducible apply Kept.ite | with_reducible apply Kept.ite2 | fail_if_no_progress intros)

theorem execOff_kept {q : List Instr} {s : State} (m : Msg) (n : Fin 16) (hk : Kept q s) :
    KeptOut q (execOff m n s) := by
  unfold execOff
  try dsimp only
  repeat' (first
    | with_reducible assumption | with_reducible apply writeCmd_kept hk | with_reducible apply bcControlEff_kept
    | with_reducible apply Kept.ite | with_reducible apply Kept.ite2 | fail_if_no_progress intros)

theorem execUncoveredWalk_kept {q : List Instr} {s : State} (n : Fin 16) (hk : Kept q s) :
    KeptOut q (execUncoveredWalk n s) := by
  unfold execUncoveredWalk
  try dsimp only
  repeat' (first
    | with_reducible assumption | with_reducible apply live_kept hk | with_reducible apply State.uncoveredWalk_kept
    | with_reducible apply Kept.ite | with_reducible apply Kept.ite2 | fail_if_no_progress intros)

theorem execShareReissueWait_kept {q : List Instr} {s : State} (hk : Kept q s) :
    KeptOut q (execShareReissueWait s) := by
  unfold execShareReissueWait
  try dsimp only
  repeat' (first | with_reducible assumption | with_reducible apply live_kept hk | with_reducible apply State.reissueWait_kept)

theorem execRepairStart_kept {q : List Instr} {s : State} (hk : Kept q s) :
    KeptOut q (execRepairStart s) := by
  unfold execRepairStart
  try dsimp only
  repeat' (first | with_reducible assumption | with_reducible apply live_kept hk | with_reducible apply State.repairStart_kept)

end Sys2Proof.Machine
end

