-- ==== Sys2Proof/Laws/KeptLinks.lean ====
section
/-! SUPPORT. Every operation and every command of the keeping store, links, calibration and the journal leaves the queue as it is and keeps the tables canonical: one lemma
for each definition, its name with `_kept` after it. -/

namespace Sys2Proof.Machine

/-! Machine/KeepStore.lean -/

theorem State.startStore_kept {q : List Instr} {s : State} (hk : Kept q s) :
    Kept q (State.startStore s) := by
  unfold State.startStore
  try dsimp only
  repeat' (first
    | with_reducible exact hk | with_reducible assumption | with_reducible apply State.wr_kept | with_reducible apply Kept.ite
    | fail_if_no_progress intros | dsimp only | fail_if_no_progress refine Kept.of_mk ?_ rfl rfl rfl rfl rfl)

theorem State.forceStore_kept {q : List Instr} {s : State} (hk : Kept q s) :
    Kept q (State.forceStore s) := by
  unfold State.forceStore
  try dsimp only
  repeat' (first
    | with_reducible exact hk | with_reducible assumption | with_reducible apply State.startStore_kept
    | with_reducible apply Kept.ite | fail_if_no_progress intros | dsimp only
    | fail_if_no_progress refine Kept.of_mk ?_ rfl rfl rfl rfl rfl)

theorem keepStoreEff_kept {q : List Instr} {s : State} (x_v : Nat) (hk : Kept q s) :
    Kept q (keepStoreEff x_v s).2 := by
  unfold keepStoreEff
  try dsimp only
  repeat' (first
    | with_reducible exact hk | with_reducible assumption | with_reducible apply State.startStore_kept
    | with_reducible apply Kept.ite | with_reducible apply Kept.ite2)

theorem State.storeDone_kept {q : List Instr} {s : State} (good : Bool) (hk : Kept q s) :
    Kept q (State.storeDone s good) := by
  unfold State.storeDone
  try dsimp only
  repeat' (first
    | with_reducible exact hk | with_reducible assumption | with_reducible apply State.raise_kept
    | with_reducible apply State.startStore_kept | with_reducible apply State.wr_kept | with_reducible apply State.wrs_kept
    | with_reducible apply Kept.ite | fail_if_no_progress intros | dsimp only
    | fail_if_no_progress refine Kept.of_mk ?_ rfl rfl rfl rfl rfl | split)

theorem State.digestCurrent_kept {q : List Instr} {s : State} (hk : Kept q s) :
    Kept q (State.digestCurrent s) := by
  unfold State.digestCurrent
  try dsimp only
  repeat' (first
    | with_reducible exact hk | with_reducible assumption | with_reducible apply State.raise_kept
    | with_reducible apply State.wrs_kept | with_reducible apply Kept.ite | fail_if_no_progress intros)

theorem State.loadKeep_kept {q : List Instr} {s : State} (hk : Kept q s) :
    Kept q (State.loadKeep s) := by
  unfold State.loadKeep
  try dsimp only
  repeat' (first
    | with_reducible exact hk | with_reducible assumption | with_reducible apply State.raise_kept
    | with_reducible apply State.wr_kept | with_reducible apply State.wrs_kept | with_reducible apply Kept.foldl
    | with_reducible apply Kept.ite | fail_if_no_progress intros | dsimp only
    | fail_if_no_progress refine Kept.of_mk ?_ rfl rfl rfl rfl rfl | split)

theorem execKeepStore_kept {q : List Instr} {s : State} (m : Msg) (hk : Kept q s) :
    KeptOut q (execKeepStore m s) := by
  unfold execKeepStore
  try dsimp only
  repeat' (first
    | with_reducible assumption | with_reducible apply writeCmd_kept hk | with_reducible apply keepStoreEff_kept
    | with_reducible apply Kept.ite | with_reducible apply Kept.ite2 | fail_if_no_progress intros)

theorem execKeepStoreDone_kept {q : List Instr} {s : State} (ok : Bool) (hk : Kept q s) :
    KeptOut q (execKeepStoreDone ok s) := by
  unfold execKeepStoreDone
  try dsimp only
  repeat' (first
    | with_reducible assumption | with_reducible apply live_kept hk | with_reducible apply State.storeDone_kept
    | with_reducible apply Kept.ite | with_reducible apply Kept.ite2 | fail_if_no_progress intros)

theorem execDigestCurrent_kept {q : List Instr} {s : State} (hk : Kept q s) :
    KeptOut q (execDigestCurrent s) := by
  unfold execDigestCurrent
  try dsimp only
  repeat' (first | with_reducible assumption | with_reducible apply live_kept hk | with_reducible apply State.digestCurrent_kept)

/-! Machine/Links.lean -/

theorem State.laneTo_kept {q : List Instr} {s : State} (l st : Nat) (hk : Kept q s) :
    Kept q (State.laneTo s l st) := by
  unfold State.laneTo
  try dsimp only
  repeat' (first
    | with_reducible exact hk | with_reducible assumption | with_reducible apply State.setLane_kept
    | with_reducible apply State.wr_kept)

theorem State.syncLinks_kept {q : List Instr} {s : State} (hk : Kept q s) :
    Kept q (State.syncLinks s) := by
  unfold State.syncLinks
  try dsimp only
  repeat' (first | with_reducible exact hk | with_reducible assumption | with_reducible apply State.wr_kept)

theorem State.eyeEnd_kept {q : List Instr} {s : State} (l st : Nat) (hk : Kept q s) :
    Kept q (State.eyeEnd s l st) := by
  unfold State.eyeEnd
  try dsimp only
  repeat' (first
    | with_reducible exact hk | with_reducible assumption | with_reducible apply State.laneEvent_kept
    | with_reducible apply State.wrs_kept | with_reducible apply Kept.ite | fail_if_no_progress intros)

theorem State.laneLeft_kept {q : List Instr} {s : State} (l : Nat) (hk : Kept q s) :
    Kept q (State.laneLeft s l) := by
  unfold State.laneLeft
  try dsimp only
  repeat' (first
    | with_reducible exact hk | with_reducible assumption | with_reducible apply State.eyeEnd_kept
    | with_reducible apply State.linkLoss_kept | with_reducible apply State.nodeGone_kept | with_reducible apply State.setLane_kept
    | with_reducible apply State.syncLinks_kept | with_reducible apply State.syncPipes_kept
    | with_reducible apply State.withdraw_kept | with_reducible apply Kept.ite | fail_if_no_progress intros)

theorem State.laneDrop_kept {q : List Instr} {s : State} (l st : Nat) (hk : Kept q s) :
    Kept q (State.laneDrop s l st) := by
  unfold State.laneDrop
  try dsimp only
  repeat' (first
    | with_reducible exact hk | with_reducible assumption | with_reducible apply State.laneLeft_kept
    | with_reducible apply State.laneTo_kept | with_reducible apply Kept.ite | fail_if_no_progress intros)

theorem State.laneEnterUp_kept {q : List Instr} {s : State} (l : Nat) (hk : Kept q s) :
    Kept q (State.laneEnterUp s l) := by
  unfold State.laneEnterUp
  try dsimp only
  repeat' (first
    | with_reducible exact hk | with_reducible assumption | with_reducible apply State.laneAwake_kept
    | with_reducible apply State.laneEvent_kept | with_reducible apply State.laneTo_kept | with_reducible apply State.syncLinks_kept
    | with_reducible apply State.syncPipes_kept | with_reducible apply State.wr_kept | with_reducible apply Kept.ite
    | fail_if_no_progress intros)

theorem State.syncPort_kept {q : List Instr} {s : State} (p : Nat) (hk : Kept q s) :
    Kept q (State.syncPort s p) := by
  unfold State.syncPort
  try dsimp only
  repeat' (first
    | with_reducible exact hk | with_reducible assumption | with_reducible apply State.eyeEnd_kept
    | with_reducible apply State.wr_kept | with_reducible apply Kept.ite | fail_if_no_progress intros)

theorem laneEnableEff_kept {q : List Instr} {s : State} (l v : Nat) (hk : Kept q s) :
    Kept q (laneEnableEff l v s).2 := by
  unfold laneEnableEff
  try dsimp only
  repeat' (first
    | with_reducible exact hk | with_reducible assumption | with_reducible apply State.laneDrop_kept
    | with_reducible apply State.syncPort_kept | with_reducible apply State.wr_kept | with_reducible apply Kept.ite
    | with_reducible apply Kept.ite2 | fail_if_no_progress intros)

theorem State.signalPresent_kept {q : List Instr} {s : State} (l : Nat) (hk : Kept q s) :
    Kept q (State.signalPresent s l) := by
  unfold State.signalPresent
  try dsimp only
  repeat' (first
    | with_reducible exact hk | with_reducible assumption | with_reducible apply State.laneDrop_kept
    | with_reducible apply State.laneTo_kept | with_reducible apply State.setLane_kept | with_reducible apply Kept.ite
    | fail_if_no_progress intros)

theorem State.phaseLock_kept {q : List Instr} {s : State} (l : Nat) (hk : Kept q s) :
    Kept q (State.phaseLock s l) := by
  unfold State.phaseLock
  try dsimp only
  repeat' (first
    | with_reducible exact hk | with_reducible assumption | with_reducible apply State.laneTo_kept
    | with_reducible apply State.setLane_kept | with_reducible apply Kept.ite | fail_if_no_progress intros)

theorem State.tokenSeen_kept {q : List Instr} {s : State} (l : Nat) (hk : Kept q s) :
    Kept q (State.tokenSeen s l) := by
  unfold State.tokenSeen
  try dsimp only
  repeat' (first
    | with_reducible exact hk | with_reducible assumption | with_reducible apply State.laneEnterUp_kept
    | with_reducible apply State.laneTo_kept | with_reducible apply State.setLane_kept | with_reducible apply Kept.ite
    | fail_if_no_progress intros)

theorem State.goodFrame_kept {q : List Instr} {s : State} (l h : Nat) (hk : Kept q s) :
    Kept q (State.goodFrame s l h) := by
  unfold State.goodFrame
  try dsimp only
  repeat' (first
    | with_reducible exact hk | with_reducible assumption | with_reducible apply State.bump_kept
    | with_reducible apply State.inc_kept | with_reducible apply State.laneAwake_kept | with_reducible apply State.laneUpState_kept
    | with_reducible apply State.setLane_kept | with_reducible apply Kept.ite | fail_if_no_progress intros)

theorem State.idleFrame_kept {q : List Instr} {s : State} (f : UpFrame) (hk : Kept q s) :
    Kept q (State.idleFrame s f) := by
  unfold State.idleFrame
  try dsimp only
  repeat' (first
    | with_reducible exact hk | with_reducible assumption | with_reducible apply State.badFrame_kept
    | with_reducible apply State.goodFrame_kept | with_reducible apply State.setLane_kept
    | with_reducible apply State.tokenSeen_kept | with_reducible apply Kept.ite | fail_if_no_progress intros)

theorem State.identRequest_kept {q : List Instr} {s : State} (l : Nat) (hk : Kept q s) :
    Kept q (State.identRequest s l) := by
  unfold State.identRequest
  try dsimp only
  repeat' (first
    | with_reducible exact hk | with_reducible assumption | with_reducible apply State.queueMsg_kept
    | with_reducible apply State.setLane_kept | with_reducible apply Kept.ite | fail_if_no_progress intros)

theorem State.identReport_kept {q : List Instr} {s : State} (l : Nat) (i : Ident) (hk : Kept q s) :
    Kept q (State.identReport s l i) := by
  unfold State.identReport
  try dsimp only
  repeat' (first
    | with_reducible exact hk | with_reducible assumption | with_reducible apply State.wrs_kept | with_reducible apply Kept.ite
    | fail_if_no_progress intros)

theorem State.identFailed_kept {q : List Instr} {s : State} (l detail d : Nat) (hk : Kept q s) :
    Kept q (State.identFailed s l detail d) := by
  unfold State.identFailed
  try dsimp only
  repeat' (first
    | with_reducible exact hk | with_reducible assumption | with_reducible apply State.laneEvent_kept
    | with_reducible apply State.laneTo_kept)

theorem State.identIn_kept {q : List Instr} {s : State} (l : Nat) (i : Ident) (hk : Kept q s) :
    Kept q (State.identIn s l i) := by
  unfold State.identIn
  try dsimp only
  repeat' (first
    | with_reducible exact hk | with_reducible assumption | with_reducible apply State.badFrame_kept
    | with_reducible apply State.identFailed_kept | with_reducible apply State.identReport_kept
    | with_reducible apply State.queueMsg_kept | with_reducible apply State.rxFrame_kept | with_reducible apply State.wrs_kept
    | with_reducible apply Kept.ite | fail_if_no_progress intros)

theorem State.laneUpDue_kept {q : List Instr} {s : State} (l : Nat) (hk : Kept q s) :
    Kept q (State.laneUpDue s l) := by
  unfold State.laneUpDue
  try dsimp only
  repeat' (first
    | with_reducible exact hk | with_reducible assumption | with_reducible apply State.laneEnterUp_kept
    | with_reducible apply Kept.ite | fail_if_no_progress intros | dsimp only
    | fail_if_no_progress refine Kept.of_mk ?_ rfl rfl rfl rfl rfl | split)

theorem State.identFail_kept {q : List Instr} {s : State} (l : Nat) (hk : Kept q s) :
    Kept q (State.identFail s l) := by
  unfold State.identFail
  try dsimp only
  repeat' (first
    | with_reducible exact hk | with_reducible assumption | with_reducible apply State.identFailed_kept
    | with_reducible apply Kept.ite | fail_if_no_progress intros)

theorem State.linkLoss_kept {q : List Instr} {s : State} (l detail : Nat) (hk : Kept q s) :
    Kept q (State.linkLoss s l detail) := by
  unfold State.linkLoss
  try dsimp only
  repeat' (first
    | with_reducible exact hk | with_reducible assumption | with_reducible apply State.inc_kept
    | with_reducible apply State.laneDrop_kept | with_reducible apply State.laneEvent_kept | with_reducible apply Kept.ite
    | fail_if_no_progress intros)

theorem laneTxEff_kept {q : List Instr} {s : State} (l v : Nat) (hk : Kept q s) :
    Kept q (laneTxEff l v s).2 := by
  unfold laneTxEff
  try dsimp only
  repeat' (first
    | with_reducible exact hk | with_reducible assumption | with_reducible apply State.wr_kept | with_reducible apply Kept.ite
    | with_reducible apply Kept.ite2)

theorem laneRxEff_kept {q : List Instr} {s : State} (l v : Nat) (hk : Kept q s) :
    Kept q (laneRxEff l v s).2 := by
  unfold laneRxEff
  try dsimp only
  repeat' (first
    | with_reducible exact hk | with_reducible assumption | with_reducible apply State.queueMsg_kept
    | with_reducible apply State.wr_kept | with_reducible apply Kept.ite | with_reducible apply Kept.ite2)

theorem eyeControlEff_kept {q : List Instr} {s : State} (l v : Nat) (hk : Kept q s) :
    Kept q (eyeControlEff l v s).2 := by
  unfold eyeControlEff
  try dsimp only
  repeat' (first
    | with_reducible exact hk | with_reducible assumption | with_reducible apply State.eyeEnd_kept
    | with_reducible apply State.wrs_kept | with_reducible apply Kept.ite | with_reducible apply Kept.ite2
    | fail_if_no_progress intros)

theorem State.eyePoint_kept {q : List Instr} {s : State} (l count : Nat) (hk : Kept q s) :
    Kept q (State.eyePoint s l count) := by
  unfold State.eyePoint
  try dsimp only
  repeat' (first
    | with_reducible exact hk | with_reducible assumption | with_reducible apply State.eyeEnd_kept
    | with_reducible apply State.tryWrite_kept | with_reducible apply State.wr_kept | with_reducible apply Kept.ite
    | fail_if_no_progress intros)

theorem State.announce_kept {q : List Instr} {s : State} (l : Nat) (hk : Kept q s) :
    Kept q (State.announce s l) := by
  unfold State.announce
  try dsimp only
  repeat' (first
    | with_reducible exact hk | with_reducible assumption | with_reducible apply State.queueMsg_kept
    | with_reducible apply State.setLane_kept | with_reducible apply Kept.foldl | with_reducible apply Kept.ite
    | fail_if_no_progress intros | dsimp only | fail_if_no_progress refine Kept.of_mk ?_ rfl rfl rfl rfl rfl | split)

theorem State.laneDownState_kept {q : List Instr} {s : State} (l : Nat) (hk : Kept q s) :
    Kept q (State.laneDownState s l) := by
  unfold State.laneDownState
  try dsimp only
  repeat' (first
    | with_reducible exact hk | with_reducible assumption | with_reducible apply State.laneEvent_kept
    | with_reducible apply State.setLane_kept | with_reducible apply Kept.ite | fail_if_no_progress intros)

theorem State.downFrame_kept {q : List Instr} {s : State} (l slot : Nat) (group : List Byte) (hk : Kept q s) :
    Kept q (State.downFrame s l slot group) := by
  unfold State.downFrame
  try dsimp only
  repeat' (first
    | with_reducible exact hk | with_reducible assumption | with_reducible apply State.emit_kept
    | with_reducible apply State.laneDownState_kept | with_reducible apply State.setLane_kept | with_reducible apply Kept.ite
    | fail_if_no_progress intros)

theorem State.copyPiece_kept {q : List Instr} {s : State} (room : Nat) (hk : Kept q s) :
    Kept q (State.copyPiece s room).2 := by
  unfold State.copyPiece
  try dsimp only
  repeat' (first
    | with_reducible exact hk | with_reducible assumption | with_reducible apply State.countBeats_kept
    | with_reducible apply State.wr_kept | with_reducible apply Kept.ite | with_reducible apply Kept.ite2
    | fail_if_no_progress intros | dsimp only | fail_if_no_progress refine Kept.of_mk ?_ rfl rfl rfl rfl rfl | split)

theorem State.nextGroup_kept {q : List Instr} {s : State} (hk : Kept q s) :
    Kept q (State.nextGroup s).2 := by
  unfold State.nextGroup
  try dsimp only
  repeat' (first
    | with_reducible exact hk | with_reducible assumption | with_reducible apply State.copyPiece_kept
    | with_reducible apply Kept.ite | with_reducible apply Kept.ite2 | fail_if_no_progress intros | dsimp only
    | fail_if_no_progress refine Kept.of_mk ?_ rfl rfl rfl rfl rfl)

theorem State.frameSlot_kept {q : List Instr} {s : State} (hk : Kept q s) :
    Kept q (State.frameSlot s) := by
  unfold State.frameSlot
  try dsimp only
  repeat' (first
    | with_reducible exact hk | with_reducible assumption | with_reducible apply State.announce_kept
    | with_reducible apply State.downFrame_kept | with_reducible apply State.nextGroup_kept | with_reducible apply Kept.foldl
    | with_reducible apply Kept.ite | fail_if_no_progress intros)

theorem State.laneTokens_kept {q : List Instr} {s : State} (hk : Kept q s) :
    Kept q (State.laneTokens s) := by
  unfold State.laneTokens
  try dsimp only
  repeat' (first
    | with_reducible exact hk | with_reducible assumption | with_reducible apply State.emit_kept | with_reducible apply Kept.foldl
    | with_reducible apply Kept.ite | fail_if_no_progress intros)

theorem execLaneEnable_kept {q : List Instr} {s : State} (m : Msg) (l : Fin 48) (v : BitVec 8) (hk : Kept q s) :
    KeptOut q (execLaneEnable m l v s) := by
  unfold execLaneEnable
  try dsimp only
  repeat' (first
    | with_reducible assumption | with_reducible apply writeCmd_kept hk | with_reducible apply laneEnableEff_kept
    | with_reducible apply Kept.ite | with_reducible apply Kept.ite2 | fail_if_no_progress intros)

theorem execSignalPresent_kept {q : List Instr} {s : State} (l : Fin 44) (hk : Kept q s) :
    KeptOut q (execSignalPresent l s) := by
  unfold execSignalPresent
  try dsimp only
  repeat' (first
    | with_reducible assumption | with_reducible apply live_kept hk | with_reducible apply State.signalPresent_kept
    | with_reducible apply Kept.ite | with_reducible apply Kept.ite2 | fail_if_no_progress intros)

theorem execPhaseLock_kept {q : List Instr} {s : State} (l : Fin 44) (hk : Kept q s) :
    KeptOut q (execPhaseLock l s) := by
  unfold execPhaseLock
  try dsimp only
  repeat' (first
    | with_reducible assumption | with_reducible apply live_kept hk | with_reducible apply State.phaseLock_kept
    | with_reducible apply Kept.ite | with_reducible apply Kept.ite2 | fail_if_no_progress intros)

theorem execIdleFrame_kept {q : List Instr} {s : State} (f : UpFrame) (hk : Kept q s) :
    KeptOut q (execIdleFrame f s) := by
  unfold execIdleFrame
  try dsimp only
  repeat' (first
    | with_reducible assumption | with_reducible apply live_kept hk | with_reducible apply State.idleFrame_kept
    | with_reducible apply Kept.ite | with_reducible apply Kept.ite2 | fail_if_no_progress intros)

theorem execIdentRequest_kept {q : List Instr} {s : State} (l : Fin 44) (hk : Kept q s) :
    KeptOut q (execIdentRequest l s) := by
  unfold execIdentRequest
  try dsimp only
  repeat' (first
    | with_reducible assumption | with_reducible apply live_kept hk | with_reducible apply State.identRequest_kept
    | with_reducible apply Kept.ite | with_reducible apply Kept.ite2 | fail_if_no_progress intros)

theorem execIdent_kept {q : List Instr} {s : State} (l : Fin 44) (i : Ident) (hk : Kept q s) :
    KeptOut q (execIdent l i s) := by
  unfold execIdent
  try dsimp only
  repeat' (first
    | with_reducible assumption | with_reducible apply live_kept hk | with_reducible apply State.identIn_kept
    | with_reducible apply Kept.ite | with_reducible apply Kept.ite2 | fail_if_no_progress intros)

theorem execLaneUp_kept {q : List Instr} {s : State} (l : Fin 44) (hk : Kept q s) :
    KeptOut q (execLaneUp l s) := by
  unfold execLaneUp
  try dsimp only
  repeat' (first
    | with_reducible assumption | with_reducible apply live_kept hk | with_reducible apply State.laneUpDue_kept
    | with_reducible apply Kept.ite | with_reducible apply Kept.ite2 | fail_if_no_progress intros)

theorem execIdentFail_kept {q : List Instr} {s : State} (l : Fin 44) (hk : Kept q s) :
    KeptOut q (execIdentFail l s) := by
  unfold execIdentFail
  try dsimp only
  repeat' (first
    | with_reducible assumption | with_reducible apply live_kept hk | with_reducible apply State.identFail_kept
    | with_reducible apply Kept.ite | with_reducible apply Kept.ite2 | fail_if_no_progress intros)

theorem execLinkLoss_kept {q : List Instr} {s : State} (l : Fin 44) (detail : BitVec 8) (hk : Kept q s) :
    KeptOut q (execLinkLoss l detail s) := by
  unfold execLinkLoss
  try dsimp only
  repeat' (first
    | with_reducible assumption | with_reducible apply live_kept hk | with_reducible apply State.linkLoss_kept
    | with_reducible apply Kept.ite | with_reducible apply Kept.ite2 | fail_if_no_progress intros)

theorem execDigest_kept {q : List Instr} {s : State} (l : Fin 36) (digest : BitVec 64) (hk : Kept q s) :
    KeptOut q (execDigest l digest s) := by
  unfold execDigest
  try dsimp only
  repeat' (first
    | with_reducible assumption | with_reducible apply live_kept hk | with_reducible apply State.nodeDigestIn_kept
    | with_reducible apply State.rxFrame_kept | with_reducible apply State.setLane_kept | with_reducible apply Kept.ite
    | with_reducible apply Kept.ite2 | fail_if_no_progress intros)

theorem execNodeEvent_kept {q : List Instr} {s : State} (l : Fin 36) (code : BitVec 16) (x_data : BitVec 64) (hk : Kept q s) :
    KeptOut q (execNodeEvent l code x_data s) := by
  unfold execNodeEvent
  try dsimp only
  repeat' (first
    | with_reducible assumption | with_reducible apply live_kept hk | with_reducible apply State.laneEvent_kept
    | with_reducible apply State.rxFrame_kept | with_reducible apply Kept.ite | with_reducible apply Kept.ite2
    | fail_if_no_progress intros)

theorem execLaneTxState_kept {q : List Instr} {s : State} (m : Msg) (l : Fin 48) (v : BitVec 8) (hk : Kept q s) :
    KeptOut q (execLaneTxState m l v s) := by
  unfold execLaneTxState
  try dsimp only
  repeat' (first
    | with_reducible assumption | with_reducible apply writeCmd_kept hk | with_reducible apply laneTxEff_kept
    | with_reducible apply Kept.ite | with_reducible apply Kept.ite2 | fail_if_no_progress intros)

theorem execLaneRxState_kept {q : List Instr} {s : State} (m : Msg) (l : Fin 48) (v : BitVec 8) (hk : Kept q s) :
    KeptOut q (execLaneRxState m l v s) := by
  unfold execLaneRxState
  try dsimp only
  repeat' (first
    | with_reducible assumption | with_reducible apply writeCmd_kept hk | with_reducible apply laneRxEff_kept
    | with_reducible apply Kept.ite | with_reducible apply Kept.ite2 | fail_if_no_progress intros)

theorem execEyeStart_kept {q : List Instr} {s : State} (m : Msg) (l : Fin 48) (hk : Kept q s) :
    KeptOut q (execEyeStart m l s) := by
  unfold execEyeStart
  try dsimp only
  repeat' (first
    | with_reducible assumption | with_reducible apply writeCmd_kept hk | with_reducible apply eyeControlEff_kept
    | with_reducible apply Kept.ite | with_reducible apply Kept.ite2 | fail_if_no_progress intros)

theorem execEyeAbort_kept {q : List Instr} {s : State} (m : Msg) (l : Fin 48) (hk : Kept q s) :
    KeptOut q (execEyeAbort m l s) := by
  unfold execEyeAbort
  try dsimp only
  repeat' (first
    | with_reducible assumption | with_reducible apply writeCmd_kept hk | with_reducible apply eyeControlEff_kept
    | with_reducible apply Kept.ite | with_reducible apply Kept.ite2 | fail_if_no_progress intros)

theorem execEyePoint_kept {q : List Instr} {s : State} (l : Fin 48) (count : BitVec 32) (hk : Kept q s) :
    KeptOut q (execEyePoint l count s) := by
  unfold execEyePoint
  try dsimp only
  repeat' (first
    | with_reducible assumption | with_reducible apply live_kept hk | with_reducible apply State.eyePoint_kept
    | with_reducible apply Kept.ite | with_reducible apply Kept.ite2 | fail_if_no_progress intros)

theorem execFrameSlot_kept {q : List Instr} {s : State} (hk : Kept q s) :
    KeptOut q (execFrameSlot s) := by
  unfold execFrameSlot
  try dsimp only
  repeat' (first | with_reducible assumption | with_reducible apply live_kept hk | with_reducible apply State.frameSlot_kept)

/-! Machine/Records.lean -/

theorem State.calEvent_kept {q : List Instr} {s : State} (code cls slot type detail : Nat) (hk : Kept q s) :
    Kept q (State.calEvent s code cls slot type detail) := by
  unfold State.calEvent
  try dsimp only
  repeat' (first | with_reducible exact hk | with_reducible assumption | with_reducible apply State.raise_kept)

theorem State.setSlot_kept {q : List Instr} {s : State} (i st type check : Nat) (hk : Kept q s) :
    Kept q (State.setSlot s i st type check) := by
  unfold State.setSlot
  try dsimp only
  repeat' (first | with_reducible exact hk | with_reducible assumption | with_reducible apply State.wrs_kept)

theorem State.freeSlot_kept {q : List Instr} {s : State} (i : Nat) (hk : Kept q s) :
    Kept q (State.freeSlot s i) := by
  unfold State.freeSlot
  try dsimp only
  repeat' (first | with_reducible exact hk | with_reducible assumption | with_reducible apply State.setSlot_kept)

theorem State.calReject_kept {q : List Instr} {s : State} (slot type cause : Nat) (hk : Kept q s) :
    Kept q (State.calReject s slot type cause) := by
  unfold State.calReject
  try dsimp only
  repeat' (first
    | with_reducible exact hk | with_reducible assumption | with_reducible apply State.calEvent_kept
    | with_reducible apply State.wr_kept)

theorem State.putRun_kept {q : List Instr} {s t : State} (i run : Nat) (image : List Byte) (hk : Kept q s)
    (ht : s.putRun i run image = some t) : Kept q t := by
  unfold State.putRun at ht
  dsimp only at ht
  split at ht
  · cases ht
  · cases ht
    exact State.countBeats_kept _ _ (State.writeMem_kept hk _ _ _)

theorem State.parkRunPlace_kept {q : List Instr} {s : State} (i run len : Nat) (hk : Kept q s) :
    Kept q (State.parkRunPlace s i run len) := by
  unfold State.parkRunPlace
  try dsimp only
  repeat' (first
    | with_reducible exact hk | with_reducible assumption | with_reducible apply State.park_kept | with_reducible apply Kept.ite
    | fail_if_no_progress intros | dsimp only | fail_if_no_progress refine Kept.of_mk ?_ rfl rfl rfl rfl rfl | split)

theorem State.repeatRule_kept {q : List Instr} {s : State} (i type : Nat) (hk : Kept q s) :
    Kept q (State.repeatRule s i type) := by
  unfold State.repeatRule
  split
  · split
    · exact State.freeSlot_kept _ (State.calEvent_kept _ _ _ _ _ (State.wr_kept hk _ _))
    · exact State.calEvent_kept _ _ _ _ _ (State.setSlot_kept _ _ _ _ (State.writeMem_kept hk _ _ _))
  · exact hk

theorem State.takeSlot_kept {q : List Instr} {s : State} (addr : Nat) (hk : Kept q s) :
    Kept q (State.takeSlot s addr) := by
  unfold State.takeSlot
  try dsimp only
  repeat' (first
    | with_reducible exact hk | with_reducible assumption | with_reducible apply State.setSlot_kept | with_reducible apply Kept.ite
    | fail_if_no_progress intros | dsimp only | fail_if_no_progress refine Kept.of_mk ?_ rfl rfl rfl rfl rfl | split)

theorem State.enterRun_kept {q : List Instr} {s : State} (type : Nat) (image : List Byte) (hk : Kept q s) :
    Kept q (State.enterRun s type image).2 := by
  unfold State.enterRun
  dsimp only
  split
  · refine Kept.ite2 hk ?_
    split
    · next h => exact State.repeatRule_kept _ _ (State.putRun_kept _ _ _ hk h)
    · exact State.parkRunPlace_kept _ _ _ hk
  · split
    · exact State.calReject_kept _ _ _ hk
    · refine Kept.ite2 hk ?_
      split
      · next h => exact State.setSlot_kept _ _ _ _ (State.putRun_kept _ _ _ hk h)
      · exact State.parkRunPlace_kept _ _ _ hk

theorem State.loadGo_kept {q : List Instr} {s : State} (a : Nat) (hk : Kept q s) :
    Kept q (State.loadGo s a) := by
  unfold State.loadGo
  try dsimp only
  repeat' (first
    | with_reducible exact hk | with_reducible assumption | with_reducible apply State.calReject_kept
    | with_reducible apply State.countBeats_kept | with_reducible apply State.enterRun_kept | with_reducible apply State.park_kept
    | with_reducible apply Kept.ite | fail_if_no_progress intros | dsimp only
    | fail_if_no_progress refine Kept.of_mk ?_ rfl rfl rfl rfl rfl | split)

theorem calLoadEff_kept {q : List Instr} {s : State} (x_v : Nat) (hk : Kept q s) :
    Kept q (calLoadEff x_v s).2 := by
  unfold calLoadEff
  try dsimp only
  repeat' (first
    | with_reducible exact hk | with_reducible assumption | with_reducible apply State.loadGo_kept | with_reducible apply Kept.ite
    | with_reducible apply Kept.ite2)

theorem State.loadTick_kept {q : List Instr} {s : State} (hk : Kept q s) :
    Kept q (State.loadTick s) := by
  unfold State.loadTick
  try dsimp only
  repeat' (first
    | with_reducible exact hk | with_reducible assumption | with_reducible apply State.loadGo_kept | with_reducible apply Kept.ite
    | fail_if_no_progress intros | dsimp only | fail_if_no_progress refine Kept.of_mk ?_ rfl rfl rfl rfl rfl | split)

theorem candDiscardEff_kept {q : List Instr} {s : State} (i x_v : Nat) (hk : Kept q s) :
    Kept q (candDiscardEff i x_v s).2 := by
  unfold candDiscardEff
  try dsimp only
  repeat' (first
    | with_reducible exact hk | with_reducible assumption | with_reducible apply State.freeSlot_kept | with_reducible apply Kept.ite
    | with_reducible apply Kept.ite2 | fail_if_no_progress intros)

theorem execCalLoad_kept {q : List Instr} {s : State} (m : Msg) (hk : Kept q s) :
    KeptOut q (execCalLoad m s) := by
  unfold execCalLoad
  try dsimp only
  repeat' (first
    | with_reducible assumption | with_reducible apply writeCmd_kept hk | with_reducible apply calLoadEff_kept
    | with_reducible apply Kept.ite | with_reducible apply Kept.ite2 | fail_if_no_progress intros)

theorem execCandDiscard_kept {q : List Instr} {s : State} (m : Msg) (i : Fin 64) (hk : Kept q s) :
    KeptOut q (execCandDiscard m i s) := by
  unfold execCandDiscard
  try dsimp only
  repeat' (first
    | with_reducible assumption | with_reducible apply writeCmd_kept hk | with_reducible apply candDiscardEff_kept
    | with_reducible apply Kept.ite | with_reducible apply Kept.ite2 | fail_if_no_progress intros)

/-! Machine/Install.lean -/

theorem State.putInForce_kept {q : List Instr} {s : State} (slot type : Nat) (r : CalRec) (hk : Kept q s) :
    Kept q (State.putInForce s slot type r) := by
  unfold State.putInForce
  try dsimp only
  repeat' (first
    | with_reducible exact hk | with_reducible assumption | with_reducible apply State.calEvent_kept
    | with_reducible apply State.digestPending_kept | with_reducible apply State.wr_kept | with_reducible apply Kept.ite
    | fail_if_no_progress intros | dsimp only | fail_if_no_progress refine Kept.of_mk ?_ rfl rfl rfl rfl rfl)

theorem State.installOver_kept {q : List Instr} {s : State} (hk : Kept q s) :
    Kept q (State.installOver s) := by
  unfold State.installOver
  try dsimp only
  repeat' (first
    | with_reducible exact hk | with_reducible assumption | with_reducible apply State.freeSlot_kept
    | with_reducible apply State.inc_kept | with_reducible apply State.wrs_kept | with_reducible apply Kept.foldl
    | with_reducible apply Kept.ite | fail_if_no_progress intros)

theorem State.installDue_kept {q : List Instr} {s : State} (v : Nat) (hk : Kept q s) :
    Kept q (State.installDue s v) := by
  unfold State.installDue
  try dsimp only
  repeat' (first
    | with_reducible exact hk | with_reducible assumption | with_reducible apply State.wrs_kept | with_reducible apply Kept.foldl
    | with_reducible apply Kept.ite | fail_if_no_progress intros | dsimp only
    | fail_if_no_progress refine Kept.of_mk ?_ rfl rfl rfl rfl rfl)

theorem State.headEntries_kept {q : List Instr} {s : State} (n kind : Nat) (p : List Byte) (hk : Kept q s) :
    Kept q (State.headEntries s n kind p) := by
  unfold State.headEntries
  try dsimp only
  repeat' (first
    | with_reducible exact hk | with_reducible assumption | with_reducible apply State.draw_kept
    | with_reducible apply State.wr_kept | with_reducible apply State.wrs_kept | with_reducible apply Kept.ite
    | fail_if_no_progress intros | dsimp only | fail_if_no_progress refine Kept.of_mk ?_ rfl rfl rfl rfl rfl | split)

theorem State.installOne_kept {q : List Instr} {s : State} (e : Nat × Nat × CalRec) (hk : Kept q s) :
    Kept q (State.installOne s e) := by
  unfold State.installOne
  try dsimp only
  repeat' (first
    | with_reducible exact hk | with_reducible assumption | with_reducible apply State.putInForce_kept
    | with_reducible apply State.wr_kept | with_reducible apply Kept.ite | fail_if_no_progress intros | dsimp only
    | fail_if_no_progress refine Kept.of_mk ?_ rfl rfl rfl rfl rfl)

theorem State.installRest_kept {q : List Instr} {s : State} (hk : Kept q s) :
    Kept q (State.installRest s) := by
  unfold State.installRest
  try dsimp only
  repeat' (first
    | with_reducible exact hk | with_reducible assumption | with_reducible apply State.installOne_kept
    | with_reducible apply State.installOver_kept | with_reducible apply Kept.foldl | with_reducible apply Kept.ite
    | fail_if_no_progress intros | dsimp only | fail_if_no_progress refine Kept.of_mk ?_ rfl rfl rfl rfl rfl)

theorem State.beginSwitch_kept {q : List Instr} {s : State} (t : Nat) (hk : Kept q s) :
    Kept q (State.beginSwitch s t) := by
  unfold State.beginSwitch
  try dsimp only
  repeat' (first
    | with_reducible exact hk | with_reducible assumption | with_reducible apply State.setChan_kept | with_reducible apply Kept.ite
    | fail_if_no_progress intros | dsimp only | fail_if_no_progress refine Kept.of_mk ?_ rfl rfl rfl rfl rfl | split)

theorem State.installStep_kept {q : List Instr} {s : State} (hk : Kept q s) :
    Kept q (State.installStep s) := by
  unfold State.installStep
  try dsimp only
  repeat' (first
    | with_reducible exact hk | with_reducible assumption | with_reducible apply State.beginSwitch_kept
    | with_reducible apply State.installRest_kept | with_reducible apply State.wr_kept | with_reducible apply Kept.ite
    | fail_if_no_progress intros | dsimp only | fail_if_no_progress refine Kept.of_mk ?_ rfl rfl rfl rfl rfl)

theorem State.headSwitch_kept {q : List Instr} {s : State} (n : Nat) (hk : Kept q s) :
    Kept q (State.headSwitch s n) := by
  unfold State.headSwitch
  try dsimp only
  repeat' (first
    | with_reducible exact hk | with_reducible assumption | with_reducible apply State.beginSwitch_kept
    | with_reducible apply State.headEntries_kept | with_reducible apply State.installRest_kept
    | with_reducible apply State.putInForce_kept | with_reducible apply State.setChan_kept | with_reducible apply Kept.ite
    | fail_if_no_progress intros | dsimp only | fail_if_no_progress refine Kept.of_mk ?_ rfl rfl rfl rfl rfl | split)

theorem State.trimUnit_kept {q : List Instr} {s : State} (type u : Nat) (new : List Byte) (hk : Kept q s) :
    Kept q (State.trimUnit s type u new) := by
  unfold State.trimUnit
  try dsimp only
  repeat' (first
    | with_reducible exact hk | with_reducible assumption | with_reducible apply State.wr_kept | with_reducible apply Kept.ite
    | fail_if_no_progress intros | dsimp only | fail_if_no_progress refine Kept.of_mk ?_ rfl rfl rfl rfl rfl)

theorem State.trimGo_kept {q : List Instr} {s : State} (sampling : Bool) (d : TrimDue) (hk : Kept q s) :
    Kept q (State.trimGo s sampling d) := by
  unfold State.trimGo
  try dsimp only
  repeat' (first
    | with_reducible exact hk | with_reducible assumption | with_reducible apply State.putInForce_kept
    | with_reducible apply State.trimUnit_kept | with_reducible apply Kept.foldl | with_reducible apply Kept.ite
    | fail_if_no_progress intros | dsimp only | fail_if_no_progress refine Kept.of_mk ?_ rfl rfl rfl rfl rfl)

theorem State.trimApply_kept {q : List Instr} {s : State} (sampling : Bool) (hk : Kept q s) :
    Kept q (State.trimApply s sampling) := by
  unfold State.trimApply
  try dsimp only
  repeat' (first
    | with_reducible exact hk | with_reducible assumption | with_reducible apply State.installOver_kept
    | with_reducible apply State.trimGo_kept | with_reducible apply Kept.foldl | with_reducible apply Kept.ite
    | fail_if_no_progress intros | dsimp only | fail_if_no_progress refine Kept.of_mk ?_ rfl rfl rfl rfl rfl)

theorem State.calStored_kept {q : List Instr} {s : State} (good : Bool) (hk : Kept q s) :
    Kept q (State.calStored s good) := by
  unfold State.calStored
  try dsimp only
  repeat' (first
    | with_reducible exact hk | with_reducible assumption | with_reducible apply State.calEvent_kept
    | with_reducible apply State.wr_kept | with_reducible apply Kept.ite | fail_if_no_progress intros | dsimp only
    | fail_if_no_progress refine Kept.of_mk ?_ rfl rfl rfl rfl rfl | split)

theorem State.takeType_kept {q : List Instr} {s : State} (type : Nat) (found : Option CalRec) (hk : Kept q s) :
    Kept q (State.takeType s type found) := by
  unfold State.takeType
  try dsimp only
  repeat' (first
    | with_reducible exact hk | with_reducible assumption | with_reducible apply State.headEntries_kept
    | with_reducible apply State.wr_kept | with_reducible apply Kept.foldl | with_reducible apply Kept.ite
    | fail_if_no_progress intros | dsimp only | fail_if_no_progress refine Kept.of_mk ?_ rfl rfl rfl rfl rfl | split)

theorem State.loadType_kept {q : List Instr} {s : State} (type : Nat) (hk : Kept q s) :
    Kept q (State.loadType s type) := by
  unfold State.loadType
  try dsimp only
  repeat' (first
    | with_reducible exact hk | with_reducible assumption | with_reducible apply State.calEvent_kept
    | with_reducible apply State.takeType_kept | with_reducible apply Kept.ite | fail_if_no_progress intros | dsimp only
    | fail_if_no_progress refine Kept.of_mk ?_ rfl rfl rfl rfl rfl | split)

theorem execHeadTableSwitch_kept {q : List Instr} {s : State} (n : Fin 16) (hk : Kept q s) :
    KeptOut q (execHeadTableSwitch n s) := by
  unfold execHeadTableSwitch
  try dsimp only
  repeat' (first
    | with_reducible assumption | with_reducible apply live_kept hk | with_reducible apply State.headSwitch_kept
    | with_reducible apply Kept.ite | with_reducible apply Kept.ite2 | fail_if_no_progress intros)

theorem execTrimApply_kept {q : List Instr} {s : State} (hk : Kept q s) :
    KeptOut q (execTrimApply s) := by
  unfold execTrimApply
  try dsimp only
  repeat' (first
    | with_reducible assumption | with_reducible apply live_kept hk | with_reducible apply State.trimApply_kept
    | with_reducible apply Kept.ite | with_reducible apply Kept.ite2 | fail_if_no_progress intros)

theorem execCalStored_kept {q : List Instr} {s : State} (ok : Bool) (hk : Kept q s) :
    KeptOut q (execCalStored ok s) := by
  unfold execCalStored
  try dsimp only
  repeat' (first
    | with_reducible assumption | with_reducible apply live_kept hk | with_reducible apply State.calStored_kept
    | with_reducible apply Kept.ite | with_reducible apply Kept.ite2 | fail_if_no_progress intros)

/-! Machine/Measure.lean -/

theorem State.startCrosses_kept {q : List Instr} {s : State} (n run : Nat) (hk : Kept q s) :
    Kept q (State.startCrosses s n run) := by
  unfold State.startCrosses
  try dsimp only
  repeat' (first
    | with_reducible exact hk | with_reducible assumption | with_reducible apply State.placeGates_kept
    | with_reducible apply State.setChan_kept | with_reducible apply Kept.foldl | with_reducible apply Kept.ite
    | fail_if_no_progress intros | dsimp only | fail_if_no_progress refine Kept.of_mk ?_ rfl rfl rfl rfl rfl)

theorem State.nextCross_kept {q : List Instr} {s : State} (n : Nat) (hk : Kept q s) :
    Kept q (State.nextCross s n) := by
  unfold State.nextCross
  try dsimp only
  repeat' (first
    | with_reducible exact hk | with_reducible assumption | with_reducible apply State.startCrosses_kept
    | with_reducible apply State.wr_kept | with_reducible apply Kept.ite | fail_if_no_progress intros | dsimp only
    | fail_if_no_progress refine Kept.of_mk ?_ rfl rfl rfl rfl rfl | split)

theorem State.crossDone_kept {q : List Instr} {s : State} (n : Nat) (p : Option (List Byte)) (hk : Kept q s) :
    Kept q (State.crossDone s n p) := by
  unfold State.crossDone
  try dsimp only
  repeat' (first
    | with_reducible exact hk | with_reducible assumption | with_reducible apply State.nextCross_kept
    | with_reducible apply Kept.ite | fail_if_no_progress intros | dsimp only
    | fail_if_no_progress refine Kept.of_mk ?_ rfl rfl rfl rfl rfl)

theorem State.axisRun_kept {q : List Instr} {s : State} (hk : Kept q s) :
    Kept q (State.axisRun s) := by
  unfold State.axisRun
  try dsimp only
  repeat' (first
    | with_reducible exact hk | with_reducible assumption | with_reducible apply State.wr_kept | with_reducible apply Kept.ite
    | fail_if_no_progress intros | dsimp only | fail_if_no_progress refine Kept.of_mk ?_ rfl rfl rfl rfl rfl)

theorem State.measTick_kept {q : List Instr} {s : State} (hk : Kept q s) :
    Kept q (State.measTick s) := by
  unfold State.measTick
  try dsimp only
  repeat' (first
    | with_reducible exact hk | with_reducible assumption | with_reducible apply State.axisRun_kept
    | with_reducible apply State.crossDone_kept | with_reducible apply Kept.ite | fail_if_no_progress intros)

theorem State.fiducialCapture_kept {q : List Instr} {s : State} (hk : Kept q s) :
    Kept q (State.fiducialCapture s) := by
  unfold State.fiducialCapture
  try dsimp only
  repeat' (first
    | with_reducible exact hk | with_reducible assumption | with_reducible apply State.expose_kept
    | with_reducible apply State.fireFlash_kept | with_reducible apply Kept.foldl | with_reducible apply Kept.ite
    | fail_if_no_progress intros | dsimp only | fail_if_no_progress refine Kept.of_mk ?_ rfl rfl rfl rfl rfl | split)

theorem calMeasureEff_kept {q : List Instr} {s : State} (v : Nat) (hk : Kept q s) :
    Kept q (calMeasureEff v s).2 := by
  unfold calMeasureEff
  try dsimp only
  repeat' (first
    | with_reducible exact hk | with_reducible assumption | with_reducible apply State.startCrosses_kept
    | with_reducible apply State.wr_kept | with_reducible apply Kept.ite | with_reducible apply Kept.ite2
    | fail_if_no_progress intros | dsimp only | fail_if_no_progress refine Kept.of_mk ?_ rfl rfl rfl rfl rfl)

theorem State.measIdle_kept {q : List Instr} {s : State} (hk : Kept q s) :
    Kept q (State.measIdle s) := by
  unfold State.measIdle
  try dsimp only
  repeat' (first
    | with_reducible exact hk | with_reducible assumption | with_reducible apply State.wr_kept | with_reducible apply Kept.ite
    | fail_if_no_progress intros | dsimp only | fail_if_no_progress refine Kept.of_mk ?_ rfl rfl rfl rfl rfl)

theorem calMeasAbortEff_kept {q : List Instr} {s : State} (x_v : Nat) (hk : Kept q s) :
    Kept q (calMeasAbortEff x_v s).2 := by
  unfold calMeasAbortEff
  try dsimp only
  repeat' (first
    | with_reducible exact hk | with_reducible assumption | with_reducible apply State.dropRun_kept
    | with_reducible apply State.measIdle_kept | with_reducible apply State.setChan_kept | with_reducible apply Kept.ite
    | with_reducible apply Kept.ite2 | fail_if_no_progress intros)

theorem State.enterPair_kept {q : List Instr} {s t : State} (e : Nat × List Byte × List Byte) (hk : Kept q s)
    (ht : s.enterPair e = some t) : Kept q t := by
  unfold State.enterPair at ht
  split at ht
  · cases ht
    exact State.calReject_kept _ _ _ hk
  · next i _ =>
    dsimp only at ht
    split at ht
    · cases ht
    · next u hb =>
      obtain ⟨w, hw, hu⟩ := Option.bind_eq_some_iff.mp hb
      have h := State.putRun_kept _ _ _ (State.putRun_kept _ _ _ hk hw) hu
      have h := State.mirrorMemory_kept 63 (u.slotBase i) (recordImage e.1 Origin.measured s.now e.2.1) h
      have h := State.mirrorMemory_kept 63 (u.slotBase i + 1048576) (recordImage e.1 Origin.measured s.now e.2.2) h
      have h := State.repeatRule_kept i e.1 (State.setSlot_kept i 1 e.1 0 h)
      split at ht
      · cases ht; exact h
      · cases ht
        exact Kept.ite (fun _ => State.mirrorMemory_kept _ _ _ h) fun _ => State.calReject_kept _ _ _ h

theorem State.calMeasured_kept {q : List Instr} {s : State} (runs : List (List Byte)) (hk : Kept q s) :
    Kept q (State.calMeasured s runs) := by
  unfold State.calMeasured
  dsimp only
  refine Kept.ite (fun _ => hk) fun _ => Kept.ite (fun _ => hk) fun _ => ?_
  split
  · split
    · exact State.parkRunPlace_kept _ _ _ hk
    · exact hk
  · next t ht =>
    have h : Kept q t := Kept.foldlBind (fun u e v hu hv => State.enterPair_kept e hu hv) hk ht
    refine State.measIdle_kept (State.calEvent_kept _ _ _ _ _ ?_)
    exact Kept.foldl h fun u n hu => State.calReject_kept _ _ _ hu

theorem execFiducialCapture_kept {q : List Instr} {s : State} (hk : Kept q s) :
    KeptOut q (execFiducialCapture s) := by
  unfold execFiducialCapture
  try dsimp only
  repeat' (first | with_reducible assumption | with_reducible apply live_kept hk | with_reducible apply State.fiducialCapture_kept)

theorem execCalMeasureRegistration_kept {q : List Instr} {s : State} (m : Msg) (mask : BitVec 16) (hk : Kept q s) :
    KeptOut q (execCalMeasureRegistration m mask s) := by
  unfold execCalMeasureRegistration
  try dsimp only
  repeat' (first
    | with_reducible assumption | with_reducible apply writeCmd_kept hk | with_reducible apply calMeasureEff_kept
    | with_reducible apply Kept.ite | with_reducible apply Kept.ite2 | fail_if_no_progress intros)

theorem execCalMeasurePoolDark_kept {q : List Instr} {s : State} (m : Msg) (inst : BitVec 16) (hk : Kept q s) :
    KeptOut q (execCalMeasurePoolDark m inst s) := by
  unfold execCalMeasurePoolDark
  try dsimp only
  repeat' (first
    | with_reducible assumption | with_reducible apply writeCmd_kept hk | with_reducible apply calMeasureEff_kept
    | with_reducible apply Kept.ite | with_reducible apply Kept.ite2 | fail_if_no_progress intros)

theorem execCalMeasureAxisTrim_kept {q : List Instr} {s : State} (m : Msg) (inst : BitVec 16) (hk : Kept q s) :
    KeptOut q (execCalMeasureAxisTrim m inst s) := by
  unfold execCalMeasureAxisTrim
  try dsimp only
  repeat' (first
    | with_reducible assumption | with_reducible apply writeCmd_kept hk | with_reducible apply calMeasureEff_kept
    | with_reducible apply Kept.ite | with_reducible apply Kept.ite2 | fail_if_no_progress intros)

theorem execCalMeasureLaneTrim_kept {q : List Instr} {s : State} (m : Msg) (inst : BitVec 16) (hk : Kept q s) :
    KeptOut q (execCalMeasureLaneTrim m inst s) := by
  unfold execCalMeasureLaneTrim
  try dsimp only
  repeat' (first
    | with_reducible assumption | with_reducible apply writeCmd_kept hk | with_reducible apply calMeasureEff_kept
    | with_reducible apply Kept.ite | with_reducible apply Kept.ite2 | fail_if_no_progress intros)

theorem execCalMeasAbort_kept {q : List Instr} {s : State} (m : Msg) (hk : Kept q s) :
    KeptOut q (execCalMeasAbort m s) := by
  unfold execCalMeasAbort
  try dsimp only
  repeat' (first
    | with_reducible assumption | with_reducible apply writeCmd_kept hk | with_reducible apply calMeasAbortEff_kept
    | with_reducible apply Kept.ite | with_reducible apply Kept.ite2 | fail_if_no_progress intros)

theorem execCalMeasured_kept {q : List Instr} {s : State} (runs : List (List Byte)) (hk : Kept q s) :
    KeptOut q (execCalMeasured runs s) := by
  unfold execCalMeasured
  try dsimp only
  repeat' (first
    | with_reducible assumption | with_reducible apply live_kept hk | with_reducible apply State.calMeasured_kept
    | with_reducible apply Kept.ite | with_reducible apply Kept.ite2 | fail_if_no_progress intros)

/-! Machine/MemCmds.lean -/

theorem State.accountingWindow_kept {q : List Instr} {s : State} (hk : Kept q s) :
    Kept q (State.accountingWindow s) := by
  unfold State.accountingWindow
  try dsimp only
  repeat' (first
    | with_reducible exact hk | with_reducible assumption | with_reducible apply Kept.ite | fail_if_no_progress intros | dsimp only
    | fail_if_no_progress refine Kept.of_mk ?_ rfl rfl rfl rfl rfl)

theorem clearingRead_kept {q : List Instr} {s : State} (m : Msg) (key len : Nat) (hk : Kept q s) :
    Kept q (clearingRead m key len s) := by
  unfold clearingRead
  try dsimp only
  repeat' (first
    | with_reducible exact hk | with_reducible assumption | with_reducible apply State.wr_kept | with_reducible apply hostCmd_kept
    | with_reducible apply Kept.ite | fail_if_no_progress intros)

theorem State.showReserve_kept {q : List Instr} {s : State} (hk : Kept q s) :
    Kept q (State.showReserve s) := by
  unfold State.showReserve
  try dsimp only
  repeat' (first | with_reducible exact hk | with_reducible assumption | with_reducible apply State.wr_kept)

theorem tcPriorityEff_kept {q : List Instr} {s : State} (tc v : Nat) (hk : Kept q s) :
    Kept q (tcPriorityEff tc v s).2 := by
  unfold tcPriorityEff
  try dsimp only
  repeat' (first
    | with_reducible exact hk | with_reducible assumption | with_reducible apply State.wr_kept | with_reducible apply Kept.ite
    | with_reducible apply Kept.ite2)

theorem tcReserveEff_kept {q : List Instr} {s : State} (tc v : Nat) (hk : Kept q s) :
    Kept q (tcReserveEff tc v s).2 := by
  unfold tcReserveEff
  try dsimp only
  repeat' (first
    | with_reducible exact hk | with_reducible assumption | with_reducible apply State.showReserve_kept
    | with_reducible apply State.wr_kept | with_reducible apply Kept.ite | with_reducible apply Kept.ite2)

theorem execTcMap_kept {q : List Instr} {s : State} (m : Msg) (tc : Fin 192) (request : BitVec 128) (hk : Kept q s) :
    KeptOut q (execTcMap m tc request s) := by
  unfold execTcMap
  try dsimp only
  repeat' (first
    | with_reducible assumption | with_reducible apply writeCmd_kept hk | with_reducible apply tcMapEff_kept
    | with_reducible apply Kept.ite | with_reducible apply Kept.ite2 | fail_if_no_progress intros)

theorem execTcUnmap_kept {q : List Instr} {s : State} (m : Msg) (tc : Fin 192) (request : BitVec 64) (hk : Kept q s) :
    KeptOut q (execTcUnmap m tc request s) := by
  unfold execTcUnmap
  try dsimp only
  repeat' (first
    | with_reducible assumption | with_reducible apply writeCmd_kept hk | with_reducible apply tcUnmapEff_kept
    | with_reducible apply Kept.ite | with_reducible apply Kept.ite2 | fail_if_no_progress intros)

theorem execAccountingWindow_kept {q : List Instr} {s : State} (hk : Kept q s) :
    KeptOut q (execAccountingWindow s) := by
  unfold execAccountingWindow
  try dsimp only
  repeat' (first | with_reducible assumption | with_reducible apply live_kept hk | with_reducible apply State.accountingWindow_kept)

theorem execMemLoadPeakRead_kept {q : List Instr} {s : State} (m : Msg) (hk : Kept q s) :
    KeptOut q (execMemLoadPeakRead m s) := by
  unfold execMemLoadPeakRead
  try dsimp only
  repeat' (first
    | with_reducible assumption | with_reducible apply live_kept hk | with_reducible apply clearingRead_kept
    | with_reducible apply Kept.ite | with_reducible apply Kept.ite2 | fail_if_no_progress intros)

/-! Machine/Die.lean -/

theorem State.setSensor_kept {q : List Instr} {s : State} (i : Nat) (x : Sensor) (hk : Kept q s) :
    Kept q (State.setSensor s i x) := by
  unfold State.setSensor
  try dsimp only
  repeat' (first
    | with_reducible exact hk | with_reducible assumption | with_reducible apply Kept.ite | fail_if_no_progress intros | dsimp only
    | fail_if_no_progress refine Kept.of_mk ?_ rfl rfl rfl rfl rfl)

theorem State.setSensorState_kept {q : List Instr} {s : State} (i st cause : Nat) (hk : Kept q s) :
    Kept q (State.setSensorState s i st cause) := by
  unfold State.setSensorState
  try dsimp only
  repeat' (first | with_reducible exact hk | with_reducible assumption | with_reducible apply State.wrs_kept)

theorem State.countSensor_kept {q : List Instr} {s : State} (r : List Int) (raws : List Nat) (near : List Nat) (first : Bool) (i : Nat) (hk : Kept q s) :
    Kept q (State.countSensor s r raws near first i) := by
  unfold State.countSensor
  try dsimp only
  repeat' (first | with_reducible exact hk | with_reducible assumption | with_reducible apply State.setSensor_kept)

theorem State.dieEvent_kept {q : List Instr} {s : State} (code cls inst b2 b3 : Nat) (hk : Kept q s) :
    Kept q (State.dieEvent s code cls inst b2 b3) := by
  unfold State.dieEvent
  try dsimp only
  repeat' (first | with_reducible exact hk | with_reducible assumption | with_reducible apply State.raise_kept)

theorem State.failSensor_kept {q : List Instr} {s : State} (i cause : Nat) (hottest : Bool) (hk : Kept q s) :
    Kept q (State.failSensor s i cause hottest) := by
  unfold State.failSensor
  try dsimp only
  repeat' (first
    | with_reducible exact hk | with_reducible assumption | with_reducible apply State.setSensor_kept
    | with_reducible apply State.setSensorState_kept | with_reducible apply State.wr_kept | with_reducible apply Kept.ite
    | fail_if_no_progress intros)

theorem State.watchSensor_kept {q : List Instr} {s : State} (i : Nat) (passes : Bool) (hk : Kept q s) :
    Kept q (State.watchSensor s i passes).2 := by
  unfold State.watchSensor
  try dsimp only
  repeat' (first
    | with_reducible exact hk | with_reducible assumption | with_reducible apply State.setSensor_kept
    | with_reducible apply State.setSensorState_kept | with_reducible apply State.wr_kept | with_reducible apply Kept.ite
    | with_reducible apply Kept.ite2)

theorem State.stopChannel_kept {q : List Instr} {s : State} (n : Nat) (hk : Kept q s) :
    Kept q (State.stopChannel s n) := by
  unfold State.stopChannel
  try dsimp only
  repeat' (first
    | with_reducible exact hk | with_reducible assumption | with_reducible apply State.dropRun_kept
    | with_reducible apply State.endRunFrom_kept | with_reducible apply State.hold_kept | with_reducible apply State.setChan_kept
    | with_reducible apply State.stopHere_kept | with_reducible apply Kept.ite | fail_if_no_progress intros)

theorem State.orderlyStop_kept {q : List Instr} {s : State} (hk : Kept q s) :
    Kept q (State.orderlyStop s) := by
  unfold State.orderlyStop
  try dsimp only
  repeat' (first
    | with_reducible exact hk | with_reducible assumption | with_reducible apply State.draw_kept
    | with_reducible apply State.stopChannel_kept | with_reducible apply State.wr_kept | with_reducible apply State.wrS_kept
    | with_reducible apply Kept.foldl | with_reducible apply Kept.ite | fail_if_no_progress intros | dsimp only
    | fail_if_no_progress refine Kept.of_mk ?_ rfl rfl rfl rfl rfl)

theorem State.setLevel_kept {q : List Instr} {s : State} (hk : Kept q s) :
    Kept q (State.setLevel s) := by
  unfold State.setLevel
  try dsimp only
  repeat' (first
    | with_reducible exact hk | with_reducible assumption | with_reducible apply State.dieEvent_kept
    | with_reducible apply State.orderlyStop_kept | with_reducible apply State.wr_kept | with_reducible apply State.wrs_kept
    | with_reducible apply Kept.ite | fail_if_no_progress intros)

theorem State.setCutoff_kept {q : List Instr} {s : State} (hk : Kept q s) :
    Kept q (State.setCutoff s) := by
  unfold State.setCutoff
  try dsimp only
  repeat' (first
    | with_reducible exact hk | with_reducible assumption | with_reducible apply State.dieEvent_kept
    | with_reducible apply State.withdraw_kept | with_reducible apply State.wr_kept | with_reducible apply Kept.ite
    | fail_if_no_progress intros | dsimp only | fail_if_no_progress refine Kept.of_mk ?_ rfl rfl rfl rfl rfl)

theorem State.setFast_kept {q : List Instr} {s : State} (hk : Kept q s) :
    Kept q (State.setFast s) := by
  unfold State.setFast
  try dsimp only
  repeat' (first
    | with_reducible exact hk | with_reducible assumption | with_reducible apply State.dieEvent_kept
    | with_reducible apply State.wr_kept | with_reducible apply Kept.ite | fail_if_no_progress intros)

theorem State.checkSensors_kept {q : List Instr} {s : State} (r : List Int) (raws : List Nat) (hk : Kept q s) :
    Kept q (State.checkSensors s r raws).2.2 := by
  unfold State.checkSensors
  try dsimp only
  repeat' (first
    | with_reducible exact hk | with_reducible assumption | with_reducible apply State.countSensor_kept
    | with_reducible apply State.failSensor_kept | with_reducible apply State.watchSensor_kept | with_reducible apply Kept.foldl
    | with_reducible apply Kept.ite | with_reducible apply Kept.ite2 | fail_if_no_progress intros | dsimp only
    | fail_if_no_progress refine Kept.of_mk ?_ rfl rfl rfl rfl rfl)

theorem State.apexOf_kept {q : List Instr} {s : State} (r : List Int) (hk : Kept q s) :
    Kept q (State.apexOf s r).2 := by
  unfold State.apexOf
  try dsimp only
  repeat' (first
    | with_reducible exact hk | with_reducible assumption | with_reducible apply State.draw_kept | with_reducible apply Kept.ite
    | with_reducible apply Kept.ite2 | fail_if_no_progress intros | dsimp only
    | fail_if_no_progress refine Kept.of_mk ?_ rfl rfl rfl rfl rfl | split)

theorem State.thermalSample_kept {q : List Instr} {s : State} (raws : List Nat) (hk : Kept q s) :
    Kept q (State.thermalSample s raws) := by
  unfold State.thermalSample
  try dsimp only
  repeat' (first
    | with_reducible exact hk | with_reducible assumption | with_reducible apply State.apexOf_kept
    | with_reducible apply State.checkSensors_kept | with_reducible apply State.dieEvent_kept
    | with_reducible apply State.setCutoff_kept | with_reducible apply State.setFast_kept | with_reducible apply State.setLevel_kept
    | with_reducible apply State.trimApply_kept | with_reducible apply State.wr_kept | with_reducible apply State.wrs_kept
    | with_reducible apply Kept.foldl | with_reducible apply Kept.ite | fail_if_no_progress intros | dsimp only
    | fail_if_no_progress refine Kept.of_mk ?_ rfl rfl rfl rfl rfl)

theorem State.endScans_kept {q : List Instr} {s : State} (hk : Kept q s) :
    Kept q (State.endScans s) := by
  unfold State.endScans
  try dsimp only
  repeat' (first
    | with_reducible exact hk | with_reducible assumption | with_reducible apply State.eyeEnd_kept
    | with_reducible apply State.snapEnd_kept | with_reducible apply Kept.foldl | with_reducible apply Kept.ite
    | fail_if_no_progress intros)

theorem State.askSeal_kept {q : List Instr} {s : State} (hk : Kept q s) :
    Kept q (State.askSeal s) := by
  unfold State.askSeal
  try dsimp only
  repeat' (first
    | with_reducible exact hk | with_reducible assumption | with_reducible apply Kept.ite | fail_if_no_progress intros | dsimp only
    | fail_if_no_progress refine Kept.of_mk ?_ rfl rfl rfl rfl rfl)

theorem State.stopDone_kept {q : List Instr} {s : State} (hk : Kept q s) :
    Kept q (State.stopDone s) := by
  unfold State.stopDone
  try dsimp only
  repeat' (first
    | with_reducible exact hk | with_reducible assumption | with_reducible apply State.askSeal_kept
    | with_reducible apply State.dieEvent_kept | with_reducible apply State.endScans_kept | with_reducible apply State.wr_kept
    | with_reducible apply Kept.ite | fail_if_no_progress intros)

theorem sensorAckEff_kept {q : List Instr} {s : State} (v : Nat) (hk : Kept q s) :
    Kept q (sensorAckEff v s).2 := by
  unfold sensorAckEff
  try dsimp only
  repeat' (first
    | with_reducible exact hk | with_reducible assumption | with_reducible apply State.setLevel_kept
    | with_reducible apply State.setSensor_kept | with_reducible apply State.setSensorState_kept
    | with_reducible apply State.wr_kept | with_reducible apply Kept.foldl | with_reducible apply Kept.ite
    | with_reducible apply Kept.ite2 | fail_if_no_progress intros)

theorem execThermalSample_kept {q : List Instr} {s : State} (raw : List (BitVec 16)) (hk : Kept q s) :
    KeptOut q (execThermalSample raw s) := by
  unfold execThermalSample
  try dsimp only
  repeat' (first
    | with_reducible assumption | with_reducible apply live_kept hk | with_reducible apply State.thermalSample_kept
    | with_reducible apply Kept.ite | with_reducible apply Kept.ite2 | fail_if_no_progress intros)

theorem execStopDone_kept {q : List Instr} {s : State} (hk : Kept q s) :
    KeptOut q (execStopDone s) := by
  unfold execStopDone
  try dsimp only
  repeat' (first | with_reducible assumption | with_reducible apply live_kept hk | with_reducible apply State.stopDone_kept)

theorem execDtSensorAck_kept {q : List Instr} {s : State} (m : Msg) (v : BitVec 16) (hk : Kept q s) :
    KeptOut q (execDtSensorAck m v s) := by
  unfold execDtSensorAck
  try dsimp only
  repeat' (first
    | with_reducible assumption | with_reducible apply writeCmd_kept hk | with_reducible apply sensorAckEff_kept
    | with_reducible apply Kept.ite | with_reducible apply Kept.ite2 | fail_if_no_progress intros)

theorem execDtPeakRead_kept {q : List Instr} {s : State} (m : Msg) (hk : Kept q s) :
    KeptOut q (execDtPeakRead m s) := by
  unfold execDtPeakRead
  try dsimp only
  repeat' (first
    | with_reducible assumption | with_reducible apply live_kept hk | with_reducible apply clearingRead_kept
    | with_reducible apply Kept.ite | with_reducible apply Kept.ite2 | fail_if_no_progress intros)

/-! Machine/Journal.lean -/

theorem State.writeBlock_kept {q : List Instr} {s : State} (blk : List Byte) (hk : Kept q s) :
    Kept q (State.writeBlock s blk) := by
  unfold State.writeBlock
  try dsimp only
  repeat' (first
    | with_reducible exact hk | with_reducible assumption | with_reducible apply State.countBeats_kept
    | with_reducible apply State.inc_kept | with_reducible apply State.raise_kept | with_reducible apply State.wr_kept
    | with_reducible apply State.writeMem_kept | with_reducible apply Kept.ite | fail_if_no_progress intros | dsimp only
    | fail_if_no_progress refine Kept.of_mk ?_ rfl rfl rfl rfl rfl)

theorem State.writeRecord_kept {q : List Instr} {s : State} (e : EvRec) (hk : Kept q s) :
    Kept q (State.writeRecord s e) := by
  unfold State.writeRecord
  try dsimp only
  repeat' (first
    | with_reducible exact hk | with_reducible assumption | with_reducible apply State.wr_kept
    | with_reducible apply State.writeBlock_kept | with_reducible apply Kept.foldl | with_reducible apply Kept.ite
    | fail_if_no_progress intros | dsimp only | fail_if_no_progress refine Kept.of_mk ?_ rfl rfl rfl rfl rfl)

theorem State.writeJournal_kept {q : List Instr} {s : State} (hk : Kept q s) :
    Kept q (State.writeJournal s) := by
  unfold State.writeJournal
  try dsimp only
  repeat' (first
    | with_reducible exact hk | with_reducible assumption | with_reducible apply State.bump_kept
    | with_reducible apply State.startJournal_kept | with_reducible apply State.writeRecord_kept | with_reducible apply Kept.foldl
    | with_reducible apply Kept.ite | fail_if_no_progress intros | dsimp only
    | fail_if_no_progress refine Kept.of_mk ?_ rfl rfl rfl rfl rfl)

theorem journalEnableEff_kept {q : List Instr} {s : State} (v : Nat) (hk : Kept q s) :
    Kept q (journalEnableEff v s).2 := by
  unfold journalEnableEff
  try dsimp only
  repeat' (first
    | with_reducible exact hk | with_reducible assumption | with_reducible apply State.startJournal_kept
    | with_reducible apply State.stopJournal_kept | with_reducible apply State.wr_kept | with_reducible apply Kept.ite
    | with_reducible apply Kept.ite2)

theorem State.sealNow_kept {q : List Instr} {s : State} (hk : Kept q s) :
    Kept q (State.sealNow s) := by
  unfold State.sealNow
  try dsimp only
  repeat' (first
    | with_reducible exact hk | with_reducible assumption | with_reducible apply State.raiseSeries_kept
    | with_reducible apply Kept.ite | fail_if_no_progress intros | dsimp only
    | fail_if_no_progress refine Kept.of_mk ?_ rfl rfl rfl rfl rfl)

theorem execJournalWrite_kept {q : List Instr} {s : State} (hk : Kept q s) :
    KeptOut q (execJournalWrite s) := by
  unfold execJournalWrite
  try dsimp only
  repeat' (first | with_reducible assumption | with_reducible apply live_kept hk | with_reducible apply State.writeJournal_kept)

theorem execSeal_kept {q : List Instr} {s : State} (hk : Kept q s) :
    KeptOut q (execSeal s) := by
  unfold execSeal
  try dsimp only
  repeat' (first
    | with_reducible assumption | with_reducible apply live_kept hk | with_reducible apply State.sealNow_kept
    | with_reducible apply Kept.ite | with_reducible apply Kept.ite2 | fail_if_no_progress intros)

end Sys2Proof.Machine
end

