-- ==== Sys2Proof/Laws/KeptTwin.lean ====
section
/-! SUPPORT. Every operation and every command of the twin, the layer cycle, streams and sessions leaves the queue as it is and keeps the tables canonical: one lemma
for each definition, its name with `_kept` after it. -/

namespace Sys2Proof.Machine

/-! Machine/Twin.lean -/

theorem State.clearEpochs_kept {q : List Instr} {s : State} (hk : Kept q s) :
    Kept q (State.clearEpochs s) := by
  unfold State.clearEpochs
  try dsimp only
  repeat' (first
    | with_reducible exact hk | with_reducible assumption | with_reducible apply State.setChan_kept
    | with_reducible apply Kept.foldl | with_reducible apply Kept.ite | fail_if_no_progress intros | dsimp only
    | fail_if_no_progress refine Kept.of_mk ?_ rfl rfl rfl rfl rfl)

theorem State.setRole_kept {q : List Instr} {s : State} (r : Nat) (hk : Kept q s) :
    Kept q (State.setRole s r) := by
  unfold State.setRole
  try dsimp only
  repeat' (first
    | with_reducible exact hk | with_reducible assumption | with_reducible apply State.clearEpochs_kept
    | with_reducible apply State.raise_kept | with_reducible apply State.twinPins_kept | with_reducible apply State.wrs_kept
    | with_reducible apply Kept.ite | fail_if_no_progress intros)

theorem State.setEpoch_kept {q : List Instr} {s : State} (e : Nat) (hk : Kept q s) :
    Kept q (State.setEpoch s e) := by
  unfold State.setEpoch
  try dsimp only
  repeat' (first
    | with_reducible exact hk | with_reducible assumption | with_reducible apply State.wr_kept | with_reducible apply Kept.ite
    | fail_if_no_progress intros | dsimp only | fail_if_no_progress refine Kept.of_mk ?_ rfl rfl rfl rfl rfl)

theorem State.ownTime_kept {q : List Instr} {s : State} (hk : Kept q s) :
    Kept q (State.ownTime s) := by
  unfold State.ownTime
  try dsimp only
  repeat' (first
    | with_reducible exact hk | with_reducible assumption | with_reducible apply State.holdover_kept
    | with_reducible apply State.steerFrom_kept | with_reducible apply Kept.ite | fail_if_no_progress intros)

theorem State.enterActive_kept {q : List Instr} {s : State} (hk : Kept q s) :
    Kept q (State.enterActive s) := by
  unfold State.enterActive
  try dsimp only
  repeat' (first
    | with_reducible exact hk | with_reducible assumption | with_reducible apply State.ownTime_kept
    | with_reducible apply State.raise_kept | with_reducible apply State.setEpoch_kept | with_reducible apply State.setRole_kept
    | with_reducible apply State.settle_kept | with_reducible apply State.wr_kept | with_reducible apply Kept.ite
    | fail_if_no_progress intros | dsimp only | fail_if_no_progress refine Kept.of_mk ?_ rfl rfl rfl rfl rfl)

theorem State.enterStandby_kept {q : List Instr} {s : State} (hk : Kept q s) :
    Kept q (State.enterStandby s) := by
  unfold State.enterStandby
  try dsimp only
  repeat' (first
    | with_reducible exact hk | with_reducible assumption | with_reducible apply State.setRole_kept
    | with_reducible apply State.wr_kept | with_reducible apply Kept.ite | fail_if_no_progress intros | dsimp only
    | fail_if_no_progress refine Kept.of_mk ?_ rfl rfl rfl rfl rfl)

theorem State.enterDetached_kept {q : List Instr} {s : State} (hk : Kept q s) :
    Kept q (State.enterDetached s) := by
  unfold State.enterDetached
  try dsimp only
  repeat' (first
    | with_reducible exact hk | with_reducible assumption | with_reducible apply State.setRole_kept
    | with_reducible apply State.settle_kept | with_reducible apply State.wrs_kept | with_reducible apply Kept.ite
    | fail_if_no_progress intros | dsimp only | fail_if_no_progress refine Kept.of_mk ?_ rfl rfl rfl rfl rfl)

theorem State.alignPair_kept {q : List Instr} {s : State} (partner : Nat) (hk : Kept q s) :
    Kept q (State.alignPair s partner) := by
  unfold State.alignPair
  try dsimp only
  repeat' (first
    | with_reducible exact hk | with_reducible assumption | with_reducible apply State.laneDrop_kept
    | with_reducible apply State.wrS_kept | with_reducible apply Kept.foldl | with_reducible apply Kept.ite
    | fail_if_no_progress intros | dsimp only | fail_if_no_progress refine Kept.of_mk ?_ rfl rfl rfl rfl rfl)

theorem State.enterSyncing_kept {q : List Instr} {s : State} (hk : Kept q s) :
    Kept q (State.enterSyncing s) := by
  unfold State.enterSyncing
  try dsimp only
  repeat' (first
    | with_reducible exact hk | with_reducible assumption | with_reducible apply State.setRole_kept
    | with_reducible apply State.settle_kept | with_reducible apply State.wr_kept | with_reducible apply Kept.ite
    | fail_if_no_progress intros | dsimp only | fail_if_no_progress refine Kept.of_mk ?_ rfl rfl rfl rfl rfl)

theorem State.loseStep_kept {q : List Instr} {s : State} (code : Nat) (hk : Kept q s) :
    Kept q (State.loseStep s code) := by
  unfold State.loseStep
  try dsimp only
  repeat' (first
    | with_reducible exact hk | with_reducible assumption | with_reducible apply State.enterSyncing_kept
    | with_reducible apply State.raise_kept | with_reducible apply Kept.ite | fail_if_no_progress intros)

theorem State.partnerIn_kept {q : List Instr} {s : State} (p : PMsg) (type : Nat) (k : State → State) (hk : Kept q s) (hf : ∀ s, Kept q s → Kept q (k s)) :
    Kept q (State.partnerIn s p type k) := by
  unfold State.partnerIn
  try dsimp only
  repeat' (first
    | with_reducible exact hk | with_reducible assumption | with_reducible apply State.raise_kept
    | with_reducible apply State.sendPartner_kept | with_reducible apply State.setEpoch_kept | with_reducible apply hf
    | with_reducible apply Kept.ite | fail_if_no_progress intros | dsimp only
    | fail_if_no_progress refine Kept.of_mk ?_ rfl rfl rfl rfl rfl)

theorem State.mirrorIn_kept {q0 : List Instr} {s : State} (q : BitVec 32) (k : State → State) (hk : Kept q0 s) (hf : ∀ s, Kept q0 s → Kept q0 (k s)) :
    Kept q0 (State.mirrorIn s q k) := by
  unfold State.mirrorIn
  try dsimp only
  repeat' (first
    | with_reducible exact hk | with_reducible assumption | with_reducible apply State.loseStep_kept | with_reducible apply hf
    | with_reducible apply Kept.ite | fail_if_no_progress intros | dsimp only
    | fail_if_no_progress refine Kept.of_mk ?_ rfl rfl rfl rfl rfl)

theorem State.endCopy_kept {q : List Instr} {s : State} (hk : Kept q s) :
    Kept q (State.endCopy s) := by
  unfold State.endCopy
  try dsimp only
  repeat' (first
    | with_reducible exact hk | with_reducible assumption | with_reducible apply State.wrs_kept | with_reducible apply Kept.ite
    | fail_if_no_progress intros | dsimp only | fail_if_no_progress refine Kept.of_mk ?_ rfl rfl rfl rfl rfl)

theorem State.partnerRole_kept {q : List Instr} {s : State} (r : Nat) (hk : Kept q s) :
    Kept q (State.partnerRole s r) := by
  unfold State.partnerRole
  try dsimp only
  repeat' (first
    | with_reducible exact hk | with_reducible assumption | with_reducible apply State.endCopy_kept
    | with_reducible apply State.wr_kept | with_reducible apply State.wrs_kept | with_reducible apply Kept.ite
    | fail_if_no_progress intros | dsimp only | fail_if_no_progress refine Kept.of_mk ?_ rfl rfl rfl rfl rfl)

theorem State.partnerFailed_kept {q : List Instr} {s : State} (hk : Kept q s) :
    Kept q (State.partnerFailed s) := by
  unfold State.partnerFailed
  try dsimp only
  repeat' (first
    | with_reducible exact hk | with_reducible assumption | with_reducible apply State.endCopy_kept
    | with_reducible apply State.enterDetached_kept | with_reducible apply State.fleetChanged_kept
    | with_reducible apply State.nodeGone_kept | with_reducible apply State.raise_kept | with_reducible apply State.wr_kept
    | with_reducible apply Kept.ite | fail_if_no_progress intros | dsimp only
    | fail_if_no_progress refine Kept.of_mk ?_ rfl rfl rfl rfl rfl)

theorem State.heartbeatSend_kept {q : List Instr} {s : State} (hk : Kept q s) :
    Kept q (State.heartbeatSend s) := by
  unfold State.heartbeatSend
  try dsimp only
  repeat' (first
    | with_reducible exact hk | with_reducible assumption | with_reducible apply State.sendPartner_kept
    | with_reducible apply Kept.ite | fail_if_no_progress intros)

theorem State.timeFrom_kept {q : List Instr} {s : State} (h : Beat) (partner : Nat) (hk : Kept q s) :
    Kept q (State.timeFrom s h partner) := by
  unfold State.timeFrom
  try dsimp only
  repeat' (first
    | with_reducible exact hk | with_reducible assumption | with_reducible apply State.inc_kept | with_reducible apply Kept.ite
    | fail_if_no_progress intros | dsimp only | fail_if_no_progress refine Kept.of_mk ?_ rfl rfl rfl rfl rfl)

theorem State.beatHeard_kept {q : List Instr} {s : State} (epoch : Nat) (hk : Kept q s) :
    Kept q (State.beatHeard s epoch) := by
  unfold State.beatHeard
  try dsimp only
  repeat' (first
    | with_reducible exact hk | with_reducible assumption | with_reducible apply State.draw_kept
    | with_reducible apply State.inc_kept | with_reducible apply State.wr_kept | with_reducible apply Kept.ite
    | fail_if_no_progress intros | dsimp only | fail_if_no_progress refine Kept.of_mk ?_ rfl rfl rfl rfl rfl)

theorem State.beatRole_kept {q : List Instr} {s : State} (active : Bool) (epoch : Nat) (hk : Kept q s) :
    Kept q (State.beatRole s active epoch) := by
  unfold State.beatRole
  try dsimp only
  repeat' (first
    | with_reducible exact hk | with_reducible assumption | with_reducible apply State.enterSyncing_kept
    | with_reducible apply State.setEpoch_kept | with_reducible apply Kept.ite | fail_if_no_progress intros)

theorem State.beatStep_kept {q : List Instr} {s : State} (partner seq : Nat) (hk : Kept q s) :
    Kept q (State.beatStep s partner seq) := by
  unfold State.beatStep
  try dsimp only
  repeat' (first
    | with_reducible exact hk | with_reducible assumption | with_reducible apply State.alignPair_kept
    | with_reducible apply State.loseStep_kept | with_reducible apply Kept.ite | fail_if_no_progress intros | dsimp only
    | fail_if_no_progress refine Kept.of_mk ?_ rfl rfl rfl rfl rfl)

theorem State.heartbeat_kept {q : List Instr} {s : State} (p : PMsg) (h : Beat) (hk : Kept q s) :
    Kept q (State.heartbeat s p h) := by
  unfold State.heartbeat
  try dsimp only
  repeat' (first
    | with_reducible exact hk | with_reducible assumption | with_reducible apply State.beatHeard_kept
    | with_reducible apply State.beatRole_kept | with_reducible apply State.beatStep_kept
    | with_reducible apply State.partnerFailed_kept | with_reducible apply State.partnerRole_kept
    | with_reducible apply State.timeFrom_kept | with_reducible apply Kept.ite | fail_if_no_progress intros)

theorem twinCommandEff_kept {q : List Instr} {s : State} (v : Nat) (hk : Kept q s) :
    Kept q (twinCommandEff v s).2 := by
  unfold twinCommandEff
  try dsimp only
  repeat' (first
    | with_reducible exact hk | with_reducible assumption | with_reducible apply State.enterActive_kept
    | with_reducible apply State.enterDetached_kept | with_reducible apply State.enterSyncing_kept | with_reducible apply Kept.ite
    | with_reducible apply Kept.ite2 | fail_if_no_progress intros | dsimp only
    | fail_if_no_progress refine Kept.of_mk ?_ rfl rfl rfl rfl rfl | split)

theorem State.twinStartTimeout_kept {q : List Instr} {s : State} (hk : Kept q s) :
    Kept q (State.twinStartTimeout s) := by
  unfold State.twinStartTimeout
  try dsimp only
  repeat' (first
    | with_reducible exact hk | with_reducible assumption | with_reducible apply State.enterActive_kept
    | with_reducible apply Kept.ite | fail_if_no_progress intros)

theorem State.checkTick_kept {q : List Instr} {s : State} (hk : Kept q s) :
    Kept q (State.checkTick s) := by
  unfold State.checkTick
  try dsimp only
  repeat' (first
    | with_reducible exact hk | with_reducible assumption | with_reducible apply State.sendPartner_kept
    | with_reducible apply Kept.ite | fail_if_no_progress intros | dsimp only
    | fail_if_no_progress refine Kept.of_mk ?_ rfl rfl rfl rfl rfl)

theorem State.addMirror_kept {q : List Instr} {s : State} (r : Mirror) (hk : Kept q s) :
    Kept q (State.addMirror s r) := by
  unfold State.addMirror
  try dsimp only
  repeat' (first
    | with_reducible exact hk | with_reducible assumption | with_reducible apply Kept.ite | fail_if_no_progress intros | dsimp only
    | fail_if_no_progress refine Kept.of_mk ?_ rfl rfl rfl rfl rfl)

theorem replaceKeys_wf {od : Tab Nat} (p : Nat → Bool) (saved : Tab Nat) (h : Tab.wf Dict.dflt od = true) :
    Tab.wf Dict.dflt (replaceKeys od p saved) = true := by
  have go : ∀ (l : List (Nat × Nat)) (g : Nat × Nat → Nat) (o : Tab Nat), Tab.wf Dict.dflt o = true →
      Tab.wf Dict.dflt (l.foldl (fun (o : Tab Nat) e => Tab.set Dict.dflt o e.1 (g e)) o) = true := by
    intro l g
    induction l with
    | nil => exact fun o h => h
    | cons e l ih => exact fun o h => ih _ (Tab.wf_set _ _ h)
  exact go _ (fun e => e.2) _ (go _ (fun e => Dict.dflt e.1) _ h)

theorem State.takeDecision_kept {q : List Instr} {s : State} (decided : Nat) (l : List Verdict) (hk : Kept q s) :
    Kept q (State.takeDecision s decided l) := by
  unfold State.takeDecision
  split
  · exact hk
  · next f _ =>
    refine Kept.ite (fun _ => hk) fun _ => ?_
    have h1 : Kept q { s with od := replaceKeys s.od shareKey f.od } :=
      ⟨hk.queue, replaceKeys_wf _ _ hk.canon.od, hk.canon.mem, hk.canon.cells⟩
    dsimp only
    have h2 : ∀ {t : State} {a b c d}, Kept q t → Kept q { t with chans := a, lunes := b, tm := c, tw := d } :=
      fun h => Kept.of_mk h rfl rfl rfl rfl rfl
    have go : ∀ {u : State} {a b}, Kept q u → Kept q { u with tm := a, tw := b } := fun h => Kept.of_mk h rfl rfl rfl rfl rfl
    exact go (State.decideAll_kept _ (h2 h1))

theorem State.takeLoop_kept {q : List Instr} {s : State} (i : LoopImage) (hk : Kept q s) :
    Kept q (State.takeLoop s i) := by
  unfold State.takeLoop
  try dsimp only
  repeat' (first
    | with_reducible exact hk | with_reducible assumption | with_reducible apply State.setLoop_kept
    | with_reducible apply State.syncRep_kept | with_reducible apply State.wr_kept | with_reducible apply State.wrs_kept
    | with_reducible apply Kept.foldl | with_reducible apply Kept.ite | fail_if_no_progress intros)

theorem State.takeSync_kept {q : List Instr} {s : State} (i : SyncItem) (hk : Kept q s) : Kept q (s.takeSync i) := by
  unfold State.takeSync
  split
  · dsimp only
    split
    · refine Kept.ite (fun _ => hk) fun _ => Kept.ite (fun _ => ?_) fun _ => State.wr_kept hk _ _
      exact State.noteKeep_kept _ (State.wr_kept hk _ _)
    · exact hk
  · exact Kept.ite (fun _ => hk) fun _ => State.digestPending_kept (Kept.of_mk hk rfl rfl rfl rfl rfl)
  · exact Kept.ite (fun _ => State.setPage_kept hk _ _ _) fun _ => tcMapEff_kept _ _ hk
  · exact State.countBeats_kept _ _ (Kept.foldl hk fun s b h => State.setPhysByte_kept h _ _)
  · exact State.setCell_kept hk _ _

theorem State.syncCopyDone_kept {q : List Instr} {s : State} (hk : Kept q s) :
    Kept q (State.syncCopyDone s) := by
  unfold State.syncCopyDone
  try dsimp only
  repeat' (first
    | with_reducible exact hk | with_reducible assumption | with_reducible apply State.wr_kept | with_reducible apply State.wrs_kept
    | with_reducible apply Kept.ite | fail_if_no_progress intros)

theorem State.syncCompare_kept {q : List Instr} {s : State} (digest : Nat) (hk : Kept q s) :
    Kept q (State.syncCompare s digest) := by
  unfold State.syncCompare
  try dsimp only
  repeat' (first
    | with_reducible exact hk | with_reducible assumption | with_reducible apply State.raise_kept
    | with_reducible apply State.wr_kept | with_reducible apply Kept.ite | fail_if_no_progress intros | dsimp only
    | fail_if_no_progress refine Kept.of_mk ?_ rfl rfl rfl rfl rfl)

theorem State.syncState_kept {q : List Instr} {s : State} (digest : Nat) (b : SyncBlock) (hk : Kept q s) :
    Kept q (State.syncState s digest b) := by
  unfold State.syncState
  refine Kept.ite (fun _ => hk) fun _ => ?_
  have h1 : Kept q { s with od := replaceKeys s.od syncKey b.od } :=
    ⟨hk.queue, replaceKeys_wf _ _ hk.canon.od, hk.canon.mem, hk.canon.cells⟩
  generalize { s with od := replaceKeys s.od syncKey b.od } = s1 at h1 ⊢
  have h2 : Kept q { s1 with chans := b.chans, lunes := b.lunes, loops := b.loops } := Kept.of_mk h1 rfl rfl rfl rfl rfl
  have h3 : Kept q { ({ s1 with chans := b.chans, lunes := b.lunes, loops := b.loops } : State) with
      reps := b.reps, trig := b.trig, axes := b.axes } := Kept.of_mk h2 rfl rfl rfl rfl rfl
  exact Kept.ite (fun _ => State.syncCompare_kept _ h3) fun _ => Kept.of_mk h3 rfl rfl rfl rfl rfl

theorem State.syncWait_kept {q : List Instr} {s : State} (hk : Kept q s) :
    Kept q (State.syncWait s) := by
  unfold State.syncWait
  try dsimp only
  repeat' (first
    | with_reducible exact hk | with_reducible assumption | with_reducible apply State.syncCompare_kept
    | with_reducible apply Kept.ite | fail_if_no_progress intros | dsimp only
    | fail_if_no_progress refine Kept.of_mk ?_ rfl rfl rfl rfl rfl | split)

theorem State.syncDone_kept {q : List Instr} {s : State} (hk : Kept q s) :
    Kept q (State.syncDone s) := by
  unfold State.syncDone
  try dsimp only
  repeat' (first
    | with_reducible exact hk | with_reducible assumption | with_reducible apply State.enterStandby_kept
    | with_reducible apply State.raise_kept | with_reducible apply Kept.ite | fail_if_no_progress intros)

theorem State.twinClose_kept {q : List Instr} {s : State} (idle : Bool) (hk : Kept q s) :
    Kept q (State.twinClose s idle) := by
  unfold State.twinClose
  try dsimp only
  repeat' (first
    | with_reducible exact hk | with_reducible assumption | with_reducible apply State.raise_kept
    | with_reducible apply State.sendPartner_kept | with_reducible apply State.wr_kept | with_reducible apply Kept.ite
    | fail_if_no_progress intros | dsimp only | fail_if_no_progress refine Kept.of_mk ?_ rfl rfl rfl rfl rfl)

theorem State.handoverEffect_kept {q : List Instr} {s : State} (hk : Kept q s) :
    Kept q (State.handoverEffect s) := by
  unfold State.handoverEffect
  try dsimp only
  repeat' (first
    | with_reducible exact hk | with_reducible assumption | with_reducible apply State.enterActive_kept
    | with_reducible apply State.enterStandby_kept | with_reducible apply Kept.ite | fail_if_no_progress intros | dsimp only
    | fail_if_no_progress refine Kept.of_mk ?_ rfl rfl rfl rfl rfl | split)

theorem State.digestTimeout_kept {q : List Instr} {s : State} (l : Nat) (hk : Kept q s) :
    Kept q (State.digestTimeout s l) := by
  unfold State.digestTimeout
  try dsimp only
  repeat' (first
    | with_reducible exact hk | with_reducible assumption | with_reducible apply State.setLane_kept
    | with_reducible apply State.wr_kept | with_reducible apply Kept.ite | fail_if_no_progress intros | dsimp only
    | fail_if_no_progress refine Kept.of_mk ?_ rfl rfl rfl rfl rfl | split)

theorem State.askDigests_kept {q : List Instr} {s : State} (hk : Kept q s) :
    Kept q (State.askDigests s) := by
  unfold State.askDigests
  try dsimp only
  repeat' (first
    | with_reducible exact hk | with_reducible assumption | with_reducible apply State.queueMsg_kept
    | with_reducible apply State.setLane_kept | with_reducible apply Kept.foldl | with_reducible apply Kept.ite
    | fail_if_no_progress intros)

theorem digestHoldReleaseEff_kept {q : List Instr} {s : State} (x_v : Nat) (hk : Kept q s) :
    Kept q (digestHoldReleaseEff x_v s).2 := by
  unfold digestHoldReleaseEff
  try dsimp only
  repeat' (first
    | with_reducible exact hk | with_reducible assumption | with_reducible apply State.setDigestHold_kept
    | with_reducible apply Kept.ite | with_reducible apply Kept.ite2)

theorem execPartnerFailed_kept {q : List Instr} {s : State} (hk : Kept q s) :
    KeptOut q (execPartnerFailed s) := by
  unfold execPartnerFailed
  try dsimp only
  repeat' (first
    | with_reducible assumption | with_reducible apply live_kept hk | with_reducible apply State.partnerFailed_kept
    | with_reducible apply Kept.ite | with_reducible apply Kept.ite2 | fail_if_no_progress intros | dsimp only
    | fail_if_no_progress refine Kept.of_mk ?_ rfl rfl rfl rfl rfl | split)

theorem execTakeover_kept {q : List Instr} {s : State} (hk : Kept q s) :
    KeptOut q (execTakeover s) := by
  unfold execTakeover
  try dsimp only
  repeat' (first
    | with_reducible assumption | with_reducible apply live_kept hk | with_reducible apply State.enterActive_kept
    | with_reducible apply State.inc_kept | with_reducible apply Kept.ite | with_reducible apply Kept.ite2
    | fail_if_no_progress intros | dsimp only | fail_if_no_progress refine Kept.of_mk ?_ rfl rfl rfl rfl rfl | split)

theorem execHeartbeatSend_kept {q : List Instr} {s : State} (hk : Kept q s) :
    KeptOut q (execHeartbeatSend s) := by
  unfold execHeartbeatSend
  try dsimp only
  repeat' (first | with_reducible assumption | with_reducible apply live_kept hk | with_reducible apply State.heartbeatSend_kept)

theorem execHeartbeat_kept {q : List Instr} {s : State} (p : PMsg) (h : Beat) (hk : Kept q s) :
    KeptOut q (execHeartbeat p h s) := by
  unfold execHeartbeat
  try dsimp only
  repeat' (first
    | with_reducible assumption | with_reducible apply live_kept hk | with_reducible apply State.heartbeat_kept
    | with_reducible apply State.partnerIn_kept | with_reducible apply Kept.ite | with_reducible apply Kept.ite2
    | fail_if_no_progress intros)

theorem execTwinActivate_kept {q : List Instr} {s : State} (m : Msg) (hk : Kept q s) :
    KeptOut q (execTwinActivate m s) := by
  unfold execTwinActivate
  try dsimp only
  repeat' (first
    | with_reducible assumption | with_reducible apply writeCmd_kept hk | with_reducible apply twinCommandEff_kept
    | with_reducible apply Kept.ite | with_reducible apply Kept.ite2 | fail_if_no_progress intros)

theorem execTwinDetach_kept {q : List Instr} {s : State} (m : Msg) (hk : Kept q s) :
    KeptOut q (execTwinDetach m s) := by
  unfold execTwinDetach
  try dsimp only
  repeat' (first
    | with_reducible assumption | with_reducible apply writeCmd_kept hk | with_reducible apply twinCommandEff_kept
    | with_reducible apply Kept.ite | with_reducible apply Kept.ite2 | fail_if_no_progress intros)

theorem execTwinJoin_kept {q : List Instr} {s : State} (m : Msg) (hk : Kept q s) :
    KeptOut q (execTwinJoin m s) := by
  unfold execTwinJoin
  try dsimp only
  repeat' (first
    | with_reducible assumption | with_reducible apply writeCmd_kept hk | with_reducible apply twinCommandEff_kept
    | with_reducible apply Kept.ite | with_reducible apply Kept.ite2 | fail_if_no_progress intros)

theorem execTwinStartTimeout_kept {q : List Instr} {s : State} (hk : Kept q s) :
    KeptOut q (execTwinStartTimeout s) := by
  unfold execTwinStartTimeout
  try dsimp only
  repeat' (first | with_reducible assumption | with_reducible apply live_kept hk | with_reducible apply State.twinStartTimeout_kept)

theorem execSampleCheck_kept {q : List Instr} {s : State} (p : PMsg) (sample crc : BitVec 32) (hk : Kept q s) :
    KeptOut q (execSampleCheck p sample crc s) := by
  unfold execSampleCheck
  try dsimp only
  repeat' (first
    | with_reducible assumption | with_reducible apply live_kept hk | with_reducible apply State.loseStep_kept
    | with_reducible apply State.partnerIn_kept | with_reducible apply Kept.ite | with_reducible apply Kept.ite2
    | fail_if_no_progress intros | dsimp only | fail_if_no_progress refine Kept.of_mk ?_ rfl rfl rfl rfl rfl | split)

theorem execStale_kept {q : List Instr} {s : State} (p : PMsg) (role : BitVec 8) (x_rejected : BitVec 16) (hk : Kept q s) :
    KeptOut q (execStale p role x_rejected s) := by
  unfold execStale
  try dsimp only
  repeat' (first
    | with_reducible assumption | with_reducible apply live_kept hk | with_reducible apply State.enterSyncing_kept
    | with_reducible apply State.partnerIn_kept | with_reducible apply State.setEpoch_kept | with_reducible apply Kept.ite
    | with_reducible apply Kept.ite2 | fail_if_no_progress intros)

theorem execHostCommand_kept {q0 : List Instr} {s : State} (p : PMsg) (q : BitVec 32) (effect : BitVec 64) (c : Mirrored) (hk : Kept q0 s) :
    KeptOut q0 (execHostCommand p q effect c s) := by
  unfold execHostCommand
  try dsimp only
  repeat' (first
    | with_reducible assumption | with_reducible apply live_kept hk | with_reducible apply State.addMirror_kept
    | with_reducible apply State.mirrorIn_kept | with_reducible apply State.partnerIn_kept | with_reducible apply State.wr_kept
    | with_reducible apply Kept.ite | with_reducible apply Kept.ite2 | fail_if_no_progress intros)

theorem execMap_kept {q0 : List Instr} {s : State} (p : PMsg) (q : BitVec 32) (effect : BitVec 64) (tc : Fin 192) (unmap : Bool) (request : BitVec 128) (hk : Kept q0 s) :
    KeptOut q0 (execMap p q effect tc unmap request s) := by
  unfold execMap
  try dsimp only
  repeat' (first
    | with_reducible assumption | with_reducible apply live_kept hk | with_reducible apply State.addMirror_kept
    | with_reducible apply State.mirrorIn_kept | with_reducible apply State.partnerIn_kept | with_reducible apply Kept.ite
    | with_reducible apply Kept.ite2 | fail_if_no_progress intros)

theorem execMemoryWrite_kept {q0 : List Instr} {s : State} (p : PMsg) (q : BitVec 32) (tc : Fin 192) (addr : BitVec 64) (data : List Byte) (hk : Kept q0 s) :
    KeptOut q0 (execMemoryWrite p q tc addr data s) := by
  unfold execMemoryWrite
  try dsimp only
  repeat' (first
    | with_reducible assumption | with_reducible apply live_kept hk | with_reducible apply State.mirrorIn_kept
    | with_reducible apply State.partnerIn_kept | with_reducible apply State.sendWrite_kept
    | with_reducible apply State.takeSlot_kept | with_reducible apply Kept.ite | with_reducible apply Kept.ite2
    | fail_if_no_progress intros)

theorem execDecision_kept {q0 : List Instr} {s : State} (p : PMsg) (q : BitVec 32) (decided : BitVec 64) (l : List Decided) (hk : Kept q0 s) :
    KeptOut q0 (execDecision p q decided l s) := by
  unfold execDecision
  try dsimp only
  repeat' (first
    | with_reducible assumption | with_reducible apply live_kept hk | with_reducible apply State.mirrorIn_kept
    | with_reducible apply State.partnerIn_kept | with_reducible apply State.takeDecision_kept | with_reducible apply Kept.ite
    | with_reducible apply Kept.ite2 | fail_if_no_progress intros)

theorem execLatticeDelta_kept {q0 : List Instr} {s : State} (p : PMsg) (q : BitVec 32) (apply : BitVec 64) (cells : List (BitVec 32 × BitVec 128)) (hk : Kept q0 s) :
    KeptOut q0 (execLatticeDelta p q apply cells s) := by
  unfold execLatticeDelta
  try dsimp only
  repeat' (first
    | with_reducible assumption | with_reducible apply live_kept hk | with_reducible apply State.mirrorIn_kept
    | with_reducible apply State.partnerIn_kept | with_reducible apply State.setCell_kept | with_reducible apply Kept.foldl
    | with_reducible apply Kept.ite | with_reducible apply Kept.ite2 | fail_if_no_progress intros | dsimp only
    | fail_if_no_progress refine Kept.of_mk ?_ rfl rfl rfl rfl rfl)

theorem execLoopState_kept {q0 : List Instr} {s : State} (p : PMsg) (q : BitVec 32) (x_sample : BitVec 64) (l : List LoopImage) (hk : Kept q0 s) :
    KeptOut q0 (execLoopState p q x_sample l s) := by
  unfold execLoopState
  try dsimp only
  repeat' (first
    | with_reducible assumption | with_reducible apply live_kept hk | with_reducible apply State.mirrorIn_kept
    | with_reducible apply State.partnerIn_kept | with_reducible apply State.takeLoop_kept | with_reducible apply Kept.foldl
    | with_reducible apply Kept.ite | with_reducible apply Kept.ite2 | fail_if_no_progress intros)

theorem execSyncPage_kept {q : List Instr} {s : State} (p : PMsg) (i : SyncItem) (hk : Kept q s) :
    KeptOut q (execSyncPage p i s) := by
  unfold execSyncPage
  try dsimp only
  repeat' (first
    | with_reducible assumption | with_reducible apply live_kept hk | with_reducible apply State.partnerIn_kept
    | with_reducible apply State.takeSync_kept | with_reducible apply Kept.ite | with_reducible apply Kept.ite2
    | fail_if_no_progress intros)

theorem execSyncCopyDone_kept {q : List Instr} {s : State} (hk : Kept q s) :
    KeptOut q (execSyncCopyDone s) := by
  unfold execSyncCopyDone
  try dsimp only
  repeat' (first | with_reducible assumption | with_reducible apply live_kept hk | with_reducible apply State.syncCopyDone_kept)

theorem execSyncState_kept {q : List Instr} {s : State} (p : PMsg) (digest : BitVec 64) (b : SyncBlock) (hk : Kept q s) :
    KeptOut q (execSyncState p digest b s) := by
  unfold execSyncState
  try dsimp only
  repeat' (first
    | with_reducible assumption | with_reducible apply live_kept hk | with_reducible apply State.partnerIn_kept
    | with_reducible apply State.syncState_kept | with_reducible apply Kept.ite | with_reducible apply Kept.ite2
    | fail_if_no_progress intros)

theorem execPartnerDigest_kept {q : List Instr} {s : State} (p : PMsg) (digest view : BitVec 64) (nodes : List (BitVec 8)) (hk : Kept q s) :
    KeptOut q (execPartnerDigest p digest view nodes s) := by
  unfold execPartnerDigest
  try dsimp only
  repeat' (first
    | with_reducible assumption | with_reducible apply live_kept hk | with_reducible apply State.compareFleet_kept
    | with_reducible apply State.nodeSeen_kept | with_reducible apply State.ownDigest_kept
    | with_reducible apply State.partnerIn_kept | with_reducible apply State.wr_kept | with_reducible apply Kept.ite
    | with_reducible apply Kept.ite2 | fail_if_no_progress intros | dsimp only
    | fail_if_no_progress refine Kept.of_mk ?_ rfl rfl rfl rfl rfl)

theorem execHandover_kept {q : List Instr} {s : State} (p : PMsg) (effect : BitVec 64) (hk : Kept q s) :
    KeptOut q (execHandover p effect s) := by
  unfold execHandover
  try dsimp only
  repeat' (first
    | with_reducible assumption | with_reducible apply live_kept hk | with_reducible apply State.partnerIn_kept
    | with_reducible apply Kept.ite | with_reducible apply Kept.ite2 | fail_if_no_progress intros | dsimp only
    | fail_if_no_progress refine Kept.of_mk ?_ rfl rfl rfl rfl rfl)

theorem execHandoverEffect_kept {q : List Instr} {s : State} (hk : Kept q s) :
    KeptOut q (execHandoverEffect s) := by
  unfold execHandoverEffect
  try dsimp only
  repeat' (first | with_reducible assumption | with_reducible apply live_kept hk | with_reducible apply State.handoverEffect_kept)

theorem execHold_kept {q : List Instr} {s : State} (p : PMsg) (v : BitVec 8) (hk : Kept q s) :
    KeptOut q (execHold p v s) := by
  unfold execHold
  try dsimp only
  repeat' (first
    | with_reducible assumption | with_reducible apply live_kept hk | with_reducible apply State.partnerIn_kept
    | with_reducible apply State.wr_kept | with_reducible apply Kept.ite | with_reducible apply Kept.ite2
    | fail_if_no_progress intros)

theorem execDigestRequestTimeout_kept {q : List Instr} {s : State} (l : Fin 36) (hk : Kept q s) :
    KeptOut q (execDigestRequestTimeout l s) := by
  unfold execDigestRequestTimeout
  try dsimp only
  repeat' (first
    | with_reducible assumption | with_reducible apply live_kept hk | with_reducible apply State.digestTimeout_kept
    | with_reducible apply Kept.ite | with_reducible apply Kept.ite2 | fail_if_no_progress intros)

theorem execDigestHoldRelease_kept {q : List Instr} {s : State} (m : Msg) (hk : Kept q s) :
    KeptOut q (execDigestHoldRelease m s) := by
  unfold execDigestHoldRelease
  try dsimp only
  repeat' (first
    | with_reducible assumption | with_reducible apply writeCmd_kept hk | with_reducible apply digestHoldReleaseEff_kept
    | with_reducible apply Kept.ite | with_reducible apply Kept.ite2 | fail_if_no_progress intros)

/-! Machine/Cycle.lean -/

theorem State.startParams_kept {q : List Instr} {s : State} (n : Nat) (hk : Kept q s) :
    Kept q (State.startParams s n) := by
  unfold State.startParams
  try dsimp only
  repeat' (first | with_reducible exact hk | with_reducible assumption | with_reducible apply State.wrs_kept)

theorem State.startHalts_kept {q : List Instr} {s : State} (n layer : Nat) (hk : Kept q s) :
    Kept q (State.startHalts s n layer) := by
  unfold State.startHalts
  try dsimp only
  repeat' (first
    | with_reducible exact hk | with_reducible assumption | with_reducible apply State.breakHits_kept
    | with_reducible apply State.holdDebug_kept | with_reducible apply State.setChan_kept | with_reducible apply Kept.ite
    | fail_if_no_progress intros)

theorem State.joinLayer_kept {q : List Instr} {s : State} (n : Nat) (d : Desc) (hk : Kept q s) :
    Kept q (State.joinLayer s n d) := by
  unfold State.joinLayer
  try dsimp only
  repeat' (first
    | with_reducible exact hk | with_reducible assumption | with_reducible apply State.countBeats_kept
    | with_reducible apply State.fetchCheck_kept | with_reducible apply State.setBc_kept | with_reducible apply State.setChan_kept
    | with_reducible apply State.setCursor_kept | with_reducible apply State.setTc_kept | with_reducible apply State.startHalts_kept
    | with_reducible apply State.startParams_kept | with_reducible apply State.wrs_kept | with_reducible apply Kept.ite
    | fail_if_no_progress intros)

theorem State.startChan_kept {q : List Instr} {s : State} (d : Desc) (n : Nat) (hk : Kept q s) :
    Kept q (State.startChan s d n) := by
  unfold State.startChan
  try dsimp only
  repeat' (first
    | with_reducible exact hk | with_reducible assumption | with_reducible apply State.joinLayer_kept
    | with_reducible apply State.raise_kept | with_reducible apply State.setChan_kept | with_reducible apply State.syncLive_kept
    | with_reducible apply State.trimWindow_kept | with_reducible apply State.wrs_kept | with_reducible apply Kept.ite
    | fail_if_no_progress intros)

theorem State.startBlade_kept {q : List Instr} {s : State} (hk : Kept q s) :
    Kept q (State.startBlade s) := by
  unfold State.startBlade
  try dsimp only
  repeat' (first
    | with_reducible exact hk | with_reducible assumption | with_reducible apply State.stallFrom_kept
    | with_reducible apply State.wr_kept | with_reducible apply State.wrS_kept | with_reducible apply Kept.ite
    | fail_if_no_progress intros | dsimp only | fail_if_no_progress refine Kept.of_mk ?_ rfl rfl rfl rfl rfl)

theorem State.startMove_kept {q : List Instr} {s : State} (d : Desc) (hk : Kept q s) :
    Kept q (State.startMove s d) := by
  unfold State.startMove
  try dsimp only
  repeat' (first
    | with_reducible exact hk | with_reducible assumption | with_reducible apply State.putSetpoint_kept
    | with_reducible apply Kept.ite | fail_if_no_progress intros | dsimp only
    | fail_if_no_progress refine Kept.of_mk ?_ rfl rfl rfl rfl rfl)

theorem State.startNumbers_kept {q : List Instr} {s : State} (d : Desc) (hk : Kept q s) :
    Kept q (State.startNumbers s d) := by
  unfold State.startNumbers
  try dsimp only
  repeat' (first
    | with_reducible exact hk | with_reducible assumption | with_reducible apply State.wrs_kept | with_reducible apply Kept.foldl
    | with_reducible apply Kept.ite | fail_if_no_progress intros | dsimp only
    | fail_if_no_progress refine Kept.of_mk ?_ rfl rfl rfl rfl rfl)

theorem State.layerStart_kept {q : List Instr} {s : State} (hk : Kept q s) :
    Kept q (State.layerStart s) := by
  unfold State.layerStart
  try dsimp only
  repeat' (first
    | with_reducible exact hk | with_reducible assumption | with_reducible apply State.setPhase_kept
    | with_reducible apply State.startBlade_kept | with_reducible apply State.startChan_kept
    | with_reducible apply State.startMove_kept | with_reducible apply State.startNumbers_kept
    | with_reducible apply State.syncDone_kept | with_reducible apply Kept.foldl | with_reducible apply Kept.ite
    | fail_if_no_progress intros | dsimp only | fail_if_no_progress refine Kept.of_mk ?_ rfl rfl rfl rfl rfl | split)

theorem State.rearmChan_kept {q : List Instr} {s : State} (n : Nat) (hk : Kept q s) :
    Kept q (State.rearmChan s n) := by
  unfold State.rearmChan
  try dsimp only
  repeat' (first
    | with_reducible exact hk | with_reducible assumption | with_reducible apply State.setBc_kept
    | with_reducible apply State.setChan_kept | with_reducible apply State.wr_kept | with_reducible apply Kept.ite
    | fail_if_no_progress intros)

theorem State.closeEnd_kept {q : List Instr} {s : State} (hk : Kept q s) :
    Kept q (State.closeEnd s) := by
  unfold State.closeEnd
  try dsimp only
  repeat' (first
    | with_reducible exact hk | with_reducible assumption | with_reducible apply State.rearmChan_kept
    | with_reducible apply State.setPhase_kept | with_reducible apply Kept.foldl | with_reducible apply Kept.ite
    | fail_if_no_progress intros | dsimp only | fail_if_no_progress refine Kept.of_mk ?_ rfl rfl rfl rfl rfl)

theorem State.closeTo_kept {q : List Instr} {s : State} (k : Nat) (hk : Kept q s) :
    Kept q (State.closeTo s k) := by
  unfold State.closeTo
  try dsimp only
  repeat' (first
    | with_reducible exact hk | with_reducible assumption | with_reducible apply Kept.ite | fail_if_no_progress intros | dsimp only
    | fail_if_no_progress refine Kept.of_mk ?_ rfl rfl rfl rfl rfl)

theorem State.closeSeal_kept {q : List Instr} {s : State} (hk : Kept q s) :
    Kept q (State.closeSeal s) := by
  unfold State.closeSeal
  try dsimp only
  repeat' (first
    | with_reducible exact hk | with_reducible assumption | with_reducible apply State.sealNow_kept | with_reducible apply Kept.ite
    | fail_if_no_progress intros | dsimp only | fail_if_no_progress refine Kept.of_mk ?_ rfl rfl rfl rfl rfl | split)

theorem State.closeGo_kept {q : List Instr} {s : State} (k : Nat) (hk : Kept q s) : Kept q (State.closeGo k s) := by
  induction k generalizing s with
  | zero => exact hk
  | succ k ih =>
    unfold State.closeGo
    split
    · exact Kept.ite (fun _ => State.closeSeal_kept hk) fun _ =>
        ih (State.closeTo_kept _ (Kept.of_mk (State.closeSeal_kept hk) rfl rfl rfl rfl rfl))
    · exact ih (State.closeTo_kept _ (State.installStep_kept hk))
    · exact Kept.ite (fun _ => hk) fun _ => ih (State.closeTo_kept _ (State.askDigests_kept (State.driveNodes_kept hk)))
    · exact Kept.ite (fun _ => hk) fun _ =>
        ih (State.closeTo_kept _ (State.compareFleet_kept _ (State.sendDigest_kept (State.ownDigest_kept hk))))
    · exact ih (State.closeTo_kept _ (Kept.ite (fun _ => hk) fun _ => State.twinClose_kept _ hk))
    · exact Kept.ite (fun _ => hk) fun _ => State.closeEnd_kept hk
    · exact hk

theorem State.layerClosePhase_kept {q : List Instr} {s : State} (hk : Kept q s) :
    Kept q (State.layerClosePhase s) := by
  unfold State.layerClosePhase
  try dsimp only
  repeat' (first
    | with_reducible exact hk | with_reducible assumption | with_reducible apply State.closeGo_kept
    | with_reducible apply State.setPhase_kept | with_reducible apply Kept.ite | fail_if_no_progress intros | dsimp only
    | fail_if_no_progress refine Kept.of_mk ?_ rfl rfl rfl rfl rfl)

theorem State.idleCloseRun_kept {q : List Instr} {s : State} (hk : Kept q s) :
    Kept q (State.idleCloseRun s) := by
  unfold State.idleCloseRun
  try dsimp only
  repeat' (first
    | with_reducible exact hk | with_reducible assumption | with_reducible apply State.closeGo_kept
    | with_reducible apply State.setPhase_kept | with_reducible apply Kept.ite | fail_if_no_progress intros | dsimp only
    | fail_if_no_progress refine Kept.of_mk ?_ rfl rfl rfl rfl rfl | split)

theorem execLayerStart_kept {q : List Instr} {s : State} (hk : Kept q s) :
    KeptOut q (execLayerStart s) := by
  unfold execLayerStart
  try dsimp only
  repeat' (first | with_reducible assumption | with_reducible apply live_kept hk | with_reducible apply State.layerStart_kept)

theorem execLayerClosePhase_kept {q : List Instr} {s : State} (hk : Kept q s) :
    KeptOut q (execLayerClosePhase s) := by
  unfold execLayerClosePhase
  try dsimp only
  repeat' (first | with_reducible assumption | with_reducible apply live_kept hk | with_reducible apply State.layerClosePhase_kept)

theorem execIdleClose_kept {q : List Instr} {s : State} (hk : Kept q s) :
    KeptOut q (execIdleClose s) := by
  unfold execIdleClose
  try dsimp only
  repeat' (first | with_reducible assumption | with_reducible apply live_kept hk | with_reducible apply State.idleCloseRun_kept)

/-! Machine/Streams.lean -/

theorem State.setStream_kept {q : List Instr} {s : State} (e : Nat) (x : Stream) (hk : Kept q s) :
    Kept q (State.setStream s e x) := by
  unfold State.setStream
  try dsimp only
  repeat' (first
    | with_reducible exact hk | with_reducible assumption | with_reducible apply Kept.ite | fail_if_no_progress intros | dsimp only
    | fail_if_no_progress refine Kept.of_mk ?_ rfl rfl rfl rfl rfl)

theorem State.streamAck_kept {q : List Instr} {s : State} (e : Nat) (hk : Kept q s) :
    Kept q (State.streamAck s e) := by
  unfold State.streamAck
  try dsimp only
  repeat' (first
    | with_reducible exact hk | with_reducible assumption | with_reducible apply State.sendPort_kept
    | with_reducible apply State.setStream_kept | with_reducible apply Kept.ite | fail_if_no_progress intros)

theorem State.endStream_kept {q : List Instr} {s : State} (e st cause : Nat) (hk : Kept q s) :
    Kept q (State.endStream s e st cause) := by
  unfold State.endStream
  try dsimp only
  repeat' (first
    | with_reducible exact hk | with_reducible assumption | with_reducible apply State.raise_kept
    | with_reducible apply State.wrs_kept | with_reducible apply Kept.ite | fail_if_no_progress intros)

theorem State.advanceMark_kept {q : List Instr} {s : State} (e : Nat) (hk : Kept q s) :
    Kept q (State.advanceMark s e) := by
  unfold State.advanceMark
  try dsimp only
  repeat' (first
    | with_reducible exact hk | with_reducible assumption | with_reducible apply State.setStream_kept
    | with_reducible apply State.streamAck_kept | with_reducible apply State.wr_kept | with_reducible apply Kept.ite
    | fail_if_no_progress intros)

theorem State.streamEnd_kept {q : List Instr} {s : State} (e : Nat) (hk : Kept q s) :
    Kept q (State.streamEnd s e) := by
  unfold State.streamEnd
  try dsimp only
  repeat' (first
    | with_reducible exact hk | with_reducible assumption | with_reducible apply State.endStream_kept
    | with_reducible apply State.streamAck_kept | with_reducible apply Kept.ite | fail_if_no_progress intros)

theorem State.streamBeat_kept {q : List Instr} {s : State} (tc e addr : Nat) (now : List Byte) (hk : Kept q s) :
    Kept q (State.streamBeat s tc e addr now) := by
  unfold State.streamBeat
  try dsimp only
  repeat' (first
    | with_reducible exact hk | with_reducible assumption | with_reducible apply State.advanceMark_kept
    | with_reducible apply State.countBeats_kept | with_reducible apply State.endStream_kept
    | with_reducible apply State.lockEvent_kept | with_reducible apply State.setStream_kept
    | with_reducible apply State.streamAck_kept | with_reducible apply State.writeMem_kept | with_reducible apply Kept.ite
    | fail_if_no_progress intros | dsimp only | fail_if_no_progress refine Kept.of_mk ?_ rfl rfl rfl rfl rfl | split)

theorem streamBeats_kept {q : List Instr} {s : State} (tc e : Nat) (n addr : Nat) (data : List Byte) (hk : Kept q s) :
    Kept q (streamBeats tc e n addr data s) := by
  induction n generalizing s addr data with
  | zero => exact hk
  | succ n ih =>
    unfold streamBeats
    refine Kept.ite (fun _ => hk) fun _ => ?_
    split
    · exact State.park_kept _ _ _ _ (State.parkJob_kept _ _ hk)
    · exact ih _ _ (State.streamBeat_kept _ _ _ _ hk)

theorem State.jobOn_kept {q : List Instr} {s : State} (tc : Nat) (rest : List Byte) (j : Job) (hk : Kept q s) :
    Kept q (State.jobOn s tc rest j) := by
  unfold State.jobOn
  try dsimp only
  repeat' (first
    | with_reducible exact hk | with_reducible assumption | with_reducible apply State.nextJob_kept
    | with_reducible apply State.setTc_kept | with_reducible apply Kept.ite | fail_if_no_progress intros)

theorem State.jobBeat_kept {q : List Instr} {s : State} (tc : Nat) (hk : Kept q s) :
    Kept q (State.jobBeat s tc) := by
  unfold State.jobBeat
  try dsimp only
  repeat' (first
    | with_reducible exact hk | with_reducible assumption | with_reducible apply State.countBeats_kept
    | with_reducible apply State.jobOn_kept | with_reducible apply State.lockEvent_kept | with_reducible apply State.nextJob_kept
    | with_reducible apply State.park_kept | with_reducible apply State.streamBeat_kept | with_reducible apply State.streamEnd_kept
    | with_reducible apply State.writeMem_kept | with_reducible apply Kept.ite | fail_if_no_progress intros | dsimp only
    | fail_if_no_progress refine Kept.of_mk ?_ rfl rfl rfl rfl rfl | split)

theorem State.dmaBeat_kept {q : List Instr} {s : State} (waiting : List (Fin 192)) (hk : Kept q s) :
    Kept q (State.dmaBeat s waiting) := by
  unfold State.dmaBeat
  try dsimp only
  repeat' (first
    | with_reducible exact hk | with_reducible assumption | with_reducible apply State.countBeats_kept
    | with_reducible apply State.jobBeat_kept | with_reducible apply State.resumeDue_kept | with_reducible apply Kept.ite
    | fail_if_no_progress intros | dsimp only | fail_if_no_progress refine Kept.of_mk ?_ rfl rfl rfl rfl rfl | split)

theorem State.abandon_kept {q : List Instr} {s : State} (tc : Nat) (hk : Kept q s) :
    Kept q (State.abandon s tc) := by
  unfold State.abandon
  try dsimp only
  repeat' (first
    | with_reducible exact hk | with_reducible assumption | with_reducible apply Kept.ite | fail_if_no_progress intros | dsimp only
    | fail_if_no_progress refine Kept.of_mk ?_ rfl rfl rfl rfl rfl)

theorem tcAbortEff_kept {q : List Instr} {s : State} (tc : Nat) (hk : Kept q s) :
    Kept q (tcAbortEff tc s).2 := by
  unfold tcAbortEff
  try dsimp only
  repeat' (first
    | with_reducible exact hk | with_reducible assumption | with_reducible apply State.abandon_kept
    | with_reducible apply State.endStream_kept | with_reducible apply State.idleTc_kept | with_reducible apply State.streamAck_kept
    | with_reducible apply Kept.foldl | with_reducible apply Kept.ite | with_reducible apply Kept.ite2 | fail_if_no_progress intros)

theorem tcResumeWriteEff_kept {q : List Instr} {s : State} (tc v : Nat) (hk : Kept q s) :
    Kept q (tcResumeWriteEff tc v s).2 := by
  unfold tcResumeWriteEff
  try dsimp only
  repeat' (first
    | with_reducible exact hk | with_reducible assumption | with_reducible apply tcAbortEff_kept
    | with_reducible apply tcResumeEff_kept | with_reducible apply Kept.ite | with_reducible apply Kept.ite2)

theorem streamControlEff_kept {q : List Instr} {s : State} (session port e v : Nat) (hk : Kept q s) :
    Kept q (streamControlEff session port e v s).2 := by
  unfold streamControlEff
  try dsimp only
  repeat' (first
    | with_reducible exact hk | with_reducible assumption | with_reducible apply State.endStream_kept
    | with_reducible apply State.nextJob_kept | with_reducible apply State.setStream_kept
    | with_reducible apply State.streamAck_kept | with_reducible apply State.wrs_kept | with_reducible apply Kept.ite
    | with_reducible apply Kept.ite2)

theorem State.dropStream_kept {q : List Instr} {s : State} (e : Nat) (hk : Kept q s) :
    Kept q (State.dropStream s e) := by
  unfold State.dropStream
  try dsimp only
  repeat' (first | with_reducible exact hk | with_reducible assumption | with_reducible apply State.inc_kept)

theorem State.streamFrame_kept {q : List Instr} {s : State} (session port e off : Nat) (data : List Byte) (hk : Kept q s) :
    Kept q (State.streamFrame s session port e off data) := by
  unfold State.streamFrame
  try dsimp only
  repeat' (first
    | with_reducible exact hk | with_reducible assumption | with_reducible apply State.dropStream_kept
    | with_reducible apply State.setStream_kept | with_reducible apply State.streamEnd_kept | with_reducible apply streamBeats_kept
    | with_reducible apply Kept.ite | fail_if_no_progress intros)

theorem State.streamData_kept {q : List Instr} {s : State} (m : Msg) (endpoint off : Nat) (data : List Byte) (hk : Kept q s) :
    Kept q (State.streamData s m endpoint off data) := by
  unfold State.streamData
  try dsimp only
  repeat' (first
    | with_reducible exact hk | with_reducible assumption | with_reducible apply State.dropFrame_kept
    | with_reducible apply State.inc_kept | with_reducible apply State.mirrorMemory_kept
    | with_reducible apply State.streamFrame_kept | with_reducible apply State.updSession_kept | with_reducible apply Kept.ite
    | fail_if_no_progress intros | dsimp only | fail_if_no_progress refine Kept.of_mk ?_ rfl rfl rfl rfl rfl | split)

theorem State.ackTimeout_kept {q : List Instr} {s : State} (e : Nat) (hk : Kept q s) :
    Kept q (State.ackTimeout s e) := by
  unfold State.ackTimeout
  try dsimp only
  repeat' (first
    | with_reducible exact hk | with_reducible assumption | with_reducible apply State.streamAck_kept
    | with_reducible apply Kept.ite | fail_if_no_progress intros | dsimp only
    | fail_if_no_progress refine Kept.of_mk ?_ rfl rfl rfl rfl rfl | split)

theorem execDmaBeat_kept {q : List Instr} {s : State} (waiting : List (Fin 192)) (hk : Kept q s) :
    KeptOut q (execDmaBeat waiting s) := by
  unfold execDmaBeat
  try dsimp only
  repeat' (first
    | with_reducible assumption | with_reducible apply live_kept hk | with_reducible apply State.dmaBeat_kept
    | with_reducible apply Kept.ite | with_reducible apply Kept.ite2 | fail_if_no_progress intros)

theorem execTcResume_kept {q : List Instr} {s : State} (m : Msg) (tc : Fin 192) (hk : Kept q s) :
    KeptOut q (execTcResume m tc s) := by
  unfold execTcResume
  try dsimp only
  repeat' (first
    | with_reducible assumption | with_reducible apply writeCmd_kept hk | with_reducible apply tcResumeWriteEff_kept
    | with_reducible apply Kept.ite | with_reducible apply Kept.ite2 | fail_if_no_progress intros)

theorem execTcAbort_kept {q : List Instr} {s : State} (m : Msg) (tc : Fin 192) (hk : Kept q s) :
    KeptOut q (execTcAbort m tc s) := by
  unfold execTcAbort
  try dsimp only
  repeat' (first
    | with_reducible assumption | with_reducible apply writeCmd_kept hk | with_reducible apply tcResumeWriteEff_kept
    | with_reducible apply Kept.ite | with_reducible apply Kept.ite2 | fail_if_no_progress intros)

theorem execStreamOpen_kept {q : List Instr} {s : State} (m : Msg) (e : Fin 64) (hk : Kept q s) :
    KeptOut q (execStreamOpen m e s) := by
  unfold execStreamOpen
  try dsimp only
  repeat' (first
    | with_reducible assumption | with_reducible apply writeCmd_kept hk | with_reducible apply streamControlEff_kept
    | with_reducible apply Kept.ite | with_reducible apply Kept.ite2 | fail_if_no_progress intros)

theorem execStreamAbort_kept {q : List Instr} {s : State} (m : Msg) (e : Fin 64) (hk : Kept q s) :
    KeptOut q (execStreamAbort m e s) := by
  unfold execStreamAbort
  try dsimp only
  repeat' (first
    | with_reducible assumption | with_reducible apply writeCmd_kept hk | with_reducible apply streamControlEff_kept
    | with_reducible apply Kept.ite | with_reducible apply Kept.ite2 | fail_if_no_progress intros)

theorem execStreamData_kept {q : List Instr} {s : State} (m : Msg) (endpoint : BitVec 8) (offset : BitVec 32) (data : List Byte) (hk : Kept q s) :
    KeptOut q (execStreamData m endpoint offset data s) := by
  unfold execStreamData
  try dsimp only
  repeat' (first
    | with_reducible assumption | with_reducible apply live_kept hk | with_reducible apply State.streamData_kept
    | with_reducible apply Kept.ite | with_reducible apply Kept.ite2 | fail_if_no_progress intros)

theorem execStreamEnd_kept {q : List Instr} {s : State} (e : Fin 64) (hk : Kept q s) :
    KeptOut q (execStreamEnd e s) := by
  unfold execStreamEnd
  try dsimp only
  repeat' (first
    | with_reducible assumption | with_reducible apply live_kept hk | with_reducible apply State.streamEnd_kept
    | with_reducible apply Kept.ite | with_reducible apply Kept.ite2 | fail_if_no_progress intros)

theorem execStreamAckTimeout_kept {q : List Instr} {s : State} (e : Fin 64) (hk : Kept q s) :
    KeptOut q (execStreamAckTimeout e s) := by
  unfold execStreamAckTimeout
  try dsimp only
  repeat' (first
    | with_reducible assumption | with_reducible apply live_kept hk | with_reducible apply State.ackTimeout_kept
    | with_reducible apply Kept.ite | with_reducible apply Kept.ite2 | fail_if_no_progress intros)

/-! Machine/Sessions.lean -/

theorem State.leaveNotices_kept {q : List Instr} {s : State} (num : Nat) (hk : Kept q s) :
    Kept q (State.leaveNotices s num) := by
  unfold State.leaveNotices
  try dsimp only
  repeat' (first | with_reducible exact hk | with_reducible assumption | with_reducible apply State.takeQueue_kept)

theorem State.abortStreams_kept {q : List Instr} {s : State} (num : Nat) (hk : Kept q s) :
    Kept q (State.abortStreams s num) := by
  unfold State.abortStreams
  try dsimp only
  repeat' (first
    | with_reducible exact hk | with_reducible assumption | with_reducible apply State.endStream_kept
    | with_reducible apply Kept.foldl | with_reducible apply Kept.ite | fail_if_no_progress intros)

theorem State.closeSession_kept {q : List Instr} {s : State} (num cause : Nat) (hk : Kept q s) :
    Kept q (State.closeSession s num cause) := by
  unfold State.closeSession
  try dsimp only
  repeat' (first
    | with_reducible exact hk | with_reducible assumption | with_reducible apply State.abortStreams_kept
    | with_reducible apply State.leaveNotices_kept | with_reducible apply State.raise_kept | with_reducible apply State.wr_kept
    | with_reducible apply Kept.ite | fail_if_no_progress intros | dsimp only
    | fail_if_no_progress refine Kept.of_mk ?_ rfl rfl rfl rfl rfl)

theorem State.openNew_kept {q : List Instr} {s : State} (port seq hostId credit : Nat) (hk : Kept q s) :
    Kept q (State.openNew s port seq hostId credit) := by
  unfold State.openNew
  try dsimp only
  repeat' (first
    | with_reducible exact hk | with_reducible assumption | with_reducible apply State.draw_kept
    | with_reducible apply State.raise_kept | with_reducible apply State.sendPort_kept | with_reducible apply State.wr_kept
    | with_reducible apply Kept.ite | fail_if_no_progress intros | dsimp only
    | fail_if_no_progress refine Kept.of_mk ?_ rfl rfl rfl rfl rfl)

theorem State.openMsg_kept {q : List Instr} {s : State} (m : Msg) (hostId credit : Nat) (hk : Kept q s) :
    Kept q (State.openMsg s m hostId credit) := by
  unfold State.openMsg
  try dsimp only
  repeat' (first
    | with_reducible exact hk | with_reducible assumption | with_reducible apply State.closeSession_kept
    | with_reducible apply State.dropFrame_kept | with_reducible apply State.inc_kept | with_reducible apply State.malformed_kept
    | with_reducible apply State.openNew_kept | with_reducible apply State.sendPort_kept | with_reducible apply Kept.ite
    | fail_if_no_progress intros | dsimp only | fail_if_no_progress refine Kept.of_mk ?_ rfl rfl rfl rfl rfl | split)

theorem State.noticeAck_kept {q : List Instr} {s : State} (m : Msg) (ack credit : Nat) (hk : Kept q s) :
    Kept q (State.noticeAck s m ack credit) := by
  unfold State.noticeAck
  try dsimp only
  repeat' (first
    | with_reducible exact hk | with_reducible assumption | with_reducible apply State.dropFrame_kept
    | with_reducible apply State.freeNotices_kept | with_reducible apply State.inc_kept | with_reducible apply State.pump_kept
    | with_reducible apply State.updSession_kept | with_reducible apply Kept.ite | fail_if_no_progress intros | dsimp only
    | fail_if_no_progress refine Kept.of_mk ?_ rfl rfl rfl rfl rfl | split)

theorem State.noticeResend_kept {q : List Instr} {s : State} (num number : Nat) (hk : Kept q s) :
    Kept q (State.noticeResend s num number) := by
  unfold State.noticeResend
  try dsimp only
  repeat' (first
    | with_reducible exact hk | with_reducible assumption | with_reducible apply State.sendNotice_kept
    | with_reducible apply Kept.ite | fail_if_no_progress intros | dsimp only
    | fail_if_no_progress refine Kept.of_mk ?_ rfl rfl rfl rfl rfl | split)

theorem State.sessionTimeout_kept {q : List Instr} {s : State} (num : Nat) (hk : Kept q s) :
    Kept q (State.sessionTimeout s num) := by
  unfold State.sessionTimeout
  try dsimp only
  repeat' (first
    | with_reducible exact hk | with_reducible assumption | with_reducible apply State.closeSession_kept
    | with_reducible apply Kept.ite | fail_if_no_progress intros | dsimp only
    | fail_if_no_progress refine Kept.of_mk ?_ rfl rfl rfl rfl rfl | split)

theorem State.badKind_kept {q : List Instr} {s : State} (m : Msg) (kind : Nat) (hk : Kept q s) :
    Kept q (State.badKind s m kind) := by
  unfold State.badKind
  try dsimp only
  repeat' (first
    | with_reducible exact hk | with_reducible assumption | with_reducible apply State.dropFrame_kept
    | with_reducible apply State.inc_kept | with_reducible apply State.sendPort_kept | with_reducible apply Kept.ite
    | fail_if_no_progress intros)

theorem execOpen_kept {q : List Instr} {s : State} (m : Msg) (hostId : BitVec 64) (credit : BitVec 16) (hk : Kept q s) :
    KeptOut q (execOpen m hostId credit s) := by
  unfold execOpen
  try dsimp only
  repeat' (first
    | with_reducible assumption | with_reducible apply live_kept hk | with_reducible apply State.openMsg_kept
    | with_reducible apply Kept.ite | with_reducible apply Kept.ite2 | fail_if_no_progress intros)

theorem execClose_kept {q : List Instr} {s : State} (m : Msg) (hk : Kept q s) :
    KeptOut q (execClose m s) := by
  unfold execClose
  try dsimp only
  repeat' (first
    | with_reducible assumption | with_reducible apply live_kept hk | with_reducible apply State.closeSession_kept
    | with_reducible apply hostCmd_kept | with_reducible apply Kept.ite | with_reducible apply Kept.ite2
    | fail_if_no_progress intros)

theorem execPing_kept {q : List Instr} {s : State} (m : Msg) (hk : Kept q s) :
    KeptOut q (execPing m s) := by
  unfold execPing
  try dsimp only
  repeat' (first
    | with_reducible assumption | with_reducible apply live_kept hk | with_reducible apply hostCmd_kept
    | with_reducible apply Kept.ite | with_reducible apply Kept.ite2 | fail_if_no_progress intros)

theorem execNoticeAck_kept {q : List Instr} {s : State} (m : Msg) (ackSeq : BitVec 32) (credit : BitVec 16) (hk : Kept q s) :
    KeptOut q (execNoticeAck m ackSeq credit s) := by
  unfold execNoticeAck
  try dsimp only
  repeat' (first
    | with_reducible assumption | with_reducible apply live_kept hk | with_reducible apply State.noticeAck_kept
    | with_reducible apply Kept.ite | with_reducible apply Kept.ite2 | fail_if_no_progress intros)

theorem execNoticeResend_kept {q : List Instr} {s : State} (session : BitVec 16) (number : BitVec 32) (hk : Kept q s) :
    KeptOut q (execNoticeResend session number s) := by
  unfold execNoticeResend
  try dsimp only
  repeat' (first
    | with_reducible assumption | with_reducible apply live_kept hk | with_reducible apply State.noticeResend_kept
    | with_reducible apply Kept.ite | with_reducible apply Kept.ite2 | fail_if_no_progress intros)

theorem execSessionTimeout_kept {q : List Instr} {s : State} (session : BitVec 16) (hk : Kept q s) :
    KeptOut q (execSessionTimeout session s) := by
  unfold execSessionTimeout
  try dsimp only
  repeat' (first
    | with_reducible assumption | with_reducible apply live_kept hk | with_reducible apply State.sessionTimeout_kept
    | with_reducible apply Kept.ite | with_reducible apply Kept.ite2 | fail_if_no_progress intros)

theorem execBadKind_kept {q : List Instr} {s : State} (m : Msg) (kind : BitVec 8) (hk : Kept q s) :
    KeptOut q (execBadKind m kind s) := by
  unfold execBadKind
  try dsimp only
  repeat' (first
    | with_reducible assumption | with_reducible apply live_kept hk | with_reducible apply State.badKind_kept
    | with_reducible apply Kept.ite | with_reducible apply Kept.ite2 | fail_if_no_progress intros)

end Sys2Proof.Machine
end

