-- ==== Sys2Proof/Laws/KeptSupply.lean ====
section
/-! SUPPORT. Every operation and every command of guarded values, interlocks, supply, the tick, entries and the debug port leaves the queue as it is and keeps the tables canonical: one lemma
for each definition, its name with `_kept` after it. -/

namespace Sys2Proof.Machine

/-! Machine/Guard.lean -/

theorem State.freeStaged_kept {q : List Instr} {s : State} (i : Nat) (hk : Kept q s) :
    Kept q (State.freeStaged s i) := by
  unfold State.freeStaged
  try dsimp only
  repeat' (first
    | with_reducible exact hk | with_reducible assumption | with_reducible apply State.wr_kept | with_reducible apply Kept.ite
    | fail_if_no_progress intros | dsimp only | fail_if_no_progress refine Kept.of_mk ?_ rfl rfl rfl rfl rfl)

theorem State.supersede_kept {q : List Instr} {s : State} (e : Nat × Staged) (hk : Kept q s) :
    Kept q (State.supersede s e) := by
  unfold State.supersede
  try dsimp only
  repeat' (first
    | with_reducible exact hk | with_reducible assumption | with_reducible apply State.freeStaged_kept
    | with_reducible apply State.raise_kept)

theorem State.applyStage_kept {q : List Instr} {s : State} (remote : Bool) (key party proposal session : Nat) (value : List Byte) (hk : Kept q s) :
    Kept q (State.applyStage s remote key party proposal session value).2 := by
  unfold State.applyStage
  try dsimp only
  repeat' (first
    | with_reducible exact hk | with_reducible assumption | with_reducible apply State.raise_kept
    | with_reducible apply State.supersede_kept | with_reducible apply State.wrs_kept | with_reducible apply Kept.ite
    | with_reducible apply Kept.ite2 | fail_if_no_progress intros | dsimp only
    | fail_if_no_progress refine Kept.of_mk ?_ rfl rfl rfl rfl rfl | split)

theorem State.showKeys_kept {q : List Instr} {s : State} (hk : Kept q s) :
    Kept q (State.showKeys s) := by
  unfold State.showKeys
  try dsimp only
  repeat' (first | with_reducible exact hk | with_reducible assumption | with_reducible apply State.wr_kept)

theorem State.sectorEff_kept {q : List Instr} {s : State} (n : Nat) (hk : Kept q s) :
    Kept q (State.sectorEff s n) := by
  unfold State.sectorEff
  try dsimp only
  repeat' (first | with_reducible exact hk | with_reducible assumption | with_reducible apply State.wrs_kept)

theorem State.guardEffect_kept {q : List Instr} {s : State} (key old : Nat) (hk : Kept q s) :
    Kept q (State.guardEffect s key old) := by
  unfold State.guardEffect
  try dsimp only
  repeat' (first
    | with_reducible exact hk | with_reducible assumption | with_reducible apply State.debugUnlock_kept
    | with_reducible apply State.installDue_kept | with_reducible apply State.policyChanged_kept
    | with_reducible apply State.sectorEff_kept | with_reducible apply State.showKeys_kept
    | with_reducible apply State.supersede_kept | with_reducible apply State.withdraw_kept | with_reducible apply State.wr_kept
    | with_reducible apply Kept.foldl | with_reducible apply Kept.ite | fail_if_no_progress intros)

theorem State.concurEffect_kept {q : List Instr} {s : State} (e : Nat × Staged) (party : Nat) (hk : Kept q s) :
    Kept q (State.concurEffect s e party) := by
  unfold State.concurEffect
  try dsimp only
  repeat' (first
    | with_reducible exact hk | with_reducible assumption | with_reducible apply State.forceStore_kept
    | with_reducible apply State.freeStaged_kept | with_reducible apply State.guardEffect_kept
    | with_reducible apply State.noteKeep_kept | with_reducible apply State.raise_kept | with_reducible apply State.wr_kept
    | with_reducible apply Kept.ite | fail_if_no_progress intros)

theorem State.applyConcur_kept {q : List Instr} {s : State} (remote : Bool) (key party proposal : Nat) (value : List Byte) (hk : Kept q s) :
    Kept q (State.applyConcur s remote key party proposal value).2 := by
  unfold State.applyConcur
  try dsimp only
  repeat' (first
    | with_reducible exact hk | with_reducible assumption | with_reducible apply State.concurEffect_kept
    | with_reducible apply Kept.ite | with_reducible apply Kept.ite2 | fail_if_no_progress intros | dsimp only
    | fail_if_no_progress refine Kept.of_mk ?_ rfl rfl rfl rfl rfl | split)

theorem State.authFailed_kept {q : List Instr} {s : State} (session party : Nat) (hk : Kept q s) :
    Kept q (State.authFailed s session party) := by
  unfold State.authFailed
  try dsimp only
  repeat' (first | with_reducible exact hk | with_reducible assumption | with_reducible apply State.raise_kept)

theorem guardCmd_kept {q : List Instr} {s : State} (m : Msg) (kind index sub party proposal : Nat) (value auth : List Byte) (hk : Kept q s) :
    Kept q (guardCmd m kind index sub party proposal value auth s) := by
  unfold guardCmd
  try dsimp only
  repeat' (first
    | with_reducible exact hk | with_reducible assumption | with_reducible apply State.applyConcur_kept
    | with_reducible apply State.applyStage_kept | with_reducible apply State.authFailed_kept
    | with_reducible apply State.defer_kept | with_reducible apply hostCmd_kept | with_reducible apply Kept.ite
    | fail_if_no_progress intros | dsimp only | fail_if_no_progress refine Kept.of_mk ?_ rfl rfl rfl rfl rfl | split)

theorem State.guardExpired_kept {q : List Instr} {s : State} (i : Nat) (hk : Kept q s) :
    Kept q (State.guardExpired s i) := by
  unfold State.guardExpired
  try dsimp only
  repeat' (first
    | with_reducible exact hk | with_reducible assumption | with_reducible apply State.freeStaged_kept
    | with_reducible apply State.raise_kept | with_reducible apply Kept.ite | fail_if_no_progress intros | dsimp only
    | fail_if_no_progress refine Kept.of_mk ?_ rfl rfl rfl rfl rfl | split)

theorem execStage_kept {q : List Instr} {s : State} (m : Msg) (index : BitVec 16) (sub party : BitVec 8) (proposal : BitVec 32) (value auth : List Byte) (hk : Kept q s) :
    KeptOut q (execStage m index sub party proposal value auth s) := by
  unfold execStage
  try dsimp only
  repeat' (first
    | with_reducible assumption | with_reducible apply live_kept hk | with_reducible apply guardCmd_kept
    | with_reducible apply Kept.ite | with_reducible apply Kept.ite2 | fail_if_no_progress intros)

theorem execConcur_kept {q : List Instr} {s : State} (m : Msg) (index : BitVec 16) (sub party : BitVec 8) (proposal : BitVec 32) (value auth : List Byte) (hk : Kept q s) :
    KeptOut q (execConcur m index sub party proposal value auth s) := by
  unfold execConcur
  try dsimp only
  repeat' (first
    | with_reducible assumption | with_reducible apply live_kept hk | with_reducible apply guardCmd_kept
    | with_reducible apply Kept.ite | with_reducible apply Kept.ite2 | fail_if_no_progress intros)

theorem execGuardExpired_kept {q : List Instr} {s : State} (slot : Fin 8) (hk : Kept q s) :
    KeptOut q (execGuardExpired slot s) := by
  unfold execGuardExpired
  try dsimp only
  repeat' (first
    | with_reducible assumption | with_reducible apply live_kept hk | with_reducible apply State.guardExpired_kept
    | with_reducible apply Kept.ite | with_reducible apply Kept.ite2 | fail_if_no_progress intros)

/-! Machine/Interlock.lean -/

theorem State.setPair_kept {q : List Instr} {s : State} (t p st : Nat) (hk : Kept q s) :
    Kept q (State.setPair s t p st) := by
  unfold State.setPair
  try dsimp only
  repeat' (first
    | with_reducible exact hk | with_reducible assumption | with_reducible apply State.raiseAt_kept
    | with_reducible apply State.withdraw_kept | with_reducible apply State.wrs_kept | with_reducible apply Kept.ite
    | fail_if_no_progress intros)

theorem State.interlockChange_kept {q : List Instr} {s : State} (i : Nat) (closed : Bool) (delay : Nat) (hk : Kept q s) :
    Kept q (State.interlockChange s i closed delay) := by
  unfold State.interlockChange
  try dsimp only
  repeat' (first
    | with_reducible exact hk | with_reducible assumption | with_reducible apply State.setPair_kept
    | with_reducible apply State.wr_kept | with_reducible apply Kept.ite | fail_if_no_progress intros | dsimp only
    | fail_if_no_progress refine Kept.of_mk ?_ rfl rfl rfl rfl rfl)

theorem State.discrepancy_kept {q : List Instr} {s : State} (p : Nat) (hk : Kept q s) :
    Kept q (State.discrepancy s p) := by
  unfold State.discrepancy
  try dsimp only
  repeat' (first
    | with_reducible exact hk | with_reducible assumption | with_reducible apply State.inc_kept
    | with_reducible apply State.setPair_kept | with_reducible apply Kept.ite | fail_if_no_progress intros)

theorem State.readback_kept {q : List Instr} {s : State} (n : Nat) (t c : Bool) (hk : Kept q s) :
    Kept q (State.readback s n t c) := by
  unfold State.readback
  try dsimp only
  repeat' (first
    | with_reducible exact hk | with_reducible assumption | with_reducible apply State.raise_kept
    | with_reducible apply State.withdraw_kept | with_reducible apply State.wr_kept | with_reducible apply Kept.ite
    | fail_if_no_progress intros | dsimp only | fail_if_no_progress refine Kept.of_mk ?_ rfl rfl rfl rfl rfl)

theorem readbackClearEff_kept {q : List Instr} {s : State} (v : Nat) (hk : Kept q s) :
    Kept q (readbackClearEff v s).2 := by
  unfold readbackClearEff
  try dsimp only
  repeat' (first
    | with_reducible exact hk | with_reducible assumption | with_reducible apply State.wr_kept | with_reducible apply Kept.ite
    | with_reducible apply Kept.ite2)

theorem permitRestartEff_kept {q : List Instr} {s : State} (v : Nat) (hk : Kept q s) :
    Kept q (permitRestartEff v s).2 := by
  unfold permitRestartEff
  try dsimp only
  repeat' (first
    | with_reducible exact hk | with_reducible assumption | with_reducible apply State.drivePermits_kept
    | with_reducible apply State.raise_kept | with_reducible apply State.wrs_kept | with_reducible apply Kept.ite
    | with_reducible apply Kept.ite2)

theorem awake_kept {q : List Instr} {s : State} {f : State → State} (hk : Kept q s) (hf : ∀ s, Kept q s → Kept q (f s)) :
    KeptOut q (awake f s) :=
  ⟨_, rfl, Kept.ite (fun _ => hk) fun _ => State.settle_kept (hf s hk)⟩

theorem execInterlockChange_kept {q : List Instr} {s : State} (i : Fin 8) (closed : Bool) (hk : Kept q s) :
    KeptOut q (execInterlockChange i closed s) := by
  unfold execInterlockChange
  try dsimp only
  repeat' (first
    | with_reducible assumption | with_reducible apply awake_kept hk | with_reducible apply State.interlockChange_kept
    | with_reducible apply Kept.ite | with_reducible apply Kept.ite2 | fail_if_no_progress intros)

theorem execDiscrepancy_kept {q : List Instr} {s : State} (p : Fin 4) (hk : Kept q s) :
    KeptOut q (execDiscrepancy p s) := by
  unfold execDiscrepancy
  try dsimp only
  repeat' (first
    | with_reducible assumption | with_reducible apply awake_kept hk | with_reducible apply State.discrepancy_kept
    | with_reducible apply Kept.ite | with_reducible apply Kept.ite2 | fail_if_no_progress intros)

theorem execReadbackFault_kept {q : List Instr} {s : State} (n : Fin 16) (t c : Bool) (hk : Kept q s) :
    KeptOut q (execReadbackFault n t c s) := by
  unfold execReadbackFault
  try dsimp only
  repeat' (first
    | with_reducible assumption | with_reducible apply awake_kept hk | with_reducible apply State.readback_kept
    | with_reducible apply Kept.ite | with_reducible apply Kept.ite2 | fail_if_no_progress intros)

theorem execBpReadbackClear_kept {q : List Instr} {s : State} (m : Msg) (v : BitVec 16) (hk : Kept q s) :
    KeptOut q (execBpReadbackClear m v s) := by
  unfold execBpReadbackClear
  try dsimp only
  repeat' (first
    | with_reducible assumption | with_reducible apply writeCmd_kept hk | with_reducible apply readbackClearEff_kept
    | with_reducible apply Kept.ite | with_reducible apply Kept.ite2 | fail_if_no_progress intros)

theorem execPermitRestart_kept {q : List Instr} {s : State} (m : Msg) (v : BitVec 16) (hk : Kept q s) :
    KeptOut q (execPermitRestart m v s) := by
  unfold execPermitRestart
  try dsimp only
  repeat' (first
    | with_reducible assumption | with_reducible apply writeCmd_kept hk | with_reducible apply permitRestartEff_kept
    | with_reducible apply Kept.ite | with_reducible apply Kept.ite2 | fail_if_no_progress intros)

/-! Machine/Supply.lean -/

theorem State.bare_kept {q : List Instr} {s : State} (dev : DevPhase) (hk : Kept q s) :
    Kept q (State.bare s dev) := by
  unfold State.bare
  exact ⟨hk.queue, rfl, ⟨rfl, rfl⟩, rfl⟩

theorem State.release_kept {q : List Instr} {s : State} (strap : Nat) (order : List Nat) (lost : Bool) (count rails : Nat) (trained : Bool) (hk : Kept q s) :
    Kept q (State.release s strap order lost count rails trained) := by
  unfold State.release
  try dsimp only
  repeat' (first
    | with_reducible exact hk | with_reducible assumption | with_reducible apply State.bare_kept
    | with_reducible apply State.wrs_kept | with_reducible apply Kept.ite | fail_if_no_progress intros | dsimp only
    | fail_if_no_progress refine Kept.of_mk ?_ rfl rfl rfl rfl rfl)

theorem State.freePins_kept {q : List Instr} {s : State} (hk : Kept q s) :
    Kept q (State.freePins s) := by
  unfold State.freePins
  dsimp only
  exact Kept.foldl hk fun s b h => State.unpin_kept _ _ (State.setPage_kept h _ _ _)

theorem State.lastSeal_kept {q : List Instr} {s : State} (hk : Kept q s) :
    Kept q (State.lastSeal s) := by
  unfold State.lastSeal
  try dsimp only
  repeat' (first
    | with_reducible exact hk | with_reducible assumption | with_reducible apply State.closeBefore_kept
    | with_reducible apply State.sealNow_kept | with_reducible apply State.writeJournal_kept)

theorem State.warmReset_kept {q : List Instr} {s : State} (hk : Kept q s) :
    Kept q (State.warmReset s) := by
  unfold State.warmReset
  have h0 := State.lastSeal_kept hk
  dsimp only
  generalize s.lastSeal = s0 at h0 ⊢
  have h1 : Kept q (s0.lat.dirty.foldl (fun s t => s.tileWriteBack t) s0).freePins :=
    State.freePins_kept (Kept.foldl h0 fun s t h => State.tileWriteBack_kept _ h)
  generalize (s0.lat.dirty.foldl (fun s t => s.tileWriteBack t) s0).freePins = s1 at h1 ⊢
  have h2 : (s1.bare .starting).pending = q := h1.queue
  generalize s1.bare .starting = b at h2 ⊢
  refine State.wrs_kept ?_ _
  exact ⟨h2, Tab.wf_filter _ h1.canon.od, h1.canon.mem, h1.canon.cells⟩

theorem State.loadStore_kept {q : List Instr} {s : State} (hk : Kept q s) :
    Kept q (State.loadStore s) := by
  unfold State.loadStore
  try dsimp only
  repeat' (first
    | with_reducible exact hk | with_reducible assumption | with_reducible apply State.loadKeep_kept
    | with_reducible apply State.showReserve_kept | with_reducible apply State.wr_kept | with_reducible apply Kept.foldl
    | with_reducible apply Kept.ite | fail_if_no_progress intros)

theorem State.takeRing_kept {q : List Instr} {s : State} (hk : Kept q s) :
    Kept q (State.takeRing s) := by
  unfold State.takeRing
  try dsimp only
  repeat' (first
    | with_reducible exact hk | with_reducible assumption | with_reducible apply State.startJournal_kept
    | with_reducible apply State.stopJournal_kept | with_reducible apply Kept.ite | fail_if_no_progress intros)

theorem State.loadTypes_kept {q : List Instr} {s : State} (hk : Kept q s) :
    Kept q (State.loadTypes s) := by
  unfold State.loadTypes
  try dsimp only
  repeat' (first
    | with_reducible exact hk | with_reducible assumption | with_reducible apply State.loadType_kept
    | with_reducible apply Kept.foldl)

theorem State.showLoaded_kept {q : List Instr} {s : State} (hk : Kept q s) :
    Kept q (State.showLoaded s) := by
  unfold State.showLoaded
  try dsimp only
  repeat' (first
    | with_reducible exact hk | with_reducible assumption | with_reducible apply State.sectorEff_kept
    | with_reducible apply State.showKeys_kept | with_reducible apply State.wr_kept | with_reducible apply Kept.foldl
    | with_reducible apply Kept.ite | fail_if_no_progress intros | dsimp only
    | fail_if_no_progress refine Kept.of_mk ?_ rfl rfl rfl rfl rfl | split)

theorem State.intoForce_kept {q : List Instr} {s : State} (hk : Kept q s) :
    Kept q (State.intoForce s) := by
  unfold State.intoForce
  try dsimp only
  repeat' (first
    | with_reducible exact hk | with_reducible assumption | with_reducible apply State.wr_kept | with_reducible apply State.wrs_kept
    | with_reducible apply Kept.foldl | with_reducible apply Kept.ite | fail_if_no_progress intros)

theorem State.axisStart_kept {q : List Instr} {s : State} (k : Nat) (hk : Kept q s) :
    Kept q (State.axisStart s k) := by
  unfold State.axisStart
  try dsimp only
  repeat' (first
    | with_reducible exact hk | with_reducible assumption | with_reducible apply State.emit_kept
    | with_reducible apply State.formPos_kept | with_reducible apply State.pin_kept | with_reducible apply State.setAxis_kept
    | with_reducible apply Kept.ite | fail_if_no_progress intros)

theorem State.startUnits_kept {q : List Instr} {s : State} (hk : Kept q s) :
    Kept q (State.startUnits s) := by
  unfold State.startUnits
  try dsimp only
  repeat' (first
    | with_reducible exact hk | with_reducible assumption | with_reducible apply State.axisStart_kept
    | with_reducible apply State.driveLamp_kept | with_reducible apply State.setLamp_kept
    | with_reducible apply State.startScan_kept | with_reducible apply State.wr_kept | with_reducible apply Kept.foldl
    | with_reducible apply Kept.ite | fail_if_no_progress intros)

theorem State.openPorts_kept {q : List Instr} {s : State} (hk : Kept q s) :
    Kept q (State.openPorts s) := by
  unfold State.openPorts
  try dsimp only
  repeat' (first
    | with_reducible exact hk | with_reducible assumption | with_reducible apply State.setPortState_kept
    | with_reducible apply Kept.foldl | with_reducible apply Kept.ite | fail_if_no_progress intros)

theorem State.startDone_kept {q : List Instr} {s : State} (hk : Kept q s) :
    Kept q (State.startDone s) := by
  unfold State.startDone
  try dsimp only
  repeat' (first
    | with_reducible exact hk | with_reducible assumption | with_reducible apply State.digestCurrent_kept
    | with_reducible apply State.digestPending_kept | with_reducible apply State.intoForce_kept
    | with_reducible apply State.loadStore_kept | with_reducible apply State.loadTypes_kept
    | with_reducible apply State.openPorts_kept | with_reducible apply State.raise_kept | with_reducible apply State.showLoaded_kept
    | with_reducible apply State.startUnits_kept | with_reducible apply State.takeRing_kept | with_reducible apply State.wr_kept
    | with_reducible apply Kept.ite | fail_if_no_progress intros | dsimp only
    | fail_if_no_progress refine Kept.of_mk ?_ rfl rfl rfl rfl rfl)

theorem State.poolRecords_kept {q : List Instr} {s : State} (hk : Kept q s) :
    Kept q (State.poolRecords s) := by
  unfold State.poolRecords
  try dsimp only
  repeat' (first
    | with_reducible exact hk | with_reducible assumption | with_reducible apply State.digestPending_kept
    | with_reducible apply State.loadType_kept | with_reducible apply State.pcOn_kept | with_reducible apply Kept.foldl
    | with_reducible apply Kept.ite | fail_if_no_progress intros | dsimp only
    | fail_if_no_progress refine Kept.of_mk ?_ rfl rfl rfl rfl rfl)

theorem State.hold_kept {q : List Instr} {s : State} (hk : Kept q s) :
    Kept q (State.hold s) := by
  unfold State.hold
  try dsimp only
  repeat' (first
    | with_reducible exact hk | with_reducible assumption | with_reducible apply State.closeBefore_kept
    | with_reducible apply State.withdraw_kept | with_reducible apply State.writeJournal_kept | with_reducible apply Kept.ite
    | fail_if_no_progress intros | dsimp only | fail_if_no_progress refine Kept.of_mk ?_ rfl rfl rfl rfl rfl)

theorem State.powerFail_kept {q : List Instr} {s : State} (rails : Nat) (hk : Kept q s) :
    Kept q (State.powerFail s rails) := by
  unfold State.powerFail
  try dsimp only
  repeat' (first
    | with_reducible exact hk | with_reducible assumption | with_reducible apply State.hold_kept
    | with_reducible apply State.raise_kept | with_reducible apply Kept.ite | fail_if_no_progress intros | dsimp only
    | fail_if_no_progress refine Kept.of_mk ?_ rfl rfl rfl rfl rfl)

theorem State.clockLoss_kept {q : List Instr} {s : State} (hk : Kept q s) :
    Kept q (State.clockLoss s) := by
  unfold State.clockLoss
  try dsimp only
  repeat' (first
    | with_reducible exact hk | with_reducible assumption | with_reducible apply State.hold_kept
    | with_reducible apply State.raise_kept | with_reducible apply Kept.ite | fail_if_no_progress intros | dsimp only
    | fail_if_no_progress refine Kept.of_mk ?_ rfl rfl rfl rfl rfl)

theorem State.clockBack_kept {q : List Instr} {s : State} (hk : Kept q s) :
    Kept q (State.clockBack s) := by
  unfold State.clockBack
  try dsimp only
  repeat' (first
    | with_reducible exact hk | with_reducible assumption | with_reducible apply State.draw_kept
    | with_reducible apply State.release_kept | with_reducible apply Kept.ite | fail_if_no_progress intros)

theorem warmResetEff_kept {q : List Instr} {s : State} (debug : Bool) (session : Nat) (x_v : Nat) (hk : Kept q s) :
    Kept q (warmResetEff debug session x_v s).2 := by
  unfold warmResetEff
  try dsimp only
  repeat' (first
    | with_reducible exact hk | with_reducible assumption | with_reducible apply State.raise_kept
    | with_reducible apply State.withdraw_kept | with_reducible apply Kept.ite | with_reducible apply Kept.ite2
    | fail_if_no_progress intros | dsimp only | fail_if_no_progress refine Kept.of_mk ?_ rfl rfl rfl rfl rfl)

theorem State.afterReset_kept {q : List Instr} {s : State} (hk : Kept q s) :
    Kept q (State.afterReset s) := by
  unfold State.afterReset
  try dsimp only
  repeat' (first
    | with_reducible exact hk | with_reducible assumption | with_reducible apply State.warmReset_kept
    | with_reducible apply Kept.ite | fail_if_no_progress intros)

theorem orderFaultEff_kept {q : List Instr} {s : State} (v : Nat) (hk : Kept q s) :
    Kept q (orderFaultEff v s).2 := by
  unfold orderFaultEff
  try dsimp only
  repeat' (first | with_reducible exact hk | with_reducible assumption | with_reducible apply plainEff_kept)

theorem State.vbatLow_kept {q : List Instr} {s : State} (low : Bool) (hk : Kept q s) :
    Kept q (State.vbatLow s low) := by
  unfold State.vbatLow
  try dsimp only
  repeat' (first
    | with_reducible exact hk | with_reducible assumption | with_reducible apply State.raise_kept
    | with_reducible apply State.wr_kept | with_reducible apply Kept.ite | fail_if_no_progress intros)

theorem State.pornLow_kept {q : List Instr} {s : State} (hk : Kept q s) :
    Kept q (State.pornLow s) := by
  unfold State.pornLow
  try dsimp only
  repeat' (first
    | with_reducible exact hk | with_reducible assumption | with_reducible apply State.drivePermits_kept
    | with_reducible apply State.withdraw_kept | with_reducible apply Kept.ite | fail_if_no_progress intros | dsimp only
    | fail_if_no_progress refine Kept.of_mk ?_ rfl rfl rfl rfl rfl)

theorem State.keeperTick_kept {q : List Instr} {s : State} (was : Nat) (hk : Kept q s) :
    Kept q (State.keeperTick s was) := by
  unfold State.keeperTick
  try dsimp only
  repeat' (first
    | with_reducible exact hk | with_reducible assumption | with_reducible apply Kept.ite | fail_if_no_progress intros | dsimp only
    | fail_if_no_progress refine Kept.of_mk ?_ rfl rfl rfl rfl rfl)

theorem execPowerOnReset_kept {q : List Instr} {s : State} (p : PowerOn) (hk : Kept q s) :
    KeptOut q (execPowerOnReset p s) := by
  unfold execPowerOnReset
  exact ⟨_, rfl, Kept.ite (fun _ => hk) fun _ => State.release_kept _ _ _ _ _ _ hk⟩

theorem execStartDone_kept {q : List Instr} {s : State} (hk : Kept q s) :
    KeptOut q (execStartDone s) := by
  unfold execStartDone
  try dsimp only
  repeat' (first | with_reducible assumption | with_reducible apply awake_kept hk | with_reducible apply State.startDone_kept)

theorem execPoolRecordsLoaded_kept {q : List Instr} {s : State} (hk : Kept q s) :
    KeptOut q (execPoolRecordsLoaded s) := by
  unfold execPoolRecordsLoaded
  try dsimp only
  repeat' (first | with_reducible assumption | with_reducible apply live_kept hk | with_reducible apply State.poolRecords_kept)

theorem execPowerFail_kept {q : List Instr} {s : State} (rails : BitVec 10) (hk : Kept q s) :
    KeptOut q (execPowerFail rails s) := by
  unfold execPowerFail
  try dsimp only
  repeat' (first
    | with_reducible assumption | with_reducible apply awake_kept hk | with_reducible apply State.powerFail_kept
    | with_reducible apply Kept.ite | with_reducible apply Kept.ite2 | fail_if_no_progress intros)

theorem execRefclkLoss_kept {q : List Instr} {s : State} (hk : Kept q s) :
    KeptOut q (execRefclkLoss s) := by
  unfold execRefclkLoss
  try dsimp only
  repeat' (first | with_reducible assumption | with_reducible apply awake_kept hk | with_reducible apply State.clockLoss_kept)

theorem execRefclkRestart_kept {q : List Instr} {s : State} (hk : Kept q s) :
    KeptOut q (execRefclkRestart s) := by
  exact ⟨_, rfl, State.clockBack_kept hk⟩

theorem execWarmReset_kept {q : List Instr} {s : State} (m : Msg) (hk : Kept q s) :
    KeptOut q (execWarmReset m s) := by
  unfold execWarmReset
  try dsimp only
  repeat' (first
    | with_reducible assumption | with_reducible apply live_kept hk | with_reducible apply State.afterReset_kept
    | with_reducible apply hostWrite_kept | with_reducible apply warmResetEff_kept | with_reducible apply Kept.ite
    | with_reducible apply Kept.ite2 | fail_if_no_progress intros)

theorem execPwrOrderFault_kept {q : List Instr} {s : State} (m : Msg) (hk : Kept q s) :
    KeptOut q (execPwrOrderFault m s) := by
  unfold execPwrOrderFault
  try dsimp only
  repeat' (first
    | with_reducible assumption | with_reducible apply writeCmd_kept hk | with_reducible apply orderFaultEff_kept
    | with_reducible apply Kept.ite | with_reducible apply Kept.ite2 | fail_if_no_progress intros)

theorem execVbatLow_kept {q : List Instr} {s : State} (low : Bool) (hk : Kept q s) :
    KeptOut q (execVbatLow low s) := by
  unfold execVbatLow
  try dsimp only
  repeat' (first
    | with_reducible assumption | with_reducible apply live_kept hk | with_reducible apply State.vbatLow_kept
    | with_reducible apply Kept.ite | with_reducible apply Kept.ite2 | fail_if_no_progress intros)

theorem execPornLow_kept {q : List Instr} {s : State} (hk : Kept q s) :
    KeptOut q (execPornLow s) := by
  exact ⟨_, rfl, State.settle_kept (State.pornLow_kept hk)⟩

/-! Machine/Tick.lean -/

theorem State.sampleTick_kept {q : List Instr} {s : State} (n : Nat) (hk : Kept q s) :
    Kept q (State.sampleTick s n) := by
  unfold State.sampleTick
  try dsimp only
  repeat' (first
    | with_reducible exact hk | with_reducible assumption | with_reducible apply State.chanFault_kept
    | with_reducible apply State.facetTick_kept | with_reducible apply State.haltWaiting_kept
    | with_reducible apply State.holdRefused_kept | with_reducible apply State.inc_kept | with_reducible apply State.loopHold_kept
    | with_reducible apply Kept.ite | fail_if_no_progress intros)

theorem State.sampleHooks_kept {q : List Instr} {s : State} (hk : Kept q s) :
    Kept q (State.sampleHooks s) := by
  unfold State.sampleHooks
  try dsimp only
  repeat' (first
    | with_reducible exact hk | with_reducible assumption | with_reducible apply State.cellBreaks_kept
    | with_reducible apply State.gainTick_kept | with_reducible apply State.sampleTick_kept | with_reducible apply Kept.foldl
    | with_reducible apply Kept.ite | fail_if_no_progress intros)

theorem State.slewDone_kept {q : List Instr} {s : State} (hk : Kept q s) :
    Kept q (State.slewDone s) := by
  unfold State.slewDone
  try dsimp only
  repeat' (first
    | with_reducible exact hk | with_reducible assumption | with_reducible apply State.wr_kept | with_reducible apply Kept.ite
    | fail_if_no_progress intros)

theorem State.tickHooks_kept {q : List Instr} {s : State} (hk : Kept q s) :
    Kept q (State.tickHooks s) := by
  unfold State.tickHooks
  dsimp only
  have h := State.cyclicTick_kept (State.slewDone_kept (State.axisTick_kept (State.sampleHooks_kept hk)))
  generalize s.sampleHooks.axisTick.slewDone.cyclicTick = s0 at h ⊢
  have h1 : Kept q ((List.range 24).foldl (fun (s : State) k => s.pipeTick k) s0) := Kept.foldl h fun s k h => State.pipeTick_kept k h
  generalize (List.range 24).foldl (fun (s : State) k => s.pipeTick k) s0 = s1 at h1 ⊢
  exact State.syncWait_kept (State.laneTokens_kept (State.lampHold_kept (State.measTick_kept (State.loadTick_kept (State.checkTick_kept h1)))))

theorem execTick_kept {q : List Instr} {s : State} (hk : Kept q s) :
    KeptOut q (execTick s) := by
  unfold execTick
  refine ⟨_, rfl, ?_⟩
  have h := State.keeperTick_kept s.now (State.tickEff_kept hk)
  split
  · exact hk
  · exact State.settle_kept h
  · exact State.settle_kept (State.tickHooks_kept h)

/-! Machine/Values.lean -/

theorem State.afterRead_kept {q : List Instr} {s : State} (key : Nat) (hk : Kept q s) :
    Kept q (State.afterRead s key) := by
  unfold State.afterRead
  try dsimp only
  repeat' (first
    | with_reducible exact hk | with_reducible assumption | with_reducible apply State.wr_kept | with_reducible apply Kept.ite
    | fail_if_no_progress intros)

theorem State.readAnswer_kept {q : List Instr} {s : State} (index sub form : Nat) (hk : Kept q s) :
    Kept q (State.readAnswer s index sub form).2 := by
  unfold State.readAnswer
  try dsimp only
  repeat' (first
    | with_reducible exact hk | with_reducible assumption | with_reducible apply State.afterRead_kept
    | with_reducible apply Kept.ite | with_reducible apply Kept.ite2 | fail_if_no_progress intros | dsimp only
    | fail_if_no_progress refine Kept.of_mk ?_ rfl rfl rfl rfl rfl | split)

theorem netEffect_kept {q : List Instr} {s : State} (session port key v : Nat) (hk : Kept q s) :
    Kept q (netEffect session port key v s).2 := by
  unfold netEffect
  try dsimp only
  repeat' (first
    | with_reducible exact hk | with_reducible assumption | with_reducible apply State.portDeaf_kept
    | with_reducible apply State.setPortState_kept | with_reducible apply State.wr_kept | with_reducible apply autoSwitchEff_kept
    | with_reducible apply cyclicEnableEff_kept | with_reducible apply digestHoldReleaseEff_kept
    | with_reducible apply domNumberEff_kept | with_reducible apply journalEnableEff_kept | with_reducible apply keepStoreEff_kept
    | with_reducible apply layerCommitEff_kept | with_reducible apply layerResumeEff_kept | with_reducible apply plainEff_kept
    | with_reducible apply recoatCommandEff_kept | with_reducible apply slotLoopEff_kept | with_reducible apply slotNodeEff_kept
    | with_reducible apply streamControlEff_kept | with_reducible apply timeSelEff_kept | with_reducible apply ttArmEff_kept
    | with_reducible apply txtsReleaseEff_kept | with_reducible apply Kept.ite | with_reducible apply Kept.ite2
    | fail_if_no_progress intros)

theorem beamEffect_kept {q : List Instr} {s : State} (debug : Bool) (key v : Nat) (hk : Kept q s) :
    Kept q (beamEffect debug key v s).2 := by
  unfold beamEffect
  try dsimp only
  repeat' (first
    | with_reducible exact hk | with_reducible assumption | with_reducible apply State.sectorEff_kept
    | with_reducible apply State.wr_kept | with_reducible apply bcControlEff_kept | with_reducible apply csControlEff_kept
    | with_reducible apply fxClearEff_kept | with_reducible apply fxCommitEff_kept | with_reducible apply fxModeEff_kept
    | with_reducible apply latClearEff_kept | with_reducible apply latEnableEff_kept | with_reducible apply latKernelEff_kept
    | with_reducible apply plainEff_kept | with_reducible apply probeCellEff_kept | with_reducible apply seqControlEff_kept
    | with_reducible apply snapControlEff_kept | with_reducible apply Kept.ite | with_reducible apply Kept.ite2)

theorem pipeEffect_kept {q : List Instr} {s : State} (k x key v : Nat) (hk : Kept q s) :
    Kept q (pipeEffect k x key v s).2 := by
  unfold pipeEffect
  try dsimp only
  repeat' (first
    | with_reducible exact hk | with_reducible assumption | with_reducible apply minPeriodEff_kept
    | with_reducible apply pcEnableEff_kept | with_reducible apply pcSourceEff_kept | with_reducible apply plainEff_kept
    | with_reducible apply setApplyEff_kept | with_reducible apply shadowEff_kept | with_reducible apply Kept.ite
    | with_reducible apply Kept.ite2 | fail_if_no_progress intros | dsimp only
    | fail_if_no_progress refine Kept.of_mk ?_ rfl rfl rfl rfl rfl | split)

theorem laneEffect_kept {q : List Instr} {s : State} (l key v : Nat) (hk : Kept q s) :
    Kept q (laneEffect l key v s).2 := by
  unfold laneEffect
  try dsimp only
  repeat' (first
    | with_reducible exact hk | with_reducible assumption | with_reducible apply laneEnableEff_kept
    | with_reducible apply laneRxEff_kept | with_reducible apply laneTxEff_kept | with_reducible apply plainEff_kept
    | with_reducible apply Kept.ite | with_reducible apply Kept.ite2 | fail_if_no_progress intros | dsimp only
    | fail_if_no_progress refine Kept.of_mk ?_ rfl rfl rfl rfl rfl | split)

theorem eyeEffect_kept {q : List Instr} {s : State} (l key v : Nat) (hk : Kept q s) :
    Kept q (eyeEffect l key v s).2 := by
  unfold eyeEffect
  try dsimp only
  repeat' (first
    | with_reducible exact hk | with_reducible assumption | with_reducible apply eyeControlEff_kept
    | with_reducible apply plainEff_kept | with_reducible apply Kept.ite | with_reducible apply Kept.ite2
    | fail_if_no_progress intros | dsimp only | fail_if_no_progress refine Kept.of_mk ?_ rfl rfl rfl rfl rfl | split)

theorem axisEffect_kept {q : List Instr} {s : State} (k x key v : Nat) (hk : Kept q s) :
    Kept q (axisEffect k x key v s).2 := by
  unfold axisEffect
  try dsimp only
  repeat' (first
    | with_reducible exact hk | with_reducible assumption | with_reducible apply State.formPos_kept
    | with_reducible apply State.wr_kept | with_reducible apply aoEnableEff_kept | with_reducible apply axAckEff_kept
    | with_reducible apply axEnableEff_kept | with_reducible apply axPresetEff_kept | with_reducible apply cmpArmEff_kept
    | with_reducible apply cmpPositionEff_kept | with_reducible apply indexCorrectEff_kept | with_reducible apply plainEff_kept
    | with_reducible apply Kept.ite | with_reducible apply Kept.ite2 | fail_if_no_progress intros | dsimp only
    | fail_if_no_progress refine Kept.of_mk ?_ rfl rfl rfl rfl rfl | split)

theorem lightEffect_kept {q : List Instr} {s : State} (key v : Nat) (hk : Kept q s) :
    Kept q (lightEffect key v s).2 := by
  unfold lightEffect
  try dsimp only
  repeat' (first
    | with_reducible exact hk | with_reducible assumption | with_reducible apply lampEntryEff_kept
    | with_reducible apply lmEnableEff_kept | with_reducible apply lmTimingEff_kept | with_reducible apply plainEff_kept
    | with_reducible apply wlAckEff_kept | with_reducible apply wlModeEff_kept | with_reducible apply Kept.ite
    | with_reducible apply Kept.ite2)

theorem deviceEffect_kept {q : List Instr} {s : State} (debug : Bool) (session key v : Nat) (hk : Kept q s) :
    Kept q (deviceEffect debug session key v s).2 := by
  unfold deviceEffect
  try dsimp only
  repeat' (first
    | with_reducible exact hk | with_reducible assumption | with_reducible apply State.clr_kept
    | with_reducible apply calLoadEff_kept | with_reducible apply calMeasAbortEff_kept | with_reducible apply calMeasureEff_kept
    | with_reducible apply candDiscardEff_kept | with_reducible apply dbgLockEff_kept | with_reducible apply orderFaultEff_kept
    | with_reducible apply permitRestartEff_kept | with_reducible apply plainEff_kept | with_reducible apply readbackClearEff_kept
    | with_reducible apply sensorAckEff_kept | with_reducible apply twinCommandEff_kept | with_reducible apply warmResetEff_kept
    | with_reducible apply Kept.foldl | with_reducible apply Kept.ite | with_reducible apply Kept.ite2 | fail_if_no_progress intros)

theorem entryEffect_kept {q : List Instr} {s : State} (debug : Bool) (session port key v : Nat) (hk : Kept q s) :
    Kept q (entryEffect debug session port key v s).2 := by
  unfold entryEffect
  try dsimp only
  repeat' (first
    | with_reducible exact hk | with_reducible assumption | with_reducible apply axisEffect_kept
    | with_reducible apply beamEffect_kept | with_reducible apply deviceEffect_kept | with_reducible apply eyeEffect_kept
    | with_reducible apply laneEffect_kept | with_reducible apply lightEffect_kept | with_reducible apply loopWriteEff_kept
    | with_reducible apply luneEnableEff_kept | with_reducible apply lunePostEff_kept | with_reducible apply netEffect_kept
    | with_reducible apply pipeEffect_kept | with_reducible apply plainEff_kept | with_reducible apply rcWriteEff_kept
    | with_reducible apply tcMapEff_kept | with_reducible apply tcPriorityEff_kept | with_reducible apply tcReserveEff_kept
    | with_reducible apply tcResumeWriteEff_kept | with_reducible apply tcUnmapEff_kept | with_reducible apply Kept.ite
    | with_reducible apply Kept.ite2 | fail_if_no_progress intros | dsimp only
    | fail_if_no_progress refine Kept.of_mk ?_ rfl rfl rfl rfl rfl | split)

theorem State.restore_kept {q : List Instr} {s : State} (key : Nat) (hk : Kept q s) :
    Kept q (State.restore s key) := by
  unfold State.restore
  try dsimp only
  repeat' (first
    | with_reducible exact hk | with_reducible assumption | with_reducible apply State.clr_kept
    | with_reducible apply entryEffect_kept)

theorem keepRestoreEff_kept {q : List Instr} {s : State} (x_v : Nat) (hk : Kept q s) :
    Kept q (keepRestoreEff x_v s).2 := by
  unfold keepRestoreEff
  try dsimp only
  repeat' (first
    | with_reducible exact hk | with_reducible assumption | with_reducible apply State.digestPending_kept
    | with_reducible apply State.restore_kept | with_reducible apply State.wr_kept | with_reducible apply Kept.foldl
    | with_reducible apply Kept.ite | with_reducible apply Kept.ite2 | fail_if_no_progress intros | dsimp only
    | fail_if_no_progress refine Kept.of_mk ?_ rfl rfl rfl rfl rfl)

theorem writeEffect_kept {q : List Instr} {s : State} (debug : Bool) (session port key v : Nat) (hk : Kept q s) :
    Kept q (writeEffect debug session port key v s).2 := by
  unfold writeEffect
  try dsimp only
  repeat' (first
    | with_reducible exact hk | with_reducible assumption | with_reducible apply entryEffect_kept
    | with_reducible apply keepRestoreEff_kept | with_reducible apply Kept.ite | with_reducible apply Kept.ite2)

theorem State.hostRead_kept {q : List Instr} {s : State} (m : Msg) (index sub form : Nat) (hk : Kept q s) :
    Kept q (State.hostRead s m index sub form) := by
  unfold State.hostRead
  try dsimp only
  repeat' (first
    | with_reducible exact hk | with_reducible assumption | with_reducible apply State.readAnswer_kept
    | with_reducible apply hostCmd_kept | with_reducible apply Kept.ite | fail_if_no_progress intros)

theorem State.portLink_kept {q : List Instr} {s : State} (p : Nat) (up : Bool) (hk : Kept q s) :
    Kept q (State.portLink s p up) := by
  unfold State.portLink
  try dsimp only
  repeat' (first
    | with_reducible exact hk | with_reducible assumption | with_reducible apply State.raise_kept
    | with_reducible apply State.syncPort_kept | with_reducible apply State.wr_kept | with_reducible apply Kept.ite
    | fail_if_no_progress intros)

theorem execKeepRestore_kept {q : List Instr} {s : State} (m : Msg) (hk : Kept q s) :
    KeptOut q (execKeepRestore m s) := by
  unfold execKeepRestore
  try dsimp only
  repeat' (first
    | with_reducible assumption | with_reducible apply writeCmd_kept hk | with_reducible apply keepRestoreEff_kept
    | with_reducible apply Kept.ite | with_reducible apply Kept.ite2 | fail_if_no_progress intros)

theorem execRead_kept {q : List Instr} {s : State} (m : Msg) (index : BitVec 16) (sub form : BitVec 8) (hk : Kept q s) :
    KeptOut q (execRead m index sub form s) := by
  unfold execRead
  try dsimp only
  repeat' (first
    | with_reducible assumption | with_reducible apply live_kept hk | with_reducible apply State.hostRead_kept
    | with_reducible apply Kept.ite | with_reducible apply Kept.ite2 | fail_if_no_progress intros)

theorem execWrite_kept {q : List Instr} {s : State} (m : Msg) (index : BitVec 16) (sub : BitVec 8) (value : List Byte) (hk : Kept q s) :
    KeptOut q (execWrite m index sub value s) := by
  unfold execWrite
  try dsimp only
  repeat' (first
    | with_reducible assumption | with_reducible apply live_kept hk | with_reducible apply State.afterReset_kept
    | with_reducible apply hostWrite_kept | with_reducible apply writeEffect_kept | with_reducible apply Kept.ite
    | with_reducible apply Kept.ite2 | fail_if_no_progress intros)

theorem execEvClear_kept {q : List Instr} {s : State} (m : Msg) (src : BitVec 8) (hk : Kept q s) :
    KeptOut q (execEvClear m src s) := by
  unfold execEvClear
  try dsimp only
  repeat' (first
    | with_reducible assumption | with_reducible apply writeCmd_kept hk | with_reducible apply deviceEffect_kept
    | with_reducible apply Kept.ite | with_reducible apply Kept.ite2 | fail_if_no_progress intros)

theorem execPortLink_kept {q : List Instr} {s : State} (p : Fin 4) (up : Bool) (hk : Kept q s) :
    KeptOut q (execPortLink p up s) := by
  unfold execPortLink
  try dsimp only
  repeat' (first
    | with_reducible assumption | with_reducible apply awake_kept hk | with_reducible apply State.portLink_kept
    | with_reducible apply Kept.ite | with_reducible apply Kept.ite2 | fail_if_no_progress intros)

/-! Machine/DebugPort.lean -/

theorem State.debugFault_kept {q : List Instr} {s : State} (code : Nat) (hk : Kept q s) :
    Kept q (State.debugFault s code) := by
  unfold State.debugFault
  try dsimp only
  repeat' (first
    | with_reducible exact hk | with_reducible assumption | with_reducible apply State.emit_kept
    | with_reducible apply State.inc_kept)

theorem State.debugKeep_kept {q : List Instr} {s : State} (tag code : Nat) (data : List Byte) (hk : Kept q s) :
    Kept q (State.debugKeep s tag code data) := by
  unfold State.debugKeep
  try dsimp only
  repeat' (first
    | with_reducible exact hk | with_reducible assumption | with_reducible apply State.inc_kept | with_reducible apply Kept.ite
    | fail_if_no_progress intros | dsimp only | fail_if_no_progress refine Kept.of_mk ?_ rfl rfl rfl rfl rfl)

theorem State.debugDone_kept {q : List Instr} {s : State} (tag code : Nat) (data : List Byte) (hk : Kept q s) :
    Kept q (State.debugDone s tag code data) := by
  unfold State.debugDone
  try dsimp only
  repeat' (first
    | with_reducible exact hk | with_reducible assumption | with_reducible apply State.debugKeep_kept
    | with_reducible apply State.emit_kept)

theorem State.debugEvent_kept {q : List Instr} {s : State} (key code : Nat) (hk : Kept q s) :
    Kept q (State.debugEvent s key code) := by
  unfold State.debugEvent
  try dsimp only
  repeat' (first | with_reducible exact hk | with_reducible assumption | with_reducible apply State.raise_kept)

theorem debugReq_kept {q : List Instr} {s : State} (r : DbgReq) (ident fit : Bool) (k : Nat → State → State) (hk : Kept q s) (hf : ∀ t s, Kept q s → Kept q (k t s)) :
    Kept q (debugReq r ident fit k s) := by
  unfold debugReq
  try dsimp only
  repeat' (first
    | with_reducible exact hk | with_reducible assumption | with_reducible apply State.debugFault_kept
    | with_reducible apply State.emit_kept | with_reducible apply State.malformed_kept | with_reducible apply hf
    | with_reducible apply Kept.ite | fail_if_no_progress intros | dsimp only
    | fail_if_no_progress refine Kept.of_mk ?_ rfl rfl rfl rfl rfl | split)

theorem debugWrite_kept {q : List Instr} {s : State} (r : DbgReq) (key : Nat) (value : List Byte) (hk : Kept q s) :
    Kept q (debugWrite r key value s) := by
  unfold debugWrite
  try dsimp only
  repeat' (first
    | with_reducible exact hk | with_reducible assumption | with_reducible apply State.applyWrite_kept
    | with_reducible apply State.debugDone_kept | with_reducible apply State.debugEvent_kept | with_reducible apply State.emit_kept
    | with_reducible apply State.sendMirror_kept | with_reducible apply debugReq_kept | with_reducible apply writeEffect_kept
    | with_reducible apply Kept.ite | fail_if_no_progress intros | dsimp only
    | fail_if_no_progress refine Kept.of_mk ?_ rfl rfl rfl rfl rfl)

theorem State.debugStore_kept {q : List Instr} {s : State} (tag tc addr : Nat) (data : List Byte) (hk : Kept q s) :
    Kept q (State.debugStore s tag tc addr data) := by
  unfold State.debugStore
  try dsimp only
  repeat' (first
    | with_reducible exact hk | with_reducible assumption | with_reducible apply State.debugDone_kept
    | with_reducible apply State.lockEvent_kept | with_reducible apply State.mirrorMemory_kept
    | with_reducible apply State.writeMem_kept | with_reducible apply Kept.ite | fail_if_no_progress intros | dsimp only
    | fail_if_no_progress refine Kept.of_mk ?_ rfl rfl rfl rfl rfl | split)

theorem State.mirrorEffect_kept {q : List Instr} {s : State} (r : Mirror) (hk : Kept q s) :
    Kept q (State.mirrorEffect s r) := by
  unfold State.mirrorEffect
  try dsimp only
  repeat' (first
    | with_reducible exact hk | with_reducible assumption | with_reducible apply State.applyConcur_kept
    | with_reducible apply State.applyStage_kept | with_reducible apply State.applyWrite_kept
    | with_reducible apply State.debugEvent_kept | with_reducible apply State.debugKeep_kept
    | with_reducible apply State.hostEvent_kept | with_reducible apply State.reply_kept | with_reducible apply State.resend_kept
    | with_reducible apply writeEffect_kept | with_reducible apply Kept.foldl | with_reducible apply Kept.ite
    | fail_if_no_progress intros | dsimp only | fail_if_no_progress refine Kept.of_mk ?_ rfl rfl rfl rfl rfl | split)

theorem State.mirrorsDue_kept {q : List Instr} {s : State} (hk : Kept q s) :
    Kept q (State.mirrorsDue s) := by
  unfold State.mirrorsDue
  try dsimp only
  repeat' (first
    | with_reducible exact hk | with_reducible assumption | with_reducible apply State.afterReset_kept
    | with_reducible apply State.mirrorEffect_kept | with_reducible apply Kept.foldl | with_reducible apply Kept.ite
    | fail_if_no_progress intros | dsimp only | fail_if_no_progress refine Kept.of_mk ?_ rfl rfl rfl rfl rfl)

theorem execDebugIdent_kept {q : List Instr} {s : State} (r : DbgReq) (hk : Kept q s) :
    KeptOut q (execDebugIdent r s) := by
  unfold execDebugIdent
  try dsimp only
  repeat' (first
    | with_reducible assumption | with_reducible apply live_kept hk | with_reducible apply State.debugDone_kept
    | with_reducible apply debugReq_kept | with_reducible apply Kept.ite | with_reducible apply Kept.ite2
    | fail_if_no_progress intros)

theorem execDebugRead_kept {q : List Instr} {s : State} (r : DbgReq) (index : BitVec 16) (sub form : BitVec 8) (hk : Kept q s) :
    KeptOut q (execDebugRead r index sub form s) := by
  unfold execDebugRead
  try dsimp only
  repeat' (first
    | with_reducible assumption | with_reducible apply live_kept hk | with_reducible apply State.debugDone_kept
    | with_reducible apply State.debugEvent_kept | with_reducible apply State.readAnswer_kept | with_reducible apply debugReq_kept
    | with_reducible apply Kept.ite | with_reducible apply Kept.ite2 | fail_if_no_progress intros)

theorem execDebugWrite_kept {q : List Instr} {s : State} (r : DbgReq) (index : BitVec 16) (sub : BitVec 8) (value : List Byte) (hk : Kept q s) :
    KeptOut q (execDebugWrite r index sub value s) := by
  unfold execDebugWrite
  try dsimp only
  repeat' (first
    | with_reducible assumption | with_reducible apply live_kept hk | with_reducible apply debugWrite_kept
    | with_reducible apply Kept.ite | with_reducible apply Kept.ite2 | fail_if_no_progress intros)

theorem execDebugHalt_kept {q : List Instr} {s : State} (r : DbgReq) (n : Fin 16) (hk : Kept q s) :
    KeptOut q (execDebugHalt r n s) := by
  unfold execDebugHalt
  try dsimp only
  repeat' (first
    | with_reducible assumption | with_reducible apply live_kept hk | with_reducible apply debugWrite_kept
    | with_reducible apply Kept.ite | with_reducible apply Kept.ite2 | fail_if_no_progress intros)

theorem execDebugStep_kept {q : List Instr} {s : State} (r : DbgReq) (n : Fin 16) (hk : Kept q s) :
    KeptOut q (execDebugStep r n s) := by
  unfold execDebugStep
  try dsimp only
  repeat' (first
    | with_reducible assumption | with_reducible apply live_kept hk | with_reducible apply debugWrite_kept
    | with_reducible apply Kept.ite | with_reducible apply Kept.ite2 | fail_if_no_progress intros)

theorem execDebugResume_kept {q : List Instr} {s : State} (r : DbgReq) (n : Fin 16) (hk : Kept q s) :
    KeptOut q (execDebugResume r n s) := by
  unfold execDebugResume
  try dsimp only
  repeat' (first
    | with_reducible assumption | with_reducible apply live_kept hk | with_reducible apply debugWrite_kept
    | with_reducible apply Kept.ite | with_reducible apply Kept.ite2 | fail_if_no_progress intros)

theorem execMemRead_kept {q : List Instr} {s : State} (r : DbgReq) (tc : BitVec 8) (addr : BitVec 64) (count : BitVec 16) (hk : Kept q s) :
    KeptOut q (execMemRead r tc addr count s) := by
  unfold execMemRead
  try dsimp only
  repeat' (first
    | with_reducible assumption | with_reducible apply live_kept hk | with_reducible apply State.debugDone_kept
    | with_reducible apply debugReq_kept | with_reducible apply Kept.ite | with_reducible apply Kept.ite2
    | fail_if_no_progress intros | dsimp only | fail_if_no_progress refine Kept.of_mk ?_ rfl rfl rfl rfl rfl | split)

theorem execMemWrite_kept {q : List Instr} {s : State} (r : DbgReq) (tc : BitVec 8) (addr : BitVec 64) (data : List Byte) (hk : Kept q s) :
    KeptOut q (execMemWrite r tc addr data s) := by
  unfold execMemWrite
  try dsimp only
  repeat' (first
    | with_reducible assumption | with_reducible apply live_kept hk | with_reducible apply State.debugStore_kept
    | with_reducible apply debugReq_kept | with_reducible apply Kept.ite | with_reducible apply Kept.ite2
    | fail_if_no_progress intros)

theorem execJournalPeek_kept {q : List Instr} {s : State} (r : DbgReq) (seqNo : BitVec 32) (blocks : BitVec 8) (hk : Kept q s) :
    KeptOut q (execJournalPeek r seqNo blocks s) := by
  unfold execJournalPeek
  try dsimp only
  repeat' (first
    | with_reducible assumption | with_reducible apply live_kept hk | with_reducible apply State.debugDone_kept
    | with_reducible apply debugReq_kept | with_reducible apply Kept.ite | with_reducible apply Kept.ite2
    | fail_if_no_progress intros | dsimp only | fail_if_no_progress refine Kept.of_mk ?_ rfl rfl rfl rfl rfl | split)

theorem execDebugBadOp_kept {q : List Instr} {s : State} (r : DbgReq) (x_op : BitVec 4) (hk : Kept q s) :
    KeptOut q (execDebugBadOp r x_op s) := by
  unfold execDebugBadOp
  try dsimp only
  repeat' (first
    | with_reducible assumption | with_reducible apply live_kept hk | with_reducible apply debugReq_kept
    | with_reducible apply Kept.ite | with_reducible apply Kept.ite2 | fail_if_no_progress intros)

theorem execMirrorEffect_kept {q : List Instr} {s : State} (hk : Kept q s) :
    KeptOut q (execMirrorEffect s) := by
  unfold execMirrorEffect
  try dsimp only
  repeat' (first | with_reducible assumption | with_reducible apply live_kept hk | with_reducible apply State.mirrorsDue_kept)

end Sys2Proof.Machine
end

