-- ==== Sys2Proof/Laws/KeptExec.lean ====
section
/-! SUPPORT. What every command does to the queue and to the canonical tables: nothing and nothing wrong; and every command ends
in a next state. -/

namespace Sys2Proof.Machine

/-- Every command answers a next state that has the queue it was given and canonical tables. -/
theorem exec_kept {q : List Instr} {s : State} (c : Instr) (hk : Kept q s) : KeptOut q (exec c s) := by
  cases c with
  | tick => exact execTick_kept hk
  | timeStep => exact execTimeStep_kept hk
  | timeSel m v => exact execTimeSel_kept m v hk
  | domNumber m d v => exact execDomNumber_kept m d v hk
  | domainLost d => exact execDomainLost_kept d hk
  | sync p => exact execSync_kept p hk
  | followUp p => exact execFollowUp_kept p hk
  | delayReq p => exact execDelayReq_kept p hk
  | delayResp p => exact execDelayResp_kept p hk
  | announce p a => exact execAnnounce_kept p a hk
  | pdelayReq p => exact execPdelayReq_kept p hk
  | pdelayResp p => exact execPdelayResp_kept p hk
  | pdelayRespFollowUp p => exact execPdelayRespFollowUp_kept p hk
  | ttArm m n => exact execTtArm_kept m n hk
  | ttDisarm m n => exact execTtDisarm_kept m n hk
  | triggerFired n => exact execTriggerFired_kept n hk
  | journalWrite => exact execJournalWrite_kept hk
  | sealSpan => exact execSeal_kept hk
  | read m index sub form => exact execRead_kept m index sub form hk
  | write m index sub value => exact execWrite_kept m index sub value hk
  | keepStore m => exact execKeepStore_kept m hk
  | keepStoreDone ok => exact execKeepStoreDone_kept ok hk
  | keepRestore m => exact execKeepRestore_kept m hk
  | digestCurrent => exact execDigestCurrent_kept hk
  | openSession m hostId credit => exact execOpen_kept m hostId credit hk
  | closeSession m => exact execClose_kept m hk
  | ping m => exact execPing_kept m hk
  | noticeAck m ackSeq credit => exact execNoticeAck_kept m ackSeq credit hk
  | noticeResend session number => exact execNoticeResend_kept session number hk
  | sessionTimeout session => exact execSessionTimeout_kept session hk
  | badKind m kind => exact execBadKind_kept m kind hk
  | stage m index sub party proposal value auth => exact execStage_kept m index sub party proposal value auth hk
  | concur m index sub party proposal value auth => exact execConcur_kept m index sub party proposal value auth hk
  | guardExpired slot => exact execGuardExpired_kept slot hk
  | streamOpen m e => exact execStreamOpen_kept m e hk
  | streamAbort m e => exact execStreamAbort_kept m e hk
  | streamData m endpoint offset data => exact execStreamData_kept m endpoint offset data hk
  | streamEnd e => exact execStreamEnd_kept e hk
  | streamAckTimeout e => exact execStreamAckTimeout_kept e hk
  | txtsRelease m p count => exact execTxtsRelease_kept m p count hk
  | cyclicEnable m v => exact execCyclicEnable_kept m v hk
  | cyclicSend => exact execCyclicSend_kept hk
  | cyclicReply m cycle node status error actual digest => exact execCyclicReply_kept m cycle node status error actual digest hk
  | driveSilent slot => exact execDriveSilent_kept slot hk
  | tcMap m tc request => exact execTcMap_kept m tc request hk
  | tcUnmap m tc request => exact execTcUnmap_kept m tc request hk
  | tcResume m tc => exact execTcResume_kept m tc hk
  | tcAbort m tc => exact execTcAbort_kept m tc hk
  | dmaBeat waiting => exact execDmaBeat_kept waiting hk
  | accountingWindow => exact execAccountingWindow_kept hk
  | windowPin tc => exact execWindowPin_kept tc hk
  | memLoadPeakRead m => exact execMemLoadPeakRead_kept m hk
  | layerCommit m n => exact execLayerCommit_kept m n hk
  | layerResume m n => exact execLayerResume_kept m n hk
  | layerStart => exact execLayerStart_kept hk
  | repairStart => exact execRepairStart_kept hk
  | layerClosePhase => exact execLayerClosePhase_kept hk
  | headTableSwitch n => exact execHeadTableSwitch_kept n hk
  | shareDecision => exact execShareDecision_kept hk
  | dwellForced n => exact execDwellForced_kept n hk
  | latch n => exact execLatch_kept n hk
  | servoSample n x y z sample status fault aux => exact execServoSample_kept n x y z sample status fault aux hk
  | servoSampleMissing n => exact execServoSampleMissing_kept n hk
  | latticeDeposit => exact execLatticeDeposit_kept hk
  | chordComplete n => exact execChordComplete_kept n hk
  | mark n => exact execMark_kept n hk
  | arc n => exact execArc_kept n hk
  | jump n => exact execJump_kept n hk
  | facet n => exact execFacet_kept n hk
  | floatBody n => exact execFloat_kept n hk
  | postingRelease n => exact execPostingRelease_kept n hk
  | claim n => exact execClaim_kept n hk
  | waitTime n => exact execWaitTime_kept n hk
  | waitTimeRelease n => exact execWaitTimeRelease_kept n hk
  | waitEvent n => exact execWaitEvent_kept n hk
  | eventTimeout n => exact execEventTimeout_kept n hk
  | barrier n => exact execBarrier_kept n hk
  | setParam n => exact execSet_kept n hk
  | callProgram n => exact execCall_kept n hk
  | returnCall n => exact execReturn_kept n hk
  | repeatBody n => exact execRepeat_kept n hk
  | marker n => exact execMarker_kept n hk
  | layerClose n => exact execLayerClose_kept n hk
  | halt n => exact execHalt_kept n hk
  | badOpcode n => exact execBadOpcode_kept n hk
  | csResume m n => exact execCsResume_kept m n hk
  | csSkip m n => exact execCsSkip_kept m n hk
  | arm m n => exact execArm_kept m n hk
  | off m n => exact execOff_kept m n hk
  | uncoveredWalk n => exact execUncoveredWalk_kept n hk
  | shareReissueWait => exact execShareReissueWait_kept hk
  | luneEnable m l => exact execLuneEnable_kept m l hk
  | lunePost m l => exact execLunePost_kept m l hk
  | rcsync delay => exact execRcsync_kept delay hk
  | recoatStall => exact execRecoatStall_kept hk
  | recoatCommand m => exact execRecoatCommand_kept m hk
  | fxCommit m n slot => exact execFxCommit_kept m n slot hk
  | fxClear m n slot => exact execFxClear_kept m n slot hk
  | passBoundary n => exact execPassBoundary_kept n hk
  | pinWaitRelease n => exact execPinWaitRelease_kept n hk
  | repairDone n => exact execRepairDone_kept n hk
  | latClear m => exact execLatClear_kept m hk
  | latClearDone => exact execLatClearDone_kept hk
  | latEnable m => exact execLatEnable_kept m hk
  | latDisable m => exact execLatDisable_kept m hk
  | snapshotStart m => exact execSnapshotStart_kept m hk
  | snapshotAbort m => exact execSnapshotAbort_kept m hk
  | snapshotTile => exact execSnapshotTile_kept hk
  | refreshVisit tile => exact execRefreshVisit_kept tile hk
  | tileFill tile => exact execTileFill_kept tile hk
  | tileWriteBack tile => exact execTileWriteBack_kept tile hk
  | pcEnable m k => exact execPcEnable_kept m k hk
  | pcDisable m k => exact execPcDisable_kept m k hk
  | setApply m k => exact execSetApply_kept m k hk
  | sensorSliceStart n frame start tag w h => exact execSensorSliceStart_kept n frame start tag w h hk
  | sensorSlicePixels n frame offset pixels => exact execSensorSlicePixels_kept n frame offset pixels hk
  | sensorSliceEnd n frame sent => exact execSensorSliceEnd_kept n frame sent hk
  | cameraSliceStart c frame start tag w h => exact execCameraSliceStart_kept c frame start tag w h hk
  | cameraSlicePixels c frame offset pixels => exact execCameraSlicePixels_kept c frame offset pixels hk
  | cameraSliceEnd c frame sent => exact execCameraSliceEnd_kept c frame sent hk
  | frameTimeout k => exact execFrameTimeout_kept k hk
  | frameMissing k => exact execFrameMissing_kept k hk
  | statsClose k => exact execStatsClose_kept k hk
  | bedStripe k => exact execBedStripe_kept k hk
  | bedFrameDone k => exact execBedFrameDone_kept k hk
  | loopClose m l => exact execLoopClose_kept m l hk
  | loopHold m l => exact execLoopHold_kept m l hk
  | loopOpen m l => exact execLoopOpen_kept m l hk
  | loopReset m l => exact execLoopReset_kept m l hk
  | loopTrip m l => exact execLoopTrip_kept m l hk
  | loopSample l => exact execLoopSample_kept l hk
  | loopDeadline l overrun => exact execLoopDeadline_kept l overrun hk
  | rcClear m k => exact execRcClear_kept m k hk
  | frameSlot => exact execFrameSlot_kept hk
  | idleFrame f => exact execIdleFrame_kept f hk
  | laneEnable m l v => exact execLaneEnable_kept m l v hk
  | phaseLock l => exact execPhaseLock_kept l hk
  | identRequest l => exact execIdentRequest_kept l hk
  | ident l x => exact execIdent_kept l x hk
  | laneUp l => exact execLaneUp_kept l hk
  | identFail l => exact execIdentFail_kept l hk
  | linkLoss l detail => exact execLinkLoss_kept l detail hk
  | digest l digest => exact execDigest_kept l digest hk
  | nodeEvent l code data => exact execNodeEvent_kept l code data hk
  | laneTxState m l v => exact execLaneTxState_kept m l v hk
  | laneRxState m l v => exact execLaneRxState_kept m l v hk
  | eyeStart m l => exact execEyeStart_kept m l hk
  | eyeAbort m l => exact execEyeAbort_kept m l hk
  | eyePoint l count => exact execEyePoint_kept l count hk
  | axEnable m k v => exact execAxEnable_kept m k v hk
  | signalFault k bits => exact execSignalFault_kept k bits hk
  | signalRecovered k => exact execSignalRecovered_kept k hk
  | axFaultAck m k => exact execAxFaultAck_kept m k hk
  | axCountPreset m k v => exact execAxCountPreset_kept m k v hk
  | index k delay => exact execIndex_kept k delay hk
  | axCorrected k => exact execAxCorrected_kept k hk
  | cmpArm m k c => exact execCmpArm_kept m k c hk
  | cmpDisarm m k c => exact execCmpDisarm_kept m k c hk
  | compare k c => exact execCompare_kept k c hk
  | aoEnable m k v => exact execAoEnable_kept m k v hk
  | aoOverspeed k => exact execAoOverspeed_kept k hk
  | lmEnable m v => exact execLmEnable_kept m v hk
  | rowSlot => exact execRowSlot_kept hk
  | flashDone => exact execFlashDone_kept hk
  | diagnosis what result => exact execDiagnosis_kept what result hk
  | lampOverdue w => exact execLampOverdue_kept w hk
  | wlAck m w => exact execWlAck_kept m w hk
  | wlMode m w v => exact execWlMode_kept m w v hk
  | twinActivate m => exact execTwinActivate_kept m hk
  | twinDetach m => exact execTwinDetach_kept m hk
  | twinJoin m => exact execTwinJoin_kept m hk
  | twinStartTimeout => exact execTwinStartTimeout_kept hk
  | heartbeatSend => exact execHeartbeatSend_kept hk
  | heartbeat p h => exact execHeartbeat_kept p h hk
  | partnerFailed => exact execPartnerFailed_kept hk
  | takeover => exact execTakeover_kept hk
  | sampleCheck p sample crc => exact execSampleCheck_kept p sample crc hk
  | stale p role rejected => exact execStale_kept p role rejected hk
  | hostCommand p q effect c => exact execHostCommand_kept p q effect c hk
  | mirrorEffect => exact execMirrorEffect_kept hk
  | memoryWrite p q tc addr data => exact execMemoryWrite_kept p q tc addr data hk
  | mapMirror p q effect tc unmap request => exact execMap_kept p q effect tc unmap request hk
  | decision p q decided l => exact execDecision_kept p q decided l hk
  | latticeDelta p q apply cells => exact execLatticeDelta_kept p q apply cells hk
  | loopState p q sample l => exact execLoopState_kept p q sample l hk
  | syncPage p x => exact execSyncPage_kept p x hk
  | syncCopyDone => exact execSyncCopyDone_kept hk
  | syncState p digest b => exact execSyncState_kept p digest b hk
  | partnerDigest p digest view nodes => exact execPartnerDigest_kept p digest view nodes hk
  | handover p effect => exact execHandover_kept p effect hk
  | handoverEffect => exact execHandoverEffect_kept hk
  | holdMirror p v => exact execHold_kept p v hk
  | digestRequestTimeout l => exact execDigestRequestTimeout_kept l hk
  | digestHoldRelease m => exact execDigestHoldRelease_kept m hk
  | interlockChange j closed => exact execInterlockChange_kept j closed hk
  | discrepancy p => exact execDiscrepancy_kept p hk
  | readbackFault n t c => exact execReadbackFault_kept n t c hk
  | bpReadbackClear m v => exact execBpReadbackClear_kept m v hk
  | permitRestart m v => exact execPermitRestart_kept m v hk
  | calLoad m => exact execCalLoad_kept m hk
  | calMeasureRegistration m mask => exact execCalMeasureRegistration_kept m mask hk
  | fiducialCapture => exact execFiducialCapture_kept hk
  | calMeasurePoolDark m inst => exact execCalMeasurePoolDark_kept m inst hk
  | calMeasureAxisTrim m inst => exact execCalMeasureAxisTrim_kept m inst hk
  | calMeasureLaneTrim m inst => exact execCalMeasureLaneTrim_kept m inst hk
  | calMeasured runs => exact execCalMeasured_kept runs hk
  | calMeasAbort m => exact execCalMeasAbort_kept m hk
  | candDiscard m x => exact execCandDiscard_kept m x hk
  | idleClose => exact execIdleClose_kept hk
  | trimApply => exact execTrimApply_kept hk
  | calStored ok => exact execCalStored_kept ok hk
  | thermalSample raw => exact execThermalSample_kept raw hk
  | stopDone => exact execStopDone_kept hk
  | dtSensorAck m v => exact execDtSensorAck_kept m v hk
  | dtPeakRead m => exact execDtPeakRead_kept m hk
  | powerOnReset p => exact execPowerOnReset_kept p hk
  | startDone => exact execStartDone_kept hk
  | poolRecordsLoaded => exact execPoolRecordsLoaded_kept hk
  | powerFail rails => exact execPowerFail_kept rails hk
  | refclkLoss => exact execRefclkLoss_kept hk
  | refclkRestart => exact execRefclkRestart_kept hk
  | warmReset m => exact execWarmReset_kept m hk
  | pwrOrderFault m => exact execPwrOrderFault_kept m hk
  | vbatLow low => exact execVbatLow_kept low hk
  | debugIdent r => exact execDebugIdent_kept r hk
  | debugRead r index sub form => exact execDebugRead_kept r index sub form hk
  | debugWrite r index sub value => exact execDebugWrite_kept r index sub value hk
  | memRead r tc addr count => exact execMemRead_kept r tc addr count hk
  | memWrite r tc addr data => exact execMemWrite_kept r tc addr data hk
  | journalPeek r seqNo blocks => exact execJournalPeek_kept r seqNo blocks hk
  | debugBadOp r op => exact execDebugBadOp_kept r op hk
  | dbgLock m => exact execDbgLock_kept m hk
  | debugLocked => exact execDebugLocked_kept hk
  | debugHalt r n => exact execDebugHalt_kept r n hk
  | debugStep r n => exact execDebugStep_kept r n hk
  | debugResume r n => exact execDebugResume_kept r n hk
  | evClear m src => exact execEvClear_kept m src hk
  | signalPresent l => exact execSignalPresent_kept l hk
  | portLink p up => exact execPortLink_kept p up hk
  | pornLow => exact execPornLow_kept hk
  | axisMotion k x => exact execAxisMotion_kept k x hk
  | masterSyncInterval => exact execMasterSyncInterval_kept hk

end Sys2Proof.Machine
end

