-- ==== Sys2Proof/Laws/Message.lean ====
section
/-! SUPPORT. What the message path does with a command that passes R97: it is taken, its effect happens, it is answered. -/

namespace Sys2Proof.Machine

/-- A command that passes steps 1 to 6 of R97 and is not deferred: its effect `u` and its answer. -/
theorem hostCmd_taken {m : Msg} {ss : Session} {s t : State} (h : Taken m ss s t) (kind key : Nat)
    (k : State → Option (Nat × List Byte) × State) {a : Nat × List Byte} {u : State} (hk : k t = (some a, u)) :
    hostCmd m kind key true k s = u.answered m ss kind key a.1 a.2 := by
  obtain ⟨rfl, hr, hp, hf, hv, hfit, hcl, hs, hq, hrole⟩ := h
  unfold hostCmd
  have hp' : ¬ (2 ≤ m.port.val ∨ (!s.frameOk m.port.val m.frame) = true) := by simp [hf]; omega
  have hs' : (s.inc (K.RX_FRAMES m.port.val)).session m.session.toNat = some ss := hs
  dsimp only
  rw [if_neg hp', if_neg (by simp [hv])]
  rw [if_neg (by simp [hfit, hcl])]
  rw [hs']
  dsimp only
  rw [if_pos hq]
  change (if (!(s.taken m ss).roleHeld m.role.toNat m.epoch.toNat) = true then _ else _) = _
  rw [if_neg (by simp [hrole])]
  change (match k (s.taken m ss) with | (none, s) => s | (some (code, data), s) => (s.reply m.port.val ss.num m.seq.toNat kind code data).hostEvent kind key code ss.num) = _
  rw [hk]
  rfl

/-- A WRITE that is carried out and that its entry accepts. -/
theorem hostWrite_carried {m : Msg} {ss : Session} {key len v : Nat} {s t u : State} {eff : Nat → State → Nat × State}
    (h : Carried m ss key len v s t) (he : eff v t = (Ans.ok, u)) : hostWrite m key len v eff s = t.carriedOut u m ss key := by
  obtain ⟨ht, hl, h1, h2, hg, hm, hp, hc⟩ := h
  unfold hostWrite
  have : (m.length.toNat == 4 + len && decide (1 ≤ len) && decide (len ≤ 1024)) = true := by simp [hl, h1, h2]
  rw [this]
  have hw : t.applyWrite false false key len v eff = (Ans.ok, match Dict.find key with
    | some d => if d.keep && d.acc != Dict.Acc.rwg && u.rd key != t.rd key then u.noteKeep key else u
    | none => u) := by
    unfold State.applyWrite
    rw [hc]
    dsimp only
    rw [if_neg (by rcases hp with h | h <;> simp [State.mayWrite, h]), he]
    dsimp only
    cases Dict.find key with
    | none => rfl
    | some d => dsimp only; split <;> rfl
  rw [hostCmd_taken ht 0x11 key _ (a := (Ans.ok, [])) (u := match Dict.find key with
    | some d => if d.keep && d.acc != Dict.Acc.rwg && u.rd key != t.rd key then u.noteKeep key else u
    | none => u)]
  · rfl
  · rw [if_neg (by simp [hg])]
    rw [if_neg (by rcases hm with h | h <;> simp [h])]
    rw [hw]

/-- The same as an outcome. -/
theorem writeCmd_carried {m : Msg} {ss : Session} {key len v : Nat} {s t u : State} {eff : Nat → State → Nat × State}
    (h : Carried m ss key len v s t) (he : eff v t = (Ans.ok, u)) :
    writeCmd m key len v eff s = .next (t.carriedOut u m ss key).settle := by
  unfold writeCmd live
  rw [if_pos h.1.2.1, hostWrite_carried h he]

/-- A command on a running device: its effect, then the delivery of what it raised. -/
theorem live_running {f : State → State} {s : State} (h : s.dev = .running) : live f s = .next (f s).settle := by
  unfold live
  rw [if_pos h]

/-- The same for a known effect `u`. -/
theorem live_gives {f : State → State} {s u : State} (h : s.dev = .running) (hu : f s = u) : live f s = .next u.settle :=
  hu ▸ live_running h

/-- An event that a device takes whenever it is not held in reset. -/
theorem awake_gives {f : State → State} {s u : State} (h : s.dev ≠ .held) (hu : f s = u) : awake f s = .next u.settle := by
  unfold awake
  rw [if_neg h, hu]

end Sys2Proof.Machine
end

