-- ==== Sys2Proof/WellFormed.lean ====
section
/-! DEFINITION. Which command terms have the form the manual gives their message or input: lists of its length, fields within their
range. A message with a wrong header, address or check is well formed here, and a term that is not well formed has a meaning too:
the block answers both as R97 and R510 say. -/

namespace Sys2Proof

/-- A value of a WRITE, STAGE or CONCUR message has 1 to 1,024 bytes (R68, R94, R508). -/
def wfValue (b : List Byte) : Bool := decide (1 ≤ b.length) && decide (b.length ≤ 1024)

/-- Entry lists name no unit twice. -/
def wfDistinct (l : List Nat) : Bool := decide l.Nodup

/-- The pieces of a sync item fit its message (R410, R417). -/
def wfSync : SyncItem → Bool
  | .entry _ _ value => wfValue value
  | .record _ _ _ payload => decide (payload.length ≤ 16777216)
  | .mapping _ jobPage physPage _ => decide (jobPage.toNat < 2 ^ 24) && decide (physPage.toNat < 2 ^ 18)
  | .page _ offset data => decide (offset.toNat + data.length ≤ 65536)
  | .cell cell _ => decide (cell.toNat < 2 ^ 24)

/-- A command term has the form of its row. -/
def wf : Instr → Bool
  | .write _ _ _ value => wfValue value
  | .stage _ _ _ _ _ value auth => wfValue value && auth.length == 16
  | .concur _ _ _ _ _ value auth => wfValue value && auth.length == 16
  | .streamData _ _ _ data => decide (1 ≤ data.length) && decide (data.length ≤ 1476)
  | .dmaBeat waiting => wfDistinct (waiting.map (·.val))
  | .servoSample _ _ _ _ _ _ _ aux => aux.length == 4
  | .rcsync delay => decide (delay ≤ 300)
  | .sensorSlicePixels _ _ _ pixels => decide (1 ≤ pixels.length) && decide (pixels.length ≤ 88)
  | .cameraSlicePixels _ _ _ pixels => decide (1 ≤ pixels.length) && decide (pixels.length ≤ 88)
  | .ident _ i => i.fields.length == 16
  | .hostCommand _ _ _ c => wfValue c.value && (c.kind == 0x11 || c.kind == 0x12 || c.kind == 0x13)
  | .memoryWrite _ _ _ addr data => decide (addr.toNat < 2 ^ 40) && decide (1 ≤ data.length)
  | .decision _ _ _ l => wfDistinct (l.map (·.channel.val))
  | .latticeDelta _ _ _ cells => wfDistinct (cells.map (·.1.toNat)) && cells.all fun c => decide (c.1.toNat < 2 ^ 24)
  | .loopState _ _ _ l => wfDistinct (l.map (·.loop.val))
  | .syncPage _ i => wfSync i
  | .partnerDigest _ _ _ nodes => nodes.length == 46
  | .calMeasured runs => decide (runs.length ≤ 2)
  | .thermalSample raw => raw.length == 14
  | .powerOnReset p => wfDistinct (p.order.map (·.toNat)) && p.order.all fun r => decide (r.toNat < 10)
  | .badKind _ kind => !([0x01, 0x02, 0x03, 0x04, 0x10, 0x11, 0x12, 0x13, 0x20, 0x30, 0x31, 0x80, 0xA0, 0xC0, 0xC1] : List (BitVec 8)).contains kind
  | .debugWrite _ _ _ value => wfValue value
  | .memWrite _ _ _ data => wfValue data
  | .debugBadOp _ op => decide (6 ≤ op.toNat)
  | _ => true

end Sys2Proof
end

