-- ==== Sys2Proof/Tests/Slice0.lean ====
section
/-! SUPPORT. Tests: the checks of WellFormed on ill-formed terms, worked examples of the manual, and for every statement with hypotheses
states and operands that meet them, clause by clause. A state is built from a running device by naming the entries and fields that
matter; the expected results come from the manual's words. -/

open Sys2Proof Sys2Proof.Machine

namespace Sys2Proof.Tests

/-- An open session that expects SEQ 5. -/
def sess : Session :=
  { num := 7, hostId := 1, nonce := 0, next := 5, credit := 1, ackSeq := 0, sentSeq := 0, lastTick := 0, lastPort := 0, cache := [] }

/-- A message of LENGTH `len` with the expected SEQ on FN0, in a good frame. -/
def msg (len : Nat) : Msg :=
  { port := 0, frame := { fcsOk := true, toPort := true, vid := none, ethertype := 0x88B5, length := 200, udp := 0 }, version := 1, flags := 0,
    role := 0, session := 7, length := BitVec.ofNat 16 len, seq := 5, epoch := 0, resv := 0 }

/-- A running device with entries `od` (keys rising) and the open session. -/
def dev (od : List (Nat × Nat)) : State := { State.reset with dev := .running, sessions := [sess], od := od }

/-- The same on a part that holds the ACTIVE role. -/
def act (od : List (Nat × Nat)) : State := (dev od).wr K.TWIN_ROLE 1

/-- A running device at a tick. -/
def devAt (tick : Nat) (od : List (Nat × Nat)) : State := { dev od with tm := { State.reset.tm with tick := tick } }

/-- A WRITE of `v` in `len` bytes to `key` is carried out in state `s`. -/
abbrev Writes (key len v : Nat) (s : State) : Prop :=
  Carried (msg (4 + len)) sess key len v s (s.taken (msg (4 + len)) sess)

/-- State `s` with the command of `msg len` taken. -/
abbrev took (s : State) (len : Nat) : State := s.taken (msg len) sess

/-- Two party keys, byte 0 least significant. -/
def key0 : Nat := 0x0102030405060708090A0B0C0D0E0F101112131415161718191A1B1C1D1E1F20

/-- An ACTIVE part with both key slots filled. -/
def keyed (od : List (Nat × Nat)) : State := ((act od).wr K.PARTY_KEY_0 key0).wr K.PARTY_KEY_1 (key0 + 1)

/-- The authenticators of a STAGE by party 0 and a CONCUR by party 1 of proposal 1 for MASK_POLICY of the lamps. -/
def authStage : List Byte := [244#8, 12#8, 182#8, 110#8, 19#8, 248#8, 130#8, 32#8, 17#8, 205#8, 84#8, 124#8, 212#8, 240#8, 244#8, 177#8]

/-- A PTP message of a port in domain 0. -/
def ptp (p : Fin 4) : Ptp :=
  { port := p, frame := { fcsOk := true, toPort := true, vid := none, ethertype := 0x88F7, length := 100, udp := 0 }, domain := 0, seqId := 3,
    source := 9, requester := 0, correction := 0, seconds := 0, nanos := 0, twoStep := true, logInterval := 0xFD }

set_option maxRecDepth 60000
set_option exponentiation.threshold 4096

/-! Hypotheses of the statements, clause by clause. -/

/-- A domain far ahead of TIME64. -/
def ahead : State := { dev [(K.DOM_STATE 0, 2)] with doms := [(0, { Domain.init with refTime := 2 ^ 80 })] }

theorem wit_timeCommands :
    ahead.phase = Phase.idle ∧ ahead.rd (K.DOM_STATE (ahead.rd K.TIME_SEL)) = 2 ∧
      ahead.rd K.TIME_STEP_THRESHOLD * 16 <
        (accDiff ((ahead.dom (ahead.rd K.TIME_SEL)).timeAt ahead.tm.tick) ahead.acc / 2 ^ 32).natAbs ∧
    Writes K.TIME_SEL 1 1 (act []) ∧ Writes (K.DOM_NUMBER 1) 1 7 (act []) ∧
    (devAt (10 ^ 9) [(K.DOM_STATE 1, 1)]).rd (K.DOM_STATE 1) = 1 ∧
      ((devAt (10 ^ 9) []).dom 1).lastTick + (devAt (10 ^ 9) []).rd (K.DOM_LOSS_INTERVALS 1) * ((devAt (10 ^ 9) []).dom 1).interval ≤
        (devAt (10 ^ 9) []).tm.tick := by
  and_intros <;> decide

/-- Announce data of a grandmaster. -/
def gm : Announce := { priority1 := 1, clockClass := 6, accuracy := 0, variance := 0, priority2 := 0, grandmaster := 9, steps := 0, source := 9 }

/-- A device that follows source 9 on its ports, with a Sync and a delay request of sequenceId 3 pending. -/
def follows : State :=
  { dev [(K.PTP_ENABLE 0, 1), (K.PTP_ENABLE 2, 1)] with
    doms := [(0, { Domain.init with master := some gm, pendingSync := [⟨0, 3, 50, 100, 0, 0⟩] })],
    ptp := [(0, { PtpPort.init with reqMech := 1, reqSeq := 3, reqOpen := true, respOpen := true, respSeq := 3 })] }

/-- The same with peer delay on port 0. -/
def peers : State := follows.setPtp 0 { follows.ptpPort 0 with reqMech := 2 }

theorem wit_ptpMessages :
    follows.ptpFrameOk 0 (ptp 0).frame [0x88F7] = true ∧ (follows.inc (K.RX_FRAMES 0)).rd (K.PTP_ENABLE 0) ≠ 0 ∧
      (follows.inc (K.RX_FRAMES 0)).domOf 0 = some 0 ∧ ((follows.dom 0).master.map (·.source)) = some (ptp 0).source ∧
      (follows.dom 0).masterPort = 0 ∧
      (follows.dom 0).pendingSync.find? (fun y => y.port == 0 && y.seq == 3) = some ⟨0, 3, 50, 100, 0, 0⟩ ∧
    (follows.inc (K.RX_FRAMES 2)).rd (K.PTP_ENABLE 2) ≠ 0 ∧ (follows.inc (K.RX_FRAMES 2)).domOf 0 = some 0 ∧ follows.rd K.TIME_SEL = 0 ∧
    (follows.ptpPort 0).reqOpen = true ∧ (follows.ptpPort 0).reqSeq = 3 ∧ (follows.ptpPort 0).reqDomain = 0 ∧
      (follows.ptpPort 0).reqMech = 1 ∧ (follows.dom 0).heard = [] ∧
    (peers.ptpPort 0).reqMech = 2 ∧ (peers.ptpPort 0).respOpen = true ∧ (peers.ptpPort 0).respSeq = 3 := by
  and_intros <;> decide

/-- An armed trigger 3 whose instant has come. -/
def armed : State := act [(K.TT_ARM 3, 1)]

/-- A port with a transmit time stamp. -/
def stamps : State := { act [] with ptp := [(1, { PtpPort.init with txts := [(1, 2)] })] }

/-- Trigger 3 set to cycle loop 64. -/
def set : State := act [(K.TT_ACTION 3, 1), (K.TT_TARGET 3, 64)]

theorem wit_masterAndTrigger :
    (act [(K.PTP_ENABLE 2, 1)]).masterDue 2 = true ∧
    Writes (K.TXTS_RELEASE 1) 1 1 stamps ∧ 1 ≤ ((took stamps 5).ptpPort 1).txts.length ∧
    Writes (K.TT_ARM 3) 1 1 set ∧ triggerTarget ((took set 5).rd (K.TT_ACTION 3)) ((took set 5).rd (K.TT_TARGET 3)) = true ∧
    Writes (K.TT_ARM 3) 1 0 armed ∧ (took armed 5).rd (K.TT_ARM 3) = 1 ∧ armed.triggerDue 3 = true := by
  and_intros <;> decide

/-- An OPEN message. -/
def openMsg : Msg := { msg 12 with session := 0, seq := 0 }

/-- A notice that was sent to session 7 as number 1 and is due again. -/
def noticed : State :=
  { devAt (10 ^ 8) [] with ev := { State.reset.ev with queue := [{ openOf := none, ev := none, summary := [], addr := [7], sent := [(7, 1, 0)] }] } }

theorem wit_hostMessages :
    Taken (msg 4) sess (act []) (took (act []) 4) ∧ (Dict.find K.TIME_SEL).isSome = true ∧ (took (act []) 4).groupOk K.TIME_SEL = true ∧
      keyEntry K.TIME_SEL = false ∧ (Dict.find K.TIME_SEL).any (fun r => r.acc != Dict.Acc.wo) = true ∧
      Dict.indexExists (K.TIME_SEL / 256) = true ∧ K.TIME_SEL % 256 ≠ 0 ∧
    Writes K.TIME_STEP_THRESHOLD 4 1000 (act []) ∧
      (writeEffect false 7 0 K.TIME_STEP_THRESHOLD 1000 (took (act []) 8)).1 = Ans.ok ∧
    (dev []).frameOk 0 openMsg.frame = true ∧ openMsg.version = 1 ∧ openMsg.length = 12 ∧ msgFits openMsg = true ∧
      msgClean openMsg = true ∧ ((dev []).inc (K.RX_FRAMES 0)).roleHeld 0 0 = true ∧ (∀ x ∈ (dev []).sessions, x.hostId ≠ 2) ∧
      ((dev []).inc (K.RX_FRAMES 0)).sessions.length < ((dev []).inc (K.RX_FRAMES 0)).rd K.SESSION_LIMIT ∧
    Taken (msg 0) sess (dev []) (took (dev []) 0) ∧
    (dev []).frameOk 0 (msg 8).frame = true ∧ (dev []).session 7 = some sess ∧
    noticed.session 7 = some sess ∧ sess.ackSeq < 1 ∧ 0 + noticed.rd K.NOTICE_RESEND * 100000 ≤ noticed.tm.tick ∧
      (noticed.ev.queue.find? (fun n => n.sent.any fun x => x.1 == 7 && x.2.1 == 1)).isSome = true ∧
    sess.lastTick + (devAt (10 ^ 10) []).rd K.SESSION_TIMEOUT * 100000 ≤ (devAt (10 ^ 10) []).tm.tick ∧
    listedKind 5 = false ∧ (dev []).ignoredPtp 0 (msg 0).frame 5 = false ∧
      (dev []).ignoredPtp 0 { (msg 0).frame with ethertype := 0x0800, udp := 319 } 5 = true := by
  and_intros <;> decide

/-- MASK_POLICY of the lamps proposed by party 0. -/
def staged1 : State :=
  { keyed [] with staged := [(0, some { key := K.WL_POLICY, proposal := 1, party := 0, session := 7, tick := 0, stamp := 0, value := [1] })] }

theorem wit_stage :
    GuardTaken (msg 29) sess (keyed []) (took (keyed []) 29) 0x12 K.WL_POLICY 0 1 [1] authStage ∧
      (took (keyed []) 29).stageCheck K.WL_POLICY 0 1 1 = none ∧ (took (keyed []) 29).proposalFor K.WL_POLICY = none ∧
      (List.range 8).find? (fun i => (Tab.get (fun _ => none) (took (keyed []) 29).staged i).isNone) = some 0 := by
  and_intros <;> decide

theorem wit_guardExpired :
    (Tab.get (fun _ => none) staged1.staged 0).isSome = true ∧ 0 + 12000000000 ≤ ({ staged1 with tm := { staged1.tm with tick := 12000000000 } } : State).tm.tick := by
  and_intros <;> decide

theorem wit_concur :
    GuardTaken (msg 29) sess staged1 (took staged1 29) 0x13 K.WL_POLICY 1 1 [1]
      [119#8, 157#8, 240#8, 247#8, 162#8, 67#8, 35#8, 45#8, 6#8, 147#8, 112#8, 107#8, 31#8, 202#8, 230#8, 3#8] ∧
      ((took staged1 29).proposals.find? (fun e => e.2.proposal == 1 && decide ((took staged1 29).tm.tick < e.2.tick + 12000000000))).map (fun e => (e.2.key, e.2.value, e.2.party)) =
        some (K.WL_POLICY, [1], 0) ∧
      (took staged1 29).guardCond K.WL_POLICY 1 = none := by
  and_intros <;> decide

/-- A device that stores an empty image. -/
def storing : State := { dev [] with kp := { State.reset.kp with storing := some { gen := 1, entries := [] } } }

/-- Memory of transfer context `tc` with job page 0 mapped to the first page, both ways. -/
def mapped (tc : Nat) (s : State) : State :=
  { s with mem := { s.mem with pages := [(pageKey tc 0, some { phys := 0, write := true, pins := 0, unmap := false })] } }

/-- A journal that runs, on a mapped ring of one page. -/
def journals : State := mapped 57 (dev [(K.JOURNAL_ENABLE, 1), (K.JOURNAL_SIZE, 65536)])

theorem wit_keepAndJournal :
    Writes K.KEEP_STORE 4 0x65766173 (act []) ∧ (took (act []) 8).rd K.KEEP_STATE ≠ 2 ∧
    storing.kp.storing = some { gen := 1, entries := [] } ∧ storing.kp.again = false ∧
    Writes K.KEEP_RESTORE 4 0x746C6664 (act []) ∧ (took (act []) 8).phase = Phase.idle ∧
      ((took (act []) 8).od.map (·.1)).filter restorable = [] ∧
    Writes K.KEEP_RESTORE 4 0x746C6664 (act [(K.TIME_STEP_THRESHOLD, 1000)]) ∧
      ((took (act [(K.TIME_STEP_THRESHOLD, 1000)]) 8).od.map (·.1)).filter restorable ≠ [] ∧
    (dev [(K.NODE_DIGEST_STATE, 1)]).rd K.NODE_DIGEST_STATE ≠ 0 ∧
    shedBuffer journals.jr.buf = (journals.jr.buf, 0) ∧ journals.startJournal.rd K.JOURNAL_ENABLE = 1 ∧ journals.startJournal.jr.held.isSome = true ∧
    ({ dev [] with jr := { State.reset.jr with sealDue := true } } : State).jr.sealDue = true ∧
    Writes (K.EV_CLEAR 0x10) 1 1 (act []) ∧ Dict.reservedSource 0x10 = false := by
  and_intros <;> decide

/-- Stream endpoint 3 open on context 40, its 4 bytes all received. -/
def streaming : State :=
  { act [] with streams := [(3, { Stream.init with ackSince := some 0 })] }.wrs
    [(K.STREAM_STATE 3, 1), (K.STREAM_LENGTH 3, 4), (K.STREAM_MARK 3, 4), (K.STREAM_SESSION 3, 7), (K.STREAM_TC 3, 40)]

theorem wit_streams :
    Writes (K.STREAM_CONTROL 3) 1 1 (act [(K.STREAM_LENGTH 3, 4)]) ∧ (took (act [(K.STREAM_LENGTH 3, 4)]) 5).rd (K.STREAM_STATE 3) ≠ 1 ∧
      (took (act [(K.STREAM_LENGTH 3, 4)]) 5).rd (K.STREAM_LENGTH 3) ≠ 0 ∧
    Writes (K.STREAM_CONTROL 3) 1 2 streaming ∧ (took streaming 5).rd (K.STREAM_STATE 3) = 1 ∧
    (dev []).frameOk 0 (msg 9).frame = true ∧ msgFits (msg 9) = true ∧ msgClean (msg 9) = true ∧ (dev []).session 7 = some sess ∧
      (dev []).mirrored = false ∧ msgFits (msg 1484) = false ∧
      msgFits { msg 1484 with frame := { (msg 1484).frame with length := 1518 } } = true ∧
    streaming.rd (K.STREAM_STATE 3) = 1 ∧ streaming.rd (K.STREAM_MARK 3) = streaming.rd (K.STREAM_LENGTH 3) ∧
    (streaming.stream 3).ackSince = some 0 ∧ 0 + 20000 ≤ ({ streaming with tm := { streaming.tm with tick := 20000 } } : State).tm.tick := by
  and_intros <;> decide

/-- A device that runs the axis cycle and waits for replies to its first datagram. -/
def cycling : State :=
  { devAt 5200 [(K.TWIN_ROLE, 1), (K.CYCLIC_ENABLE, 1), (K.SLOT_NODE 2, 5)] with
    cyc := { State.reset.cyc with nextTick := 10000, cycle := 1, silent := [(2, 2)] } }

/-- A reply frame of a drive. -/
def drive : Msg := { msg 24 with port := 2, seq := 0, frame := { (msg 24).frame with length := 64 } }

theorem wit_cycle :
    Writes K.CYCLIC_ENABLE 1 1 (act []) ∧ (took (act []) 5).rd K.CYCLIC_ENABLE = 0 ∧
    Writes K.CYCLIC_ENABLE 1 0 cycling ∧ (took cycling 5).rd K.CYCLIC_ENABLE ≠ 0 ∧
    cycling.cyc.nextTick ≤ ({ cycling with tm := { cycling.tm with tick := 7500 } } : State).tm.tick + 2500 ∧ cycling.drivesPorts = true ∧
    cycling.frameOk 2 drive.frame = true ∧ msgFits drive = true ∧ msgClean drive = true ∧ cycling.slotsWith 5 = [2] ∧
      (cycling.inc (K.RX_FRAMES 2)).rd K.CYCLIC_ENABLE = 1 ∧ (cycling.inc (K.RX_FRAMES 2)).cyc.cycle = 1 ∧
      (cycling.inc (K.RX_FRAMES 2)).tm.tick ≤ (cycling.inc (K.RX_FRAMES 2)).cycleTick + (cycling.inc (K.RX_FRAMES 2)).rd K.CYCLIC_REPLY_WINDOW ∧
    cycling.silentRun 2 = 2 := by
  and_intros <;> decide

/-- Context 40 parked after a write fault at job address 0, page 0 now mapped. -/
def parked : State := mapped 40 (act [(K.TC_STATE 40, 2)])

/-- Context 40 in the middle of a write. -/
def writing : State :=
  let s := mapped 40 (dev [(K.TC_STATE 40, 1)])
  { s with mem := { s.mem with tcs := [(40, { Tc.init with job := .write 0 [1, 2] })] } }

/-- Channel 0 runs a program whose page is not pinned yet. -/
def unpinned : State :=
  let s := mapped 0 (dev [(K.CS_PC 0, 65520), (K.BC_STATE 0, Bc.run)])
  { s with chans := [(0, { Chan.init with member := true })] }

theorem wit_memory :
    Writes (K.TC_MAP 40) 16 (1 <<< 64) (act [(K.TABLE_FREE, 100)]) ∧ bits (1 <<< 64) 95 64 = 1 ∧ bits (1 <<< 64) 23 0 + 1 ≤ 2 ^ 24 ∧
      bits (1 <<< 64) 63 32 + 1 ≤ 261120 ∧ Writes (K.TC_MAP 40) 16 (261119 * 2 ^ 32 + 1 <<< 64) (act [(K.TABLE_FREE, 100)]) ∧
      ((List.range 1).any fun i => ((took (act [(K.TABLE_FREE, 100)]) 20).page 40 (0 + i)).isSome) = false ∧
      (took (act [(K.TABLE_FREE, 100)]) 20).tablesNeeded 40 0 1 ≤ (took (act [(K.TABLE_FREE, 100)]) 20).rd K.TABLE_FREE ∧
    Writes (K.TC_UNMAP 40) 8 (1 <<< 32) parked ∧ bits (1 <<< 32) 63 32 = 1 ∧ bits (1 <<< 32) 23 0 + 1 ≤ 2 ^ 24 ∧
      (took parked 12).page 40 0 = some { phys := 0, write := true, pins := 0, unmap := false } ∧
    Writes (K.TC_RESUME 40) 1 1 parked ∧ (took parked 5).rd (K.TC_STATE 40) = 2 ∧
      (took parked 5).resumeFault 40 = none ∧ ((took parked 5).tc 40).job = .none ∧
    Writes (K.TC_RESUME 40) 1 2 parked ∧
    Taken (msg 4) sess (act []) (took (act []) 4) := by
  and_intros <;> decide

theorem wit_beats :
    (dev []).resumeDue.arbWinner (([40, 3].map (fun (f : Fin 192) => f.val)).filter fun tc => (dev []).resumeDue.rd (K.TC_STATE tc) != 2) = some 3 ∧
      (dev []).resumeDue.rd (K.TC_STATE 3) ≠ 1 ∧
    writing.resumeDue.arbWinner (([40].map (fun (f : Fin 192) => f.val)).filter fun tc => writing.resumeDue.rd (K.TC_STATE tc) != 2) = some 40 ∧
      writing.resumeDue.rd (K.TC_STATE 40) = 1 ∧ (writing.resumeDue.tc 40).job = .write 0 [1, 2] ∧
      writing.resumeDue.beatFault 40 0 true = none ∧ writing.resumeDue.firstLocked 40 0 1 = none ∧
      (writing.setPage 40 0 none).resumeDue.beatFault 40 0 true = some 1 ∧ (writing.setPage 40 0 none).resumeDue.rd (K.TC_STATE 40) = 1 ∧
    (devAt 6400 []).pair (devAt 6400 []).tm.tick % 6400 = 0 ∧
    (unpinned.chan 0).member = true ∧ (unpinned.chan 0).reached = false ∧ unpinned.rd (K.BC_STATE 0) = Bc.run ∧
      (unpinned.window 0 1048576).1.find? (fun jp => !(unpinned.tc 0).window.contains jp) = some 0 := by
  and_intros <;> decide

/-- The memory of a context holds `bytes` from job address `at0` of a device whose page is mapped. -/
def holds (tc at0 : Nat) (bytes : List Byte) (s : State) : State := (mapped tc s).writeMem tc at0 bytes

/-- A descriptor of layer 1 without channels: recoat loop 88, TAU 1, and its CRC. -/
def desc1 : List Byte :=
  toLE 4 1 ++ toLE 2 0 ++ toLE 1 0 ++ toLE 1 88 ++ toLE 8 0 ++ toLE 4 1 ++ toLE 232 0 ++ toLE 4 2508770729

/-- Layer 0 is over and the descriptor of layer 1 stands in memory. -/
def committing : State := holds 40 0 desc1 (act [(K.LAYER_DESC_TC, 40)])

/-- Layer 1 is committed. -/
def pend1 : State :=
  { devAt 5 [] with layer := { State.reset.layer with pend := some (descOf (leNat desc1)) } }

/-- A device in a phase of the layer. -/
def inPhase (p : Nat) (od : List (Nat × Nat)) : State := (dev od).setPhase p

/-- A head-trim switch of channel 3 that waits for its effect. -/
def switching : State :=
  { dev [] with cal := { State.reset.cal with switches := [(3, 3, { gen := 1, check := 0, stamp := 0, payload := [] })] } }

theorem wit_layer :
    Writes K.LAYER_COMMIT 4 1 committing ∧ (took committing 8).rd K.LAYER_PENDING = 0 ∧
      1 = successor ((took committing 8).rd K.LAYER_NUMBER) ∧ (took committing 8).rd K.PWR_ORDER_FAULT ≠ 1 ∧
      (took committing 8).rd K.CAL_MEAS_STATE = 0 ∧
      (took committing 8).readMem ((took committing 8).rd K.LAYER_DESC_TC) ((took committing 8).rd K.LAYER_DESC_ADDR) 256 = some desc1 ∧
      descOk 1 desc1 = true ∧
    Writes K.LAYER_RESUME 4 9 (act []) ∧ (took (act []) 8).phase = Phase.idle ∧ (took (act []) 8).rd K.LAYER_PENDING = 0 ∧
    pend1.layer.pend = some (descOf (leNat desc1)) ∧ pend1.startDue = true ∧ pend1.startBlocked = false ∧
    (pend1.wr K.DT_LEVEL 3).startDue = true ∧ (pend1.wr K.DT_LEVEL 3).startBlocked = true ∧ (pend1.wr K.DT_LEVEL 3).phase ≠ Phase.held ∧
    (inPhase Phase.expose []).repairReady = true ∧
    (inPhase Phase.repair []).phase = Phase.repair ∧ (inPhase Phase.repair []).repairsOver = true ∧
    switching.cal.switches.length = 1 ∧ switching.cal.switchEnd ≤ switching.tm.tick ∧
    ({ dev [] with layer := { State.reset.layer with idleDue := some 0 } } : State).phase = Phase.idle := by
  and_intros <;> decide

/-- Channel 0 of a running device, with the entries and the private state given. -/
def chan0 (od : List (Nat × Nat)) (c : Chan) : State := { dev od with chans := [(0, c)] }

/-- The chord of a MARK to (12 mm, -3.5 mm) without FOCUS or limits. -/
def chord1 : Chord :=
  { shape := .mark 12000000 (-3500000), speed := 0, power := 0xC000, noFF := false, noLoop := false, reorder := false, addr := 0,
    par := { Params.none with dwellTimeout := 5 } }

/-- A chord planned and done. -/
def planned1 : Planned :=
  { chord := chord1, first := 0, t0 := 0, tEnd := 0, boundary := 0, sx := 0, sy := 0, ex := 0, ey := 0, rx := 0, ry := 0, segs := [],
    held := { lock := [], env := [] }, inTail := false, after := none, checked := true, item := none }

/-- Channel 0 has waited since tick 0 for its candidate. -/
def dwelling : State :=
  chan0 [(K.BC_STATE 0, Bc.run)] { Chan.init with cand := some { Cand.blank 0 with chords := [(chord1, none)], dwellSince := some 0 } }

/-- An unlisted walk from the start of a program with one command. -/
def walks (word : Nat) : State :=
  holds 0 0 (toLE 16 word) (chan0 [] { Chan.init with walk := some { cur := { pc := 0, ox := 0, oy := 0, stack := [] }, x := 0, y := 0, reports := 0, pre := [] } })

/-- The lattice is on. -/
def latticed : State := devAt 380 [(K.LAT_STATE, 3), (K.LAT_ENABLE, 1)]

theorem wit_samples :
    (devAt 80 [(K.TWIN_ROLE, 1)]).inSample = 80 ∧ (devAt 80 [(K.TWIN_ROLE, 1)]).role = Role.active ∧
    (dwelling.chan 0).cand.isSome = true ∧ 0 + 5 ≤ ({ dwelling with tm := { dwelling.tm with tick := 5 } } : State).tm.tick ∧
      dwelling.rd (K.BC_STATE 0) = Bc.run ∧
    (chan0 [(K.LANE_STATE 0, 4)] Chan.init).laneUp 0 = true ∧ (32767 * 2048 : Nat) % 2048 = 0 ∧ (1 : Nat) % 2048 ≠ 0 ∧
    ((dwelling.chan 0).cand.bind (·.chords.head?)) = some (chord1, none) ∧ ((dwelling.chan 0).cand.map (·.forced)) = some false ∧
    (devAt 160 []).inSample = 160 ∧ (devAt 40 []).inSample = 40 ∧
    latticed.inSample = 380 ∧ latticed.latOn = true ∧ latticed.rd K.DT_CUTOFF = 0 ∧ latticed.mirrored = false ∧
    ((chan0 [] { Chan.init with run := [planned1] }).chan 0).run = [planned1] ∧
      (chan0 [] { Chan.init with run := [planned1] }).aheadOf 0 = false := by
  and_intros <;> decide

/-- The end of a program: the layer-close command of layer 0. -/
theorem wit_walkClose : ((walks 0x30).chan 0).walk.isSome = true ∧
    (walks 0x30).walkNext 0 65536 { cur := { pc := 0, ox := 0, oy := 0, stack := [] }, x := 0, y := 0, reports := 0, pre := [] } = .close := by
  and_intros <;> decide

/-- Channel 0 has reached its close and nothing is left. -/
theorem wit_reissue : (chan0 [(K.BC_STATE 0, Bc.run)] { Chan.init with wait := .closing }).rd (K.BC_STATE 0) = Bc.run ∧
    (chan0 [(K.BC_STATE 0, Bc.run)] { Chan.init with wait := .closing }).closeReady 0 = true := by
  and_intros <;> decide

/-- A MARK command and the walk that reports it. -/
def mark1 : Nat := 0xFFCA9820 <<< 64 ||| 12000000 <<< 32 ||| 0xC000 <<< 16 ||| 1

theorem wit_walkReport :
    ((match (walks mark1).walkNext 0 65536 { cur := { pc := 0, ox := 0, oy := 0, stack := [] }, x := 0, y := 0, reports := 0, pre := [] } with
      | .report _ _ _ => true
      | _ => false) = true) := by
  decide

/-- Channel 0 runs a program of the words given, at its first. -/
def runs (od : List (Nat × Nat)) (words : List Nat) : State :=
  holds 0 0 (words.flatMap (toLE 16)) ((chan0 [(K.BC_STATE 0, Bc.run)] { Chan.init with member := true }).wrs od)

/-- How the witnesses below show a channel at a command: the word, and the conditions on it. -/
theorem stands {s : State} {n op : Nat} {c : Cmd} (w : Nat) (h : s.dev = .running)
    (hw : s.atCmd n = some w ∧ w % 256 = op ∧ s.cmdError n w = none ∧ decodeCmd w = some c)
    (hb : s.breaksAt n 1 (· == s.rd (K.CS_PC n)) = []) : Stands s n op c := ⟨h, .inr (.inr hb), w, hw⟩

/-- FACET slot 0 has an image of one commit. -/
def facets (words : List Nat) : State :=
  let s := runs [(K.FX_STATE 0 0, 1)] words
  { s with chans := [(0, { s.chan 0 with commits := [(0, [{ num := 1, tick := 0, bases := [], maps := [], planes := 1, pinned := [], state := 0, effectLayer := 0, effectPass := 0 }])] })] }

/-- Lune 2 with a square of 20 mm that channel 0 may serve. -/
def luned (words : List Nat) : State :=
  runs [(K.LUNE_ENABLE 2, 1), (K.LUNE_ELIGIBLE 2, 1), (K.LUNE_VERTICES 2, 4),
    (K.LUNE_POLYGON 2, leNat (toLE 4 0xFF676980 ++ toLE 4 0xFF676980 ++ toLE 4 10000000 ++ toLE 4 0xFF676980 ++ toLE 4 10000000 ++
      toLE 4 10000000 ++ toLE 4 0xFF676980 ++ toLE 4 10000000))] words

theorem wit_mark : Stands (runs [] [mark1]) 0 Op.mark (.mark 12000000 (-3500000) 0 0xC000 false false) ∧ TakesChord (runs [] [mark1]) 0 :=
  ⟨stands mark1 rfl (by decide) (by decide), by decide⟩
theorem wit_arc : Stands (runs [] [1 <<< 96 ||| 1000000 <<< 32 ||| 2]) 0 Op.arc (.arc 1000000 0 1 0 false false) ∧
    TakesChord (runs [] [1 <<< 96 ||| 1000000 <<< 32 ||| 2]) 0 := ⟨stands (1 <<< 96 ||| 1000000 <<< 32 ||| 2) rfl (by decide) (by decide), by decide⟩
theorem wit_facet : Stands (facets [1 <<< 96 ||| 4]) 0 Op.facet (.facet 0 1 0 0 0 false false) ∧ TakesChord (facets [1 <<< 96 ||| 4]) 0 :=
  ⟨stands (1 <<< 96 ||| 4) rfl (by decide) (by decide), by decide⟩
theorem wit_jump : Stands ((runs [] [1000 <<< 32 ||| 3]).setPhase Phase.expose) 0 Op.jump (.jump 1000 0 0 false) ∧
    TakesChord ((runs [] [1000 <<< 32 ||| 3]).setPhase Phase.expose) 0 ∧ ((runs [] [1000 <<< 32 ||| 3]).setPhase Phase.expose).phase = Phase.expose :=
  ⟨stands (1000 <<< 32 ||| 3) rfl (by decide) (by decide), by decide, by decide⟩
theorem wit_float : Stands (luned [2 <<< 32 ||| 2 <<< 16 ||| 8, 3, 1000000 <<< 32 ||| 1]) 0 Op.float (.float 2 2) ∧
    ((luned [2 <<< 32 ||| 2 <<< 16 ||| 8, 3, 1000000 <<< 32 ||| 1]).fetchBody 0 16 2).isSome = true ∧
    (luned [2 <<< 32 ||| 2 <<< 16 ||| 8, 3, 1000000 <<< 32 ||| 1]).poolFits 2 = true :=
  ⟨stands (2 <<< 32 ||| 2 <<< 16 ||| 8) rfl (by decide) (by decide), by decide, by decide⟩
theorem wit_claim : Stands (luned [2 <<< 16 ||| 9]) 0 Op.claim (.claim 0 2 false) ∧ ((luned [2 <<< 16 ||| 9]).chan 0).stepping = false ∧
    (luned [2 <<< 16 ||| 9]).aheadOf 0 = false ∧ ((luned [2 <<< 16 ||| 9]).chan 0).refused = none :=
  ⟨stands (2 <<< 16 ||| 9) rfl (by decide) (by decide), by decide, by decide, by decide⟩
theorem wit_posting : ({ luned [2 <<< 32 ||| 2 <<< 16 ||| 8] with chans := [(0, { Chan.init with member := true, wait := .posting, run := [planned1] })] } : State).rd
      (K.BC_STATE 0) = Bc.run ∧
    ((luned [2 <<< 32 ||| 2 <<< 16 ||| 8]).readNum 0 ((luned [2 <<< 32 ||| 2 <<< 16 ||| 8]).rd (K.CS_PC 0)) 16).bind decodeCmd = some (.float 2 2) := by
  and_intros <;> decide

/-- A WAIT TIME for TIME64 1000, and a device that waits there, before and after. -/
def timed (t : Nat) (w : Wait) (words : List Nat) : State :=
  let s := runs [] words
  { s with tm := { s.tm with time64 := t }, chans := [(0, { s.chan 0 with wait := w })] }

theorem wit_waitTime : Stands (timed 999 .none [1000 <<< 64 ||| 1 <<< 8 ||| 0x10]) 0 Op.waitTime (.waitTime 1000 false false true) ∧
    ((timed 999 .none [1000 <<< 64 ||| 1 <<< 8 ||| 0x10]).chan 0).stepping = false ∧ atOrAfter 999 1000 = false ∧
    ((timed 1000 (.time 1000 true false false) []).chan 0).wait = .time 1000 true false false ∧
    ((timed 1000 (.time 1000 true false false) []).chan 0).released = none ∧ atOrAfter (timed 1000 (.time 1000 true false false) []).now 1000 = true :=
  ⟨stands (1000 <<< 64 ||| 1 <<< 8 ||| 0x10) rfl (by decide) (by decide), by decide, by decide, by decide, by decide, by decide⟩
theorem wit_waitEvent : Stands (runs [] [7 <<< 96 ||| 0x20 <<< 32 ||| 0x40 <<< 16 ||| 0x11]) 0 Op.waitEvent (.waitEvent 7 0x20 0x40 false) ∧
    ((runs [] [7 <<< 96 ||| 0x20 <<< 32 ||| 0x40 <<< 16 ||| 0x11]).chan 0).stepping = false :=
  ⟨stands (7 <<< 96 ||| 0x20 <<< 32 ||| 0x40 <<< 16 ||| 0x11) rfl (by decide) (by decide), by decide⟩
theorem wit_eventTimeout : (timed 0 (.event 0x40 0x20 0 0 false) []).eventLate 0 = false ∧
    ({ timed 0 (.event 0x40 0x20 0 7 false) [] with tm := { (timed 0 (.event 0x40 0x20 0 7 false) []).tm with tick := 7 } } : State).eventLate 0 = true ∧
    ((timed 0 (.event 0x40 0x20 0 7 false) []).chan 0).run = [] := by
  and_intros <;> decide
theorem wit_barrier : Stands (runs [] [1 <<< 48 ||| 5 <<< 16 ||| 0x12]) 0 Op.barrier (.barrier 1 5 false) ∧
    ((runs [] [1 <<< 48 ||| 5 <<< 16 ||| 0x12]).chan 0).stepping = false ∧
    (∀ m < 16, ((runs [] [1 <<< 48 ||| 5 <<< 16 ||| 0x12]).chan m).wait = .none) :=
  ⟨stands (1 <<< 48 ||| 5 <<< 16 ||| 0x12) rfl (by decide) (by decide), by decide, by decide⟩
theorem wit_set : Stands (runs [] [1000 <<< 64 ||| 1 <<< 16 ||| 0x18]) 0 Op.set (.set 1 1000 0 0) ∧
    Stands (runs [] [0x10000 <<< 96 ||| 1000 <<< 64 ||| 4 <<< 24 ||| 1 <<< 16 ||| 0x18]) 0 Op.set (.set 1 1000 4 0x10000) :=
  ⟨stands (1000 <<< 64 ||| 1 <<< 16 ||| 0x18) rfl (by decide) (by decide),
    stands (0x10000 <<< 96 ||| 1000 <<< 64 ||| 4 <<< 24 ||| 1 <<< 16 ||| 0x18) rfl (by decide) (by decide)⟩
theorem wit_call : Stands (runs [] [2 <<< 32 ||| 0x20]) 0 Op.call (.call 0 0 2) ∧
    (((runs [] [2 <<< 32 ||| 0x20]).cursor 0).call 0 0 2).isSome = true := ⟨stands (2 <<< 32 ||| 0x20) rfl (by decide) (by decide), by decide⟩
/-- Channel 0 stands at a RETURN inside a call. -/
def called : State :=
  let s := runs [(K.CS_DEPTH 0, 1)] [0x21]
  { s with chans := [(0, { s.chan 0 with stack := [.call 32 0 0] })] }
theorem wit_return : Stands called 0 Op.ret .ret ∧ ((called.cursor 0).ret).isSome = true := ⟨stands 0x21 rfl (by decide) (by decide), by decide⟩
theorem wit_repeat : Stands (runs [] [3 <<< 32 ||| 1 <<< 16 ||| 0x22, mark1]) 0 Op.rep (.rep 0 0 3 1) ∧
    (((runs [] [3 <<< 32 ||| 1 <<< 16 ||| 0x22, mark1]).cursor 0).rep 0 0 3 1).isSome = true :=
  ⟨stands (3 <<< 32 ||| 1 <<< 16 ||| 0x22) rfl (by decide) (by decide), by decide⟩
theorem wit_marker : Stands (runs [] [99 <<< 64 ||| 0x28]) 0 Op.marker (.marker 99) := stands (99 <<< 64 ||| 0x28) rfl (by decide) (by decide)
theorem wit_close : Stands (runs [] [0x30]) 0 Op.close (.close 0) ∧ ((runs [] [0x30]).chan 0).stepping = false :=
  ⟨stands 0x30 rfl (by decide) (by decide), by decide⟩
theorem wit_halt : Stands (runs [] [0x31]) 0 Op.halt .halt := stands 0x31 rfl (by decide) (by decide)
theorem wit_badOpcode : (runs [] [0x32]).atCmd 0 = some 0x32 ∧ decodeCmd 0x32 = none := by and_intros <;> decide

/-- Channel 0 of an ACTIVE part in HOLD with the cause given. -/
def holding (cause : Nat) : State := act [(K.CS_HOLD_CAUSE 0, cause), (K.BC_STATE 0, Bc.hold)]

/-- Everything ARM asks for stands. -/
def armable : State :=
  { act [(K.BC_POWER_CEILING 0, 1000), (K.BP_STATE, 1), (K.LANE_STATE 0, 4)] with
    chans := [(0, { Chan.init with headStatus := 0x8000 })] }.wr (K.BC_REGION_0 0) (leNat (toLE 8 0 ++ toLE 4 1 ++ toLE 4 1))

/-- Channel 0 of an ACTIVE part runs a chord. -/
def running : State := { act [(K.BC_STATE 0, Bc.run)] with chans := [(0, { Chan.init with run := [planned1] })] }

theorem wit_channels :
    Writes (K.CS_CONTROL 0) 1 1 (holding 2) ∧ Writes (K.CS_CONTROL 0) 1 1 (holding 5) ∧
      (took (holding 5) 5).rd (K.BC_STATE 0) = Bc.hold ∧ (took (holding 5) 5).rd (K.CS_HOLD_CAUSE 0) = 5 ∧
    Writes (K.CS_CONTROL 0) 1 2 (holding 4) ∧ ((took (holding 4) 5).chan 0).wait = .none ∧
      ((took (holding 4) 5).readNum 0 ((took (holding 4) 5).rd (K.CS_PC 0)) 16).bind decodeCmd = none ∧
    Writes (K.BC_CONTROL 0) 1 1 armable ∧ (took armable 5).armOk 0 = true ∧
    Writes (K.BC_CONTROL 0) 1 2 armable ∧ (took armable 5).rd (K.BC_STATE 0) ≠ Bc.run ∧
    Writes (K.BC_CONTROL 0) 1 2 running ∧ (took running 5).rd (K.BC_STATE 0) = Bc.run ∧
      (((took running 5).chan 0).run.any fun p => decide (p.first < (took running 5).tm.tick + 240)) = true := by
  and_intros <;> decide

/-- A square of 20 mm, and lune 2 of an ACTIVE part that has it. -/
def square : Nat := leNat (toLE 4 0xFF676980 ++ toLE 4 0xFF676980 ++ toLE 4 10000000 ++ toLE 4 0xFF676980 ++ toLE 4 10000000 ++
  toLE 4 10000000 ++ toLE 4 0xFF676980 ++ toLE 4 10000000)
def lune2 (words : List Nat) (run : Bool) : State :=
  let s := holds 40 0 (words.flatMap (toLE 16)) ((act []).wrs [(K.LUNE_VERTICES 2, 4), (K.LUNE_POLYGON 2, square), (K.LUNE_ELIGIBLE 2, 1),
    (K.LUNE_POST_TC 2, 40), (K.LUNE_POST_COUNT 2, 2)])
  if run then ({ s with chans := [(0, { Chan.init with member := true })] }.wrs [(K.LUNE_ENABLE 2, 1), (K.BC_STATE 0, Bc.run)]).setPhase Phase.expose
  else s

theorem wit_lunes :
    Writes (K.LUNE_ENABLE 2) 1 1 (lune2 [] false) ∧ (took (lune2 [] false) 5).rd (K.LUNE_VERTICES 2) = 4 ∧
      (took (lune2 [] false) 5).rd (K.LUNE_POLYGON 2) / 2 ^ (64 * (took (lune2 [] false) 5).rd (K.LUNE_VERTICES 2)) = 0 ∧
      strictlyConvex ((took (lune2 [] false) 5).lunePoly 2) = true ∧ (took (lune2 [] false) 5).rd (K.LUNE_ELIGIBLE 2) ≠ 0 := by
  and_intros <;> decide
theorem wit_lunePost :
    Writes (K.LUNE_POST 2) 1 1 (lune2 [3, 1000000 <<< 32 ||| 1] true) ∧
      (took (lune2 [3, 1000000 <<< 32 ||| 1] true) 5).phase = Phase.expose ∧ (took (lune2 [3, 1000000 <<< 32 ||| 1] true) 5).liveMask 2 ≠ 0 ∧
      (took (lune2 [3, 1000000 <<< 32 ||| 1] true) 5).rd (K.LUNE_POST_COUNT 2) ≠ 0 ∧
      (((took (lune2 [3, 1000000 <<< 32 ||| 1] true) 5).readBody ((took (lune2 [3, 1000000 <<< 32 ||| 1] true) 5).rd (K.LUNE_POST_TC 2))
        ((took (lune2 [3, 1000000 <<< 32 ||| 1] true) 5).rd (K.LUNE_POST_ADDR 2)) 2).map
          (fun b => (took (lune2 [3, 1000000 <<< 32 ||| 1] true) 5).bodyErrors 2 0 0 16 b)) = some [] ∧
      (took (lune2 [3, 1000000 <<< 32 ||| 1] true) 5).poolFits 2 = true := by
  and_intros <;> decide

/-- A recoat of layer 1 with the recoat loop in the state given. -/
def recoating (loop : Nat) : State :=
  { (act [(K.AX_STATUS 0, 1)]).wr (K.LOOP_STATE 88) loop with
    layer := { State.reset.layer with cur := some { descOf 0 with recoatLoop := 88 } } }.setPhase Phase.recoat

theorem wit_blade :
    300 ≤ closeDelay ∧ (recoating Lp.closed).filtered K.PIN_FILTER_RCSYNC 300 = true ∧ (recoating Lp.closed).latchAtTick 0 0 = 0 ∧
      ((recoating Lp.closed).wrS 64 (K.AX_RCSYNC_LATCH 0) 0).faultAt 0 0 = false ∧ (recoating Lp.closed).phase = Phase.recoat ∧ (recoating Lp.closed).layer.rcSeen = false ∧
      (recoating Lp.closed).rd K.BED_BLADE_AXIS = 0 ∧ (recoating Lp.closed).rd (K.AX_STATUS 0) = 1 ∧
      (recoating Lp.closed).layer.startAt ≤ (recoating Lp.closed).tm.tick - 0 ∧
      ((recoating Lp.closed).rdS 32 K.BED_BLADE_REF -
        (recoating Lp.closed).bladeRaw ((recoating Lp.closed).scaled 0 ((recoating Lp.closed).latchAtTick 0 0))).natAbs = 0 ∧
    (recoating Lp.hold).rd K.BED_BLADE_STATE ≠ 3 ∧ (recoating Lp.hold).loopState 88 = Lp.hold ∧
      (recoating Lp.tripped).loopState 88 = Lp.tripped ∧
    Writes K.RECOAT_COMMAND 1 1 (recoating Lp.hold) ∧ (took (recoating Lp.hold) 5).layer.cur = some { descOf 0 with recoatLoop := 88 } ∧
      (took (recoating Lp.hold) 5).phase = Phase.recoat ∧ (took (recoating Lp.hold) 5).loopState 88 ≠ Lp.tripped := by
  and_intros <;> decide

/-- Slot 1 of channel 3 described, and with its image committed. -/
def slot1 : State :=
  act [(K.FX_PLANES 3 1, 1), (K.FX_WIDTH 3 1, 8), (K.FX_HEIGHT 3 1, 8), (K.FX_PIXEL_PITCH 3 1, 1000), (K.FX_LINE_PITCH 3 1, 1000),
    (K.FX_PIXEL_PERIOD 3 1, 1000)]
def commit1 (od : List (Nat × Nat)) (p : Option Pass) (d : Option Cand) : State :=
  { act od with chans := [(3, { Chan.init with
    run := [planned1], pass := p, cand := d,
    commits := [(1, [{ num := 1, tick := 0, bases := [], maps := [], planes := 0, pinned := [], state := 1, effectLayer := 0, effectPass := 0 }])] })] }
def pass1 (repair : Option Nat) : Pass :=
  { slot := 1, commit := 1, passNo := 1, left := 0, x := 0, y := 0, angle := 0, noFF := false, noLoop := false, lines := [], fromAt := none,
    firstLead := 0, boundary := 0, pinned := false, under := none, repair := repair, rows := 0 }
/-- What the commit of that slot records. -/
def slotCommit : Commit :=
  { num := 1, tick := 0, bases := [0, 0, 0, 0], maps := [0, 0, 0, 0], planes := 1, pinned := [], state := 0, effectLayer := 0, effectPass := 0 }

theorem wit_facets :
    Writes (K.FX_COMMIT 3 1) 1 1 slot1 ∧ (took slot1 5).rd (K.FX_PLANES 3 1) ≠ 0 ∧
      ((took slot1 5).facetGeo 3 1).px ≤ 200 * ((took slot1 5).facetGeo 3 1).t ∧
      (took slot1 5).rd (K.FX_HEAD_MIN_PERIOD 3) ≤ ((took slot1 5).facetGeo 3 1).t ∧
      ((commitRanges ((took slot1 5).facetGeo 3 1) slotCommit).any fun r => decide (2 ^ 40 < r.1 + r.2)) = false ∧
      (commitPages ((took slot1 5).facetGeo 3 1) slotCommit).length ≤ 256 ∧
      slotCommit.bases = (List.range 4).map (fun k => (took slot1 5).rd (K.FX_BASE 3 1 k)) ∧
    Writes (K.FX_CLEAR 3 1) 1 1 (commit1 [(K.FX_STATE 3 1, 1)] none none) ∧
      (took (commit1 [(K.FX_STATE 3 1, 1)] none none) 5).rd (K.FX_STATE 3 1) = 1 ∧
    ((commit1 [(K.BC_STATE 3, Bc.run)] (some (pass1 none)) none).chan 3).run = [planned1] ∧
      (commit1 [(K.BC_STATE 3, Bc.run)] (some (pass1 none)) none).rd (K.BC_STATE 3) = Bc.run ∧
    ((commit1 [] (some (pass1 none)) (some { Cand.blank 0 with pinWait := true })).chan 3).pass = some (pass1 none) ∧
      (commit1 [] (some (pass1 none)) (some { Cand.blank 0 with pinWait := true })).passPinned 3 (pass1 none) = true ∧
    ((commit1 [(K.BC_STATE 3, Bc.run)] (some (pass1 (some 0))) none).chan 3).pass.bind (·.repair) = some 0 := by
  and_intros <;> decide

/-- The lattice's image of 4,096 pages, all mapped. -/
def imagePages : Tab (Option Page) := (List.range 4096).map fun i => (56 * 2 ^ 24 + i, some { phys := i, write := true, pins := 0, unmap := false })

theorem get_imagePages (n b i : Nat) (h : b ≤ i) (h2 : i < b + n) :
    Tab.get (fun _ => none) ((List.range' b n).map fun i => (56 * 2 ^ 24 + i, some ({ phys := i, write := true, pins := 0, unmap := false } : Page)))
      (56 * 2 ^ 24 + i) = some { phys := i, write := true, pins := 0, unmap := false } := by
  induction n generalizing b with
  | zero => omega
  | succ n ih =>
    rw [List.range'_succ, List.map_cons, Tab.get]
    split
    · have : b = i := by omega
      rw [this]
    · exact ih (b + 1) (by omega) (by omega)

/-- A device whose lattice image is mapped. -/
def imaged (od : List (Nat × Nat)) : State := { act od with mem := { State.reset.mem with pages := imagePages } }

theorem imaged_mapped (s : State) (h : s.mem.pages = imagePages) (h0 : s.rd K.LAT_BASE = 0) : s.latMapped = true := by
  unfold State.latMapped State.firstFault
  rw [Option.isNone_iff_eq_none, List.findSome?_eq_none_iff]
  intro i hi
  have hi := List.mem_range.1 hi
  rw [h0] at hi ⊢
  have hp : s.page 56 ((0 / 64 * 64 + 64 * i) / 65536) = some { phys := (0 / 64 * 64 + 64 * i) / 65536, write := true, pins := 0, unmap := false } := by
    unfold State.page pageKey
    rw [h, Nat.mod_eq_of_lt (by omega), imagePages, List.range_eq_range']
    exact get_imagePages 4096 0 _ (by omega) (by omega)
  have hf : s.beatFault 56 (0 / 64 * 64 + 64 * i) true = none := by
    unfold State.beatFault
    rw [if_neg (by omega), hp]
    simp
  exact congrArg (Option.map fun k => (k, 0 / 64 * 64 + 64 * i)) hf

/-- A snapshot of tile (0,0) on context 40 runs. -/
def snapping : State :=
  { act [(K.LAT_SNAP_TC, 40), (K.LAT_SNAP_STATE, 1)] with lat := { State.reset.lat with snap := [0] } }

theorem wit_lattice :
    Writes K.LAT_CLEAR 1 1 (act []) ∧ (took (act []) 5).phase = Phase.idle ∧ (took (act []) 5).rd K.LAT_STATE ≠ 3 ∧
      (took (act []) 5).rd K.LAT_STATE ≠ 1 ∧
    (dev [(K.LAT_STATE, 1)]).rd K.LAT_STATE = 1 ∧
    Writes K.LAT_ENABLE 1 1 (imaged [(K.LAT_STATE, 2)]) ∧ (took (imaged [(K.LAT_STATE, 2)]) 5).rd K.LAT_ENABLE = 0 ∧
      (took (imaged [(K.LAT_STATE, 2)]) 5).phase = Phase.idle ∧ (took (imaged [(K.LAT_STATE, 2)]) 5).rd K.LAT_STATE = 2 ∧
      (took (imaged [(K.LAT_STATE, 2)]) 5).mustClear = false ∧
    Writes K.LAT_ENABLE 1 0 (act [(K.LAT_STATE, 3), (K.LAT_ENABLE, 1)]) ∧
      (took (act [(K.LAT_STATE, 3), (K.LAT_ENABLE, 1)]) 5).rd K.LAT_ENABLE = 1 ∧
      (took (act [(K.LAT_STATE, 3), (K.LAT_ENABLE, 1)]) 5).phase = Phase.idle ∧
    Writes K.LAT_SNAP_CONTROL 1 1 (act [(K.LAT_STATE, 2)]) ∧ (took (act [(K.LAT_STATE, 2)]) 5).rd K.LAT_SNAP_STATE ≠ 1 ∧
      snapTiles ((took (act [(K.LAT_STATE, 2)]) 5).rd K.LAT_SNAP_AREA) ≠ [] ∧ 2 ≤ (took (act [(K.LAT_STATE, 2)]) 5).rd K.LAT_STATE ∧
    Writes K.LAT_SNAP_CONTROL 1 2 snapping ∧ (took snapping 5).rd K.LAT_SNAP_STATE = 1 ∧
    (snapping.tc (snapping.rd K.LAT_SNAP_TC)).job = .none ∧ snapping.lat.snapHeld = false ∧ snapping.inSample = 0 ∧ snapping.lat.snap = [0] ∧ snapping.rd (K.TC_STATE (snapping.rd K.LAT_SNAP_TC)) ≠ 2 ∧
    (act [(K.LAT_ENABLE, 1)]).rd K.LAT_ENABLE = 1 ∧ (act [(K.LAT_ENABLE, 1)]).role = Role.active ∧
      (act [(K.LAT_ENABLE, 1)]).rd K.DT_STOP_STATE = 0 ∧ (act [(K.LAT_ENABLE, 1)]).rd K.DT_CUTOFF = 0 ∧
      (act [(K.LAT_ENABLE, 1)]).tileCells 4095 = [] ∧
      (act [(K.LAT_ENABLE, 1)]).tm.tick < Tab.get (fun _ => 0) (act [(K.LAT_ENABLE, 1)]).lat.visitAt 4095 + 100000 ∧
    (imaged []).lat.cache.contains 4095 = false ∧ (imaged []).evict.lat.cache.length < 64 ∧ (imaged []).lat.queue = [] ∧
    ({ dev [] with lat := { State.reset.lat with dirty := [4095] } } : State).lat.dirty.contains 4095 = true := by
  and_intros <;> decide

theorem wit_imageMapped : (took (imaged [(K.LAT_STATE, 2)]) 5).latMapped = true ∧ (imaged []).latMapped = true :=
  ⟨imaged_mapped _ rfl (by decide), imaged_mapped _ rfl (by decide)⟩

/-- A processed frame of 8 by 8 pixels, and a camera image of 8 by 128 with one stripe still to come. -/
def set8 (h : Nat) : Settings := { tag := 1, exposure := 0, gain := 0, x := 0, y := 0, w := 8, h := h, period := 0 }
def pframe (h next stripes : Nat) : PFrame :=
  { number := 1, start := 0, set := set8 h, next := next, pixels := [], lastTick := 0, dead := false, slot := none, par := [], tables := [],
    raw := false, shadow := false, long := false, endTick := 0, endStamp := 0, layer := 0, buf := 0, stripes := stripes, blocks := [] }

/-- Pipeline context `k` of an ACTIVE part that holds its pool records. -/
def piped (k : Nat) (od : List (Nat × Nat)) (p : Pipe) : State :=
  { act od with pw := { State.reset.pw with poolLoaded := true }, pipes := [(k, p)] }

def poolSet : List (Nat × Nat) :=
  [(K.SET_ROI_W 3, 8), (K.SET_ROI_H 3, 8), (K.SET_EXPOSURE 3, 100000), (K.PC_MIN_PERIOD 3, 100000), (K.SENS_ARRAY_W 3, 256), (K.SENS_ARRAY_H 3, 256)]
def enabling (od : List (Nat × Nat)) : State := (piped 3 [] Pipe.init).wrs (poolSet ++ od)

theorem wit_pipes :
    Writes (K.PC_ENABLE 3) 1 1 (enabling []) ∧ (took (enabling []) 5).rd (K.PC_ENABLE 3) = 0 ∧ ((took (enabling []) 5).pcOn 3).1 = Ans.ok ∧
    (took (enabling []) 5).pcOwner 3 = some 3 ∧ (took (enabling []) 5).pw.poolLoaded = true ∧ (took (enabling []) 5).commitOk 3 (some 3) = true ∧
    Writes (K.PC_ENABLE 3) 1 0 (enabling [(K.PC_ENABLE 3, 1)]) ∧ (took (enabling [(K.PC_ENABLE 3, 1)]) 5).rd (K.PC_ENABLE 3) = 1 ∧
    Writes (K.SET_APPLY 3) 1 1 (enabling []) ∧ (took (enabling []) 5).commitOk 3 none = true ∧
    ((enabling [(K.LANE_STATE 19, 4)]).rxFrame (pcLane 3)).laneUp (pcLane 3) = true ∧
    ((enabling [(K.LANE_STATE 33, 4)]).rxFrame (pcLane (16 + 1))).laneUp (pcLane (16 + 1)) = true := by
  and_intros <;> decide

theorem wit_frames :
    ((piped 3 [] { Pipe.init with frame := some (pframe 8 0 0) }).pipe 3).frame = some (pframe 8 0 0) ∧
      0 + (piped 3 [] { Pipe.init with frame := some (pframe 8 0 0) }).rd (K.PC_FRAME_TIMEOUT 3) ≤
        ({ dev [] with tm := { State.reset.tm with tick := 10 ^ 9 } } : State).tm.tick ∧
    (piped 3 [(K.PC_ENABLE 3, 1)] { Pipe.init with expected := [0] }).rd (K.PC_ENABLE 3) = 1 ∧
      (piped 3 [(K.PC_ENABLE 3, 1)] { Pipe.init with expected := [0] }).rd (K.PC_TRIGGER 3) = 0 ∧
    ((piped 3 [] { Pipe.init with closing := [pframe 8 64 0] }).pipe 3).closing = [pframe 8 64 0] ∧
      (piped 3 [] { Pipe.init with closing := [pframe 8 64 0] }).enginesStopped = false := by
  and_intros <;> decide

def bed (x : Pipe) : State := mapped 48 (piped 16 [(K.BD_OUT_SLOT 16, 4096)] x)
def going : State := bed { Pipe.init with frame := some (pframe 128 1024 0) }
def ended : State := bed { Pipe.init with closing := [pframe 8 64 1] }

theorem wit_bed :
    (going.pipe 16).image = some (pframe 128 1024 0, false) ∧ going.bedRuns 16 = true ∧
      (64 * (pframe 128 1024 0).stripes + (pframe 128 1024 0).stripeLines 0) * 8 ≤ (pframe 128 1024 0).stored ∧
      (going.doStripe 16 (pframe 128 1024 0)).1.isSome = true ∧
    ended.bedRuns 16 = true ∧ (pframe 8 64 1).stripeCount ≤ (pframe 8 64 1).stripes ∧
      ((ended.fiducialImage 16 (pframe 8 64 1)).tryWrite 48 0
        ((ended.fiducialImage 16 (pframe 8 64 1)).bedOutput 16 (pframe 8 64 1)).1).1 = true := by
  and_intros <;> decide

/-- Loop 64 of an ACTIVE part in a state, with more entries. -/
def looped (st : Nat) (od : List (Nat × Nat)) : State := (act []).wrs ((K.LOOP_STATE 64, st) :: od)

theorem wit_loops :
    Writes (K.LOOP_CONTROL 64) 1 1 (looped Lp.idle [(K.LOOP_FB_SOURCE 64, 256)]) ∧
      (took (looped Lp.idle [(K.LOOP_FB_SOURCE 64, 256)]) 5).loopState 64 = Lp.idle ∧
      (took (looped Lp.idle [(K.LOOP_FB_SOURCE 64, 256)]) 5).rd (K.LOOP_FB_SOURCE 64) / 256 ≠ 0 ∧
    Writes (K.LOOP_CONTROL 64) 1 1 (looped Lp.hold [(K.LOOP_CAUSE 64, LpCause.host)]) ∧
      (took (looped Lp.hold [(K.LOOP_CAUSE 64, LpCause.host)]) 5).loopState 64 = Lp.hold ∧
      (took (looped Lp.hold [(K.LOOP_CAUSE 64, LpCause.host)]) 5).rd (K.LOOP_CAUSE 64) = LpCause.host ∧
    Writes (K.LOOP_CONTROL 64) 1 2 (looped Lp.closed []) ∧ (took (looped Lp.closed []) 5).loopState 64 = Lp.closed ∧
    Writes (K.LOOP_CONTROL 64) 1 3 (looped Lp.hold []) ∧ (took (looped Lp.hold []) 5).loopState 64 = Lp.hold ∧
    Writes (K.LOOP_CONTROL 64) 1 4 (looped Lp.tripped []) ∧ (took (looped Lp.tripped []) 5).loopState 64 = Lp.tripped ∧
      (took (looped Lp.tripped []) 5).loopOut 64 = 0 ∧
    Writes (K.LOOP_CONTROL 64) 1 5 (looped Lp.closed []) ∧
    (dev [(K.LOOP_STATE 47, Lp.closed)]).loopState 47 = Lp.closed ∧ (looped Lp.closed []).dev = .running ∧
    Writes (K.RC_CLEAR 31) 1 1 (act []) ∧ (took (act []) 5).rd (K.RC_STATE 31) ≠ 1 := by
  and_intros <;> decide

/-- An ACTIVE part with lane 5 in a state. -/
def laned (st : Nat) (od : List (Nat × Nat)) : State := (act []).wrs ((K.LANE_STATE 5, st) :: od)
def laneX (st : Nat) (od : List (Nat × Nat)) (x : Lane) : State := { laned st od with lanes := [(5, x)] }
def later (t : Nat) (s : State) : State := { s with tm := { s.tm with tick := t } }

theorem wit_lanes :
    (devAt 8 []).pair (devAt 8 []).tm.tick % 16 = 8 ∧
    (laned 4 []).rd (K.LANE_STATE 5) = 4 ∧
    Writes (K.LANE_ENABLE 5) 1 0 (act []) ∧ Writes (K.LANE_ENABLE 47) 1 1 (act []) ∧
    (laned 1 []).rd (K.LANE_STATE 5) = 1 ∧
    (later 1000 (laned 3 [])).rd (K.LANE_STATE 5) = 3 ∧ ((later 1000 (laned 3 [])).lane 5).askedAt + 1000 ≤ (later 1000 (laned 3 [])).tm.tick ∧
    1 = Dict.laneUse 5 + 1 ∧ zeroTail { kind := 1, echo := 0, vendor := 0, model := 0, serial := 0, fields := List.replicate 16 0, delay := 0 } = true ∧
    (laneX 3 [] { Lane.init with upAt := some 0 }).rd (K.LANE_STATE 5) = 3 ∧ ((laneX 3 [] { Lane.init with upAt := some 0 }).lane 5).upAt = some 0 ∧
    ((later 10000 (laned 3 [])).lane 5).since + 10000 ≤ (later 10000 (laned 3 [])).tm.tick ∧
      ((later 10000 (laned 3 [])).lane 5).upAt = none ∧ ((later 10000 (laned 3 [])).lane 5).holds 5 = false ∧
    (laned 4 []).laneUp 5 = true ∧ ((laned 4 []).lane 5).rxNow = 0 ∧ 8 ≤ ((laneX 4 [] { Lane.init with badRun := 8 }).lane 5).badRun ∧
      ((laneX 4 [] { Lane.init with rxNow := 1 }).lane 5).rxNow = 1 ∧
    Writes (K.LANE_TX_STATE 5) 1 2 (laned 4 []) ∧ (took (laned 4 []) 5).mayLeaveL0 5 = true ∧
    Writes (K.LANE_RX_STATE 5) 1 1 (laned 4 []) ∧ (took (laned 4 []) 5).rd (K.LANE_TX_STATE 5) = 0 ∧
    Writes (K.EYE_CONTROL 5) 1 1 (laned 4 []) ∧ (took (laned 4 []) 5).laneUp 5 = true ∧ (took (laned 4 []) 5).rd (K.LANE_TX_STATE 5) = 0 ∧
      (took (laned 4 []) 5).rd (K.LANE_RX_STATE 5) = 0 ∧ (took (laned 4 []) 5).rd (K.EYE_STATE 5) ≠ 1 ∧
    Writes (K.EYE_CONTROL 5) 1 2 (laned 4 [(K.EYE_STATE 5, 1)]) ∧ (took (laned 4 [(K.EYE_STATE 5, 1)]) 5).rd (K.EYE_STATE 5) = 1 ∧
    ((mapped 40 (laned 4 [(K.EYE_STATE 5, 1), (K.EYE_TC 5, 40)])).tryWrite 40 0 (toLE 4 7)).1 = true ∧
    (laned 0 []).rd (K.LANE_ENABLE 5) ≠ 0 ∧ (laned 0 []).rd (K.LANE_STATE 5) = 0 := by
  and_intros <;> decide

/-- Axis 2 of an ACTIVE part, enabled, in a status. -/
def axis2 (st : Nat) (od : List (Nat × Nat)) (a : Axis) : State :=
  { (act []).wrs ([(K.AX_ENABLE 2, 1), (K.AX_STATUS 2, st)] ++ od) with axes := [(2, a)] }

theorem wit_axes :
    Writes (K.AX_ENABLE 2) 1 0 (axis2 1 [] Axis.init) ∧ (took (axis2 1 [] Axis.init) 5).rd (K.AX_ENABLE 2) ≠ 0 ∧
    Writes (K.AX_ENABLE 2) 1 1 (act []) ∧ (took (act []) 5).rd (K.AX_ENABLE 2) = 0 ∧
    (axis2 1 [] Axis.init).rd (K.AX_ENABLE 2) ≠ 0 ∧ ((axis2 1 [] Axis.init).rd (K.AX_FAULT 2) ||| (1 &&& (axis2 1 [] Axis.init).modeFaults 2)) ≠ (axis2 1 [] Axis.init).rd (K.AX_FAULT 2) ∧
      (axis2 1 [] Axis.init).rd (K.AX_STATUS 2) = 1 ∧
    (axis2 0 [(K.AX_FAULT 2, 3)] Axis.init).rd (K.AX_FAULT 2) = 3 ∧ (axis2 0 [(K.AX_FAULT 2, 3)] Axis.init).rd (K.AX_STATUS 2) = 0 ∧
    (later 100 (axis2 0 [] Axis.init)).rd (K.AX_STATUS 2) = 0 ∧ (later 100 (axis2 0 [] Axis.init)).rd (K.AX_ENABLE 2) = 1 ∧
      (later 100 (axis2 0 [] Axis.init)).rd (K.AX_FAULT 2) = 0 ∧
      ((later 100 (axis2 0 [] Axis.init)).axis 2).cleanAt + 100 ≤ (later 100 (axis2 0 [] Axis.init)).tm.tick ∧
    Writes (K.AX_FAULT_ACK 2) 1 1 (axis2 3 [] Axis.init) ∧ (took (axis2 3 [] Axis.init) 5).rd (K.AX_STATUS 2) = 3 ∧
    Writes (K.AX_COUNT_PRESET 2) 8 (2 ^ 64 - 1) (later (10 ^ 9) (axis2 3 [] { Axis.init with hist := [(0, 0)] })) ∧
      (took (later (10 ^ 9) (axis2 3 [] { Axis.init with hist := [(0, 0)] })) 12).atRest 2 = true ∧
    Writes (K.AX_COUNT_PRESET 2) 8 0 (axis2 1 [] Axis.init) ∧ (took (axis2 1 [] Axis.init) 12).atRest 2 = false ∧
    (axis2 1 [] Axis.init).rd K.PIN_FILTER_INDEX ≤ 255 ∧ (axis2 1 [] Axis.init).jumpsFrom 2 0 = [] ∧
      ((later 300 (axis2 1 [] Axis.init)).axis 2).enabledAt < 300 - 255 ∧ 3 < (axis2 1 [(K.PIN_FILTER_INDEX, 4)] Axis.init).rd K.PIN_FILTER_INDEX ∧
    ((axis2 1 [] Axis.init).axis 2).ref = none ∧ (axis2 1 [] Axis.init).rd (K.AO_ENABLE 2) = 0 ∧
    (later (10 ^ 9) (axis2 1 [(K.AX_CORR_PENDING 2, 5)] { Axis.init with hist := [(0, 0)] })).rdS 32 (K.AX_CORR_PENDING 2) = 5 ∧
      (later (10 ^ 9) (axis2 1 [(K.AX_CORR_PENDING 2, 5)] { Axis.init with hist := [(0, 0)] })).atRest 2 = true ∧
    (axis2 1 [] Axis.init).rd (K.AX_FAULT 2) % 16 = 0 ∧ (axis2 1 [] Axis.init).rd (K.AX_MODE 2) = 0 ∧
    (axis2 1 [(K.AX_MODE 2, 1)] Axis.init).rd (K.AX_MODE 2) = 1 := by
  and_intros <;> decide

theorem wit_compares :
    Writes (K.CMP_ARM 2 7) 1 1 (axis2 1 [] Axis.init) ∧ (took (axis2 1 [] Axis.init) 5).rd (K.CMP_ARM 2 7) ≠ 1 ∧
      (took (axis2 1 [] Axis.init) 5).rd (K.CMP_ACTION 2 7) = 0 ∧
    Writes (K.CMP_ARM 2 7) 1 0 (axis2 1 [(K.CMP_ARM 2 7, 1)] Axis.init) ∧ (took (axis2 1 [(K.CMP_ARM 2 7, 1)] Axis.init) 5).rd (K.CMP_ARM 2 7) = 1 ∧
    (axis2 1 [(K.CMP_ARM 2 7, 1)] { Axis.init with ahead := 128 }).cmpDue 2 7 = true ∧
    Writes (K.AO_ENABLE 2) 1 1 (act []) ∧ 1 ≠ (took (act []) 5).rd (K.AO_ENABLE 2) ∧
    ((axis2 1 [(K.AO_ENABLE 2, 1), (K.AO_NUM 2, 1), (K.AO_DEN 2, 1), (K.AX_COUNT 2, 100)] { Axis.init with moved := 100 }).aoFollow 2).rd (K.AO_ENABLE 2) ≠ 0 ∧
      16 < ((axis2 1 [(K.AO_ENABLE 2, 1), (K.AO_NUM 2, 1), (K.AO_DEN 2, 1), (K.AX_COUNT 2, 100)] { Axis.init with moved := 100 }).aoFollow 2).rd (K.AO_LAG 2) ∧
      (((axis2 1 [(K.AO_ENABLE 2, 1), (K.AO_NUM 2, 1), (K.AO_DEN 2, 1), (K.AX_COUNT 2, 100)] { Axis.init with moved := 100 }).aoFollow 2).axis 2).overspeed = false := by
  and_intros <;> decide

/-- A part with its row scan on, with a flash or a segment to diagnose. -/
def lit (f : Option Flash) (due : Tab Nat) : State :=
  { later 10 (act [(K.LM_ENABLE, 1)]) with light := { State.reset.light with flash := f, due := due } }

theorem wit_light :
    Writes K.LM_ENABLE 1 1 (act []) ∧ (took (act []) 5).rd K.LM_ENABLE = 0 ∧
    Writes K.LM_ENABLE 1 0 (lit none []) ∧ (took (lit none []) 5).rd K.LM_ENABLE = 1 ∧ (took (lit none []) 5).light.flash = none ∧
    (lit none []).light.nextSlot ≤ (lit none []).tm.tick ∧
    (lit (some { set := 0, mask := 0, on := 0, rows := [] }) []).light.flash = some { set := 0, mask := 0, on := 0, rows := [] } ∧
    Tab.get (fun _ => 0) (lit none [(191, 10)]).light.due 191 = 10 ∧ 10 ≤ (lit none [(191, 10)]).tm.tick ∧
    (act [(K.WL_MODE 3, 1)]).rd (K.WL_MODE 3) ≠ 0 ∧ (act [(K.WL_MODE 3, 1)]).rd (K.WL_STATUS 3) ≤ 1 ∧
    ((later (10 ^ 9) (act [(K.WL_MODE 3, 1)])).lamp 3).since + (act [(K.WL_MODE 3, 1)]).rd K.WL_DIAG_MAX * 100000 ≤
      (later (10 ^ 9) (act [(K.WL_MODE 3, 1)])).tm.tick ∧
    Writes (K.WL_ACK 3) 1 1 (act [(K.WL_STATUS 3, 4)]) ∧ 2 ≤ (took (act [(K.WL_STATUS 3, 4)]) 5).rd (K.WL_STATUS 3) ∧
    Writes (K.WL_MODE 3) 1 2 (act []) ∧ Writes (K.WL_MODE 3) 1 0 (act [(K.WL_MODE 3, 2)]) := by
  and_intros <;> decide

/-- A running part in a role, with the private state of its pair. -/
def roled (r : Nat) (od : List (Nat × Nat)) (tw : Twin) : State := later (10 ^ 7) { (dev []).wrs ((K.TWIN_ROLE, r) :: od) with tw := tw }

theorem wit_pair :
    Writes K.TWIN_COMMAND 1 1 (dev []) ∧ (took (dev []) 5).role = Role.detached ∧ (took (dev []) 5).rd K.TWIN_PARTNER_ROLE ≠ Role.active ∧
      max ((took (dev []) 5).rd K.TWIN_EPOCH) (took (dev []) 5).tw.seenEpoch + 1 < 2 ^ 32 ∧
    Writes K.TWIN_COMMAND 1 2 (act []) ∧ (took (act []) 5).role ≠ Role.detached ∧ (took (act []) 5).phase = Phase.idle ∧
    Writes K.TWIN_COMMAND 1 3 (dev [(K.TWIN_PARTNER_ROLE, Role.active)]) ∧
      (took (dev [(K.TWIN_PARTNER_ROLE, Role.active)]) 5).rd K.TWIN_PARTNER_ROLE = Role.active ∧
    (roled Role.detached [(K.TWIN_START, 1)] State.reset.tw).role = Role.detached ∧ (roled Role.detached [(K.TWIN_START, 1)] State.reset.tw).rd K.TWIN_START = 1 ∧
      (roled Role.detached [(K.TWIN_START, 1)] State.reset.tw).rd K.TWIN_STRAP = 0 ∧
      (roled Role.detached [(K.TWIN_START, 1)] State.reset.tw).tw.heard = false ∧ (roled Role.detached [(K.TWIN_START, 1)] State.reset.tw).rd K.TWIN_ROLE_STAMP = 0 ∧
      (roled Role.detached [(K.TWIN_START, 1)] State.reset.tw).tw.readyTick + 1000000 ≤ (roled Role.detached [(K.TWIN_START, 1)] State.reset.tw).tm.tick ∧
    (roled 1 [(K.TWIN_LINKS, 3)] State.reset.tw).pair (roled 1 [(K.TWIN_LINKS, 3)] State.reset.tw).tm.tick % 100 = 0 ∧
      (roled 1 [(K.TWIN_LINKS, 3)] State.reset.tw).rd K.TWIN_LINKS ≠ 0 ∧
    (roled Role.standby [] { State.reset.tw with heardAt := some 0 }).role = Role.standby ∧
    (roled Role.syncing [(K.TWIN_SYNC_STATE, 1)] State.reset.tw).role = Role.syncing ∧
      (roled Role.syncing [(K.TWIN_SYNC_STATE, 1)] State.reset.tw).rd K.TWIN_SYNC_STATE = 1 ∧
    ((later 10000 (laneX 4 [] { Lane.init with digestAt := some 0 })).lane 5).digestAt = some 0 ∧
      (later 10000 (laneX 4 [] { Lane.init with digestAt := some 0 })).laneUp 5 = true ∧
    Writes K.DIGEST_HOLD_RELEASE 1 1 (act [(K.DIGEST_HOLD, 1)]) ∧ (took (act [(K.DIGEST_HOLD, 1)]) 5).rd K.DIGEST_HOLD ≠ 0 := by
  and_intros <;> decide

/-- What a part in a role makes of a partner's message with its own epoch. -/
def heard (r : Nat) (od : List (Nat × Nat)) (epoch : Nat) : State :=
  { roled r ((K.TWIN_LINKS, 3) :: od) State.reset.tw with tw := { State.reset.tw with heard := true, seenEpoch := epoch } }

theorem wit_partner :
    Heard { link := 0, epoch := 0 } (heard 1 [] 0) (heard 1 [] 0) ∧ Heard { link := 1, epoch := 0 } (heard Role.standby [] 0) (heard Role.standby [] 0) ∧
    Heard { link := 1, epoch := 4 } (heard 1 [] 0) (heard 1 [] 4) ∧ (heard 1 [] 4).role = Role.active ∧ (heard 1 [] 4).rd K.TWIN_EPOCH < 4 ∧
    ({ heard 1 [] 0 with tw := { State.reset.tw with checks := [(9, 5)] } } : State).tw.checks.find? (fun c => c.1 == 9) = some (9, 5) ∧
    (heard Role.syncing [(K.TWIN_SYNC_STATE, 2)] 0).role = Role.syncing ∧ (heard Role.syncing [(K.TWIN_SYNC_STATE, 2)] 0).rd K.TWIN_SYNC_STATE = 2 ∧
    (heard 1 [] 0).tw.partnerDigest = none ∧
    (heard Role.standby [] 0).role = Role.standby ∧ (heard Role.standby [] 0).rd K.TWIN_STRAP = 0 ∧
    NextMirror 1 (heard Role.standby [] 0) { heard Role.standby [] 0 with tw := { (heard Role.standby [] 0).tw with seenSeq := 1 } } := by
  and_intros <;> decide

/-- A part with all interlock inputs open and lane and lattice so that channel 15 may have its permit. -/
def pins (od : List (Nat × Nat)) : State := later (10 ^ 7) ((act []).wrs od)

theorem wit_permits :
    (pins []).rd K.PIN_FILTER_IL ≤ 200 ∧ ((pins []).rd K.IL_INPUTS).testBit 7 ≠ true ∧
    Tab.get (fun _ => 0) ({ pins [] with isl := { State.reset.isl with disagree := [(3, 1)] } } : State).isl.disagree 3 ≠ 0 ∧
      1 + 950000 ≤ (pins []).tm.tick + 1 ∧ (pins []).pairState 3 ≠ 2 ∧
    (pins []).wrongPins 15 true true ≠ 0 ∧ ((pins []).rd K.BP_READBACK_FAULT).testBit 15 = false ∧
    Writes K.BP_READBACK_CLEAR 2 0x8000 (pins [(K.BP_READBACK_FAULT, 0x8000)]) ∧
      (maskList 16 0x8000).all (took (pins [(K.BP_READBACK_FAULT, 0x8000)]) 6).readsRight = true ∧
    Writes K.PERMIT_RESTART 2 0x8000 (pins [(K.IL_PAIR_STATE, 0), (K.WL_PERMIT_HOLD, 0), (K.LANE_STATE 15, 4)]) ∧ (maskList 16 0x8000).all (took (pins [(K.IL_PAIR_STATE, 0), (K.WL_PERMIT_HOLD, 0), (K.LANE_STATE 15, 4)]) 6).permitOk = true ∧
    Writes K.PERMIT_RESTART 2 0x8000 (pins []) ∧ (took (pins []) 6).permitOk 15 = false := by
  and_intros <;> decide

/-- A run of the measurement of kind `k` on instance `i` may begin. -/
def regs : State := act [(K.BC_STATE 3, Bc.armed)]
def dark : State := (act []).wrs [(K.PC_ENABLE 3, 1)]
def trims : State := laned 4 []
def moves : State := { (later 600 (act [])).wrs [(K.AX_ENABLE 2, 1), (K.AX_MODE 2, 1), (K.AX_STATUS 2, 1), (K.AX_COUNT 2, 50)] with axes := [(2, { Axis.init with hist := [(500, 50), (0, 0)] })] }

/-- A part that measures. -/
def measuring (k i st : Nat) : State :=
  { act [(K.CAL_MEAS_STATE, st)] with
    mem := { State.reset.mem with pages := [(pageKey 63 0, some { phys := 0, write := true, pins := 0, unmap := false }),
      (pageKey 63 16, some { phys := 1, write := true, pins := 0, unmap := false })] },
    cal := { State.reset.cal with meas := { State.reset.cal.meas with kind := k, inst := i, capture := some 0 } } }

theorem wit_calibration :
    Writes K.CAL_LOAD 1 1 (act []) ∧ (took (act []) 5).cal.load = none ∧
    Writes K.CAL_MEASURE 4 (0x12 * 2 ^ 24 + 8) regs ∧ (took regs 8).rd K.CAL_MEAS_STATE = 0 ∧ (took regs 8).measOk 0x12 8 = true ∧
    Writes K.CAL_MEASURE 4 (0x20 * 2 ^ 24 + 3) dark ∧ (took dark 8).measOk 0x20 3 = true ∧
    Writes K.CAL_MEASURE 4 (0x31 * 2 ^ 24 + 5) trims ∧ (took trims 8).measOk 0x31 5 = true ∧
    Writes K.CAL_MEASURE 4 (0x33 * 2 ^ 24 + 2) moves ∧ (took moves 8).measOk 0x33 2 = true ∧
    (measuring 0x12 8 1).cal.meas.capture = some 0 ∧ (measuring 0x12 8 1).cal.meas.kind = 0x12 ∧ (measuring 0x12 8 1).rd K.CAL_MEAS_STATE = 1 ∧
    (measuring 0x33 2 3).rd K.CAL_MEAS_STATE = 3 ∧ (measuring 0x33 2 3).cal.meas.lost = [] ∧ (measuring 0x33 2 3).rd (K.TC_STATE 63) ≠ 2 ∧
      ((measuring 0x33 2 3).enterPair (0x3302, List.replicate 8 0, List.replicate 8 0)).isSome = true ∧
    Writes K.CAL_MEAS_ABORT 1 1 (measuring 0x33 2 1) ∧ (took (measuring 0x33 2 1) 5).rd K.CAL_MEAS_STATE ≠ 0 ∧
      (took (measuring 0x33 2 1) 5).exposing (took (measuring 0x33 2 1) 5).cal.meas.chan = false ∧
    Writes (K.CAND_DISCARD 63) 1 1 (act []) ∧ (took (act []) 5).slotNamed 63 = false ∧
    ({ dev [] with cal := { State.reset.cal with writes := [0x3302] }, installed := [(0x3302, some { gen := 1, payload := [], check := 0, stamp := 0 })] } : State).record 0x3302 =
      some { gen := 1, payload := [], check := 0, stamp := 0 } := by
  and_intros <;> decide

/-- Every sensor good and at one temperature. -/
def warm : State := act [(K.DT_SENSOR_STATE, 0)]

theorem wit_die :
    ((warm.trimApply true).checkSensors ((List.range 14).map fun i => (warm.trimApply true).reading i 100) (List.replicate 14 100)).1 = [] ∧
      ((warm.trimApply true).checkSensors ((List.range 14).map fun i => (warm.trimApply true).reading i 100) (List.replicate 14 100)).2.1 = [] ∧
    (act [(K.DT_STOP_STATE, 1)]).rd K.DT_STOP_STATE = 1 ∧ (∀ n < 16, (act [(K.DT_STOP_STATE, 1)]).rd (K.BC_STATE n) = Bc.off) ∧
    Writes K.DT_SENSOR_ACK 2 0x2000 (act [(K.DT_SENSOR_STATE, 2 ^ 104)]) ∧
      (∀ i ∈ maskList 16 0x2000, i < 14 ∧ (took (act [(K.DT_SENSOR_STATE, 2 ^ 104)]) 6).sensorState i = 1) ∧
    Taken (msg 4) sess (act []) (took (act []) 4) := by
  and_intros <;> decide

/-- A part right after reset that ends its start-up, and a part that is held. -/
def off' : State := { State.reset with dev := .held, pw := { State.reset.pw with clockLost := true } }

theorem wit_supply :
    State.reset.dev = .starting ∧ State.reset.pw.trainFailed = false ∧
      State.reset.rd K.PWR_ORDER_FAULT = 0 ∧
    (dev []).pw.poolLoaded = false ∧ (511 : Nat) % 512 ≠ 0 ∧ (dev []).dev ≠ .held ∧
    off'.dev = .held ∧ off'.pw.clockLost = true ∧
    Writes K.PWR_RESET_REQUEST 4 0x6D726177 (act []) ∧ (∀ n < 16, (took (act []) 8).rd (K.BC_STATE n) = Bc.off) ∧
      (took (act []) 8).rd K.KEEP_STATE ≠ 2 ∧ (took (act []) 8).rd K.CAL_STORE_STATE ≠ 1 ∧
    Writes K.PWR_ORDER_FAULT 1 0 (act [(K.PWR_ORDER_FAULT, 1)]) ∧
    (dev []).rd K.VBAT_LOW ≠ 1 ∧ (dev []).rd (K.LINK_STATE 3) ≠ (if true then 1 else 0) := by
  and_intros <;> decide

/-- A debug request, and a device whose port is unlocked. -/
def req (n : Nat) : DbgReq := { tag := 3, length := BitVec.ofNat 16 n, crcOk := true, resv := 0 }
def unlocked (od : List (Nat × Nat)) : State := mapped 40 ((act []).wrs ((K.DBG_STATE, 1) :: od))
def peeks : State := mapped 57 ((act []).wrs [(K.DBG_STATE, 1), (K.JOURNAL_WRITE_SEQ, 32), (K.JOURNAL_SIZE, 65536)])

theorem wit_debug :
    DebugTaken (req 0) (unlocked []) 0 ∧ DebugTaken (req 4) (unlocked []) 4 ∧ DebugTaken (req 5) (unlocked []) (4 + 1) ∧
      (unlocked []).mirrored = false ∧ (unlocked []).role = Role.active ∧ (unlocked []).writeCheck true K.TIME_SEL 1 1 = none ∧
      (writeEffect true 0 0 K.TIME_SEL 1 (unlocked [])).1 = Ans.ok ∧
    DebugTaken (req 14) (unlocked []) 14 ∧ (unlocked []).debugRange 40 0 1024 false = 0 ∧
    DebugTaken (req 1036) (unlocked []) (12 + 1024) ∧ (unlocked []).debugRange 40 0 1024 true = 0 ∧
    DebugTaken (req 8) peeks 8 ∧
      (peeks.rd K.JOURNAL_WRITE_SEQ + 2 ^ 32 - 0) % 2 ^ 32 = 32 ∧
      32 ≤ peeks.ringBlocks ∧
      (peeks.ringPeek 0 32).isSome = true ∧
    Writes K.DBG_LOCK 1 1 (act []) ∧
    ({ unlocked [] with dbg := { State.reset.dbg with unlockEnd := some 0 } } : State).dbg.unlockEnd = some 0 ∧ (unlocked []).rd K.DBG_STATE ≠ 0 ∧
    (unlocked [(K.BC_STATE 15, Bc.armed)]).rd (K.BC_STATE 15) = Bc.armed ∧
    (unlocked [(K.BC_STATE 15, Bc.hold), (K.CS_HOLD_CAUSE 15, 6)]).rd (K.BC_STATE 15) = Bc.hold ∧
      (unlocked [(K.BC_STATE 15, Bc.hold), (K.CS_HOLD_CAUSE 15, 6)]).rd (K.CS_HOLD_CAUSE 15) = 6 := by
  and_intros <;> decide

/-- Right after reset with one command waiting. -/
def waiting : State := { State.reset with pending := [.tick] }

theorem wit_canonical : waiting.pending = [.tick] ∧ waiting.Canonical := ⟨rfl, by decide, by decide, by decide⟩

/-- A device held in reset by PORN. -/
def heldDown : State := { State.reset with dev := .held, pending := [.tick] }

theorem wit_held : heldDown.HeldInReset := ⟨rfl, rfl, by decide, by simp [heldDown]⟩
theorem wit_heldCommand : heldDown.dev = .held ∧ (∀ p, Instr.tick ≠ .powerOnReset p) ∧ Instr.tick ≠ .refclkRestart ∧ Instr.tick ≠ .pornLow := by
  refine ⟨rfl, fun p => ?_, ?_, ?_⟩ <;> exact Instr.noConfusion
theorem wit_startUp : State.reset.dev = .starting ∧ actsInStartUp (.latch 0) = false := ⟨rfl, rfl⟩

/-- Two devices that read alike: memory and dictionary of one and the same state. -/
theorem wit_agree : State.reset.Canonical ∧ Memory.wf State.reset.mem := ⟨⟨by decide, by decide, by decide⟩, by decide⟩

theorem wit_memWrite :
    DebugTaken (req 14) (unlocked []) (12 + 2) ∧ (unlocked []).debugRange 40 65534 2 true = 0 ∧
      (unlocked []).mem.pages = [(pageKey 40 0, some { phys := 0, write := true, pins := 0, unmap := false })] ∧
      (unlocked []).translate 40 65534 = some 65534 ∧ (unlocked []).translate 40 65535 = some 65535 := by
  and_intros <;> decide

theorem wit_noLattice : (unlocked []).asCells (65534 / 65536) = false ∧ (unlocked []).asCells (65535 / 65536) = false := by
  and_intros <;> decide

theorem wit_cell : ∃ c : Cell, c.heat < 2 ^ 16 ∧ c.stamp < 2 ^ 32 ∧ c.dose < 2 ^ 16 ∧ c.peak < 2 ^ 16 ∧ c.lastCh < 16 ∧ c.tag < 256 ∧ c.heat = 65535 ∧
    c.lastCh = 15 :=
  ⟨{ Cell.cleared with heat := 65535, lastCh := 15 }, by decide⟩
theorem wit_cellImage : (2 ^ 103 : Nat) < 2 ^ 104 ∧ (2 ^ 103 : Nat).testBit 95 = false := by and_intros <;> decide

/-- A WRITE of one byte to TIME_SEL, and what is wrong with it in each clause. -/
theorem wit_checks :
    writeRow (.timeSel (msg 5) 1) = some (msg 5, K.TIME_SEL, 1, 1) ∧ (act []).dev = .running ∧ (act []).pw.warm = false ∧
    writeRow (.timeSel { msg 5 with port := 2 } 1) = some ({ msg 5 with port := 2 }, K.TIME_SEL, 1, 1) ∧
    (act []).frameOk 0 { (msg 5).frame with fcsOk := false } = false ∧ (act []).frameOk 0 { (msg 5).frame with length := 1519 } = false ∧
    (act []).frameOk 0 { (msg 5).frame with length := 1518 } = true ∧
    ({ msg 5 with version := 2 } : Msg).version ≠ 1 ∧
    ¬ (((msg 6).length.toNat = 4 + 1 ∧ 1 ≤ 1 ∧ 1 ≤ 1024) ∧ msgFits (msg 6) = true ∧ msgClean (msg 6) = true) ∧
    Formed (msg 5) 1 (act []) ∧ ({ act [] with sessions := [] } : State).session 7 = none ∧ (act []).session 7 = some sess ∧
    ({ msg 5 with seq := 4 } : Msg).seq.toNat ≠ sess.next ∧ Formed { msg 5 with seq := 4 } 1 (act []) ∧
      ({ sess with cache := [(4, [1])] } : Session).cache.find? (fun c => c.1 == 4) = some (4, [1]) ∧
      (5 + 2 ^ 32 - 4) % 2 ^ 32 ≤ 64 ∧ 64 < (5 + 2 ^ 32 - (2 ^ 32 - 60)) % 2 ^ 32 ∧ sess.cache.find? (fun c => c.1 == 4) = none ∧
    Formed { msg 5 with role := 1, epoch := 9 } 1 (act []) ∧ ((act []).taken { msg 5 with role := 1, epoch := 9 } sess).roleHeld 1 9 = false ∧
    guardedKey K.WL_POLICY = true ∧ guardedKey K.TIME_SEL = false ∧ (took (act []) 5).mirrored = false ∧
      (took (act []) 5).writeCheck false K.TIME_SEL 1 2 = some Ans.outOfRange ∧
    (act []).mirrors.any (fun r => r.waitsFor 7 4) = false ∧
      ({ act [] with mirrors := [{ effect := 64, remote := false, kind := 0x11, port := 0, session := 7, hostId := 1, seq := 4, key := 0, party := 0, proposal := 0, bytes := [], dups := [] }] } : State).mirrors.any (fun r => r.waitsFor 7 4) = true ∧
    (took ((act []).wr K.TWIN_PARTNER_ROLE Role.standby) 5).mirrored = true ∧ partLocal K.TIME_SEL = false := by
  and_intros <;> decide

/-- Key entries proposed as zero, and as the other slot's key. -/
def auth2 : List Byte := [200#8, 26#8, 139#8, 221#8, 102#8, 112#8, 42#8, 180#8, 251#8, 103#8, 163#8, 250#8, 144#8, 142#8, 112#8, 55#8]
def auth3 : List Byte := [118#8, 7#8, 0#8, 232#8, 198#8, 211#8, 1#8, 176#8, 238#8, 71#8, 210#8, 248#8, 121#8, 54#8, 99#8, 67#8]

theorem wit_keys :
    GuardHeard (msg 60) sess (keyed []) (took (keyed []) 60) 0x12 K.PARTY_KEY_1 0 1 (toLE 32 0) auth2 ∧
    (took (keyed []) 60).rd K.PARTY_KEY_1 ≠ 0 ∧ mayStage ((took (keyed []) 60).rd K.GUARD_MAP) (guardClass K.PARTY_KEY_1) 0 = true ∧
    (took (keyed []) 60).rd K.GUARD_PROPOSAL_LAST < 1 ∧
    GuardHeard (msg 60) sess (keyed []) (took (keyed []) 60) 0x12 K.PARTY_KEY_1 0 1 (toLE 32 key0) auth3 ∧
    (took (keyed []) 60).rd K.PARTY_KEY_0 = leNat (toLE 32 key0) ∧ leNat (toLE 32 key0) ≠ 0 := by
  and_intros <;> decide

theorem wit_restart : Writes K.PERMIT_RESTART 2 0x8000 (pins []) ∧ (0x8000 : Nat).testBit 15 = true ∧ (took (pins []) 6).permitOk 15 = false := by
  and_intros <;> decide
theorem wit_supplyLoss : (act [(K.BP_STATE, 65535)]).rd K.BP_STATE < 65536 ∧ (act []).dev ≠ .held ∧ (256 : Nat) % 512 ≠ 0 := by
  and_intros <;> decide

/-- Trigger 3 armed for the latch of axis 3. -/
theorem wit_trigger : (act [(K.TT_ACTION 3, 5), (K.TT_TARGET 3, 3), (K.TT_ARM 3, 1)]).triggerDue 3 = true ∧
    (act [(K.TT_ACTION 3, 5), (K.TT_TARGET 3, 3), (K.TT_ARM 3, 1)]).rd (K.TT_ACTION 3) = 5 ∧
    (act [(K.TT_ACTION 3, 5), (K.TT_TARGET 3, 3), (K.TT_ARM 3, 1)]).rd (K.TT_TARGET 3) = 3 := by
  and_intros <;> decide
theorem wit_peek : DebugTaken (req 8) peeks 8 ∧ (peeks.rd K.JOURNAL_WRITE_SEQ + 2 ^ 32 - 0) % 2 ^ 32 = 32 ∧ 32 ≤ peeks.rd K.JOURNAL_SIZE / 32 ∧
    (∀ i < 32, (peeks.readMem 57 (peeks.rd K.JOURNAL_BASE + (0 + i) % (peeks.rd K.JOURNAL_SIZE / 32) * 32) 32).isSome) ∧
    (peeks.rd K.JOURNAL_WRITE_SEQ + 2 ^ 32 - 31) % 2 ^ 32 < 2 ∧ peeks.rd K.JOURNAL_SIZE / 32 < (peeks.rd K.JOURNAL_WRITE_SEQ + 2 ^ 32 - 33) % 2 ^ 32 := by
  and_intros <;> decide
theorem wit_lock : ({ unlocked [] with dbg := { State.reset.dbg with unlockEnd := some 0 } } : State).dbg.unlockEnd = some 0 ∧
    ({ unlocked [] with dbg := { State.reset.dbg with unlockEnd := some 0 } } : State).rd K.DBG_STATE ≠ 0 := by
  and_intros <;> decide
/-- Context 190 holds the highest reservation. -/
def full : State := act [(K.TC_RESERVE 190, 25600)]

theorem wit_reserve : (K.TC_RESERVE 191 / 256) * 256 + K.TC_RESERVE 191 % 256 = K.TC_RESERVE 191 ∧ K.TC_RESERVE 191 / 256 < 65536 ∧
    Writes (K.TC_RESERVE 191) 4 25600 full ∧ 51200 < ((took full 8).wr (K.TC_RESERVE 191) 25600).reserveSum ∧
    Writes (K.TC_RESERVE 191) 4 25600 (act []) ∧ ((took (act []) 8).wr (K.TC_RESERVE 191) 25600).reserveSum ≤ 51200 := by
  and_intros <;> decide
theorem wit_answer : (msg 5).port.val < 2 := by decide

/-! Worked examples of the manual. -/

/-- Instances of the dictionary (R69): where the entries of one instance lie. -/
theorem test_entry_places :
    K.LOOP_STATE 59 / 256 = 0x5760 ∧ K.PC_ENABLE 11 / 256 = 0x62C0 ∧ K.TC_STATE 71 / 256 = 0x8470 ∧ K.LUNE_ENABLE 100 / 256 = 0xB640 ∧
      K.BC_POWER_CEILING 3 = 0x430201 := by decide

/-- Identity of a production part (R1). -/
theorem test_identity : State.reset.rd K.FAMILY_MEMBER = 0x0310 := by decide

/-- One sample's power (R185): the steps of its table. -/
theorem test_power :
    (composePower 1000000 49152 65536 15729 (-1311) [(700000, 45000), (725000, 46500)]).p1 = 720027 ∧
    (composePower 1000000 49152 65536 15729 (-1311) [(700000, 45000), (725000, 46500)]).p2 = 705623 ∧
    (composePower 1000000 49152 65536 15729 (-1311) [(700000, 45000), (725000, 46500)]).mod = 45337 := by decide

/-- The mark of the head-command example (R176, R179): 10 samples of lead-in, and its last marked sample. -/
theorem test_mark : leadSamples 10 20000000 1 0 1 = 10 ∧ lerp 50000000 51000000 199600 200000 = 50998000 ∧
    lerp 50000000 51000000 100000 200000 = 50500000 := by decide

/-- Decay over 10 ms and 2 ms at a time constant of 10 ms (R262). -/
theorem test_decay : decayFactor 10000 156250 = 24111 ∧ decayHeat 10000 1500 156250 = 552 ∧ decayFactor 10000 31250 = 53657 ∧
    decayHeat 10000 1302 31250 = 1066 ∧ decayHeat 10000 1302 31750 = 1063 := by decide

/-- Temperature of a ratio of 2,540 in the pool example (R291). -/
theorem test_temperature :
    curve257 ((List.range 257).flatMap fun i => toLE 2 (if i = 10 then 23400 else 24000)) 2540 = some 23447 := by decide

/-- The gain and the terms of one power-loop sample (R316 to R318). -/
theorem test_loop : gainAt [(200, 65536), (1000, 98304)] 447 = 75653 ∧ rsh (447 * 75653) 16 = 516 ∧ rsh (30000 * -516) 14 = -945 ∧
    rsh (-2516000) 12 = -614 ∧ rsh (8000 * -86) 14 = -42 := by decide

/-- A reversal of the powder doser (R319): the first step after the write. -/
theorem test_shaper : shapeStep 262144000 81920 50000000 (100000000 * 65536) 262144000 = (100000000 * 65536 + 262062080, 262062080) := by decide

/-- Position of the recoater axis (R366). -/
theorem test_position : (act [(K.AX_NM_PER_COUNT 1, 320000)]).scaled 1 20480051 = 100000249 := by decide

/-- Current, slot and row period of a dim segment (R387, R388). -/
theorem test_segment :
    ((act []).wrs [(K.LM_PWM_BITS, 10), (K.LM_PWM_LSB, 1), (K.LM_BLANK, 100)]).lmRowPeriod = 8992 ∧
      ((act []).wrs [(K.LM_GLOBAL, 200), (K.LM_COLUMN, 180 * 2 ^ (8 * 13))]).columnCurrent 13 = 83044 := by decide

/-- The authenticator input of the ceiling example (R436). -/
theorem test_authenticator :
    authInput 0x12 0 (K.BC_POWER_CEILING 3) (toLE 4 800000) 1207 (leNat [0x5E, 0x0A, 0x93, 0xC1, 0x77, 0x2B, 0xE4, 0x08, 0xD6, 0x31, 0xAF,
      0x52, 0x9C, 0x1E, 0x60, 0xF4]) =
    [0x12, 0x00, 0x02, 0x43, 0x01, 0x04, 0x04, 0x00, 0x00, 0x35, 0x0C, 0x00, 0xB7, 0x04, 0x00, 0x00, 0x5E, 0x0A, 0x93, 0xC1, 0x77, 0x2B, 0xE4,
      0x08, 0xD6, 0x31, 0xAF, 0x52, 0x9C, 0x1E, 0x60, 0xF4] := by decide

/-- The means of the registration example round away from zero (R464). -/
theorem test_means : divHalfAway (-29997 + -30004) 2 = -30001 ∧ divHalfAway (12000 + 12003) 2 = 12002 := by decide

/-- SHA-256 of the empty message and CRC-32C of the digits 1 to 9 (the published check values of both). -/
theorem test_codes :
    (sha256 []).take 8 = [0xE3, 0xB0, 0xC4, 0x42, 0x98, 0xFC, 0x1C, 0x14] ∧
    crc32c [0x31, 0x32, 0x33, 0x34, 0x35, 0x36, 0x37, 0x38, 0x39] = 0xE3069283 := by and_intros <;> decide

/-! Each check of WellFormed refuses an ill-formed term. -/

theorem wf_write : wf (.write (msg 4) 0 0 []) = false ∧ wf (.write (msg 5) 0 0 [1]) = true := by decide
theorem wf_stage : wf (.stage (msg 28) 0 0 0 0 [] authStage) = false ∧ wf (.stage (msg 29) 0 0 0 0 [1] []) = false ∧
    wf (.stage (msg 29) 0 0 0 0 [1] authStage) = true := by decide
theorem wf_concur : wf (.concur (msg 28) 0 0 0 0 [] authStage) = false ∧ wf (.concur (msg 29) 0 0 0 0 [1] [1]) = false ∧
    wf (.concur (msg 29) 0 0 0 0 [1] authStage) = true := by decide
theorem wf_stream : wf (.streamData (msg 8) 0 0 []) = false ∧ wf (.streamData (msg 1485) 0 0 (List.replicate 1477 0)) = false ∧
    wf (.streamData (msg 1484) 0 0 (List.replicate 1476 0)) = true := by decide
theorem wf_beat : wf (.dmaBeat [1, 1]) = false ∧ wf (.dmaBeat [1, 2]) = true := by decide
theorem wf_servo : wf (.servoSample 0 0 0 0 0 0 0 [0, 0, 0]) = false ∧ wf (.servoSample 0 0 0 0 0 0 0 [0, 0, 0, 0]) = true := by decide
theorem wf_rcsync : wf (.rcsync 301) = false ∧ wf (.rcsync 300) = true := by decide
theorem wf_pixels : wf (.sensorSlicePixels 0 0 0 []) = false ∧ wf (.sensorSlicePixels 0 0 0 (List.replicate 89 0)) = false ∧
    wf (.cameraSlicePixels 0 0 0 []) = false ∧ wf (.cameraSlicePixels 0 0 0 (List.replicate 88 0)) = true := by decide
theorem wf_ident : wf (.ident 0 { kind := 0, echo := 0, vendor := 0, model := 0, serial := 0, fields := [], delay := 0 }) = false ∧
    wf (.ident 0 { kind := 0, echo := 0, vendor := 0, model := 0, serial := 0, fields := List.replicate 16 0, delay := 0 }) = true := by decide

/-- A mirrored host command of a kind with a value. -/
def cmd (kind : BitVec 8) (value : List Byte) : Mirrored :=
  { host := 0, session := 0, seq := 0, kind := kind, index := 0, sub := 0, party := 0, proposal := 0, value := value }

theorem wf_hostCommand : wf (.hostCommand { link := 0, epoch := 0 } 0 0 (cmd 0x11 [])) = false ∧
    wf (.hostCommand { link := 0, epoch := 0 } 0 0 (cmd 0x10 [1])) = false ∧ wf (.hostCommand { link := 0, epoch := 0 } 0 0 (cmd 0x13 [1])) = true := by decide
theorem wf_memoryWrite : wf (.memoryWrite { link := 0, epoch := 0 } 0 0 (2 ^ 40) [1]) = false ∧
    wf (.memoryWrite { link := 0, epoch := 0 } 0 0 0 []) = false ∧ wf (.memoryWrite { link := 0, epoch := 0 } 0 0 0 [1]) = true := by decide
theorem wf_decision : wf (.decision { link := 0, epoch := 0 } 0 0 [⟨1, 0, 0, 0, 0, 0⟩, ⟨1, 0, 0, 0, 0, 0⟩]) = false ∧
    wf (.decision { link := 0, epoch := 0 } 0 0 [⟨1, 0, 0, 0, 0, 0⟩]) = true := by decide
theorem wf_latticeDelta : wf (.latticeDelta { link := 0, epoch := 0 } 0 0 [(1, 0), (1, 0)]) = false ∧
    wf (.latticeDelta { link := 0, epoch := 0 } 0 0 [(2 ^ 24, 0)]) = false ∧ wf (.latticeDelta { link := 0, epoch := 0 } 0 0 [(1, 0)]) = true := by decide
theorem wf_loopState : wf (.loopState { link := 0, epoch := 0 } 0 0 [⟨1, 0, 0, 0, 0, 0, 0, 0, []⟩, ⟨1, 0, 0, 0, 0, 0, 0, 0, []⟩]) = false ∧
    wf (.loopState { link := 0, epoch := 0 } 0 0 [⟨1, 0, 0, 0, 0, 0, 0, 0, []⟩]) = true := by decide
theorem wf_syncItems : wfSync (.entry 0 0 []) = false ∧ wfSync (.mapping 0 0 (2 ^ 18) true) = false ∧ wfSync (.page 0 65536 [1]) = false ∧
    wfSync (.cell (2 ^ 24) 0) = false ∧ wf (.syncPage { link := 0, epoch := 0 } (.cell 0 0)) = true := by decide
theorem wf_record : wfSync (.record 0 0 0 [1]) = true := by decide
theorem wf_digest : wf (.partnerDigest { link := 0, epoch := 0 } 0 0 []) = false ∧
    wf (.partnerDigest { link := 0, epoch := 0 } 0 0 (List.replicate 46 0)) = true := by decide
theorem wf_measured : wf (.calMeasured [[], [], []]) = false ∧ wf (.calMeasured [[], []]) = true := by decide
theorem wf_thermal : wf (.thermalSample []) = false ∧ wf (.thermalSample (List.replicate 14 0)) = true := by decide
theorem wf_powerOn : wf (.powerOnReset ⟨false, [1, 1], false, 0, 0, true⟩) = false ∧ wf (.powerOnReset ⟨false, [10], false, 0, 0, true⟩) = false ∧
    wf (.powerOnReset ⟨false, [1, 0], false, 0, 0, true⟩) = true := by decide
theorem wf_badKind : wf (.badKind (msg 0) 0x10) = false ∧ wf (.badKind (msg 0) 0x05) = true := by decide
theorem wf_debug : wf (.debugWrite (req 4) 0 0 []) = false ∧ wf (.memWrite (req 12) 0 0 []) = false ∧ wf (.debugBadOp (req 0) 5) = false ∧
    wf (.debugBadOp (req 0) 6) = true := by decide

end Sys2Proof.Tests
end

section
/-! PROOFS. The sync token on the line (R339, R342): stuffing and fill never let nine ones stand in a row, so the token's run of nine
is the only one in a frame. -/

namespace Sys2Proof.Machine

/-- The ones that stand in a row at the end of the line after bit `b`, when `r` stood there before it. -/
def onesAfter (r : Nat) (b : Bool) : Nat := if b then r + 1 else 0

@[simp] theorem onesAfter_true (r : Nat) : onesAfter r true = r + 1 := rfl

@[simp] theorem onesAfter_false (r : Nat) : onesAfter r false = 0 := rfl

/-- No more than `cap` ones come in a row on a line that `r` ones precede. -/
def OnesCapped (cap : Nat) : Nat → List Bool → Prop
  | _, [] => True
  | r, b :: t => onesAfter r b ≤ cap ∧ OnesCapped cap (onesAfter r b) t

@[simp] theorem onesCapped_nil (cap r : Nat) : OnesCapped cap r [] := trivial

@[simp] theorem onesCapped_cons (cap r : Nat) (b : Bool) (t : List Bool) :
    OnesCapped cap r (b :: t) ↔ onesAfter r b ≤ cap ∧ OnesCapped cap (onesAfter r b) t := Iff.rfl

/-- A run of ones at the start of a capped line continues the ones before it. -/
theorem OnesCapped.leadingRun_le {cap : Nat} {l : List Bool} {r m : Nat} (h : OnesCapped cap r l) (hm : 0 < m)
    (hrun : ∀ j < m, l[j]? = some true) : r + m ≤ cap := by
  induction l generalizing r m with
  | nil => simpa using hrun 0 hm
  | cons b t ih =>
    obtain rfl : b = true := by simpa using hrun 0 hm
    obtain ⟨hle, ht⟩ := h
    rw [onesAfter_true] at hle ht
    rcases Nat.lt_or_ge 1 m with h1 | h1
    · have := ih (m := m - 1) ht (by omega) fun j hj => by simpa using hrun (j + 1) (by omega)
      omega
    · omega

/-- A run of ones anywhere on a capped line is no longer than the cap. -/
theorem OnesCapped.run_le {cap : Nat} {l : List Bool} {r i m : Nat} (h : OnesCapped cap r l) (hm : 0 < m)
    (hrun : ∀ j < m, l[i + j]? = some true) : m ≤ cap := by
  induction l generalizing r i with
  | nil => simpa using hrun 0 hm
  | cons b t ih =>
    cases i with
    | zero =>
      have := h.leadingRun_le hm (by simpa using hrun)
      omega
    | succ i => exact ih h.2 fun j hj => by simpa [Nat.succ_add] using hrun j hj

/-- Fill alternates, so it adds at most a single one to a line that ends with a zero (R342). -/
theorem fillBits_onesCapped {cap : Nat} (hcap : 0 < cap) (n : Nat) {r : Nat} {prev : Bool} (hprev : prev = false → r = 0) :
    OnesCapped cap r (fillBits n prev) := by
  induction n generalizing r prev with
  | zero => exact onesCapped_nil cap r
  | succ n ih =>
    cases prev with
    | true => exact ⟨Nat.zero_le cap, ih fun _ => rfl⟩
    | false =>
      obtain rfl := hprev rfl
      exact ⟨hcap, ih (by simp)⟩

/-- What stuffing knows of the line before the next data bit (R342): `prev` is the last line bit, `r` the ones in a row that end with it,
and `n` the equal data bits counted, each `last`. A stuff bit can stand before the counted bits, so `r` exceeds `n` by at most one. -/
structure StuffBefore (n : Nat) (last prev : Bool) (r : Nat) : Prop where
  count : n ≤ 6
  zero : prev = false → r = 0
  ones : r ≤ n + 1
  zeros : n ≠ 0 → last = false → r = 0

/-- A data bit that is not the seventh of its run: the count goes on, or begins again at 1. -/
theorem StuffBefore.dataBit {n r k : Nat} {last prev b : Bool} (h : StuffBefore n last prev r)
    (hk : k = if n = 0 ∨ b != last then 1 else n + 1) (h7 : k ≠ 7) : StuffBefore k b b (onesAfter r b) := by
  obtain ⟨hn, -, hones, hzeros⟩ := h
  have hcount : k ≤ 6 := by split at hk <;> omega
  cases b with
  | false => exact ⟨hcount, fun _ => rfl, Nat.zero_le _, fun _ _ => rfl⟩
  | true =>
    refine ⟨hcount, nofun, ?_, nofun⟩
    have hr : r ≤ k := by
      split at hk
      next hnew =>
        by_cases h0 : n = 0
        · omega
        · have := hzeros h0 (by simpa [h0] using hnew)
          omega
      next => omega
    simpa using hr

/-- The stuff bit after the seventh equal data bit: the count restarts, and the stuff bit is alone in its run. -/
theorem StuffBefore.stuffBit (r : Nat) (b : Bool) : StuffBefore 0 b (!b) (onesAfter (onesAfter r b) (!b)) := by
  cases b with
  | false => exact ⟨by omega, nofun, by simp, by simp⟩
  | true => exact ⟨by omega, fun _ => rfl, by simp, by simp⟩

/-- Before a data bit at most seven ones stand in a row, so the bit makes eight at most. -/
theorem StuffBefore.onesAfter_le {n r : Nat} {last prev : Bool} (h : StuffBefore n last prev r) (b : Bool) : onesAfter r b ≤ 8 := by
  have hn := h.count
  have hr := h.ones
  cases b with
  | false => exact Nat.zero_le 8
  | true => rw [onesAfter_true]; omega

/-- After a stuff bit the line has at most eight ones in a row: the stuff bit differs from the bit before it. -/
theorem onesAfter_stuffBit_le (r : Nat) (b : Bool) : onesAfter (onesAfter r b) (!b) ≤ 8 := by
  cases b <;> simp

/-- Stuffed bits and the fill after them never bring more than eight ones in a row (R342). -/
theorem stuff_fill_onesCapped (fill : Nat) (bits : List Bool) {n r : Nat} {last prev : Bool} (h : StuffBefore n last prev r) :
    OnesCapped 8 r (stuff n last bits ++ fillBits fill ((stuff n last bits).getLastD prev)) := by
  induction bits generalizing n r last prev with
  | nil => exact fillBits_onesCapped (by omega) fill h.zero
  | cons b t ih =>
    unfold stuff
    generalize hk : (if n = 0 ∨ b != last then 1 else n + 1) = k
    dsimp only
    split
    next =>
      rw [List.getLastD_cons, List.getLastD_cons]
      exact ⟨h.onesAfter_le b, onesAfter_stuffBit_le r b, ih (.stuffBit r b)⟩
    next h7 =>
      rw [List.getLastD_cons]
      exact ⟨h.onesAfter_le b, ih (h.dataBit hk.symm h7)⟩

/-- The sync token bit by bit (R339). -/
theorem syncToken_eq : syncToken =
    [false, true, true, true, true, true, true, true, true, true, false, false, true, false, true, false] := by decide

/-- The token ends with a zero, so what follows it can take a zero for the bit before it (R342). -/
theorem getLastD_syncToken_append (l : List Bool) : (syncToken ++ l).getLastD false = l.getLastD false := by
  simp only [syncToken_eq, List.cons_append, List.nil_append, List.getLastD_cons]

/-- A frame on the line is the sync token, then stuffed bits, then fill (R338). -/
theorem frameLine_eq (header : Nat) (payload : List Byte) : ∃ bits fill, frameLine header payload =
    syncToken ++ (stuff 0 false bits ++ fillBits fill ((stuff 0 false bits).getLastD false)) := by
  unfold frameLine
  dsimp only
  rw [List.append_assoc, getLastD_syncToken_append]
  exact ⟨_, _, rfl⟩

/-- What follows the token holds no more than eight ones in a row, and the token's end adds none to them. -/
theorem frameLine_eq_token_append (header : Nat) (payload : List Byte) :
    ∃ rest, frameLine header payload = syncToken ++ rest ∧ OnesCapped 8 0 rest := by
  obtain ⟨bits, fill, heq⟩ := frameLine_eq header payload
  exact ⟨_, heq, stuff_fill_onesCapped fill bits ⟨by omega, fun _ => rfl, by omega, fun _ _ => rfl⟩⟩

/-- On a line that the token opens and where nothing after it has nine ones in a row, nine ones start at bit 1 alone. -/
theorem nineOnes_start {rest : List Bool} (hrest : OnesCapped 8 0 rest) {i : Nat}
    (hrun : ∀ j < 9, (syncToken ++ rest)[i + j]? = some true) : i = 1 := by
  rw [syncToken_eq] at hrun
  rcases Nat.lt_or_ge i 10 with hi | hi
  · by_contra h1
    rcases Nat.eq_zero_or_pos i with rfl | h0
    · simpa using hrun 0 (by omega)
    · have hbit := hrun (10 - i) (by omega)
      rw [Nat.add_sub_cancel' hi.le] at hbit
      simp at hbit
  · obtain ⟨d, rfl⟩ := Nat.exists_eq_add_of_le' hi
    have hcap : OnesCapped 8 0 ([false, false, true, false, true, false] ++ rest) := by simpa using hrest
    have hle := hcap.run_le (i := d) (m := 9) (by omega) fun j hj => by
      have hbit := hrun j hj
      rw [Nat.add_right_comm] at hbit
      exact hbit
    omega

/-- Settles O18: the token's bits are `syncToken_eq`, it opens the frame by `frameLine_eq_token_append`, and its run of nine ones is the
only one by `nineOnes_start`. -/
theorem syncTokenStandsAlone : Obligations.SyncTokenStandsAlone := by
  unfold Obligations.SyncTokenStandsAlone
  refine ⟨syncToken_eq, fun header payload i => ?_⟩
  obtain ⟨rest, heq, hrest⟩ := frameLine_eq_token_append header payload
  rw [heq]
  exact ⟨List.take_left' rfl, nineOnes_start hrest⟩

end Sys2Proof.Machine
end

section
/-! PROOFS. The delivery of raised conditions (R47, R48, R158): what `settle` leaves unchanged, and what it lists as raised on the
present tick. -/

namespace Sys2Proof.Machine

/-- Entries that the delivery of conditions can write: what a woken sequencer reports of its progress and of its wait for a share, and
the index of a repetitive slot. -/
def DeliveryKey (k : Nat) : Prop :=
  (∃ n < 16, k ∈ [K.CS_ACTIVITY n, K.BC_SHARE_WAIT n, K.BC_SHARE_AGE n, K.BC_SHARE_BLOCKER n, K.CS_PC n, K.CS_OFFSET_X n,
    K.CS_OFFSET_Y n, K.CS_DEPTH n]) ∨ ∃ i < 32, k = K.RC_INDEX i

/-- `t` is `s` but for channels and the entries that the delivery of conditions can write. -/
structure Woken (s t : State) : Prop where
  form : t = { s with od := t.od, chans := t.chans }
  rd : ∀ k, ¬ DeliveryKey k → t.rd k = s.rd k

variable {s t u : State}

theorem Woken.refl : Woken s s := ⟨rfl, fun _ _ => rfl⟩

theorem Woken.trans (h : Woken s t) (h' : Woken t u) : Woken s u :=
  ⟨by rw [h'.form, h.form], fun k hk => (h'.rd k hk).trans (h.rd k hk)⟩

theorem Woken.wr (h : Woken s t) (k v : Nat) (hk : DeliveryKey k) : Woken s (t.wr k v) :=
  h.trans ⟨rfl, fun j hj => t.rd_wr_other v (by rintro rfl; exact hj hk)⟩

theorem Woken.wrs (h : Woken s t) (l : List (Nat × Nat)) (hl : ∀ e ∈ l, DeliveryKey e.1) : Woken s (t.wrs l) := by
  induction l generalizing t with
  | nil => exact h
  | cons e l ih =>
    obtain ⟨k, v⟩ := e
    exact ih (h.wr k v (hl (k, v) (List.mem_cons_self ..))) fun e he => hl e (List.mem_cons_of_mem _ he)

theorem Woken.setChan (h : Woken s t) (n : Nat) (c : Chan) : Woken s (t.setChan n c) := h.trans ⟨rfl, fun _ _ => rfl⟩

theorem Woken.foldl {β : Type} {f : State → β → State} {l : List β} (h : Woken s t)
    (hf : ∀ t, ∀ b ∈ l, Woken t (f t b)) : Woken s (l.foldl f t) := by
  induction l generalizing t with
  | nil => exact h
  | cons b l ih =>
    exact ih (h.trans (hf t b (List.mem_cons_self ..))) fun t c hc => hf t c (List.mem_cons_of_mem _ hc)

theorem State.setCursor_woken {n : Nat} (hn : n < 16) (c : Cursor) (h : Woken s t) : Woken s (t.setCursor n c) := by
  refine (h.setChan _ _).wrs _ fun e he => .inl ⟨n, hn, ?_⟩
  simp only [List.mem_cons, List.not_mem_nil, or_false] at he
  rcases he with rfl | rfl | rfl | rfl <;> simp

theorem State.wake_woken {n : Nat} (hn : n < 16) (tick : Nat) : Woken s (s.wake n tick) := by
  unfold State.wake
  dsimp only
  split
  · exact Woken.refl.setChan _ _
  · refine (State.setCursor_woken hn _ (Woken.refl.setChan _ _)).wrs _ fun e he => .inl ⟨n, hn, ?_⟩
    simp only [List.mem_cons, List.not_mem_nil, or_false] at he
    rcases he with rfl | rfl | rfl | rfl <;> simp

theorem State.rcHit_woken (h : Nat × Nat × Nat) : Woken s (s.rcHit h) := by
  refine Woken.refl.foldl fun t i hi => ?_
  dsimp only
  split
  · exact Woken.refl.wr _ _ (.inr ⟨i, List.mem_range.mp hi, rfl⟩)
  · exact Woken.refl

/-- Delivering one condition: the sequencers that wait for it wake, and the repetitive slots that name it start over. -/
def State.deliverHit (s : State) (h : Nat × Nat × Nat) : State :=
  ((List.range 16).foldl (fun s n => if (s.chan n).matches h then s.wake n h.2.2 else s) s).rcHit h

/-- The state after every condition in hand is delivered, before the lists of conditions are brought up to date. -/
def State.delivered (s : State) : State := s.ev.hits.foldl State.deliverHit s

/-- `settle` delivers the conditions in hand, then keeps those of the present tick as recent ones. -/
theorem State.settle_eq (s : State) : s.settle = { s.delivered with
    ev := { s.delivered.ev with
      hits := []
      recent := (s.delivered.ev.recent ++ s.ev.hits).filter fun h => decide (s.delivered.tm.tick ≤ h.2.2) } } := rfl

theorem State.deliverHit_woken (h : Nat × Nat × Nat) : Woken s (s.deliverHit h) := by
  refine (Woken.foldl Woken.refl fun t n hn => ?_).trans (State.rcHit_woken h)
  split
  · exact State.wake_woken (List.mem_range.mp hn) _
  · exact Woken.refl

theorem Woken.ev (h : Woken s t) : t.ev = s.ev := by rw [h.form]

theorem Woken.tm (h : Woken s t) : t.tm = s.tm := by rw [h.form]

theorem State.delivered_woken (s : State) : Woken s s.delivered :=
  Woken.refl.foldl fun _ h _ => State.deliverHit_woken h

/-- The entries a delivery can write lie below index 6000. -/
theorem DeliveryKey.lt {k : Nat} (h : DeliveryKey k) : k < 0x600000 := by
  rcases h with ⟨n, hn, hmem⟩ | ⟨i, hi, rfl⟩
  · simp only [List.mem_cons, List.not_mem_nil, or_false, K.CS_ACTIVITY, K.BC_SHARE_WAIT, K.BC_SHARE_AGE, K.BC_SHARE_BLOCKER, K.CS_PC,
      K.CS_OFFSET_X, K.CS_OFFSET_Y, K.CS_DEPTH] at hmem
    omega
  · unfold K.RC_INDEX
    omega

theorem State.settle_rd {k : Nat} (hk : ¬ DeliveryKey k) : s.settle.rd k = s.rd k := s.delivered_woken.rd k hk

/-- The recent conditions after a delivery: those known before and those in hand, as far as their tick has not passed. -/
theorem State.mem_settle_recent {h : Nat × Nat × Nat} :
    h ∈ s.settle.ev.recent ↔ (h ∈ s.ev.recent ∨ h ∈ s.ev.hits) ∧ s.tm.tick ≤ h.2.2 := by
  rw [State.settle_eq]
  simp only [s.delivered_woken.ev, s.delivered_woken.tm, List.mem_filter, List.mem_append, decide_eq_true_eq]

end Sys2Proof.Machine
end

section
/-! PROOFS. The conditions in hand after an event is raised (R523). -/

namespace Sys2Proof.Machine

variable {s t : State}

theorem Raised.tm (h : Raised s t) : t.tm = s.tm := by rw [h.form]

@[simp] theorem State.countQueue_ev (s : State) : s.countQueue.ev = s.ev := by
  unfold State.countQueue
  dsimp only
  split <;> rfl

@[simp] theorem State.showEvent_ev (s : State) (e : EvRec) : (s.showEvent e).ev = s.ev := State.wrs_ev ..

@[simp] theorem State.inc_ev (s : State) (k : Nat) : (s.inc k).ev = s.ev := rfl

@[simp] theorem State.putOpen_hits (s : State) (e : EvRec) : (s.putOpen e).ev.hits = s.ev.hits := rfl

@[simp] theorem State.decideNotice_hits (s : State) (e : EvRec) : (s.decideNotice e).2.ev.hits = s.ev.hits := by
  unfold State.decideNotice
  split
  · rfl
  · split
    · dsimp only
      rw [State.inc_ev, State.countQueue_ev]
    · rfl

/-- An open event that is found for a source is of that source. -/
theorem State.openEvent_source {t src : Nat} {o : EvRec} (h : s.openEvent t src = some o) : o.source = src := by
  have hp := List.find?_some h
  simp only [Bool.and_eq_true, beq_iff_eq] at hp
  exact hp.1.2

/-- Raising an event of a source that exists puts its condition in hand, merged or not. -/
theorem State.raiseAt_hits {src : Nat} (t code cls inst data : Nat) (ext : List (List Byte)) (series : Bool)
    (hres : Dict.reservedSource src = false) (hsrc : src < 256) :
    (s.raiseAt t src code cls inst data ext series).ev.hits = s.ev.hits ++ [(src, code, t)] := by
  unfold State.raiseAt
  rw [if_neg (by simp [hres, hsrc])]
  dsimp only
  split
  · split <;> simp
  · simp

theorem State.raise_hits {src : Nat} (code cls inst data : Nat) (hres : Dict.reservedSource src = false) (hsrc : src < 256) :
    (s.raise src code cls inst data).ev.hits = s.ev.hits ++ [(src, code, s.tm.tick)] :=
  State.raiseAt_hits _ _ _ _ _ _ _ hres hsrc

end Sys2Proof.Machine
end

section
/-! PROOFS. A time trigger's AXIS_LATCH (R53, R56, R373): the firing leaves the axis entries and the time alone, and the latch takes
the count and the stamp of the firing tick. -/

namespace Sys2Proof.Machine

variable {s : State} {k : Nat}

/-- The firing's event changes event entries and lists only. -/
theorem State.fireEvent_raised {n : Nat} (hn : n < 64) (late : Bool) : Raised s (s.fireEvent n late) := by
  unfold State.fireEvent
  dsimp only
  split
  · exact State.raise_raised ..
  · next o ho =>
    have hsrc : o.source < 256 := by
      rw [State.openEvent_source ho]
      omega
    exact State.showEvent_raised _ hsrc ((Raised.refl.ev _).ev _)

/-- A firing leaves every entry but those of the time triggers (7100 to 713F) and of events. -/
theorem State.fireTrigger_rd {n : Nat} (hn : n < 64) (hev : eventKey k = false) (hout : k < 0x710000 ∨ 0x714000 ≤ k) :
    (s.fireTrigger n).rd k = s.rd k := by
  have harm : k ≠ K.TT_ARM n := by unfold K.TT_ARM; omega
  have hwrs (v w : Nat) : (s.wrs [(K.TT_FIRED n, v), (K.TT_LAST n, w)]).rd k = s.rd k :=
    State.rd_wrs_other _ _ (by simp [K.TT_FIRED, K.TT_LAST]; omega)
  unfold State.fireTrigger
  dsimp only
  rw [(State.fireEvent_raised hn _).rd k hev]
  split
  · exact (State.rd_wr_other _ _ harm).trans (hwrs _ _)
  · exact hwrs _ _

theorem State.fireTrigger_tm {n : Nat} (hn : n < 64) : (s.fireTrigger n).tm = s.tm := by
  unfold State.fireTrigger
  dsimp only
  rw [(State.fireEvent_raised hn _).tm]
  split <;> rfl

/-- Raising an event writes no entry of an axis's index 7k01. -/
theorem axisEntry_eventKey {i : Nat} (hk : k < 4) (hi : i < 256) : eventKey (0x780100 + i + k * 0x8000) = false := by
  simp only [eventKey, Bool.or_eq_false_iff, Bool.and_eq_false_iff, decide_eq_false_iff_not]
  omega

/-- Nor does a delivery. -/
theorem axisEntry_not_deliveryKey {i : Nat} : ¬ DeliveryKey (0x780100 + i + k * 0x8000) := fun h => by
  have := h.lt
  omega

theorem reservedSource_srcAxis (hk : k < 4) : Dict.reservedSource (srcAxis k) = false := by
  interval_cases k <;> rfl

theorem State.axisLatch_tm : (s.axisLatch k).tm = s.tm := (State.raise_raised ..).tm.trans (State.wrs_tm ..)

theorem State.axisLatch_trigLatch (hk : k < 4) : (s.axisLatch k).rd (K.AX_TRIG_LATCH k) = s.rd (K.AX_COUNT k) := by
  unfold State.axisLatch
  rw [(State.raise_raised ..).rd _ (axisEntry_eventKey (i := 0x0C) hk (by decide))]
  exact (State.rd_wr_other _ _ (by simp)).trans (State.rd_wr_same _ _ _)

theorem State.axisLatch_trigStamp (hk : k < 4) : (s.axisLatch k).rd (K.AX_TRIG_STAMP k) = s.now := by
  unfold State.axisLatch
  rw [(State.raise_raised ..).rd _ (axisEntry_eventKey (i := 0x0D) hk (by decide))]
  exact State.rd_wr_same _ _ _

/-- The latch puts TRIG_LATCH of the axis in hand, on the present tick. -/
theorem State.axisLatch_hits (hk : k < 4) : (srcAxis k, 0x00C9, s.tm.tick) ∈ (s.axisLatch k).ev.hits := by
  unfold State.axisLatch
  rw [State.raise_hits _ _ _ _ (reservedSource_srcAxis hk) (by unfold srcAxis; omega), State.wrs_tm]
  exact List.mem_append_right _ (List.mem_singleton_self _)

theorem State.deliver_axisLatch (hk : k < 4) : s.deliver 5 k = s.axisLatch k := if_pos hk

/-- A due trigger whose action is AXIS_LATCH fires, then latches its axis. -/
theorem State.triggerFired_axisLatch {n : Nat} (hdue : s.triggerDue n = true) (hact : s.rd (K.TT_ACTION n) = 5)
    (htgt : s.rd (K.TT_TARGET n) = k) (hk : k < 4) : s.triggerFired n = (s.fireTrigger n).axisLatch k := by
  unfold State.triggerFired
  rw [if_pos hdue, hact, htgt, State.deliver_axisLatch hk]

theorem exec_triggerFired (n : Fin 64) (s : State) : exec (.triggerFired n) s = live (fun s => s.triggerFired n) s := rfl

/-- Settles O26: the firing keeps the count and the time (`fireTrigger_rd`, `fireTrigger_tm`), the latch takes both and raises its
event, and the delivery keeps the two latched entries and lists the condition as recent. -/
theorem triggerLatchesTheCount : Obligations.TriggerLatchesTheCount := by
  unfold Obligations.TriggerLatchesTheCount
  rintro s u n k hrun hdue hact htgt hk rfl
  have htm : (s.fireTrigger n).tm = s.tm := State.fireTrigger_tm n.isLt
  have hcount : (s.fireTrigger n).rd (K.AX_COUNT k) = s.rd (K.AX_COUNT k) :=
    State.fireTrigger_rd n.isLt (axisEntry_eventKey (i := 0x01) hk (by decide)) (.inr (by unfold K.AX_COUNT; omega))
  have hnow : (s.fireTrigger n).now = s.now := congrArg Time.time64 htm
  refine ⟨(s.fireTrigger n).wrs [(K.AX_TRIG_LATCH k, s.rd (K.AX_COUNT k)), (K.AX_TRIG_STAMP k, s.now)],
    (s.fireTrigger n).axisLatch k, ?_, ?_, ?_, ?_, ?_⟩
  · rw [exec_triggerFired]
    exact live_gives hrun (State.triggerFired_axisLatch hdue hact htgt hk)
  · rw [State.axisLatch, hcount, hnow]
  · rw [State.settle_rd (axisEntry_not_deliveryKey (i := 0x0C)), State.axisLatch_trigLatch hk, hcount]
  · rw [State.settle_rd (axisEntry_not_deliveryKey (i := 0x0D)), State.axisLatch_trigStamp hk, hnow]
  · have hhit := State.axisLatch_hits (s := s.fireTrigger n) hk
    rw [htm] at hhit
    exact State.mem_settle_recent.mpr ⟨.inr hhit, by rw [State.axisLatch_tm, htm]⟩

end Sys2Proof.Machine
end

section
/-! PROOFS. JOURNAL_PEEK (R512): what a debug request that reaches its own checks runs, what its answer leaves unchanged, and the
blocks that it reads. -/

namespace Sys2Proof.Machine

variable {r : DbgReq} {s : State}

/-- A request that reaches its own checks is carried out under its TAG (R507 to R510). -/
theorem debugReq_taken {n : Nat} {ident fit : Bool} {k : Nat → State → State} (h : DebugTaken r s n) (hfit : fit = true) :
    debugReq r ident fit k s = k r.tag.toNat s := by
  obtain ⟨-, hcrc, hresv, -, hopen, hend, hwait, hlast⟩ := h
  unfold debugReq
  simp only [hcrc, hfit, hresv, hopen, hend, hwait, Bool.not_true, bne_self_eq_false, Bool.or_self, Bool.false_eq_true, or_self,
    false_and, if_false]
  split
  · next t b heq => exact if_neg fun htag => hlast (by rw [heq, htag]; rfl)
  · rfl

/-- Completing a request writes no entry but DBG_REQUESTS (R509). -/
theorem State.debugDone_rd (tag code : Nat) (data : List Byte) {k : Nat} (hk : k ≠ K.DBG_REQUESTS) :
    (s.debugDone tag code data).rd k = s.rd k := State.rd_wr_other _ _ hk

/-- One block of the ring (R59). -/
def State.ringBlock (s : State) (seq : Nat) : Option (List Byte) :=
  s.readMem 57 (s.rd K.JOURNAL_BASE + seq % s.ringBlocks * 32) 32

/-- A peek of one block more reads the next block and appends it. -/
theorem State.ringPeek_succ {seq n : Nat} {b c : List Byte} (hb : s.ringPeek seq n = some b) (hc : s.ringBlock (seq + n) = some c) :
    s.ringPeek seq (n + 1) = some (b ++ c) := by
  unfold State.ringPeek at hb ⊢
  rw [List.range_succ, List.foldl_append, hb]
  exact congrArg (Option.map fun c => b ++ c) hc

/-- On mapped pages of the ring, a peek gives the blocks from SEQ on. -/
theorem State.ringPeek_of_mapped {seq n : Nat} (h : ∀ i < n, (s.ringBlock (seq + i)).isSome) :
    s.ringPeek seq n = some ((List.range n).flatMap fun i => (s.ringBlock (seq + i)).getD []) := by
  induction n with
  | zero => rfl
  | succ n ih =>
    obtain ⟨c, hc⟩ := Option.isSome_iff_exists.mp (h n n.lt_succ_self)
    rw [State.ringPeek_succ (ih fun i hi => h i (Nat.lt_succ_of_lt hi)) hc, List.range_succ, List.flatMap_append,
      List.flatMap_singleton, hc, Option.getD_some]

/-- How far SEQ lies below JOURNAL_WRITE_SEQ, modulo 2^32 (R59). -/
def State.ringDistance (s : State) (seq : Nat) : Nat := (s.rd K.JOURNAL_WRITE_SEQ + 2 ^ 32 - seq) % 2 ^ 32

/-- The blocks asked for are not all in the ring, or their number is none that a request may carry (R508, R512). -/
abbrev State.PeekOutside (s : State) (seq n : Nat) : Prop :=
  n = 0 ∨ 32 < n ∨ s.ringDistance seq < n ∨ s.ringBlocks < s.ringDistance seq

/-- The code and the data that JOURNAL_PEEK answers (R512). -/
def State.peekAnswer (s : State) (seq n : Nat) : Nat × List Byte :=
  if s.PeekOutside seq n then (Ans.outOfRange, [])
  else match s.ringPeek seq n with
    | some b => (Ans.ok, b)
    | none => (Ans.noEntry, [])

theorem State.peekAnswer_outside {seq n : Nat} (h : s.PeekOutside seq n) : s.peekAnswer seq n = (Ans.outOfRange, []) := if_pos h

theorem State.peekAnswer_inside {seq n : Nat} {b : List Byte} (h : ¬ s.PeekOutside seq n) (hb : s.ringPeek seq n = some b) :
    s.peekAnswer seq n = (Ans.ok, b) := by
  unfold State.peekAnswer
  rw [if_neg h, hb]

theorem State.peekAnswer_unmapped {seq n : Nat} (h : ¬ s.PeekOutside seq n) (hb : s.ringPeek seq n = none) :
    s.peekAnswer seq n = (Ans.noEntry, []) := by
  unfold State.peekAnswer
  rw [if_neg h, hb]

/-- A JOURNAL_PEEK that reaches its checks does nothing but complete with its answer. -/
theorem exec_journalPeek_taken {q : BitVec 32} {blocks : BitVec 8} (h : DebugTaken r s 8) :
    exec (.journalPeek r q blocks) s =
      .next (s.debugDone r.tag.toNat (s.peekAnswer q.toNat blocks.toNat).1 (s.peekAnswer q.toNat blocks.toNat).2).settle := by
  have ⟨hrun, _, _, hlen, _⟩ := h
  refine live_gives hrun ((debugReq_taken h (beq_iff_eq.mpr (BitVec.eq_of_toNat_eq hlen))).trans ?_)
  by_cases hout : s.PeekOutside q.toNat blocks.toNat
  · rw [State.peekAnswer_outside hout]
    exact if_pos hout
  · refine (if_neg hout).trans ?_
    cases hb : s.ringPeek q.toNat blocks.toNat with
    | some b => rw [State.peekAnswer_inside hout hb]
    | none => rw [State.peekAnswer_unmapped hout hb]

/-- Settles O29: the step is the completion with `peekAnswer` (`exec_journalPeek_taken`), which is OUT_OF_RANGE outside the ring and the
mapped blocks inside it, and neither the completion nor the delivery writes JOURNAL_READ_SEQ. -/
theorem peekLeavesTheReadNumber : Obligations.PeekLeavesTheReadNumber := by
  unfold Obligations.PeekLeavesTheReadNumber
  rintro r s q blocks d htaken hpos hmax rfl
  refine ⟨_, exec_journalPeek_taken htaken, ?_, fun hout => ?_, fun hlow hhigh hmapped => ?_⟩
  · have hkey : ¬ DeliveryKey K.JOURNAL_READ_SEQ := fun h => absurd h.lt (by decide)
    rw [State.settle_rd hkey, State.debugDone_rd _ _ _ (by decide)]
  · rw [State.peekAnswer_outside (.inr (.inr hout))]
  · have hin : ¬ s.PeekOutside q.toNat blocks.toNat := by
      unfold State.PeekOutside State.ringDistance State.ringBlocks
      omega
    rw [State.peekAnswer_inside hin (State.ringPeek_of_mapped hmapped)]
    rfl

end Sys2Proof.Machine
end

section
/-! PROOFS. The queue and the canonical form: what a step takes off the queue, the state right after reset, and stores that read
alike (notes/assumptions/1.md to 3.md). -/

namespace Sys2Proof.Machine

/-- Settles O1: a step on a queue that begins with a command is that command's effect. -/
theorem frontCommandRuns : Obligations.FrontCommandRuns := fun _ _ _ => rfl

/-- Settles O2: the branch of `step` for an empty queue. -/
theorem emptyQueueIdles : Obligations.EmptyQueueIdles := by
  unfold Obligations.EmptyQueueIdles step
  intro s hs
  rw [hs]

/-- Settles O6: every table right after reset is empty. -/
theorem resetIsCanonical : Obligations.ResetIsCanonical := ⟨rfl, ⟨rfl, rfl⟩, rfl⟩

theorem State.reset_rd (k : Nat) : State.reset.rd k = Dict.dflt k := Tab.get_nil k

/-- The default of BC_STATE is OFF, and no permit is raised by default. -/
theorem dflt_bcState_bpState : (∀ n < 16, Dict.dflt (K.BC_STATE n) = Bc.off) ∧ Dict.dflt K.BP_STATE = 0 := by decide

/-- An address below the end of physical memory lies on no page that stands as cells after reset. -/
theorem State.reset_physByte {a : Nat} (ha : a < 2 ^ 34) : State.reset.physByte a = 0 := by
  have hpage : ¬ 2 ^ 18 ≤ a / 65536 := by omega
  unfold State.physByte
  rw [if_neg (by simp only [State.asCells, State.reset, Nat.zero_testBit, hpage, decide_false, Bool.or_self, Bool.false_eq_true,
    not_false_eq_true])]
  exact Tab.get_nil a

/-- Settles O7: reset lists nothing, so every entry, byte and page reads its default. -/
theorem resetReadsDefaults : Obligations.ResetReadsDefaults := by
  unfold Obligations.ResetReadsDefaults
  refine ⟨rfl, rfl, rfl, rfl, State.reset_rd, fun _ => State.reset_physByte, fun _ _ => rfl, fun n hn => ?_⟩
  obtain ⟨hbc, hbp⟩ := dflt_bcState_bpState
  refine ⟨(State.reset_rd _).trans (hbc n hn), ?_⟩
  unfold State.permit
  rw [State.reset_rd, hbp, Nat.zero_testBit]

theorem step_cons {s : State} {c : Instr} {rest : List Instr} (hq : s.pending = c :: rest) :
    step s = exec c { s with pending := rest } := by rw [step, hq]

/-- Settles O8: the step runs the front command on the rest of the queue, and every command keeps both (`exec_kept`). -/
theorem everyStepKeepsTheForm : Obligations.EveryStepKeepsTheForm := by
  unfold Obligations.EveryStepKeepsTheForm
  intro c s rest hq hs
  obtain ⟨t, ht, hqueue, hcanon⟩ := exec_kept c (⟨rfl, ⟨hs.od, hs.mem, hs.cells⟩⟩ : Kept rest { s with pending := rest })
  exact ⟨t, (step_cons hq).trans ht, hqueue, hcanon⟩

section
variable {α : Type} [DecidableEq α] {d : Nat → α}

/-- The head of a canonical table is the least key at which the table does not read its default. -/
theorem Tab.get_head {b : Option Nat} {j : Nat} {v : α} {t : Tab α} (h : Tab.wfFrom d b ((j, v) :: t) = true) :
    Tab.get d ((j, v) :: t) j ≠ d j ∧ ∀ k < j, Tab.get d ((j, v) :: t) k = d k := by
  obtain ⟨-, hv, ht⟩ := Tab.wfFrom_cons.mp h
  refine ⟨by simpa [Tab.get] using hv, fun k hk => ?_⟩
  rw [Tab.get, if_neg (by omega), Tab.wfFrom_get_below ht hk.le]

/-- Canonical tables that read alike are equal lists: their heads are the same least key, and the rests read alike. -/
theorem Tab.eq_of_get {b c : Option Nat} {t u : Tab α} (ht : Tab.wfFrom d b t = true) (hu : Tab.wfFrom d c u = true)
    (h : ∀ k, Tab.get d t k = Tab.get d u k) : t = u := by
  induction t generalizing b c u with
  | nil =>
    cases u with
    | nil => rfl
    | cons e u => exact absurd (h e.1).symm (Tab.get_head hu).1
  | cons e t ih =>
    obtain ⟨j, v⟩ := e
    cases u with
    | nil => exact absurd (h j) (Tab.get_head ht).1
    | cons f u =>
      obtain ⟨i, w⟩ := f
      obtain ⟨htj, htlt⟩ := Tab.get_head ht
      obtain ⟨hui, hult⟩ := Tab.get_head hu
      have hij : i = j := by
        rcases Nat.lt_trichotomy i j with hlt | heq | hgt
        · exact absurd ((h i).symm.trans (htlt i hlt)) hui
        · exact heq
        · exact absurd ((h j).trans (hult j hgt)) htj
      subst hij
      have hvw : v = w := by simpa [Tab.get] using h i
      obtain ⟨-, -, ht⟩ := Tab.wfFrom_cons.mp ht
      obtain ⟨-, -, hu⟩ := Tab.wfFrom_cons.mp hu
      rw [hvw, ih ht hu fun k => ?_]
      rcases Nat.lt_or_ge i k with hk | hk
      · have := h k
        rwa [Tab.get, Tab.get, if_neg (by omega), if_neg (by omega)] at this
      · rw [Tab.wfFrom_get_below ht hk, Tab.wfFrom_get_below hu hk]

end

/-- Settles O12: both stores are canonical tables, which are what they read (`Tab.eq_of_get`). -/
theorem canonicalStoresAgree : Obligations.CanonicalStoresAgree :=
  ⟨fun _ _ hs ht h => Tab.eq_of_get hs.od ht.od h, fun _ _ hm hn h => Tab.eq_of_get hm.1 hn.1 h⟩

/-- Settles O13: reading a key after a write to it and to another key. -/
theorem entriesReadBack : Obligations.EntriesReadBack :=
  fun s k _ v => ⟨s.rd_wr_same k v, fun h => s.rd_wr_other v h⟩

end Sys2Proof.Machine
end

section
/-! PROOFS. Encodings: numbers as bytes (R9), lattice cells as images (R256), and the worked example of a MARK (R147, R176). -/

namespace Sys2Proof.Machine

theorem leNat_toLE (n v : Nat) : leNat (toLE n v) = v % 256 ^ n := by
  induction n generalizing v with
  | zero => simp [toLE, leNat, Nat.mod_one]
  | succ n ih =>
    rw [toLE, leNat, ih, BitVec.toNat_ofNat, Nat.pow_succ' (m := 256), Nat.mod_mul (x := v) (a := 256)]

theorem toLE_leNat (b : List Byte) : toLE b.length (leNat b) = b := by
  induction b with
  | nil => rfl
  | cons x b ih =>
    have hlow : BitVec.ofNat 8 (x.toNat + 256 * leNat b) = x := by
      rw [← BitVec.toNat_inj, BitVec.toNat_ofNat]
      omega
    have hrest : (x.toNat + 256 * leNat b) / 256 = leNat b := by omega
    rw [List.length_cons, leNat, toLE, hlow, hrest, ih]

/-- Settles O14: a number's digits to base 256, both ways. -/
theorem numbersReadBack : Obligations.NumbersReadBack := ⟨leNat_toLE, toLE_leNat⟩

/-- A flag of a cell's image is its bit times the weight of its place. -/
theorem ite_two_pow_eq (b : Bool) (i : Nat) : (if b = true then 2 ^ i else 0) = b.toNat * 2 ^ i := by
  cases b <;> simp

/-- A field of `w` bits above the low `lo` bits of a number extends them. -/
theorem mod_add_field (v lo w : Nat) : v % 2 ^ lo + v / 2 ^ lo % 2 ^ w * 2 ^ lo = v % 2 ^ (lo + w) := by
  rw [Nat.pow_add, Nat.mod_mul, Nat.mul_comm]

theorem toNat_testBit_eq (v i : Nat) : (v.testBit i).toNat = v / 2 ^ i % 2 ^ 1 := Nat.toNat_testBit v i

/-- A number is the sum of the fields of a cell's image in it, and of bit 95. -/
theorem Cell.image_fields (v : Nat) (hv : v < 2 ^ 104) :
    v = v / 2 ^ 0 % 2 ^ 16 + v / 2 ^ 16 % 2 ^ 32 * 2 ^ 16 + v / 2 ^ 48 % 2 ^ 16 * 2 ^ 48 + v / 2 ^ 64 % 2 ^ 16 * 2 ^ 64 +
      v / 2 ^ 80 % 2 ^ 4 * 2 ^ 80 + v / 2 ^ 84 % 2 ^ 5 * 2 ^ 84 + v / 2 ^ 89 % 2 ^ 1 * 2 ^ 89 + v / 2 ^ 90 % 2 ^ 1 * 2 ^ 90 +
      v / 2 ^ 91 % 2 ^ 1 * 2 ^ 91 + v / 2 ^ 92 % 2 ^ 1 * 2 ^ 92 + v / 2 ^ 93 % 2 ^ 1 * 2 ^ 93 + v / 2 ^ 94 % 2 ^ 1 * 2 ^ 94 +
      v / 2 ^ 95 % 2 ^ 1 * 2 ^ 95 + v / 2 ^ 96 % 2 ^ 8 * 2 ^ 96 := by
  rw [Nat.pow_zero, Nat.div_one]
  iterate 13 rw [mod_add_field]
  exact (Nat.mod_eq_of_lt hv).symm

/-- A cell's image with its flags as numbers. -/
theorem Cell.image_eq (c : Cell) (lock : Nat) : c.image lock =
    c.heat % 2 ^ 16 + c.stamp % 2 ^ 32 * 2 ^ 16 + c.dose % 2 ^ 16 * 2 ^ 48 + c.peak % 2 ^ 16 * 2 ^ 64 + c.lastCh % 2 ^ 4 * 2 ^ 80 +
      lock % 2 ^ 5 * 2 ^ 84 + c.missed.toNat * 2 ^ 89 + c.repaired.toNat * 2 ^ 90 + c.overheat.toNat * 2 ^ 91 +
      c.claimed.toNat * 2 ^ 92 + c.exposed.toNat * 2 ^ 93 + c.old.toNat * 2 ^ 94 + c.tag % 2 ^ 8 * 2 ^ 96 := by
  unfold Cell.image
  simp only [ite_two_pow_eq]
  rfl

/-- A bit of a number is set when the quotient by its weight is odd. -/
theorem testBit_eq_of_div {v i : Nat} {b : Bool} (h : v / 2 ^ i % 2 = b.toNat) : v.testBit i = b := by
  rw [Nat.testBit_eq_decide_div_mod_eq, h]
  cases b <;> rfl

theorem Cell.ofImage_image (c : Cell) (lock : Nat) (hh : c.heat < 2 ^ 16) (hs : c.stamp < 2 ^ 32) (hd : c.dose < 2 ^ 16)
    (hp : c.peak < 2 ^ 16) (hc : c.lastCh < 2 ^ 4) (ht : c.tag < 2 ^ 8) : Cell.ofImage (c.image lock) = c := by
  have hv := c.image_eq lock
  generalize c.image lock = v at hv
  obtain ⟨heat, stamp, dose, peak, lastCh, missed, repaired, overheat, claimed, exposed, old, tag⟩ := c
  dsimp only at *
  have b1 := missed.toNat_le
  have b2 := repaired.toNat_le
  have b3 := overheat.toNat_le
  have b4 := claimed.toNat_le
  have b5 := exposed.toNat_le
  have b6 := old.toNat_le
  have hl : lock % 2 ^ 5 < 2 ^ 5 := Nat.mod_lt _ (by decide)
  rw [Nat.mod_eq_of_lt hh, Nat.mod_eq_of_lt hs, Nat.mod_eq_of_lt hd, Nat.mod_eq_of_lt hp, Nat.mod_eq_of_lt hc,
    Nat.mod_eq_of_lt ht] at hv
  generalize lock % 2 ^ 5 = l at hl hv
  unfold Cell.ofImage bits
  congr 1
  · omega
  · omega
  · omega
  · omega
  · omega
  · exact testBit_eq_of_div (by omega)
  · exact testBit_eq_of_div (by omega)
  · exact testBit_eq_of_div (by omega)
  · exact testBit_eq_of_div (by omega)
  · exact testBit_eq_of_div (by omega)
  · exact testBit_eq_of_div (by omega)
  · omega

theorem Cell.image_ofImage (v : Nat) (hv : v < 2 ^ 104) (h95 : v.testBit 95 = false) : (Cell.ofImage v).image (bits v 88 84) = v := by
  have hsum := Cell.image_fields v hv
  have h95' : v / 2 ^ 95 % 2 ^ 1 = 0 := by rw [← toNat_testBit_eq, h95]; rfl
  rw [h95', Nat.zero_mul, Nat.add_zero] at hsum
  rw [Cell.image_eq]
  unfold Cell.ofImage bits
  dsimp only
  simp only [toNat_testBit_eq, Nat.mod_mod, Nat.reduceAdd, Nat.reduceSub]
  exact hsum.symm

/-- Settles O16: the two round trips of an image. -/
theorem cellImagesReadBack : Obligations.CellImagesReadBack := ⟨Cell.ofImage_image, Cell.image_ofImage⟩

/-- Settles O33: the example's bytes and three points of a path, evaluated. -/
theorem markReadsAsWorked : Obligations.MarkReadsAsWorked := by
  unfold Obligations.MarkReadsAsWorked
  decide

end Sys2Proof.Machine
end

section
/-! PROOFS. A device that does not run (R493 to R495, R502; notes/assumptions/7.md): which commands it takes no notice of, and what
the outcomes `live` and `awake` are. -/

namespace Sys2Proof.Machine

variable {s t : State} {c : Instr}

/-- The outcome `live` of a command on a device that does not run. -/
theorem live_stopped (h : s.dev ≠ .running) (u : State) :
    (.next (if s.dev = .running then u else s) : Host.Outcome State Fault Refusal) = .next s := by rw [if_neg h]

/-- The outcome `live` of a command whose effect `u` on a running device is `v`. -/
theorem live_eq {u v : State} (h : s.dev = .running) (hu : u = v) :
    (.next (if s.dev = .running then u.settle else s) : Host.Outcome State Fault Refusal) = .next v.settle := by rw [if_pos h, hu]

/-- The outcome `awake` of an event whose effect `u` on a device that is not held is `v`. -/
theorem awake_eq {u v : State} (h : s.dev ≠ .held) (hu : u = v) :
    (.next (if s.dev = .held then s else u.settle) : Host.Outcome State Fault Refusal) = .next v.settle := by rw [if_neg h, hu]

/-- The outcome `awake` of an event on a device held in reset. -/
theorem awake_held (h : s.dev = .held) (u : State) :
    (.next (if s.dev = .held then s else u) : Host.Outcome State Fault Refusal) = .next s := by rw [if_pos h]

/-- A device that has not lost REFCLK has none to restart with. -/
theorem State.clockBack_eq (h : s.dev ≠ .held ∨ s.pw.clockLost = false) : s.clockBack = s := by
  unfold State.clockBack
  rw [if_pos (h.imp_right fun h => by rw [h]; rfl)]

/-- But for the inputs of supply, pins and time, every command is one of a running device. -/
theorem exec_stopped (h : s.dev ≠ .running) (hc : actsInStartUp c = false) (hclk : c ≠ .refclkRestart) : exec c s = .next s := by
  cases c with
  | tick | powerOnReset | startDone | powerFail | refclkLoss | pornLow | portLink | interlockChange | discrepancy | readbackFault =>
    cases hc
  | refclkRestart => exact absurd rfl hclk
  | _ => exact live_stopped h _

/-- Settles O11: `exec_stopped`; a restart of REFCLK needs a held device. -/
theorem startUpAnswersNoOne : Obligations.StartUpAnswersNoOne := by
  unfold Obligations.StartUpAnswersNoOne
  intro c s hs hc
  by_cases hclk : c = .refclkRestart
  · subst hclk
    exact congrArg _ (State.clockBack_eq (.inl (by rw [hs]; decide)))
  · exact exec_stopped (by rw [hs]; decide) hc hclk

theorem exec_held (h : s.dev = .held) (hp : ∀ p, c ≠ .powerOnReset p) (hclk : c ≠ .refclkRestart) (hporn : c ≠ .pornLow) :
    exec c s = .next s := by
  cases hc : actsInStartUp c with
  | false => exact exec_stopped (by rw [h]; decide) hc hclk
  | true =>
    cases c with
    | tick =>
      change execTick s = _
      rw [execTick, h]
    | powerOnReset p => exact absurd rfl (hp p)
    | pornLow => exact absurd rfl hporn
    | startDone | powerFail | refclkLoss | portLink | interlockChange | discrepancy | readbackFault => exact awake_held h _
    | _ => cases hc

/-- Settles O10: `exec_held`. -/
theorem heldDeviceOnlyRestarts : Obligations.HeldDeviceOnlyRestarts := fun _ _ => exec_held

end Sys2Proof.Machine
end

section
/-! PROOFS. Frames: what a delivery of conditions, an answer and a withdrawal of permits leave unchanged (R47, R75, R85, R96, R442,
R525), and that a device held in reset stays held (R494). -/

namespace Sys2Proof.Machine

variable {s t u : State}

/-- A delivery changes channels, entries and the lists of conditions. -/
theorem State.settle_form (s : State) : s.settle = { s with
    od := s.settle.od, chans := s.settle.chans, ev := { s.ev with hits := [], recent := s.settle.ev.recent } } := by
  rw [State.settle_eq, s.delivered_woken.ev]
  exact congrArg (fun t : State => ({ t with
    ev := { s.ev with
      hits := []
      recent := (s.ev.recent ++ s.ev.hits).filter fun h => decide (s.delivered.tm.tick ≤ h.2.2) } } : State)) s.delivered_woken.form

/-- Settles O19: `settle_form` and `settle_rd`. -/
theorem deliveryFrame : Obligations.DeliveryFrame := by
  unfold Obligations.DeliveryFrame
  intro s
  refine ⟨s.settle_form, fun k hseq hrep => State.settle_rd ?_⟩
  rintro (⟨n, hn, hmem⟩ | ⟨i, hi, rfl⟩)
  · exact hseq n hn hmem
  · exact hrep i hi rfl

/-! What an answer leaves unchanged -/

/-- `t` is `s` but for sessions, what was sent, the event lists, and the entries of events and of the frames sent on port `p`. -/
structure Answered (p : Nat) (s t : State) : Prop where
  form : t = { s with od := t.od, ev := t.ev, sessions := t.sessions, sent := t.sent }
  rd : ∀ k, eventKey k = false → k ≠ K.TX_FRAMES p → t.rd k = s.rd k

variable {p : Nat}

theorem Answered.refl : Answered p s s := ⟨rfl, fun _ _ _ => rfl⟩

theorem Answered.trans (h : Answered p s t) (h' : Answered p t u) : Answered p s u :=
  ⟨by rw [h'.form, h.form], fun k hk hp => (h'.rd k hk hp).trans (h.rd k hk hp)⟩

theorem Raised.answered (h : Raised s t) : Answered p s t := ⟨by rw [h.form], fun k hk _ => h.rd k hk⟩

theorem State.sendPort_answered (b : List Byte) : Answered p s (s.sendPort p b) :=
  ⟨rfl, fun _ _ hp => State.rd_wr_other _ _ hp⟩

theorem State.updSession_answered (num : Nat) (f : Session → Session) : Answered p s (s.updSession num f) := ⟨rfl, fun _ _ _ => rfl⟩

theorem State.reply_answered (session seq kind code : Nat) (data : List Byte) : Answered p s (s.reply p session seq kind code data) :=
  (State.updSession_answered ..).trans (State.sendPort_answered _)

theorem State.hostEvent_raised (kind key code session : Nat) : Raised s (s.hostEvent kind key code session) := by
  unfold State.hostEvent
  split
  · exact State.raise_raised ..
  · exact Raised.refl

theorem State.answered_answered (m : Msg) (ss : Session) (kind key code : Nat) (data : List Byte) :
    Answered m.port.val s (s.answered m ss kind key code data) :=
  (State.reply_answered ..).trans (State.hostEvent_raised ..).answered

/-- `t` is `s` but for what notes a changed KEEP value. -/
structure Noted (s t : State) : Prop where
  form : t = { s with od := t.od, kp := t.kp }
  rd : ∀ k, k ≠ K.KEEP_STATE → k ≠ K.NODE_DIGEST_STATE → t.rd k = s.rd k

theorem Noted.refl : Noted s s := ⟨rfl, fun _ _ _ => rfl⟩

theorem Noted.trans (h : Noted s t) (h' : Noted t u) : Noted s u :=
  ⟨by rw [h'.form, h.form], fun k hk hd => (h'.rd k hk hd).trans (h.rd k hk hd)⟩

theorem Noted.kp (h : Noted s t) (x : Keep) : Noted s { t with kp := x } := h.trans ⟨rfl, fun _ _ _ => rfl⟩

theorem State.digestPending_noted : Noted s s.digestPending := ⟨rfl, fun _ _ hd => s.rd_wr_other 1 hd⟩

theorem State.noteKeep_noted (key : Nat) : Noted s (s.noteKeep key) := by
  have hkeep (v : Nat) : Noted { s with kp := { s.kp with changed := true } }
      (({ s with kp := { s.kp with changed := true } } : State).wr K.KEEP_STATE v) := ⟨rfl, fun _ hk _ => State.rd_wr_other _ _ hk⟩
  have hstate : Noted s (if s.rd K.KEEP_STATE = 2 ∨ s.rd K.KEEP_STATE = 4 then { s with kp := { s.kp with changed := true } }
      else ({ s with kp := { s.kp with changed := true } } : State).wr K.KEEP_STATE 1) := by
    split
    · exact Noted.refl.kp _
    · exact (Noted.refl.kp _).trans (hkeep 1)
  unfold State.noteKeep
  dsimp only
  split
  · exact hstate
  · split
    · exact hstate
    · exact hstate.trans State.digestPending_noted

theorem State.noted_noted (t u : State) (key : Nat) : Noted u (t.noted u key) := by
  unfold State.noted
  split
  · split
    · exact State.noteKeep_noted key
    · exact Noted.refl
  · exact Noted.refl

/-- Settles O20: noting a KEEP value and answering are the two frames `noted_noted` and `answered_answered`. -/
theorem answerFrame : Obligations.AnswerFrame := by
  unfold Obligations.AnswerFrame
  rintro m ss t u key w rfl -
  have hn := State.noted_noted t u key
  have ha := State.answered_answered (s := t.noted u key) m ss 0x11 key Ans.ok []
  refine ⟨fun k hev htx hks hds => (ha.rd k hev htx).trans (hn.rd k hks hds), ?_⟩
  unfold State.carriedOut
  rw [ha.form, hn.form]

/-! What a withdrawal of permits leaves unchanged -/

theorem State.joinEvent_raised {src : Nat} (code cls inst data : Nat) (f : Nat → Nat) (hsrc : src < 256) :
    Raised s (s.joinEvent src code cls inst data f) := by
  unfold State.joinEvent
  split
  · exact State.raise_raised ..
  · next o ho =>
    split
    · exact State.raise_raised ..
    · have hos : o.source = src := State.openEvent_source ho
      exact State.showEvent_raised _ (by rw [hos]; exact hsrc) ((Raised.refl.ev _).ev _)

theorem State.drivePermits_form (m : Nat) : s.drivePermits m = { s with sent := (s.drivePermits m).sent } := by
  unfold State.drivePermits
  induction maskList 16 m generalizing s with
  | nil => rfl
  | cons n l ih => rw [List.foldl_cons, ih]; rfl

theorem State.drivePermits_rd (m k : Nat) : (s.drivePermits m).rd k = s.rd k := by rw [State.drivePermits_form]; rfl

/-- `t` is `s` with the permits of `mask` withdrawn and no channel stopped: their stamp, causes and count, the pins and an event
show it. -/
structure Withdrawn (mask : Nat) (s t : State) : Prop where
  form : t = { s with od := t.od, ev := t.ev, isl := t.isl, sent := t.sent }
  permits : t.rd K.BP_STATE = s.rd K.BP_STATE - (mask % 65536 &&& s.rd K.BP_STATE)

/-- A withdrawal for a reset stops no channel (R442, R501). -/
theorem State.withdraw_reset (mask : Nat) : Withdrawn mask s (s.withdraw mask Bp.reset) := by
  unfold State.withdraw
  dsimp only
  rw [if_pos rfl]
  generalize (if s.isl.cutAt = s.tm.tick + 1 then s.isl.cut else 0) = same
  generalize (maskList 16 (mask &&& same)).filter _ = low
  split
  next h => exact ⟨rfl, by rw [h.1, Nat.sub_zero]⟩
  next =>
    have hjoin {u : State} (data : Nat) (f : Nat → Nat) : Raised u (u.joinEvent 0x00 0x0001 1 ((maskList 16
      (mask % 65536 &&& s.rd K.BP_STATE)).headD 0) data f) := State.joinEvent_raised _ _ _ _ _ (by decide)
    have hwrs (a b c : Nat) : (s.wrs [(K.BP_STATE, a), (K.BP_STAMP, b), (K.BP_CAUSE, c)]).rd K.BP_STATE = a :=
      ((State.rd_wr_other _ _ (by decide)).trans (State.rd_wr_other _ _ (by decide))).trans (State.rd_wr_same _ _ _)
    split
    next =>
      refine ⟨by rw [(hjoin _ _).form, State.inc, State.bump, State.drivePermits_form]; rfl, ?_⟩
      rw [(hjoin _ _).rd _ (by decide)]
      refine (State.rd_wr_other _ _ (by decide)).trans ?_
      rw [State.drivePermits_rd]
      exact hwrs _ _ _
    next =>
      refine ⟨by rw [(hjoin _ _).form, State.drivePermits_form]; rfl, ?_⟩
      rw [(hjoin _ _).rd _ (by decide), State.drivePermits_rd]
      exact hwrs _ _ _

/-- Delivering conditions raises and withdraws no permit. -/
theorem State.settle_bpState : s.settle.rd K.BP_STATE = s.rd K.BP_STATE := State.settle_rd fun h => absurd h.lt (by decide)

theorem State.settle_dev : s.settle.dev = s.dev := by rw [State.settle_form]

theorem State.settle_pw : s.settle.pw = s.pw := by rw [State.settle_form]

theorem State.settle_pending : s.settle.pending = s.pending := by rw [State.settle_form]

/-- PORN low withdraws what is raised and holds the device. -/
theorem State.pornLow_settle (s : State) : s.pornLow.settle.dev = .held ∧ s.pornLow.settle.pw.clockLost = false ∧
    s.pornLow.settle.pending = s.pending ∧
    s.pornLow.settle.rd K.BP_STATE = s.rd K.BP_STATE - (0xFFFF % 65536 &&& s.rd K.BP_STATE) := by
  have hw := State.withdraw_reset (s := s) 0xFFFF
  rw [State.settle_dev, State.settle_pw, State.settle_pending, State.settle_bpState]
  refine ⟨rfl, rfl, ?_, ?_⟩
  · unfold State.pornLow
    rw [State.drivePermits_form, hw.form]
  · exact (State.drivePermits_rd _ _).trans hw.permits

/-- No command but a release takes a held device out of reset: it does nothing (`exec_held`, `clockBack_eq`), or it is PORN_LOW, which
holds the device again. -/
theorem State.HeldInReset.exec {c : Instr} (h : s.HeldInReset) (hc : ∀ p, c ≠ .powerOnReset p)
    (hexec : Machine.exec c s = .next t) : t.HeldInReset := by
  by_cases hporn : c = .pornLow
  · subst hporn
    cases hexec
    obtain ⟨hdev, hclk, hpend, hbp⟩ := s.pornLow_settle
    exact ⟨hdev, hclk, by rw [hbp, h.permits, Nat.zero_sub], by rw [hpend]; exact h.queue⟩
  · have hidle : Machine.exec c s = .next s := by
      by_cases hclk : c = .refclkRestart
      · subst hclk
        exact congrArg _ (State.clockBack_eq (.inr h.clock))
      · exact exec_held h.held hc hclk hporn
    rw [hidle] at hexec
    cases hexec
    exact h

/-- Settles O9: the front command is no release (`HeldInReset.exec`). -/
theorem heldDeviceStaysHeld : Obligations.HeldDeviceStaysHeld := by
  unfold Obligations.HeldDeviceStaysHeld
  intro s t hs hstep
  cases hq : s.pending with
  | nil =>
    rw [emptyQueueIdles s hq] at hstep
    cases hstep
    exact hs
  | cons c rest =>
    obtain ⟨hheld, hclock, hpermits, hqueue⟩ := hs
    rw [hq] at hqueue
    obtain ⟨hc, hrest⟩ := List.forall_mem_cons.mp hqueue
    rw [step_cons hq] at hstep
    exact State.HeldInReset.exec (s := { s with pending := rest }) ⟨hheld, hclock, hpermits, hrest⟩ hc hstep

end Sys2Proof.Machine
end

section
/-! PROOFS. A loss of supply or clock withdraws every permit (R444, R493 to R495): what the last records leave of BP_STATE. -/

namespace Sys2Proof.Machine

variable {s t : State} {k : Nat}

theorem State.rd_foldl {β : Type} {f : State → β → State} {l : List β} (hf : ∀ s b, (f s b).rd k = s.rd k) :
    (l.foldl f s).rd k = s.rd k := by
  induction l generalizing s with
  | nil => rfl
  | cons b l ih => exact ih.trans (hf s b)

/-- A change that is made under a condition leaves what it leaves when it is made. -/
theorem State.rd_ite {c : Prop} [Decidable c] (h : t.rd k = s.rd k) : (if c then t else s).rd k = s.rd k := by
  split
  · exact h
  · rfl

theorem State.setPhysByte_rd (a : Nat) (b : Byte) : (s.setPhysByte a b).rd k = s.rd k := by
  obtain ⟨m, l, h⟩ := s.setPhysByte_form a b
  rw [h]
  rfl

theorem State.writeMem_rd (tc addr : Nat) (data : List Byte) : (s.writeMem tc addr data).rd k = s.rd k := by
  induction data generalizing s addr with
  | nil => rfl
  | cons b data ih =>
    unfold State.writeMem
    dsimp only
    split
    · exact (ih _).trans (State.setPhysByte_rd ..)
    · exact ih _

theorem State.countBeats_rd {tc : Nat} (n : Nat) (hb : k ≠ K.TC_BEATS tc) (hp : k ≠ K.MEM_LOAD_PEAK) :
    (s.countBeats tc n).rd k = s.rd k := by
  have hbeats : (s.bump 64 (K.TC_BEATS tc) n).rd k = s.rd k := State.rd_wr_other _ _ hb
  unfold State.countBeats
  dsimp only
  split
  · exact (State.rd_wr_other _ _ hp).trans hbeats
  · exact hbeats

theorem State.pin_rd {tc : Nat} (jp : Nat) (hk : k ≠ K.TC_PINNED_PAGES tc) : (s.pin tc jp).rd k = s.rd k := by
  unfold State.pin
  split
  · rfl
  · split
    · rfl
    · exact State.rd_wr_other _ _ hk

theorem State.startJournal_rd (hk : k ≠ K.TC_PINNED_PAGES 57) : s.startJournal.rd k = s.rd k := by
  unfold State.startJournal
  split
  · rfl
  · exact State.rd_foldl fun _ _ => State.pin_rd _ hk

theorem State.numberEvent_rd (e : EvRec) : (s.numberEvent e).2.rd k = s.rd k := by
  unfold State.numberEvent
  split <;> rfl

theorem State.closeEvent_rd (e : EvRec) : (s.closeEvent e).rd k = s.rd k := by
  unfold State.closeEvent
  dsimp only
  split
  · exact State.numberEvent_rd e
  · exact State.numberEvent_rd e

theorem State.closeBefore_rd (tick : Nat) : (s.closeBefore tick).rd k = s.rd k := State.rd_foldl fun _ e => State.closeEvent_rd e

/-- Entries that writing the journal can change, beside those of events (R59 to R61, R132). -/
def journalKeys : List Nat := [K.JOURNAL_WRITE_SEQ, K.JOURNAL_OVERRUN, K.JOURNAL_SEAL, K.JOURNAL_SHED, K.TC_BEATS 57,
  K.TC_PINNED_PAGES 57, K.MEM_LOAD_PEAK]

theorem ne_of_not_mem {α : Type} {l : List α} {a b : α} (h : a ∉ l) (hb : b ∈ l) : a ≠ b := fun e => h (e ▸ hb)

theorem State.pw_rd (p : Supply) : ({ s with pw := p } : State).rd k = s.rd k := rfl

theorem State.jr_rd (j : Journal) : ({ s with jr := j } : State).rd k = s.rd k := rfl

theorem State.writeBlock_rd (b : List Byte) (hev : eventKey k = false) (hk : k ∉ journalKeys) : (s.writeBlock b).rd k = s.rd k := by
  have hraise (s : State) (data : Nat) : (s.raise 0x1F 0x0002 3 0 data).rd k = s.rd k := (State.raise_raised ..).rd k hev
  unfold State.writeBlock
  extract_lets n q ovr u₁ u₂ first jr u₃ u₄ u₅ high u₆ jr'
  have h₁ : u₁.rd k = s.rd k :=
    (State.countBeats_rd 1 (ne_of_not_mem hk (by simp [journalKeys])) (ne_of_not_mem hk (by simp [journalKeys]))).trans
      (State.writeMem_rd ..)
  have h₂ : u₂.rd k = u₁.rd k := State.rd_wr_other _ _ (ne_of_not_mem hk (by simp [journalKeys]))
  have h₄ : u₄.rd k = u₃.rd k := State.rd_ite (State.rd_wr_other _ _ (ne_of_not_mem hk (by simp [journalKeys])))
  have h₅ : u₅.rd k = u₄.rd k := State.rd_ite (hraise _ _)
  have h₆ : u₆.rd k = u₅.rd k := State.rd_ite (hraise _ _)
  rw [State.jr_rd, h₆, h₅, h₄, State.jr_rd, h₂, h₁]

theorem State.writeRecord_rd (e : EvRec) (hev : eventKey k = false) (hk : k ∉ journalKeys) : (s.writeRecord e).rd k = s.rd k := by
  unfold State.writeRecord
  extract_lets u v jr u'
  have hu : u.rd k = s.rd k := State.rd_foldl fun _ b => State.writeBlock_rd b hev hk
  split
  · rw [State.rd_wr_other _ _ (ne_of_not_mem hk (by simp [journalKeys])), State.jr_rd, hu]
  · exact hu

theorem State.writeJournal_rd (hev : eventKey k = false) (hk : k ∉ journalKeys) : s.writeJournal.rd k = s.rd k := by
  have hstart (u : State) (n : Nat) : (u.bump 32 K.JOURNAL_SHED n).startJournal.rd k = u.rd k :=
    (State.startJournal_rd (ne_of_not_mem hk (by simp [journalKeys]))).trans
      (State.rd_wr_other _ _ (ne_of_not_mem hk (by simp [journalKeys])))
  unfold State.writeJournal
  dsimp only
  split
  · rw [State.rd_foldl fun _ _ => State.writeRecord_rd _ hev hk, State.jr_rd, hstart, State.jr_rd]
  · rw [hstart, State.jr_rd]

theorem and_ffff_sub_self {v : Nat} (hv : v < 65536) : v - (65535 % 65536 &&& v) = 0 := by
  have : 65535 % 65536 &&& v = v := by
    rw [Nat.and_comm, show 65535 % 65536 = 2 ^ 16 - 1 from rfl, Nat.and_two_pow_sub_one_eq_mod]
    omega
  omega

/-- A device that holds itself in reset has no permit raised. -/
theorem State.hold_bpState (h : s.rd K.BP_STATE < 65536) : s.hold.rd K.BP_STATE = 0 := by
  have hw : (s.withdraw 0xFFFF Bp.reset).rd K.BP_STATE = 0 := by rw [(State.withdraw_reset _).permits, and_ffff_sub_self h]
  have hlast : (((s.withdraw 0xFFFF Bp.reset).closeBefore ((s.withdraw 0xFFFF Bp.reset).tm.tick + 1)).writeJournal).rd K.BP_STATE =
      (s.withdraw 0xFFFF Bp.reset).rd K.BP_STATE := (State.writeJournal_rd (by decide) (by decide)).trans (State.closeBefore_rd _)
  exact (State.rd_ite hlast).trans hw

theorem State.raise_bpState (src code cls inst data : Nat) : (s.raise src code cls inst data).rd K.BP_STATE = s.rd K.BP_STATE :=
  (State.raise_raised ..).rd _ (by decide)

/-- Settles O25: PORN low by `pornLow_settle`; the other two record their cause, raise their event and hold (`hold_bpState`). -/
theorem supplyLossWithdrawsEveryPermit : Obligations.SupplyLossWithdrawsEveryPermit := by
  unfold Obligations.SupplyLossWithdrawsEveryPermit
  intro s t rails hs
  have hraised (pw : Supply) (code cls inst data : Nat) :
      (State.raise { s with pw := pw } 0x03 code cls inst data).rd K.BP_STATE < 65536 := by rwa [State.raise_bpState, State.pw_rd]
  refine ⟨fun h => ?_, fun hdev hrails h => ?_, fun hdev h => ?_⟩
  · cases h
    obtain ⟨hd, -, -, hbp⟩ := s.pornLow_settle
    exact ⟨by rw [hbp, and_ffff_sub_self hs], hd⟩
  · have hcut : ¬ (s.dev = .held ∨ rails.toNat % 512 = 0) := by simp [hdev, hrails]
    obtain rfl := Host.Outcome.next.inj ((awake_eq hdev (if_neg hcut)).symm.trans h)
    rw [State.settle_bpState, State.settle_dev]
    exact ⟨State.hold_bpState (hraised _ _ _ _ _), rfl⟩
  · obtain rfl := Host.Outcome.next.inj ((awake_eq hdev (if_neg hdev)).symm.trans h)
    rw [State.settle_bpState, State.settle_dev, State.pw_rd]
    exact ⟨State.hold_bpState (hraised _ _ _ _ _), rfl⟩

end Sys2Proof.Machine
end

section
/-! PROOFS. The commands of time, of PTP and of the time triggers complete (R30 to R56, R112 to R115). -/

namespace Sys2Proof.Machine

variable {s t : State}

theorem State.stepAllowed_selected (hphase : s.phase = Phase.idle) (hlocked : s.rd (K.DOM_STATE (s.rd K.TIME_SEL)) = 2)
    (hoff : s.rd K.TIME_STEP_THRESHOLD * 16 < (accDiff ((s.dom (s.rd K.TIME_SEL)).timeAt s.tm.tick) s.acc / 2 ^ 32).natAbs) :
    s.stepAllowed (s.rd K.TIME_SEL) = true := by
  simp only [State.stepAllowed, hphase, hlocked, hoff, beq_self_eq_true, decide_true, Bool.and_self]

/-- Settles O3: two outcomes of TICK by its phases, the others by the condition of their command. -/
theorem timeCommandsComplete : Obligations.TimeCommandsComplete := by
  unfold Obligations.TimeCommandsComplete
  intro m ss s t d v
  refine ⟨fun hdev => ?_, fun hdev => ?_, fun hdev hphase hlocked hoff => ?_, fun h => ?_, fun h => writeCmd_carried h rfl,
    fun hdev hst hlate => live_eq hdev (if_pos ⟨hst, hlate⟩)⟩
  · change execTick s = _
    rw [execTick, hdev]
  · change execTick s = _
    rw [execTick, hdev]
  · exact live_eq hdev (if_pos (State.stepAllowed_selected hphase hlocked hoff))
  · refine writeCmd_carried h ?_
    unfold timeSelEff
    split <;> rfl

/-- Settles O5: the conditions of the five commands. -/
theorem masterAndTriggerCommandsComplete : Obligations.MasterAndTriggerCommandsComplete := by
  unfold Obligations.MasterAndTriggerCommandsComplete
  intro m ss s t p count n
  refine ⟨fun hdev _ => live_eq hdev rfl, fun h hle => writeCmd_carried h (if_neg (by omega)), fun h htgt => ?_, fun h harm => ?_,
    fun hdev hdue => live_eq hdev (if_pos hdue)⟩
  · refine writeCmd_carried h ?_
    unfold ttArmEff
    dsimp only
    rw [if_pos rfl, htgt]
    split <;> rfl
  · refine writeCmd_carried h ?_
    unfold ttArmEff
    rw [if_neg (by decide), if_pos harm]

/-- A good PTP frame on a port that runs PTP, of a domain in use (R112). -/
theorem ptpIn_accepted {p : Ptp} {d : Nat} {k : Nat → State → State} (ht : t = s.inc (K.RX_FRAMES p.port.val))
    (hframe : s.ptpFrameOk p.port.val p.frame [0x88F7] = true) (hon : t.rd (K.PTP_ENABLE p.port.val) ≠ 0)
    (hdom : t.domOf p.domain.toNat = some d) : ptpIn p k s = k d t := by
  subst ht
  unfold ptpIn
  dsimp only
  rw [hframe, if_neg (by decide), if_neg hon, hdom]

@[simp] theorem State.dom_setDom_same (s : State) (d : Nat) (x : Domain) : (s.setDom d x).dom d = x := Tab.get_set_same _ _ _

/-- The only master heard is selected (R113). -/
theorem Domain.select_single (x : Domain) (p : Nat) (a : Announce) : x.select [(p, a)] =
    { x with heard := [(p, a)], master := some a, masterPort := p, pendingSync := if x.masterPort = p then x.pendingSync else [] } := rfl

/-- Settles O4: each message is accepted (`ptpIn_accepted`) and meets the condition of its row. -/
theorem ptpMessagesComplete : Obligations.PtpMessagesComplete := by
  unfold Obligations.PtpMessagesComplete
  intro p a s t d hdev ht hframe hon hdom
  have hin {k : Nat → State → State} : ptpIn p k s = k d t := ptpIn_accepted ht hframe hon hdom
  refine ⟨fun hport htwo hmp hsrc => ?_, fun y u hy hsrc hu w hw => ?_, fun hport hsel => ?_, fun hport ho hs hd hm => ?_,
    fun hport hheard => ?_, ?_, fun ho hs hd hm => ?_, fun ho hs hd => ?_⟩
  · refine live_eq hdev (hin.trans ?_)
    dsimp only
    rw [if_neg (by omega), htwo, if_neg (by decide), if_pos ⟨hmp, hsrc⟩]
    rfl
  · refine live_eq hdev (hin.trans ?_)
    unfold Domain.syncOf
    dsimp only
    rw [hy]
    dsimp only
    rw [if_neg (not_not_intro hsrc), hw, hu]
    rfl
  · exact live_eq hdev (hin.trans (if_neg (by omega)))
  · exact live_eq hdev (hin.trans (if_pos ⟨hport, ho, hs, hd, hm⟩))
  · refine live_eq hdev (hin.trans ?_)
    dsimp only
    rw [if_neg (by omega), hheard]
    change (t.setDom d ((t.dom d).select [(p.port.val, a)])).showMaster d = _
    rw [Domain.select_single, State.showMaster, State.dom_setDom_same]
  · exact live_eq hdev hin
  · exact live_eq hdev (hin.trans (if_pos ⟨ho, hs, hd, hm⟩))
  · exact live_eq hdev (hin.trans (if_pos ⟨ho, hs, hd⟩))

end Sys2Proof.Machine
end

section
/-! PROOFS. WRITE messages (R12, R72, R94 to R100, R416): the rows that are writes share one path, whose checks come before any
effect. -/

namespace Sys2Proof.Machine

variable {s t u : State} {m : Msg} {key len v : Nat}

/-- Every row that is a WRITE runs the path of `hostWrite` with an effect of its own; what a reset that has been asked for does after it
does not happen while none has been. -/
theorem exec_writeRow {c : Instr} (hrow : writeRow c = some (m, key, len, v)) (s : State) :
    ∃ (eff : Nat → State → Nat × State) (post : State → State), (∀ u, u.pw.warm = false → post u = u) ∧
      exec c s = .next (if s.dev = .running then (post (hostWrite m key len v eff s)).settle else s) := by
  have hreset (u : State) (hu : u.pw.warm = false) : u.afterReset = u := if_neg (by simp [hu])
  cases c
  case write m index sub value => cases hrow; exact ⟨_, State.afterReset, hreset, rfl⟩
  case warmReset m => cases hrow; exact ⟨_, State.afterReset, hreset, rfl⟩
  all_goals cases hrow
  all_goals exact ⟨_, id, fun _ _ => rfl, rfl⟩

/-- The LENGTH field suits a WRITE of `len` bytes (R94). -/
def writeFits (m : Msg) (len : Nat) : Bool := m.length.toNat == 4 + len && decide (1 ≤ len) && decide (len ≤ 1024)

theorem writeFits_iff : writeFits m len = true ↔ m.length.toNat = 4 + len ∧ 1 ≤ len ∧ len ≤ 1024 := by
  simp only [writeFits, Bool.and_eq_true, beq_iff_eq, decide_eq_true_eq, and_assoc]

section Path
variable {kind : Nat} {fit : Bool} {k : State → Option (Nat × List Byte) × State} {ss : Session}

theorem hostCmd_dropped (h : 2 ≤ m.port.val ∨ s.frameOk m.port.val m.frame = false) :
    hostCmd m kind key fit k s = s.inc (K.RX_DROPPED m.port.val) :=
  if_pos (h.imp_right fun h => by rw [h]; rfl)

theorem not_dropped (hp : m.port.val < 2) (hf : s.frameOk m.port.val m.frame = true) :
    ¬ (2 ≤ m.port.val ∨ (!s.frameOk m.port.val m.frame) = true) := by
  simp only [hf, Bool.not_true, Bool.false_eq_true, or_false]
  omega

theorem hostCmd_badVersion (hp : m.port.val < 2) (hf : s.frameOk m.port.val m.frame = true) (hv : m.version ≠ 1) :
    hostCmd m kind key fit k s = (s.inc (K.RX_FRAMES m.port.val)).turnedAway m kind Ans.badVersion := by
  unfold hostCmd
  dsimp only
  rw [if_neg (not_dropped hp hf), if_pos hv]
  rfl

theorem hostCmd_malformed (hp : m.port.val < 2) (hf : s.frameOk m.port.val m.frame = true) (hv : m.version = 1)
    (h : ¬ (fit = true ∧ msgFits m = true ∧ msgClean m = true)) :
    hostCmd m kind key fit k s = (s.inc (K.RX_FRAMES m.port.val)).turnedAway m kind Ans.malformed := by
  have hbad : (!fit || !msgFits m || !msgClean m) = true := by
    cases fit <;> cases hfit : msgFits m <;> cases hclean : msgClean m <;> simp_all
  unfold hostCmd
  dsimp only
  rw [if_neg (not_dropped hp hf), if_neg (not_not_intro hv), if_pos hbad]
  rfl

/-- A message that passes steps 1 to 3 of R97, of a kind that LENGTH suits. -/
structure FormedCmd (m : Msg) (fit : Bool) (s : State) : Prop where
  heard : ¬ (2 ≤ m.port.val ∨ (!s.frameOk m.port.val m.frame) = true)
  version : ¬ m.version ≠ 1
  clean : ¬ ((!fit || !msgFits m || !msgClean m) = true)

theorem FormedCmd.of_formed (h : Formed m len s) : FormedCmd m true s := by
  obtain ⟨-, hp, hf, hv, -, hfit, hclean⟩ := h
  exact ⟨not_dropped hp hf, not_not_intro hv, by rw [hfit, hclean]; decide⟩

theorem FormedCmd.of_writeFits (h : Formed m len s) : FormedCmd m (writeFits m len) s := by
  have ⟨_, _, _, _, hlen, _⟩ := h
  have hfit : writeFits m len = true := writeFits_iff.mpr hlen
  exact hfit ▸ .of_formed h

theorem hostCmd_noSession (h : FormedCmd m fit s) (hs : s.session m.session.toNat = none) :
    hostCmd m kind key fit k s = (s.inc (K.RX_FRAMES m.port.val)).turnedAway m kind Ans.noSession := by
  have hs' : (s.inc (K.RX_FRAMES m.port.val)).session m.session.toNat = none := hs
  unfold hostCmd
  dsimp only
  rw [if_neg h.heard, if_neg h.version, if_neg h.clean, hs']
  rfl

/-- The session has already seen this SEQ and keeps its answer: the answer is sent again (R100). -/
theorem hostCmd_repeated (h : FormedCmd m fit s) (hs : s.session m.session.toNat = some ss) (hq : m.seq.toNat ≠ ss.next)
    {b : List Byte} (hw : (ss.next + 2 ^ 32 - m.seq.toNat) % 2 ^ 32 ≤ 64)
    (hx : ss.cache.find? (fun c => c.1 == m.seq.toNat) = some (m.seq.toNat, b)) :
    hostCmd m kind key fit k s = (s.heardFrom m ss).sendPort m.port.val (b.take 2 ++ [(1 : Byte)] ++ b.drop 3) := by
  have hs' : (s.inc (K.RX_FRAMES m.port.val)).session m.session.toNat = some ss := hs
  unfold hostCmd
  dsimp only
  rw [if_neg h.heard, if_neg h.version, if_neg h.clean, hs']
  dsimp only
  rw [if_neg hq, if_pos hw, hx]
  rfl

/-- Any other SEQ than the next: a command of this part's host that still waits is answered later, else the gap is answered (R100,
R416). -/
theorem hostCmd_gap (h : FormedCmd m fit s) (hs : s.session m.session.toNat = some ss) (hq : m.seq.toNat ≠ ss.next)
    (hx : 64 < (ss.next + 2 ^ 32 - m.seq.toNat) % 2 ^ 32 ∨ ss.cache.find? (fun c => c.1 == m.seq.toNat) = none) :
    hostCmd m kind key fit k s = if (s.heardFrom m ss).mirrors.any (fun r => r.waitsFor ss.num m.seq.toNat) then
        { s.heardFrom m ss with
          mirrors := (s.heardFrom m ss).mirrors.map fun r =>
            if r.waitsFor ss.num m.seq.toNat then { r with dups := r.dups ++ [m.port.val] } else r }
      else (s.heardFrom m ss).sendPort m.port.val ((s.heardFrom m ss).answerBytes ss.num m.seq.toNat Ans.seqGap kind
        (s.heardFrom m ss).now (toLE 4 ss.next)) := by
  have hs' : (s.inc (K.RX_FRAMES m.port.val)).session m.session.toNat = some ss := hs
  have hnone : (if (ss.next + 2 ^ 32 - m.seq.toNat) % 2 ^ 32 ≤ 64 then ss.cache.find? (fun c => c.1 == m.seq.toNat) else none) = none := by
    rcases hx with hx | hx
    · exact if_neg (by omega)
    · rw [hx, ite_self]
  unfold hostCmd
  dsimp only
  rw [if_neg h.heard, if_neg h.version, if_neg h.clean, hs']
  dsimp only
  rw [if_neg hq, hnone]
  rfl

theorem hostCmd_roleStale (h : FormedCmd m fit s) (hs : s.session m.session.toNat = some ss) (hq : m.seq.toNat = ss.next)
    (hrole : (s.taken m ss).roleHeld m.role.toNat m.epoch.toNat = false) :
    hostCmd m kind key fit k s = (s.taken m ss).answered m ss kind key Ans.roleStale [] := by
  have hs' : (s.inc (K.RX_FRAMES m.port.val)).session m.session.toNat = some ss := hs
  unfold hostCmd
  dsimp only
  rw [if_neg h.heard, if_neg h.version, if_neg h.clean, hs']
  dsimp only
  rw [if_pos hq]
  change (if (!(s.taken m ss).roleHeld m.role.toNat m.epoch.toNat) = true then _ else _) = _
  rw [if_pos (by rw [hrole]; rfl)]
  rfl

/-- A command that reaches its own checks and is deferred: its effect comes later (R416). -/
theorem hostCmd_deferred (h : FormedCmd m fit s) (hs : s.session m.session.toNat = some ss) (hq : m.seq.toNat = ss.next)
    (hrole : (s.taken m ss).roleHeld m.role.toNat m.epoch.toNat = true) (hk : k (s.taken m ss) = (none, u)) :
    hostCmd m kind key fit k s = u := by
  have hs' : (s.inc (K.RX_FRAMES m.port.val)).session m.session.toNat = some ss := hs
  unfold hostCmd
  dsimp only
  rw [if_neg h.heard, if_neg h.version, if_neg h.clean, hs']
  dsimp only
  rw [if_pos hq]
  change (if (!(s.taken m ss).roleHeld m.role.toNat m.epoch.toNat) = true then _ else _) = _
  rw [if_neg (by rw [hrole]; decide)]
  change (match k (s.taken m ss) with | (none, s) => s | (some (code, data), s) => _) = _
  rw [hk]

end Path

/-- What a WRITE gives whose path yields `u` whatever the entry's effect is. -/
theorem exec_write_gives {c : Instr} (hrow : writeRow c = some (m, key, len, v)) (hdev : s.dev = .running) (hwarm : u.pw.warm = false)
    (h : ∀ eff, hostWrite m key len v eff s = u) : exec c s = .next u.settle := by
  obtain ⟨eff, post, hpost, hexec⟩ := exec_writeRow hrow s
  rw [hexec, if_pos hdev, h eff, hpost u hwarm]

/-- The same where no check of the entry is reached. -/
theorem exec_write_stopped {c : Instr} (hrow : writeRow c = some (m, key, len, v)) (hdev : s.dev = .running) (hwarm : u.pw.warm = false)
    (h : ∀ k, hostCmd m 0x11 key (writeFits m len) k s = u) : exec c s = .next u.settle :=
  exec_write_gives hrow hdev hwarm fun _ => h _

theorem State.answered_pw (ss : Session) (kind key code : Nat) (data : List Byte) : (s.answered m ss kind key code data).pw = s.pw := by
  rw [(State.answered_answered m ss kind key code data).form]

theorem State.inc_pw (key : Nat) : (s.inc key).pw = s.pw := rfl

theorem State.sendPort_pw (p : Nat) (b : List Byte) : (s.sendPort p b).pw = s.pw := rfl

theorem State.turnedAway_pw (kind code : Nat) : (s.turnedAway m kind code).pw = s.pw := rfl

theorem State.heardFrom_pw (ss : Session) : (s.heardFrom m ss).pw = s.pw := rfl

theorem State.taken_pw (ss : Session) : (s.taken m ss).pw = s.pw := rfl

theorem State.sendMirror_pw (type : Nat) (body : List Byte) : (s.sendMirror type body).pw = s.pw := rfl

theorem State.defer_pw (kind key party proposal : Nat) (body bytes : List Byte) :
    (s.defer m kind key party proposal body bytes).pw = s.pw := by
  unfold State.defer
  dsimp only
  rw [State.sendMirror_pw, State.wr_pw]

theorem State.applyWrite_refused {code : Nat} {eff : Nat → State → Nat × State} (h : s.writeCheck false key len v = some code) :
    s.applyWrite false false key len v eff = (code, s) := by
  unfold State.applyWrite
  rw [h]

theorem hostWrite_fits {eff : Nat → State → Nat × State} (h : Formed m len s) : hostWrite m key len v eff s =
    hostCmd m 0x11 key true (fun s =>
      if guardedKey key then (some (Ans.kindMismatch, []), s)
      else if s.mirrored && !partLocal key then
        (none, s.defer m 0x11 key 0 0 (toLE 2 (key / 256) ++ toLE 1 key ++ toLE 1 0 ++ toLE len v) (toLE len v))
      else (some ((s.applyWrite false false key len v eff).1, []), (s.applyWrite false false key len v eff).2)) s := by
  obtain ⟨-, -, -, -, hlen, -, -⟩ := h
  unfold hostWrite
  rw [show (m.length.toNat == 4 + len && decide (1 ≤ len) && decide (len ≤ 1024)) = true from writeFits_iff.mpr hlen]

/-- Settles O21: a WRITE is `exec_writeRow`, and each check of R97 has its equation of `hostCmd`; the checks of R12, R416 and R72 are those
of `hostWrite`. -/
theorem writesAreCheckedFirst : Obligations.WritesAreCheckedFirst := by
  unfold Obligations.WritesAreCheckedFirst
  rintro c m key len v s ss t w hrow hdev hwarm rfl rfl
  refine ⟨fun h => ?_, fun hp hf hv => ?_, fun hp hf hv hbad => ?_, fun h hs => ?_,
    fun h hs hq => ⟨fun b hw hx => ?_, fun hx => ⟨fun hwait => ?_, fun hwait => ?_⟩⟩,
    fun h hs hq hrole => ?_, fun h ht hg => ?_, fun code h ht hg hm hc => ?_, fun h ht hg hm hl => ?_⟩
  · exact exec_write_stopped hrow hdev (by rwa [State.inc_pw]) fun _ => hostCmd_dropped h
  · exact exec_write_stopped hrow hdev (by rwa [State.turnedAway_pw, State.inc_pw]) fun _ => hostCmd_badVersion hp hf hv
  · exact exec_write_stopped hrow hdev (by rwa [State.turnedAway_pw, State.inc_pw]) fun _ =>
      hostCmd_malformed hp hf hv fun ⟨hfit, hrest⟩ => hbad ⟨writeFits_iff.mp hfit, hrest⟩
  · exact exec_write_stopped hrow hdev (by rwa [State.turnedAway_pw, State.inc_pw]) fun _ => hostCmd_noSession (.of_writeFits h) hs
  · exact exec_write_stopped hrow hdev (by rwa [State.sendPort_pw, State.heardFrom_pw]) fun _ =>
      hostCmd_repeated (.of_writeFits h) hs hq hw hx
  · exact exec_write_stopped hrow hdev (by rwa [State.sendPort_pw, State.heardFrom_pw]) fun _ =>
      (hostCmd_gap (.of_writeFits h) hs hq hx).trans (if_neg (by rw [hwait]; decide))
  · exact exec_write_stopped hrow hdev hwarm fun _ => (hostCmd_gap (.of_writeFits h) hs hq hx).trans (if_pos hwait)
  · exact exec_write_stopped hrow hdev (by rwa [State.answered_pw, State.taken_pw]) fun _ => hostCmd_roleStale (.of_writeFits h) hs hq hrole
  · refine exec_write_gives hrow hdev (by rwa [State.answered_pw, State.taken_pw]) fun eff => ?_

    rw [hostWrite_fits h]
    exact hostCmd_taken ht 0x11 key _ (a := (Ans.kindMismatch, [])) (if_pos hg)
  · refine exec_write_gives hrow hdev (by rwa [State.answered_pw, State.taken_pw]) fun eff => ?_
    rw [hostWrite_fits h]
    refine hostCmd_taken ht 0x11 key _ (a := (code, [])) ?_
    rw [if_neg (by rw [hg]; decide), if_neg (by rcases hm with hm | hm <;> simp [hm]), State.applyWrite_refused hc]
  · obtain ⟨-, -, -, -, -, -, -, hs, hq, hrole⟩ := ht
    refine ⟨toLE 2 (key / 256) ++ toLE 1 key ++ toLE 1 0 ++ toLE len v, toLE len v,
      exec_write_gives hrow hdev (by rwa [State.defer_pw, State.taken_pw]) fun eff => ?_, leNat_toLE len v⟩
    rw [hostWrite_fits h]
    refine hostCmd_deferred (.of_formed h) hs hq hrole ?_
    rw [if_neg (by rw [hg]; decide), if_pos (by rw [hm, hl]; rfl)]

end Sys2Proof.Machine
end

section
/-! PROOFS. Guarded entries (R12): no WRITE changes one. -/

namespace Sys2Proof.Machine

variable {s t u : State} {m : Msg} {key k len v : Nat}

/-- Guarded rows stand in four of the thirteen regions of the dictionary. -/
theorem Dict.rowsAt_unguarded {index : Nat} (h : index / 0x1000 ∉ [4, 7, 0xA, 0xC]) :
    (Dict.rowsAt index).all (fun r => decide (r.acc ≠ .rwg)) = true := by
  unfold Dict.rowsAt
  split
  case h_4 | h_7 | h_10 | h_12 => simp_all
  all_goals decide

theorem guardedKey_region (h : guardedKey key = true) : key / 256 / 0x1000 ∈ [4, 7, 0xA, 0xC] := by
  by_contra hreg
  have hall := Dict.rowsAt_unguarded hreg
  unfold guardedKey at h
  split at h
  next r hr =>
    have hr' := List.all_eq_true.mp hall r (List.mem_of_find?_eq_some hr)
    exact absurd (of_decide_eq_true h) (of_decide_eq_true hr')
  next => cases h

theorem sequencerEntries_unguarded : ∀ n < 16, ∀ k ∈ [K.CS_ACTIVITY n, K.BC_SHARE_WAIT n, K.BC_SHARE_AGE n, K.BC_SHARE_BLOCKER n,
    K.CS_PC n, K.CS_OFFSET_X n, K.CS_OFFSET_Y n, K.CS_DEPTH n], guardedKey k = false := by decide

/-- A delivery of conditions changes no guarded entry. -/
theorem guardedKey_not_deliveryKey (h : guardedKey key = true) : ¬ DeliveryKey key := by
  rintro (⟨n, hn, hmem⟩ | ⟨i, hi, rfl⟩)
  · rw [sequencerEntries_unguarded n hn key hmem] at h
    cases h
  · have := guardedKey_region h
    simp [K.RC_INDEX] at this
    omega

theorem guardedKey_not_eventKey (h : guardedKey key = true) : eventKey key = false := by
  have := guardedKey_region h
  simp at this
  simp [eventKey]
  omega

theorem guardedKey_not_frames (h : guardedKey key = true) (p : Fin 4) :
    key ≠ K.RX_FRAMES p.val ∧ key ≠ K.TX_FRAMES p.val ∧ key ≠ K.RX_DROPPED p.val := by
  have := guardedKey_region h
  simp at this
  simp [K.RX_FRAMES, K.TX_FRAMES, K.RX_DROPPED]
  omega

/-- What a message without effect changes: of the entries those of events and of the frames of its port, and nothing of the supply. -/
structure Counted (p : Nat) (s t : State) : Prop where
  pw : t.pw = s.pw
  rd : ∀ k, eventKey k = false → k ≠ K.RX_FRAMES p → k ≠ K.TX_FRAMES p → k ≠ K.RX_DROPPED p → t.rd k = s.rd k

variable {p : Nat}

theorem Counted.trans (h : Counted p s t) (h' : Counted p t u) : Counted p s u :=
  ⟨h'.pw.trans h.pw, fun k hev hrx htx hdr => (h'.rd k hev hrx htx hdr).trans (h.rd k hev hrx htx hdr)⟩

theorem Answered.counted (h : Answered p s t) : Counted p s t := ⟨by rw [h.form], fun k hev _ htx _ => h.rd k hev htx⟩

theorem State.inc_rx_counted : Counted p s (s.inc (K.RX_FRAMES p)) := ⟨rfl, fun _ _ hrx _ _ => State.rd_wr_other _ _ hrx⟩

theorem State.dropFrame_counted : Counted p s (s.dropFrame p) := ⟨rfl, fun _ _ _ _ hdr => State.rd_wr_other _ _ hdr⟩

/-- A message whose own check refuses it has no effect. -/
theorem hostCmd_refused {kind : Nat} {fit : Bool} {code : Nat} {data : List Byte} {k : State → Option (Nat × List Byte) × State}
    (hk : ∀ s, k s = (some (code, data), s)) : Counted m.port.val s (hostCmd m kind key fit k s) := by
  have hsend {u : State} (b : List Byte) : Counted m.port.val u (u.sendPort m.port.val b) := (State.sendPort_answered b).counted
  have hanswer {u : State} (ss : Session) (code : Nat) (data : List Byte) :
      Counted m.port.val u (u.answered m ss kind key code data) := (State.answered_answered m ss kind key code data).counted
  have hupd {u : State} (num : Nat) (f : Session → Session) : Counted m.port.val u (u.updSession num f) :=
    (State.updSession_answered num f).counted
  unfold hostCmd
  dsimp only
  split
  · exact State.dropFrame_counted
  refine State.inc_rx_counted.trans ?_
  split
  · exact hsend _
  split
  · exact hsend _
  split
  · exact hsend _
  next ss _ =>
  have hheard : Counted m.port.val (s.inc (K.RX_FRAMES m.port.val)) (s.heardFrom m ss) := hupd _ _
  have htaken : Counted m.port.val (s.inc (K.RX_FRAMES m.port.val)) (s.taken m ss) := hheard.trans (hupd _ _)
  split
  · refine htaken.trans ?_
    split
    · exact hanswer ss _ _
    · rw [hk]
      exact hanswer ss _ _
  · refine hheard.trans ?_
    split
    · exact hsend _
    · split
      · exact ⟨rfl, fun _ _ _ _ _ => rfl⟩
      · exact hsend _

/-- Settles O22: a WRITE of a guarded entry is refused, which changes counts, events and what is delivered, none of them guarded. -/
theorem writesLeaveGuardedEntries : Obligations.WritesLeaveGuardedEntries := by
  unfold Obligations.WritesLeaveGuardedEntries
  intro c m key len v s t hrow hg hwarm hexec
  obtain ⟨eff, post, hpost, hrun⟩ := exec_writeRow hrow s
  have hw : Counted m.port.val s (hostWrite m key len v eff s) := hostCmd_refused fun _ => if_pos hg
  rw [hrun, hpost _ (by rw [hw.pw, hwarm])] at hexec
  cases hexec
  split
  · obtain ⟨hrx, htx, hdr⟩ := guardedKey_not_frames hg m.port
    exact (State.settle_rd (guardedKey_not_deliveryKey hg)).trans (hw.rd key (guardedKey_not_eventKey hg) hrx htx hdr)
  · rfl

end Sys2Proof.Machine
end

section
/-! PROOFS. STAGE, CONCUR and the guard's proposals (R12, R433, R437 to R440), and a WRITE that its entry refuses (R444). -/

namespace Sys2Proof.Machine

variable {m : Msg} {ss : Session} {s t u : State}

section Guard
variable {kind index sub key party proposal code v : Nat} {value auth : List Byte}

/-- A STAGE or CONCUR that is heard is answered with what its kind makes of it. -/
theorem guardCmd_heard (h : GuardHeard m ss s t kind (index * 256 + sub) party proposal value auth)
    (hkind : (if kind = 0x12 then t.applyStage false (index * 256 + sub) party proposal m.session.toNat value
      else t.applyConcur false (index * 256 + sub) party proposal value) = (code, u)) :
    guardCmd m kind index sub party proposal value auth s = u.answered m ss kind (index * 256 + sub) code [] := by
  obtain ⟨ht, hlen, hpos, hmax, hauth, hok, hg, hm, -, -⟩ := h
  have hfit : (m.length.toNat == 28 + value.length && decide (1 ≤ value.length) && decide (value.length ≤ 1024) &&
      auth.length == 16) = true := by simp only [hlen, hpos, hmax, hauth, beq_self_eq_true, decide_true, Bool.and_self]
  unfold guardCmd
  dsimp only
  rw [hfit]
  refine hostCmd_taken ht kind _ _ (a := (code, [])) ?_
  rw [if_neg (by rw [hok]; decide), if_neg (by rw [hg]; decide), if_neg (by rcases hm with hm | hm <;> simp [hm]), hkind]

theorem State.mayWrite_of (h : t.role = Role.active ∨ partLocal key = true) : t.mayWrite false key = true := by
  rcases h with h | h <;> simp [State.mayWrite, h]

/-- A STAGE whose value its entry never takes. -/
theorem State.applyStage_outOfRange {session : Nat} (hw : t.writeCheck false key value.length (leNat value) = none)
    (hr : guardRange key (leNat value) = true) : t.applyStage false key party proposal session value = (Ans.outOfRange, t) := by
  unfold State.applyStage
  dsimp only
  rw [hw]
  exact if_pos hr

/-- A STAGE that fails a check of R437. -/
theorem State.applyStage_refused {session : Nat} (hw : t.writeCheck false key value.length (leNat value) = none)
    (hr : guardRange key (leNat value) = false) (hrole : t.role = Role.active ∨ partLocal key = true)
    (hc : t.stageCheck key party proposal (leNat value) = some code) :
    t.applyStage false key party proposal session value = (code, t) := by
  unfold State.applyStage
  dsimp only
  rw [hw]
  dsimp only
  rw [if_neg (by rw [hr]; decide), if_neg (by rw [State.mayWrite_of hrole]; decide), hc]

/-- The condition of a key entry on a proposed value (R433). -/
theorem State.guardCond_keyEntry {other : Nat}
    (hkey : key = K.PARTY_KEY_0 ∧ other = K.PARTY_KEY_1 ∨ key = K.PARTY_KEY_1 ∧ other = K.PARTY_KEY_0)
    (h : t.rd other = v ∨ ∃ e, t.proposalFor other = some e ∧ leNat e.2.value = v) : t.guardCond key v = some Ans.refused := by
  have hother : (if key = K.PARTY_KEY_0 then K.PARTY_KEY_1 else K.PARTY_KEY_0) = other := by
    rcases hkey with ⟨rfl, rfl⟩ | ⟨rfl, rfl⟩ <;> rfl
  have hentry : keyEntry key = true := by rcases hkey with ⟨rfl, -⟩ | ⟨rfl, -⟩ <;> rfl
  unfold State.guardCond
  dsimp only
  rw [if_pos hentry, hother]
  refine if_pos (h.imp_right ?_)
  rintro ⟨e, he, hv⟩
  rw [he]
  exact beq_iff_eq.mpr hv

end Guard

/-- Settles O23: a zero key fails the range (`applyStage_outOfRange`), one that the other slot has or awaits its condition
(`guardCond_keyEntry`). -/
theorem proposedKeysDiffer : Obligations.ProposedKeysDiffer := by
  unfold Obligations.ProposedKeysDiffer
  rintro m ss s t index sub party proposal value auth key other rfl hkey h hempty hstage -
  have ⟨ht, _, _, _, _, _, _, _, hrole, hw⟩ := h
  have hentry : keyEntry (index.toNat * 256 + sub.toNat) = true := by rcases hkey with ⟨h, -⟩ | ⟨h, -⟩ <;> rw [h] <;> rfl
  have hrange : guardRange (index.toNat * 256 + sub.toNat) (leNat value) = (leNat value == 0) := if_pos hentry
  have hdev := ht.2.1
  refine ⟨fun hz => ?_, fun hz hother => ?_⟩
  · exact live_eq hdev (guardCmd_heard h (State.applyStage_outOfRange hw (by rw [hrange, hz]; rfl)))
  · refine live_eq hdev (guardCmd_heard h (State.applyStage_refused hw (by rw [hrange]; simpa using hz) hrole ?_))
    unfold State.stageCheck
    dsimp only
    rw [hentry, State.guardCond_keyEntry hkey hother, Bool.true_and]
    by_cases h0 : t.rd (index.toNat * 256 + sub.toNat) = 0
    · simp [h0, hempty h0]
    · simp [h0, hstage h0]

/-- Settles O35: STAGE and CONCUR that are heard (`guardCmd_heard`) pass the checks of their kinds; an expired proposal is freed. -/
theorem guardCommandsComplete : Obligations.GuardCommandsComplete := by
  unfold Obligations.GuardCommandsComplete
  intro m ss s t index sub party proposal value auth
  refine ⟨fun i u h hc hnone hi hu => ?_, fun e h he hkey hval hparty hcond => ?_, fun i g hdev hg htick => ?_⟩
  · obtain ⟨h, hr⟩ := h
    have ⟨ht, _, _, _, _, _, _, _, hrole, hw⟩ := h
    refine live_eq ht.2.1 (guardCmd_heard h ?_)
    rw [if_pos rfl]
    unfold State.applyStage
    dsimp only
    rw [hw]
    dsimp only
    rw [if_neg (by rw [hr]; decide), if_neg (by rw [State.mayWrite_of hrole]; decide), hc]
    dsimp only
    rw [hnone]
    dsimp only
    rw [hi, hu]
    rfl
  · obtain ⟨h, hr⟩ := h
    have ⟨ht, _, _, _, _, _, _, _, hrole, hw⟩ := h
    refine live_eq ht.2.1 (guardCmd_heard h ?_)
    rw [if_neg (by decide)]
    unfold State.applyConcur
    rw [he]
    dsimp only
    rw [if_neg (by simp [hkey, hval]), if_neg hparty, hw]
    dsimp only
    rw [if_neg (by rw [hr]; decide), if_neg (by rw [State.mayWrite_of hrole]; decide), hcond]
  · refine live_eq hdev ?_
    unfold State.guardExpired
    dsimp only
    rw [hg]
    exact if_neg (by omega)

/-! A WRITE that its entry refuses -/

/-- A WRITE that its entry's own condition refuses changes nothing but what answers it. -/
theorem hostWrite_refused {key len v code : Nat} {eff : Nat → State → Nat × State} (h : Carried m ss key len v s t)
    (he : eff v t = (code, t)) : hostWrite m key len v eff s = t.answered m ss 0x11 key code [] := by
  obtain ⟨ht, hl, h1, h2, hg, hm, hrole, hc⟩ := h
  have hfit : (m.length.toNat == 4 + len && decide (1 ≤ len) && decide (len ≤ 1024)) = true := writeFits_iff.mpr ⟨hl, h1, h2⟩
  have hw : t.applyWrite false false key len v eff = (code, t) := by
    unfold State.applyWrite
    rw [hc]
    dsimp only
    rw [if_neg (by rw [State.mayWrite_of hrole]; decide), he]
    split <;> simp
  unfold hostWrite
  rw [hfit]
  refine hostCmd_taken ht 0x11 key _ (a := (code, [])) ?_
  rw [if_neg (by rw [hg]; decide), if_neg (by rcases hm with hm | hm <;> simp [hm]), hw]

theorem writeCmd_refused {key len v code : Nat} {eff : Nat → State → Nat × State} (h : Carried m ss key len v s t)
    (he : eff v t = (code, t)) : writeCmd m key len v eff s = .next (t.answered m ss 0x11 key code []).settle :=
  live_gives h.1.2.1 (hostWrite_refused h he)

theorem State.inc_rd {k key : Nat} (h : k ≠ key) : (s.inc key).rd k = s.rd k := State.rd_wr_other _ _ h

/-- Taking a message changes one entry, its port's frame count. -/
theorem State.taken_rd {k : Nat} (h : k ≠ K.RX_FRAMES m.port.val) : (s.taken m ss).rd k = s.rd k := State.inc_rd h

/-- Settles O24: the effect refuses (`writeCmd_refused`), and an answer and a delivery leave BP_STATE. -/
theorem restartNeedsEveryCondition : Obligations.RestartNeedsEveryCondition := by
  unfold Obligations.RestartNeedsEveryCondition
  rintro m ss s t v h ⟨n, hn, hbit, hbad⟩
  have hall : (maskList 16 v.toNat).all t.permitOk = false := by
    rw [List.all_eq_false]
    exact ⟨n, by simp [maskList, hn, hbit], by rw [hbad]; decide⟩
  refine ⟨writeCmd_refused h (if_pos (by rw [hall]; rfl)), fun n => ?_⟩
  have hbp : (t.answered m ss 0x11 K.PERMIT_RESTART Ans.refused []).settle.rd K.BP_STATE = s.rd K.BP_STATE := by
    rw [State.settle_bpState, (State.answered_answered ..).rd K.BP_STATE (by decide) (by unfold K.BP_STATE K.TX_FRAMES; omega), h.1.1,
      State.taken_rd (by unfold K.BP_STATE K.RX_FRAMES; omega)]
  unfold State.permit
  rw [hbp]

end Sys2Proof.Machine
end

section
/-! PROOFS. Locking the debug port (R513, R514). -/

namespace Sys2Proof.Machine

variable {s t u : State}

/-! Halts and steps of the channels -/

/-- No halt is pending on the channel, and no step. -/
abbrev Chan.Unhalted (c : Chan) : Prop := c.haltAt = none ∧ c.stepping = false

/-- `t` has the halts and steps of `s`. -/
structure SameHalts (s t : State) : Prop where
  halt : ∀ n, (t.chan n).haltAt = (s.chan n).haltAt
  step : ∀ n, (t.chan n).stepping = (s.chan n).stepping

theorem SameHalts.refl : SameHalts s s := ⟨fun _ => rfl, fun _ => rfl⟩

theorem SameHalts.trans (h : SameHalts s t) (h' : SameHalts t u) : SameHalts s u :=
  ⟨fun n => (h'.halt n).trans (h.halt n), fun n => (h'.step n).trans (h.step n)⟩

theorem SameHalts.of_chans (h : t.chans = s.chans) : SameHalts s t := by
  constructor <;> intro n <;> unfold State.chan <;> rw [h]

theorem SameHalts.unhalted (h : SameHalts s t) {n : Nat} (hs : (s.chan n).Unhalted) : (t.chan n).Unhalted :=
  ⟨(h.halt n).trans hs.1, (h.step n).trans hs.2⟩

theorem SameHalts.foldl {β : Type} {f : State → β → State} {l : List β} (hf : ∀ s b, SameHalts s (f s b)) :
    SameHalts s (l.foldl f s) := by
  induction l generalizing s with
  | nil => exact .refl
  | cons b l ih => exact (hf s b).trans ih

theorem State.chan_setChan (s : State) (n j : Nat) (c : Chan) : (s.setChan n c).chan j = if j = n then c else s.chan j := Tab.get_set ..

theorem SameHalts.setChan {n : Nat} {c : Chan} (h : SameHalts s t) (hh : c.haltAt = (t.chan n).haltAt)
    (hs : c.stepping = (t.chan n).stepping) : SameHalts s (t.setChan n c) := by
  refine h.trans ⟨fun j => ?_, fun j => ?_⟩ <;> rw [State.chan_setChan] <;> split
  next hj => exact hj ▸ hh
  next => rfl
  next hj => exact hj ▸ hs
  next => rfl

theorem SameHalts.wrs (h : SameHalts s t) (l : List (Nat × Nat)) : SameHalts s (t.wrs l) := h.trans (.of_chans (State.wrs_chans ..))

theorem SameHalts.setCursor (h : SameHalts s t) (n : Nat) (c : Cursor) : SameHalts s (t.setCursor n c) := by
  unfold State.setCursor
  exact (h.setChan (by rfl) (by rfl)).wrs _

theorem State.wake_sameHalts (n tick : Nat) : SameHalts s (s.wake n tick) := by
  unfold State.wake
  dsimp only
  split
  · exact SameHalts.refl.setChan (by rfl) (by rfl)
  · exact ((SameHalts.refl.setChan (by rfl) (by rfl)).setCursor _ _).wrs _

theorem State.rcHit_sameHalts (h : Nat × Nat × Nat) : SameHalts s (s.rcHit h) := SameHalts.foldl fun t i => by
  dsimp only
  split
  · exact .of_chans rfl
  · exact .refl

theorem State.deliverHit_sameHalts (h : Nat × Nat × Nat) : SameHalts s (s.deliverHit h) :=
  (SameHalts.foldl fun t n => by
    split
    · exact State.wake_sameHalts ..
    · exact .refl).trans (State.rcHit_sameHalts h)

/-- A delivery wakes sequencers, and halts none. -/
theorem State.settle_sameHalts (s : State) : SameHalts s s.settle :=
  (SameHalts.foldl (l := s.ev.hits) fun _ h => State.deliverHit_sameHalts h).trans (.of_chans rfl)

theorem Raised.sameHalts (h : Raised s t) : SameHalts s t := .of_chans (by rw [h.form])

/-! Cancelling halts -/

/-- A pending halt of channel `n` is cancelled (R514). -/
def State.cancelHalt (s : State) (n : Nat) : State :=
  if (s.chan n).haltAt.isNone ∧ !(s.chan n).stepping then s
  else (s.setChan n { s.chan n with haltAt := none, stepping := false }).wr (K.DBG_SEQ_STATE n)
    (if s.rd (K.DBG_SEQ_STATE n) = 2 then 2 else 0)

theorem State.cancelHalts_eq (s : State) : s.cancelHalts = (List.range 16).foldl State.cancelHalt s := rfl

theorem State.cancelHalt_same (s : State) (n : Nat) : ((s.cancelHalt n).chan n).Unhalted := by
  unfold State.cancelHalt
  split
  next h => simpa [Chan.Unhalted] using h
  next =>
    change ((s.setChan n _).chan n).Unhalted
    rw [State.chan_setChan, if_pos rfl]
    exact ⟨rfl, rfl⟩

theorem State.cancelHalt_other {n j : Nat} (h : j ≠ n) : (s.cancelHalt n).chan j = s.chan j := by
  unfold State.cancelHalt
  split
  · rfl
  · exact (State.chan_setChan ..).trans (if_neg h)

theorem State.cancelHalt_rd {n k : Nat} (h : k ≠ K.DBG_SEQ_STATE n) : (s.cancelHalt n).rd k = s.rd k := by
  unfold State.cancelHalt
  split
  · rfl
  · exact State.rd_wr_other _ _ h

theorem State.foldl_cancelHalt {l : List Nat} {n : Nat} (h : n ∈ l ∨ (s.chan n).Unhalted) :
    ((l.foldl State.cancelHalt s).chan n).Unhalted := by
  induction l generalizing s with
  | nil => exact h.resolve_left List.not_mem_nil
  | cons j l ih =>
    refine ih ?_
    by_cases hj : n = j
    · exact .inr (hj ▸ State.cancelHalt_same s n)
    · rw [State.cancelHalt_other hj]
      exact h.imp_left fun h => (List.mem_cons.mp h).resolve_left hj

theorem State.cancelHalts_chan {n : Nat} (hn : n < 16) : (s.cancelHalts.chan n).Unhalted :=
  State.foldl_cancelHalt (.inl (List.mem_range.mpr hn))

/-- A fold whose steps leave an entry leaves it. -/
theorem State.rd_foldl_mem {β : Type} {f : State → β → State} {l : List β} {k : Nat} (hf : ∀ s, ∀ b ∈ l, (f s b).rd k = s.rd k) :
    (l.foldl f s).rd k = s.rd k := by
  induction l generalizing s with
  | nil => rfl
  | cons b l ih =>
    exact (ih fun s c hc => hf s c (List.mem_cons_of_mem _ hc)).trans (hf s b (List.mem_cons_self ..))

theorem State.cancelHalts_rd {k : Nat} (h : ∀ n < 16, k ≠ K.DBG_SEQ_STATE n) : s.cancelHalts.rd k = s.rd k :=
  State.rd_foldl_mem fun _ n hn => State.cancelHalt_rd (h n (List.mem_range.mp hn))

/-! Disarming breakpoints -/

/-- The entries that arm breakpoints (R513). -/
def breakKeys : List Nat := (List.range 16).flatMap fun n => (List.range 8).map fun b => K.BRK_KIND n b

theorem State.disarmBreaks_eq (s : State) : s.disarmBreaks = breakKeys.foldl State.clr s := by
  unfold State.disarmBreaks breakKeys
  rw [List.foldl_flatMap]
  simp only [List.foldl_map]

theorem State.foldl_clr_rd {l : List Nat} {k : Nat} : (l.foldl State.clr s).rd k = if k ∈ l then Dict.dflt k else s.rd k := by
  induction l generalizing s with
  | nil => rfl
  | cons j l ih =>
    rw [List.foldl_cons, ih]
    by_cases hl : k ∈ l
    · rw [if_pos hl, if_pos (List.mem_cons_of_mem _ hl)]
    · rw [if_neg hl]
      by_cases hj : k = j
      · subst hj
        rw [if_pos (List.mem_cons_self ..)]
        exact State.rd_wr_same _ _ _
      · rw [if_neg (by simp [hj, hl])]
        exact State.rd_wr_other _ _ hj

theorem State.foldl_clr_form (l : List Nat) : l.foldl State.clr s = { s with od := (l.foldl State.clr s).od } := by
  induction l generalizing s with
  | nil => rfl
  | cons j l ih =>
    rw [List.foldl_cons, ih]
    rfl

theorem mem_breakKeys {n b : Nat} (hn : n < 16) (hb : b < 8) : K.BRK_KIND n b ∈ breakKeys :=
  List.mem_flatMap.mpr ⟨n, List.mem_range.mpr hn, List.mem_map.mpr ⟨b, List.mem_range.mpr hb, rfl⟩⟩

theorem breakKeys_range {k : Nat} (h : k ∈ breakKeys) : 0x310101 ≤ k ∧ k < 0x320000 := by
  simp only [breakKeys, List.mem_flatMap, List.mem_range, List.mem_map, K.BRK_KIND] at h
  obtain ⟨n, hn, b, hb, rfl⟩ := h
  omega

theorem not_deliveryKey_of_breakKey {k : Nat} (h : k ∈ breakKeys) : ¬ DeliveryKey k := by
  have := breakKeys_range h
  rintro (⟨n, hn, hmem⟩ | ⟨i, hi, rfl⟩)
  · simp only [List.mem_cons, List.not_mem_nil, or_false, K.CS_ACTIVITY, K.BC_SHARE_WAIT, K.BC_SHARE_AGE, K.BC_SHARE_BLOCKER, K.CS_PC,
      K.CS_OFFSET_X, K.CS_OFFSET_Y, K.CS_DEPTH] at hmem
    omega
  · simp only [K.RC_INDEX] at this
    omega

theorem not_eventKey_of_lt {k : Nat} (h : k < 0x900000) (h' : k < 0x121001 ∨ 0x121004 < k) : eventKey k = false := by
  simp only [eventKey, Bool.or_eq_false_iff, Bool.and_eq_false_iff, decide_eq_false_iff_not]
  omega

/-- No breakpoint is armed by default. -/
theorem dflt_breakKind : ∀ n < 16, ∀ b < 8, Dict.dflt (K.BRK_KIND n b) = 0 := by decide

theorem dflt_breakKeys {k : Nat} (h : k ∈ breakKeys) : Dict.dflt k = 0 := by
  simp only [breakKeys, List.mem_flatMap, List.mem_range, List.mem_map] at h
  obtain ⟨n, hn, b, hb, rfl⟩ := h
  exact dflt_breakKind n hn b hb

theorem State.disarmBreaks_rd_break {k : Nat} (h : k ∈ breakKeys) : s.disarmBreaks.rd k = 0 := by
  rw [State.disarmBreaks_eq, State.foldl_clr_rd, if_pos h, dflt_breakKeys h]

theorem State.disarmBreaks_rd_other {k : Nat} (h : k ∉ breakKeys) : s.disarmBreaks.rd k = s.rd k := by
  rw [State.disarmBreaks_eq, State.foldl_clr_rd, if_neg h]

theorem State.disarmBreaks_form (s : State) : s.disarmBreaks = { s with od := s.disarmBreaks.od } := by
  rw [State.disarmBreaks_eq]
  exact State.foldl_clr_form _

/-! Locking -/

/-- The device with the unlock ended, and its halts and breakpoints as they were (R513). -/
def State.unlockEnded (s : State) : State :=
  { s.wrs [(K.DBG_UNLOCK, 0), (K.DBG_STATE, 0)] with dbg := { s.dbg with unlockEnd := none } }

theorem State.unlockEnded_rd {k : Nat} (hu : k ≠ K.DBG_UNLOCK) (hs : k ≠ K.DBG_STATE) : s.unlockEnded.rd k = s.rd k :=
  (State.rd_wr_other (s.wr K.DBG_UNLOCK 0) 0 hs).trans (State.rd_wr_other _ _ hu)

theorem State.dbg_rd (d : Debug) (k : Nat) : ({ s with dbg := d } : State).rd k = s.rd k := rfl

theorem State.unlockEnded_state : s.unlockEnded.rd K.DBG_STATE = 0 :=
  (State.dbg_rd (s := s.wrs [(K.DBG_UNLOCK, 0), (K.DBG_STATE, 0)]) _ _).trans (State.rd_wr_same _ _ _)

theorem State.debugLock_eq (h : s.rd K.DBG_STATE ≠ 0) :
    s.debugLock = s.unlockEnded.cancelHalts.disarmBreaks.raise 0xFC 0x0142 4 0 0 := if_neg h

theorem State.cancelHalt_form (s : State) (n : Nat) :
    s.cancelHalt n = { s with od := (s.cancelHalt n).od, chans := (s.cancelHalt n).chans } := by
  unfold State.cancelHalt
  split <;> rfl

theorem State.cancelHalts_form (s : State) : s.cancelHalts = { s with od := s.cancelHalts.od, chans := s.cancelHalts.chans } := by
  rw [State.cancelHalts_eq]
  generalize List.range 16 = l
  induction l generalizing s with
  | nil => rfl
  | cons n l ih =>
    rw [List.foldl_cons, ih, State.cancelHalt_form]

/-- What locking leaves of the entries: BRK_KIND is cleared, DBG_UNLOCK, DBG_STATE and DBG_SEQ_STATE are its own (R514). -/
theorem State.debugLock_rd {k : Nat} (h : s.rd K.DBG_STATE ≠ 0) (hev : eventKey k = false) (hbrk : k ∉ breakKeys)
    (hseq : ∀ n < 16, k ≠ K.DBG_SEQ_STATE n) (hu : k ≠ K.DBG_UNLOCK) (hs : k ≠ K.DBG_STATE) : s.debugLock.rd k = s.rd k := by
  rw [State.debugLock_eq h, (State.raise_raised ..).rd k hev, State.disarmBreaks_rd_other hbrk, State.cancelHalts_rd hseq,
    State.unlockEnded_rd hu hs]

theorem State.debugLock_rd_break {k : Nat} (h : s.rd K.DBG_STATE ≠ 0) (hk : k ∈ breakKeys) : s.debugLock.rd k = 0 := by
  have := breakKeys_range hk
  rw [State.debugLock_eq h, (State.raise_raised ..).rd k (not_eventKey_of_lt (by omega) (by omega)), State.disarmBreaks_rd_break hk]

theorem State.debugLock_state (h : s.rd K.DBG_STATE ≠ 0) : s.debugLock.rd K.DBG_STATE = 0 := by
  have hbrk : K.DBG_STATE ∉ breakKeys := fun h => absurd (breakKeys_range h).2 (by decide)
  rw [State.debugLock_eq h, (State.raise_raised ..).rd _ (by decide), State.disarmBreaks_rd_other hbrk,
    State.cancelHalts_rd (by decide), State.unlockEnded_state]

theorem State.debugLock_unhalted {n : Nat} (h : s.rd K.DBG_STATE ≠ 0) (hn : n < 16) : (s.debugLock.chan n).Unhalted := by
  have hchans : s.debugLock.chans = s.unlockEnded.cancelHalts.chans := by
    rw [State.debugLock_eq h, (State.raise_raised ..).form, State.disarmBreaks_form]
  exact (SameHalts.of_chans hchans).unhalted (State.cancelHalts_chan hn)

theorem State.debugLock_unlockEnd (h : s.rd K.DBG_STATE ≠ 0) : s.debugLock.dbg.unlockEnd = none := by
  rw [State.debugLock_eq h, (State.raise_raised ..).form, State.disarmBreaks_form, State.cancelHalts_form]
  rfl

/-- Locking and the delivery after it leave the state of a channel. -/
theorem State.debugLock_settle_rd {k : Nat} (h : s.rd K.DBG_STATE ≠ 0) (hdel : ¬ DeliveryKey k) (hev : eventKey k = false)
    (hbrk : k ∉ breakKeys) (hseq : ∀ n < 16, k ≠ K.DBG_SEQ_STATE n) (hdbg : k < 0xC00000) : s.debugLock.settle.rd k = s.rd k := by
  rw [State.settle_rd hdel, State.debugLock_rd h hev hbrk hseq (by unfold K.DBG_UNLOCK; omega) (by unfold K.DBG_STATE; omega)]

theorem beamState_not_deliveryKey {n : Nat} : ¬ DeliveryKey (K.BC_STATE n) := by
  rintro (⟨j, hj, hmem⟩ | ⟨i, hi, heq⟩)
  · simp only [List.mem_cons, List.not_mem_nil, or_false, K.BC_STATE, K.CS_ACTIVITY, K.BC_SHARE_WAIT, K.BC_SHARE_AGE,
      K.BC_SHARE_BLOCKER, K.CS_PC, K.CS_OFFSET_X, K.CS_OFFSET_Y, K.CS_DEPTH] at hmem
    omega
  · simp only [K.BC_STATE, K.RC_INDEX] at heq
    omega

theorem holdCause_not_deliveryKey {n : Nat} (_ : n < 16) : ¬ DeliveryKey (K.CS_HOLD_CAUSE n) := by
  rintro (⟨j, hj, hmem⟩ | ⟨i, hi, heq⟩)
  · simp only [List.mem_cons, List.not_mem_nil, or_false, K.CS_HOLD_CAUSE, K.CS_ACTIVITY, K.BC_SHARE_WAIT, K.BC_SHARE_AGE,
      K.BC_SHARE_BLOCKER, K.CS_PC, K.CS_OFFSET_X, K.CS_OFFSET_Y, K.CS_DEPTH] at hmem
    omega
  · simp only [K.CS_HOLD_CAUSE, K.RC_INDEX] at heq
    omega

/-- Settles O30: the expiry locks (`debugLock`), and the delivery that follows keeps what it left. -/
theorem lockDisarmsAndCancels : Obligations.LockDisarmsAndCancels := by
  unfold Obligations.LockDisarmsAndCancels
  intro s tick hdev hend htick hopen
  have hexec : exec .debugLocked s = .next s.debugLock.settle := by
    refine live_eq hdev ?_
    dsimp only
    rw [hend]
    exact if_pos htick
  refine ⟨_, hexec, ?_, ?_, fun n hn => ⟨fun b hb => ?_, ?_, ?_, ?_, ?_⟩⟩
  · rw [State.settle_rd fun h => absurd h.lt (by decide), State.debugLock_state hopen]
  · rw [State.settle_form]
    exact State.debugLock_unlockEnd hopen
  · have hk := mem_breakKeys hn hb
    rw [State.settle_rd (not_deliveryKey_of_breakKey hk), State.debugLock_rd_break hopen hk]
  · exact ((State.settle_sameHalts _).unhalted (State.debugLock_unhalted hopen hn)).1
  · exact ((State.settle_sameHalts _).unhalted (State.debugLock_unhalted hopen hn)).2
  · have hseq (j : Nat) (_ : j < 16) : K.BC_STATE n ≠ K.DBG_SEQ_STATE j := by unfold K.BC_STATE K.DBG_SEQ_STATE; omega
    have hbrk : K.BC_STATE n ∉ breakKeys := fun h => by
      have := breakKeys_range h
      unfold K.BC_STATE at this
      omega
    exact State.debugLock_settle_rd hopen beamState_not_deliveryKey
      (not_eventKey_of_lt (by unfold K.BC_STATE; omega) (by unfold K.BC_STATE; omega)) hbrk hseq (by unfold K.BC_STATE; omega)
  · have hseq (j : Nat) (_ : j < 16) : K.CS_HOLD_CAUSE n ≠ K.DBG_SEQ_STATE j := by unfold K.CS_HOLD_CAUSE K.DBG_SEQ_STATE; omega
    have hbrk : K.CS_HOLD_CAUSE n ∉ breakKeys := fun h => by
      have := breakKeys_range h
      unfold K.CS_HOLD_CAUSE at this
      omega
    exact State.debugLock_settle_rd hopen (holdCause_not_deliveryKey hn)
      (not_eventKey_of_lt (by unfold K.CS_HOLD_CAUSE; omega) (by unfold K.CS_HOLD_CAUSE; omega)) hbrk hseq
      (by unfold K.CS_HOLD_CAUSE; omega)

end Sys2Proof.Machine
end

section
/-! PROOFS. Entry to ACTIVE (R406, R407): the role and the epoch it shows, and what pinning the twin unit's pages leaves unchanged. -/

namespace Sys2Proof.Machine

variable {m : Msg} {s t u : State} {k tc : Nat}

/-- An entry of the twin group (A000), which no row of memory, time, events or answers writes. -/
structure TwinEntry (k : Nat) : Prop where
  low : 0xA00000 ≤ k
  high : k < 0xA10000

theorem TwinEntry.eventKey (h : TwinEntry k) : eventKey k = false := by
  obtain ⟨hl, hh⟩ := h
  simp only [Machine.eventKey, Bool.or_eq_false_iff, Bool.and_eq_false_iff, decide_eq_false_iff_not]
  omega

theorem TwinEntry.not_deliveryKey (h : TwinEntry k) : ¬ DeliveryKey k := fun hd => by
  have := hd.lt
  have := h.low
  omega

theorem TwinEntry.ne_of_lt {j : Nat} (h : TwinEntry k) (hj : j < 0xA00000) : k ≠ j := by
  have := h.low
  omega

theorem TwinEntry.ne_of_ge {j : Nat} (h : TwinEntry k) (hj : 0xA10000 ≤ j) : k ≠ j := by
  have := h.high
  omega

/-- Entries of a translation context lie below the twin group. -/
theorem TwinEntry.ne_tc (h : TwinEntry k) (htc : tc < 192) :
    k ≠ K.TC_PINNED_PAGES tc ∧ k ≠ K.TC_UNMAP_PENDING tc ∧ k ≠ K.TC_MAPPED_PAGES tc := by
  have := h.low
  simp only [K.TC_PINNED_PAGES, K.TC_UNMAP_PENDING, K.TC_MAPPED_PAGES]
  omega

theorem srcTc_lt (htc : tc < 192) : srcTc tc < 256 := by
  unfold srcTc
  split_ifs <;> omega

section Pins
variable (hk : TwinEntry k) (htc : tc < 192)
include hk htc

theorem State.dropPage_rd (jp : Nat) : (s.dropPage tc jp).rd k = s.rd k := by
  obtain ⟨-, -, hmapped⟩ := hk.ne_tc htc
  have hw : ((s.setPage tc jp none).wr (K.TC_MAPPED_PAGES tc) ((s.setPage tc jp none).rd (K.TC_MAPPED_PAGES tc) - 1)).rd k = s.rd k :=
    State.rd_wr_other _ _ hmapped
  unfold State.dropPage
  dsimp only
  split
  · exact hw
  · exact (State.rd_wr_other _ _ (hk.ne_of_ge (by decide))).trans hw

theorem State.unpin_rd (jp : Nat) : (s.unpin tc jp).rd k = s.rd k := by
  obtain ⟨hpins, hunmap, -⟩ := hk.ne_tc htc
  unfold State.unpin
  split
  · rfl
  split
  · dsimp only
    split
    · refine (State.rd_ite ((State.raise_raised ..).rd k hk.eventKey)).trans ?_
      rw [State.rd_wr_other _ _ hunmap, State.dropPage_rd hk htc]
      exact State.rd_wr_other _ _ hpins
    · exact State.rd_wr_other _ _ hpins
  · rfl

theorem State.pinsGone_rd (low count : Nat) : (s.pinsGone tc low count).rd k = s.rd k := by
  unfold State.pinsGone
  dsimp only
  split
  next e he =>
    have hsrc : e.source = srcTc tc := State.openEvent_source (Option.filter_eq_some_iff.mp he).1
    exact (State.showEvent_raised _ (by rw [hsrc]; exact srcTc_lt htc) (Raised.refl.ev _)).rd k hk.eventKey
  next => exact (State.raise_raised ..).rd k hk.eventKey

theorem State.unpinAll_rd (pages : List Nat) : (s.unpinAll tc pages).rd k = s.rd k := by
  have hfold : (pages.foldl (fun s jp => s.unpin tc jp) s).rd k = s.rd k := State.rd_foldl fun _ jp => State.unpin_rd hk htc jp
  unfold State.unpinAll
  dsimp only
  split
  · exact hfold
  · rw [State.pinsGone_rd hk htc, hfold]

theorem State.holdTwin_rd : (s.holdTwin tc).rd k = s.rd k := by
  unfold State.holdTwin
  split
  · rfl
  · refine State.rd_foldl fun u jp => ?_
    split
    · split
      · exact State.pin_rd jp (hk.ne_tc htc).1
      · rfl
    · rfl

end Pins

theorem State.twinPins_rd (hk : TwinEntry k) : s.twinPins.rd k = s.rd k := by
  refine State.rd_foldl_mem fun u tc htc => ?_
  have htc' : tc < 192 := by
    simp at htc
    omega
  split
  · exact State.holdTwin_rd hk htc'
  · exact State.unpinAll_rd hk htc' _

theorem State.steerFrom_rd (d : Nat) (hk : TwinEntry k) : (s.steerFrom d).rd k = s.rd k := by
  refine (State.rd_ite ((State.raise_raised ..).rd k hk.eventKey)).trans ?_
  exact State.rd_wr_other _ _ (hk.ne_of_lt (by decide))

theorem State.holdover_rd (hk : TwinEntry k) : s.holdover.rd k = s.rd k := by
  refine State.rd_ite (((State.raise_raised ..).rd k hk.eventKey).trans ?_)
  exact State.rd_wr_other _ _ (hk.ne_of_lt (by decide))

theorem State.ownTime_rd (hk : TwinEntry k) : s.ownTime.rd k = s.rd k := by
  unfold State.ownTime
  dsimp only
  split
  · exact State.steerFrom_rd _ hk
  · exact State.holdover_rd hk

theorem State.setRole_rd {r : Nat} (hk : TwinEntry k) (h : s.role ≠ Role.active) :
    (s.setRole r).rd k = (s.wrs [(K.TWIN_ROLE, r), (K.TWIN_ROLE_STAMP, s.now)]).rd k := by
  unfold State.setRole
  dsimp only
  rw [(State.raise_raised ..).rd k hk.eventKey, State.twinPins_rd hk, if_neg (fun hc => h hc.1)]

theorem State.wrs_pair_rd {a b : Nat} (h : a ≠ b) (v w : Nat) : (s.wrs [(a, v), (b, w)]).rd a = v :=
  (State.rd_wr_other (s.wr a v) w h).trans (State.rd_wr_same s a v)

theorem State.wrs_pair_rd_other {a b : Nat} (h : k ≠ a) (h' : k ≠ b) (v w : Nat) : (s.wrs [(a, v), (b, w)]).rd k = s.rd k :=
  (State.rd_wr_other (s.wr a v) w h').trans (State.rd_wr_other s v h)

theorem State.tw_rd (w : Twin) : ({ s with tw := w } : State).rd k = s.rd k := rfl

theorem State.enterActive_rd (hk : TwinEntry k) (hsync : k ≠ K.TWIN_SYNC_STATE) :
    s.enterActive.rd k = ((s.setEpoch s.newEpoch).setRole Role.active).rd k := by
  unfold State.enterActive
  dsimp only
  rw [State.ownTime_rd hk, State.rd_wr_other _ _ hsync, State.tw_rd, (State.raise_raised ..).rd k hk.eventKey]

theorem State.setEpoch_rd_same (e : Nat) : (s.setEpoch e).rd K.TWIN_EPOCH = e := by
  unfold State.setEpoch
  rw [State.pw_rd, State.rd_wr_same]

theorem State.setEpoch_rd_other (e : Nat) (h : k ≠ K.TWIN_EPOCH) : (s.setEpoch e).rd k = s.rd k := State.rd_wr_other s e h

theorem State.setEpoch_role (e : Nat) : (s.setEpoch e).role = s.role := by
  unfold State.role
  rw [State.setEpoch_rd_other e (by decide)]

/-- A part that enters ACTIVE shows the role and its new epoch (R406, R407). -/
theorem State.enterActive_shows (h : s.role ≠ Role.active) :
    s.enterActive.rd K.TWIN_ROLE = Role.active ∧ s.enterActive.rd K.TWIN_EPOCH = s.newEpoch := by
  have h' : (s.setEpoch s.newEpoch).role ≠ Role.active := by rwa [State.setEpoch_role]
  constructor
  · rw [State.enterActive_rd ⟨by decide, by decide⟩ (by decide), State.setRole_rd ⟨by decide, by decide⟩ h',
      State.wrs_pair_rd (by decide)]
  · rw [State.enterActive_rd ⟨by decide, by decide⟩ (by decide), State.setRole_rd ⟨by decide, by decide⟩ h',
      State.wrs_pair_rd_other (by decide) (by decide), State.setEpoch_rd_same]

/-- Answering a write and delivering what it raised leave the twin entries. -/
theorem State.carriedOut_settle_rd {ss : Session} {key : Nat} (hk : TwinEntry k) (hp : m.port.val < 2) :
    (t.carriedOut u m ss key).settle.rd k = u.rd k := by
  rw [State.settle_rd hk.not_deliveryKey]
  exact (answerFrame m ss t u key _ rfl hp).1 k hk.eventKey (hk.ne_of_lt (by unfold K.TX_FRAMES; omega)) (hk.ne_of_lt (by decide))
    (hk.ne_of_lt (by decide))

theorem State.newEpoch_eq (h : max (s.rd K.TWIN_EPOCH) s.tw.seenEpoch + 1 < 2 ^ 32) :
    s.newEpoch = max (s.rd K.TWIN_EPOCH) s.tw.seenEpoch + 1 := by
  unfold State.newEpoch uns
  omega

/-- Settles O31: the command is carried out as `enterActive`, and what follows leaves the twin entries (`carriedOut_settle_rd`). -/
theorem activationRaisesTheEpoch : Obligations.ActivationRaisesTheEpoch := by
  unfold Obligations.ActivationRaisesTheEpoch
  intro m ss s t h hrole hpartner hepoch
  have ⟨⟨_, _, hport, _⟩, _⟩ := h
  have hexec : exec (.twinActivate m) s = .next (t.carriedOut t.enterActive m ss K.TWIN_COMMAND).settle :=
    writeCmd_carried h (if_neg (by simp [hrole, hpartner]))
  have hrole' : t.role ≠ Role.active := by rw [hrole]; decide
  obtain ⟨hr, he⟩ := State.enterActive_shows hrole'
  have hepoch' := State.newEpoch_eq hepoch
  refine ⟨_, hexec, ?_, ?_, ?_⟩
  · exact (State.carriedOut_settle_rd ⟨by decide, by decide⟩ hport).trans hr
  · rw [State.carriedOut_settle_rd ⟨by decide, by decide⟩ hport, he, hepoch']
  · have hts : t.rd K.TWIN_EPOCH = s.rd K.TWIN_EPOCH := by
      rw [h.1.1, State.taken_rd (by unfold K.TWIN_EPOCH K.RX_FRAMES; omega)]
    rw [State.carriedOut_settle_rd ⟨by decide, by decide⟩ hport, he, hepoch', ← hts]
    omega

/-! Reservations (R129) -/

theorem writeEffect_tcReserve (debug : Bool) (session port v : Nat) (htc : tc < 192) :
    writeEffect debug session port (K.TC_RESERVE tc) v s = tcReserveEff tc v s := by
  have hix : K.TC_RESERVE tc / 256 = 0x8000 + tc * 16 := by unfold K.TC_RESERVE; omega
  have hsub : K.TC_RESERVE tc % 256 = 4 := by unfold K.TC_RESERVE; omega
  have hctx : (0x8000 + tc * 16 - 0x8000) / 16 = tc := by omega
  unfold writeEffect
  rw [if_neg (by unfold K.TC_RESERVE K.KEEP_RESTORE; omega)]
  unfold entryEffect
  dsimp only
  rw [hix, hsub]
  iterate 14 rw [if_neg (by omega)]
  rw [if_pos (by omega), hctx]
  rfl

theorem exec_write (m : Msg) (index : BitVec 16) (sub : BitVec 8) (value : List Byte) (hdev : s.dev = .running)
    (hu : hostWrite m (index.toNat * 256 + sub.toNat) value.length (leNat value)
      (writeEffect false m.session.toNat m.port.val (index.toNat * 256 + sub.toNat)) s = u) :
    exec (.write m index sub value) s = .next u.afterReset.settle := live_eq hdev (congrArg State.afterReset hu)

theorem State.afterReset_cold (h : s.pw.warm = false) : s.afterReset = s := if_neg (by simp [h])

/-- The sum of the reserves is a matter of their entries. -/
theorem State.reserveSum_congr (h : ∀ n < 192, s.rd (K.TC_RESERVE n) = t.rd (K.TC_RESERVE n)) : s.reserveSum = t.reserveSum :=
  List.foldl_ext _ _ _ fun a n hn => by rw [h n (List.mem_range.mp hn)]

/-- An entry of the translation contexts and memory (8000 to DFFF, but for events and the twin group). -/
theorem State.carriedOut_settle_rd_of_range {ss : Session} {key : Nat} (hl : 0x800000 ≤ k) (hev : eventKey k = false) (hp : m.port.val < 2) :
    (t.carriedOut u m ss key).settle.rd k = u.rd k := by
  rw [State.settle_rd fun hd => by have := hd.lt; omega]
  refine (answerFrame m ss t u key _ rfl hp).1 k hev ?_ ?_ ?_
  · unfold K.TX_FRAMES; omega
  · unfold K.KEEP_STATE; omega
  · unfold K.NODE_DIGEST_STATE; omega

theorem State.carriedOut_pw {ss : Session} {key : Nat} (hp : m.port.val < 2) : (t.carriedOut u m ss key).pw = u.pw := by
  rw [(answerFrame m ss t u key _ rfl hp).2]

theorem tcReserve_eventKey {n : Nat} (hn : n < 192) : eventKey (K.TC_RESERVE n) = false := by
  simp only [eventKey, K.TC_RESERVE, Bool.or_eq_false_iff, Bool.and_eq_false_iff, decide_eq_false_iff_not]
  omega

/-- Settles O32: the entry's effect is `tcReserveEff`, and what follows leaves the reserves and their sum. -/
theorem reservationsStayWithinTheSum : Obligations.ReservationsStayWithinTheSum := by
  unfold Obligations.ReservationsStayWithinTheSum
  intro m ss s t tc index sub value hkey h hwarm
  have ⟨⟨_, hdev, hport, _⟩, _⟩ := h
  have htwarm : t.pw.warm = false := by rw [h.1.1, State.taken_pw, hwarm]
  have heff : writeEffect false m.session.toNat m.port.val (K.TC_RESERVE tc.val) (leNat value) t = tcReserveEff tc (leNat value) t :=
    writeEffect_tcReserve _ _ _ _ tc.isLt
  refine ⟨fun hover => ?_, fun hin => ?_⟩
  · refine (exec_write m index sub value hdev (u := t.answered m ss 0x11 (K.TC_RESERVE tc.val) Ans.refused []) ?_).trans ?_
    · rw [hkey]
      exact hostWrite_refused h (heff.trans (if_pos hover))
    · rw [State.afterReset_cold (by rw [State.answered_pw, htwarm])]
  · generalize hu : (t.wr (K.TC_RESERVE tc.val) (leNat value)).showReserve = u
    have hexec : exec (.write m index sub value) s = .next (t.carriedOut u m ss (K.TC_RESERVE tc.val)).settle := by
      refine (exec_write m index sub value hdev (u := t.carriedOut u m ss (K.TC_RESERVE tc.val)) ?_).trans ?_
      · rw [hkey]
        exact hostWrite_carried h (heff.trans ((if_neg (by omega)).trans (by rw [hu])))
      · rw [State.afterReset_cold (by rw [State.carriedOut_pw hport, ← hu]; exact htwarm)]
    have hentry (n : Nat) (hn : n < 192) : (t.carriedOut u m ss (K.TC_RESERVE tc.val)).settle.rd (K.TC_RESERVE n) =
        (t.wr (K.TC_RESERVE tc.val) (leNat value)).rd (K.TC_RESERVE n) := by
      rw [State.carriedOut_settle_rd_of_range (by unfold K.TC_RESERVE; omega) (tcReserve_eventKey hn) hport, ← hu]
      exact State.rd_wr_other _ _ (by unfold K.TC_RESERVE K.MEM_RESERVE_SUM; omega)
    have hsum := State.reserveSum_congr hentry
    refine ⟨_, hexec, ?_, by rwa [hsum], ?_⟩
    · rw [hentry _ tc.isLt, State.rd_wr_same]
    · rw [hsum, State.carriedOut_settle_rd_of_range (by decide) (by decide) hport, ← hu]
      exact State.rd_wr_same _ _ _

end Sys2Proof.Machine
end

section
/-! PROOFS. A debug write to memory (R121, R511): what it stores, and where. -/

namespace Sys2Proof.Machine

variable {s t u : State} {tc addr a x : Nat} {b : Byte}

/-- On a page that does not stand as cells, a byte is written in the table of bytes. -/
theorem State.setPhysByte_bytes (h : s.asCells (a / 65536) = false) :
    s.setPhysByte a b = { s with mem := { s.mem with bytes := Tab.set (fun _ => 0) s.mem.bytes a b } } := by
  have hpage : s.lat.pages.testBit (a / 65536) = false := (Bool.or_eq_false_iff.mp h).2
  unfold State.setPhysByte
  rw [h, hpage]
  rfl

theorem State.setPhysByte_asCells (h : s.asCells (a / 65536) = false) (pp : Nat) : (s.setPhysByte a b).asCells pp = s.asCells pp := by
  rw [State.setPhysByte_bytes h]
  rfl

theorem State.setPhysByte_translate (h : s.asCells (a / 65536) = false) (tc addr : Nat) :
    (s.setPhysByte a b).translate tc addr = s.translate tc addr := by
  rw [State.setPhysByte_bytes h]
  rfl

/-- A byte that is written reads back, and every other byte stays. -/
theorem State.setPhysByte_physByte (h : s.asCells (a / 65536) = false) :
    (s.setPhysByte a b).physByte x = if x = a then b else s.physByte x := by
  have hcells (pp : Nat) := State.setPhysByte_asCells (b := b) h pp
  rw [State.setPhysByte_bytes h] at hcells ⊢
  unfold State.physByte
  rw [hcells]
  split
  next hx => rw [if_neg (by rintro rfl; rw [h] at hx; cases hx)]; rfl
  next => exact Tab.get_set ..

/-- Bytes written through a context to distinct addresses read back, and every other byte stays. -/
theorem State.writeMem_physByte {data : List Byte} {f : Nat → Nat} (hcells : ∀ i < data.length, s.asCells (f i / 65536) = false)
    (hmap : ∀ i < data.length, s.translate tc (addr + i) = some (f i))
    (hinj : ∀ i < data.length, ∀ j < data.length, f i = f j → i = j) :
    (∀ i < data.length, (s.writeMem tc addr data).physByte (f i) = data.getD i 0) ∧
      ∀ x, (∀ i < data.length, f i ≠ x) → (s.writeMem tc addr data).physByte x = s.physByte x := by
  induction data generalizing s addr f with
  | nil => exact ⟨fun i hi => absurd hi (Nat.not_lt_zero i), fun _ _ => rfl⟩
  | cons b data ih =>
    have h0 : s.asCells (f 0 / 65536) = false := hcells 0 (by simp)
    have hstep : s.writeMem tc addr (b :: data) = (s.setPhysByte (f 0) b).writeMem tc (addr + 1) data := by
      have h := hmap 0 (by simp)
      rw [Nat.add_zero] at h
      rw [State.writeMem, h]
    obtain ⟨hin, hout⟩ := ih (s := s.setPhysByte (f 0) b) (addr := addr + 1) (f := fun i => f (i + 1))
      (fun i hi => by rw [State.setPhysByte_asCells h0]; exact hcells _ (by simpa using hi))
      (fun i hi => by rw [State.setPhysByte_translate h0, Nat.add_assoc, Nat.add_comm 1]; exact hmap _ (by simpa using hi))
      (fun i hi j hj hf => Nat.succ.inj (hinj _ (by simpa using hi) _ (by simpa using hj) hf))
    rw [hstep]
    refine ⟨fun i hi => ?_, fun x hx => ?_⟩
    · cases i with
      | zero =>
        rw [hout _ fun j hj hf => absurd (hinj _ (by simpa using hj) 0 (by simp) hf) (Nat.succ_ne_zero j),
          State.setPhysByte_physByte h0, if_pos rfl]
        rfl
      | succ i => exact hin i (by simpa using hi)
    · rw [hout _ fun i hi => hx _ (by simpa using hi), State.setPhysByte_physByte h0, if_neg (hx 0 (by simp)).symm]

theorem State.settle_physByte : s.settle.physByte x = s.physByte x := by
  rw [State.settle_form]
  rfl

theorem State.debugDone_physByte (tag code : Nat) (data : List Byte) : (s.debugDone tag code data).physByte x = s.physByte x := rfl

/-- A debug write to memory that passes its checks and that no partner has to hear (R511). -/
theorem State.debugStore_writes {tag : Nat} {data : List Byte} (htc : tc < 192) (hrole : s.role = Role.active)
    (hmirror : s.mirrored = false) (hrange : s.debugRange tc addr data.length true = 0) :
    s.debugStore tag tc addr data = (s.writeMem tc addr data).debugDone tag Ans.ok [] := by
  unfold State.debugStore
  rw [if_neg (by omega), if_neg (not_not_intro hrole), hrange]
  dsimp only
  rw [State.mirrorMemory, hmirror, if_neg (by decide)]
  rfl

/-- Settles O15: the request stores with `writeMem` (`debugStore_writes`), whose bytes are `writeMem_physByte`. -/
theorem memoryWriteStoresItsBytes : Obligations.MemoryWriteStoresItsBytes := by
  unfold Obligations.MemoryWriteStoresItsBytes
  intro r s t tc a data f h ha htc hpos hmax hrole hmirror hrange hcells hmap hinj hexec
  have ⟨hrun, _, _, hlen, _⟩ := h
  have hfit : (r.length.toNat == 12 + data.length && decide (1 ≤ data.length) && decide (data.length ≤ 1024) &&
      decide (a.toNat < 2 ^ 40)) = true := by simp only [hlen, hpos, hmax, ha, beq_self_eq_true, decide_true, Bool.and_self]
  have hrun' : exec (.memWrite r tc a data) s =
      .next ((s.writeMem tc.toNat a.toNat data).debugDone r.tag.toNat Ans.ok []).settle :=
    live_eq hrun ((debugReq_taken h hfit).trans (State.debugStore_writes htc hrole hmirror hrange))
  obtain rfl := Host.Outcome.next.inj (hrun'.symm.trans hexec)
  obtain ⟨hin, hout⟩ := State.writeMem_physByte hcells hmap hinj
  exact ⟨fun i hi => by rw [State.settle_physByte, State.debugDone_physByte, hin i hi],
    fun x hx => by rw [State.settle_physByte, State.debugDone_physByte, hout x hx]⟩

end Sys2Proof.Machine
end

section
/-! PROOFS. Presets and index pulses of an axis (R369, R370): what they set, and what the rest of their rows leaves unchanged. -/

namespace Sys2Proof.Machine

variable {m : Msg} {ss : Session} {s t u : State} {k j : Nat} {l : List Nat}

/-- `t` is `s` but for entries of events and of the list, and for what axes hold beside the reference of axis `k`. -/
structure AxisShown (k : Nat) (l : List Nat) (s t : State) : Prop where
  mem : t.mem = s.mem
  lat : t.lat = s.lat
  ref : (t.axis k).ref = (s.axis k).ref
  rd : ∀ j, eventKey j = false → j ∉ l → t.rd j = s.rd j

theorem AxisShown.refl : AxisShown k l s s := ⟨rfl, rfl, rfl, fun _ _ _ => rfl⟩

theorem AxisShown.trans (h : AxisShown k l s t) (h' : AxisShown k l t u) : AxisShown k l s u :=
  ⟨h'.mem.trans h.mem, h'.lat.trans h.lat, h'.ref.trans h.ref, fun j hev hj => (h'.rd j hev hj).trans (h.rd j hev hj)⟩

theorem AxisShown.wr (h : AxisShown k l s t) {j : Nat} (hj : j ∈ l) (v : Nat) : AxisShown k l s (t.wr j v) :=
  h.trans ⟨rfl, rfl, rfl, fun _ _ hi => State.rd_wr_other _ _ (ne_of_not_mem hi hj)⟩

theorem State.axis_setAxis_same (x : Axis) : (s.setAxis k x).axis k = x := Tab.get_set_same ..

theorem AxisShown.setAxis (h : AxisShown k l s t) {x : Axis} (hx : x.ref = (t.axis k).ref) : AxisShown k l s (t.setAxis k x) :=
  h.trans ⟨rfl, rfl, by rw [State.axis_setAxis_same, hx], fun _ _ _ => rfl⟩

theorem Raised.axisShown (h : Raised s t) : AxisShown k l s t := by
  refine ⟨?_, ?_, ?_, fun j hev _ => h.rd j hev⟩ <;> rw [h.form]
  rfl

theorem AxisShown.raise (h : AxisShown k l s t) (src code cls inst data : Nat) : AxisShown k l s (t.raise src code cls inst data) :=
  h.trans (State.raise_raised ..).axisShown

theorem AxisShown.emit (h : AxisShown k l s t) (p : Path) (b : List Byte) : AxisShown k l s (t.emit p b) :=
  h.trans ⟨rfl, rfl, rfl, fun _ _ _ => rfl⟩

/-! Forming the position and judging the compare units -/

/-- The entries that forming a position can change (R366, R367). -/
def formKeys (k : Nat) : List Nat := [K.AX_STATUS k, K.AX_FAULT k, K.AO_LAG k, K.AX_POSITION k]

theorem State.axisClear_shown (bits : Nat) : AxisShown k (formKeys k) s (s.axisClear k bits) := by
  have hfault (v : Nat) : AxisShown k (formKeys k) s (s.wr (K.AX_FAULT k) v) := AxisShown.refl.wr (by simp [formKeys]) v
  unfold State.axisClear
  dsimp only
  split
  · exact hfault _
  split
  · exact (hfault _).setAxis rfl
  · exact ((((hfault _).setAxis (by rfl)).wr (by simp [formKeys]) _).wr (by simp [formKeys]) _).raise _ _ _ _ _

theorem State.axisFault_shown (bits : Nat) : AxisShown k (formKeys k) s (s.axisFault k bits) := by
  have hfault (v : Nat) : AxisShown k (formKeys k) s (s.wr (K.AX_FAULT k) v) := AxisShown.refl.wr (by simp [formKeys]) v
  unfold State.axisFault
  dsimp only
  split
  · exact .refl
  split
  · exact hfault _
  · exact (((hfault _).setAxis (by rfl)).wr (by simp [formKeys]) _).raise _ _ _ _ _

theorem State.formPos_shown : AxisShown k (formKeys k) s (s.formPos k) := by
  unfold State.formPos
  dsimp only
  split
  · exact (AxisShown.refl.wr (by simp [formKeys]) _).trans (State.axisClear_shown _)
  · have hdraw : AxisShown k (formKeys k) s s.draw.2 := ⟨rfl, rfl, rfl, fun _ _ _ => rfl⟩
    exact (hdraw.wr (j := K.AX_POSITION k) (by simp [formKeys]) _).trans (State.axisFault_shown _)

theorem State.judge_shown (c : Nat) : AxisShown k l s (s.judge k c) := by
  unfold State.judge
  dsimp only
  split
  · exact .refl
  split
  · exact AxisShown.refl.setAxis rfl
  · exact AxisShown.refl.setAxis rfl

theorem State.judgeAll_shown : AxisShown k l s (s.judgeAll k) := by
  unfold State.judgeAll
  generalize List.range 8 = cs
  induction cs generalizing s with
  | nil => exact .refl
  | cons c cs ih => exact (State.judge_shown c).trans ih

/-- On an axis with a status other than FAULT, clearing fault bits leaves the status (R367). -/
theorem State.axisClear_status (bits : Nat) (h : s.rd (K.AX_STATUS k) ≠ 2) :
    (s.axisClear k bits).rd (K.AX_STATUS k) = s.rd (K.AX_STATUS k) := by
  have hfault (v : Nat) : (s.wr (K.AX_FAULT k) v).rd (K.AX_STATUS k) = s.rd (K.AX_STATUS k) :=
    State.rd_wr_other _ _ (by unfold K.AX_STATUS K.AX_FAULT; omega)
  unfold State.axisClear
  dsimp only
  split
  · exact hfault _
  · rw [if_pos (by rw [hfault]; exact h)]
    exact hfault _

theorem uns_sgn {v : Nat} (h : v < 2 ^ 64) : uns 64 (sgn 64 v) = v := by
  have hpos : ((2 ^ 64 : Nat) : Int) = 18446744073709551616 := by norm_num
  unfold uns sgn
  dsimp only
  rw [Nat.mod_eq_of_lt h, hpos]
  split <;> omega

theorem sgn_toNat (v : BitVec 64) : sgn 64 v.toNat = v.toInt := by
  have hv := v.isLt
  unfold sgn
  dsimp only
  rw [Nat.mod_eq_of_lt hv, BitVec.toInt_eq_toNat_cond]
  split <;> split <;> omega

/-- An answered write and the delivery after it leave memory and the axes. -/
theorem State.carriedOut_settle_axis {key : Nat} (hp : m.port.val < 2) :
    (t.carriedOut u m ss key).settle.axis k = u.axis k ∧ (t.carriedOut u m ss key).settle.mem = u.mem := by
  rw [State.settle_form, (answerFrame m ss t u key _ rfl hp).2]
  exact ⟨rfl, rfl⟩

/-- Entries of axis `k` (7800 on) are none of events, of answers or of sequencers. -/
theorem State.carriedOut_settle_rd_axis {key i : Nat} (hp : m.port.val < 2) (hk : k < 4) (hi : i < 0x1000) :
    (t.carriedOut u m ss key).settle.rd (0x780000 + i + k * 0x8000) = u.rd (0x780000 + i + k * 0x8000) := by
  rw [State.settle_rd fun hd => by have := hd.lt; omega]
  refine (answerFrame m ss t u key _ rfl hp).1 _ ?_ ?_ ?_ ?_
  · simp only [eventKey, Bool.or_eq_false_iff, Bool.and_eq_false_iff, decide_eq_false_iff_not]
    omega
  · unfold K.TX_FRAMES; omega
  · unfold K.KEEP_STATE; omega
  · unfold K.NODE_DIGEST_STATE; omega

/-! Presets -/

/-- The axis as a preset sets it, before its position is formed (R369). -/
def State.presetBase (s : State) (k v : Nat) : State :=
  ((s.shiftCount k (sgn 64 v - s.count k) true).setAxis k
    { (s.shiftCount k (sgn 64 v - s.count k) true).axis k with ref := none }).wrs [(K.AX_STATUS k, 1), (K.AX_CORR_PENDING k, 0)]

theorem axPresetEff_accepted {v : Nat} (hrest : s.atRest k = true) (hst : s.rd (K.AX_STATUS k) = 1 ∨ s.rd (K.AX_STATUS k) = 3) :
    axPresetEff k v s = (Ans.ok, ((s.presetBase k v).formPos k).judgeAll k) := by
  unfold axPresetEff
  exact if_neg (by rw [hrest]; simp; omega)

theorem State.presetBase_count {v : Nat} (hv : v < 2 ^ 64) : (s.presetBase k v).rd (K.AX_COUNT k) = v := by
  have hcount : (s.shiftCount k (sgn 64 v - s.count k) true).rd (K.AX_COUNT k) = v := by
    unfold State.shiftCount
    refine (State.rd_wr_same _ _ _).trans ?_
    rw [add_sub_cancel, uns_sgn hv]
  unfold State.presetBase
  rw [State.wrs_pair_rd_other (by unfold K.AX_STATUS K.AX_COUNT; omega) (by unfold K.AX_CORR_PENDING K.AX_COUNT; omega)]
  exact hcount

theorem State.presetBase_pending {v : Nat} : (s.presetBase k v).rd (K.AX_CORR_PENDING k) = 0 := State.rd_wr_same _ _ _

theorem State.presetBase_status {v : Nat} : (s.presetBase k v).rd (K.AX_STATUS k) = 1 :=
  State.wrs_pair_rd (by unfold K.AX_STATUS K.AX_CORR_PENDING; omega) _ _

theorem State.presetBase_axis (s : State) (k v : Nat) : (s.presetBase k v).axis k =
    { (s.shiftCount k (sgn 64 v - s.count k) true).axis k with ref := none } := State.axis_setAxis_same _

theorem State.presetBase_mem {v : Nat} : (s.presetBase k v).mem = s.mem := rfl

/-- A preset leaves the entries of the axis's scale. -/
theorem State.presetBase_rd {v : Nat} (hc : j ≠ K.AX_COUNT k) (hst : j ≠ K.AX_STATUS k) (hp : j ≠ K.AX_CORR_PENDING k) :
    (s.presetBase k v).rd j = s.rd j := by
  unfold State.presetBase
  rw [State.wrs_pair_rd_other hst hp]
  exact State.rd_wr_other _ _ hc

theorem State.presetBase_scaled {v : Nat} (c : Int) : (s.presetBase k v).scaled k c = s.scaled k c := by
  unfold State.scaled State.rdS
  rw [State.presetBase_rd, State.presetBase_rd, State.presetBase_rd] <;>
    (simp only [K.AX_NM_PER_COUNT, K.AX_INVERT, K.AX_OFFSET, K.AX_COUNT, K.AX_STATUS, K.AX_CORR_PENDING]; omega)

/-- Forming a position within its range leaves a status other than FAULT (R366, R367). -/
theorem State.formPos_status (hst : s.rd (K.AX_STATUS k) ≠ 2) (hl : -2147483648 ≤ s.scaled k (s.count k))
    (hh : s.scaled k (s.count k) ≤ 2147483647) : (s.formPos k).rd (K.AX_STATUS k) = s.rd (K.AX_STATUS k) := by
  have hpos (v : Int) : (s.wrS 32 (K.AX_POSITION k) v).rd (K.AX_STATUS k) = s.rd (K.AX_STATUS k) :=
    State.rd_wr_other _ _ (by unfold K.AX_STATUS K.AX_POSITION; omega)
  unfold State.formPos
  dsimp only
  rw [if_pos ⟨hl, hh⟩, State.axisClear_status _ (by rwa [hpos]), hpos]

/-- An axis entry that forming a position and judging the compare units leave. -/
theorem State.formPos_judgeAll_rd {i : Nat} (hk : k < 4) (hi : i < 0x1000)
    (h : 0x780000 + i + k * 0x8000 ∉ formKeys k) :
    ((s.formPos k).judgeAll k).rd (0x780000 + i + k * 0x8000) = s.rd (0x780000 + i + k * 0x8000) := by
  have hev : eventKey (0x780000 + i + k * 0x8000) = false := not_eventKey_of_lt (by omega) (by omega)
  exact (State.formPos_shown.trans (State.judgeAll_shown (l := formKeys k))).rd _ hev h

/-- Settles O28: an accepted preset sets `presetBase`; forming the position, judging and what follows leave the count, the pending
correction and the reference, and a position in range leaves the status. -/
theorem presetSetsTheCount : Obligations.PresetSetsTheCount := by
  unfold Obligations.PresetSetsTheCount
  intro m ss s t k v h
  have ⟨⟨_, _, hport, _⟩, _⟩ := h
  refine ⟨fun hbad => writeCmd_refused h (if_pos (by simpa using hbad)), fun hrest hst => ?_⟩
  have hexec : exec (.axCountPreset m k v) s =
      .next (t.carriedOut (((t.presetBase k v.toNat).formPos k).judgeAll k) m ss (K.AX_COUNT_PRESET k)).settle :=
    writeCmd_carried h (axPresetEff_accepted hrest hst)
  have hshown := (State.formPos_shown (s := t.presetBase k v.toNat)).trans (State.judgeAll_shown (k := k.val) (l := formKeys k))
  obtain ⟨haxis, hmem⟩ := State.carriedOut_settle_axis (t := t) (u := ((t.presetBase k v.toNat).formPos k).judgeAll k)
    (ss := ss) (k := k) (key := K.AX_COUNT_PRESET k) hport
  refine ⟨_, hexec, ?_, ?_, ?_, ?_, fun hl hh => ?_⟩
  · exact (State.carriedOut_settle_rd_axis (i := 0x101) hport k.isLt (by decide)).trans
      ((State.formPos_judgeAll_rd (i := 0x101) k.isLt (by decide) (by simp [formKeys])).trans (State.presetBase_count v.isLt))
  · exact (State.carriedOut_settle_rd_axis (i := 0x10A) hport k.isLt (by decide)).trans
      ((State.formPos_judgeAll_rd (i := 0x10A) k.isLt (by decide) (by simp [formKeys])).trans State.presetBase_pending)
  · rw [haxis, hshown.ref, State.presetBase_axis]
  · rw [hmem, hshown.mem, State.presetBase_mem, h.1.1]
    rfl
  · have hcount : (t.presetBase k v.toNat).count k = v.toInt := by
      unfold State.count State.rdS
      rw [State.presetBase_count v.isLt, sgn_toNat]
    have hstatus := State.presetBase_status (s := t) (k := k.val) (v := v.toNat)
    have hform := State.formPos_status (s := t.presetBase k v.toNat) (k := k.val) (by rw [hstatus]; decide)
      (by rw [State.presetBase_scaled, hcount]; exact hl) (by rw [State.presetBase_scaled, hcount]; exact hh)
    refine (State.carriedOut_settle_rd_axis (i := 0x7) hport k.isLt (by decide)).trans ?_
    refine ((State.judgeAll_shown (l := [])).rd (K.AX_STATUS k) ?_ List.not_mem_nil).trans (hform.trans hstatus)
    exact not_eventKey_of_lt (by unfold K.AX_STATUS; omega) (by unfold K.AX_STATUS; omega)

/-! Index pulses -/

/-- The entries that an index pulse can change after it has latched (R371, R372, R377). -/
def indexKeys (k : Nat) : List Nat := [K.AX_INDEX_DEVIATION k, K.AX_CORR_PENDING k, K.AO_LAG k]

theorem State.checkIndex_shown (tick : Nat) (latch r : Int) (cleared : Bool) :
    AxisShown k (indexKeys k) s (s.checkIndex k tick latch r cleared) := by
  unfold State.checkIndex
  dsimp only
  split
  · exact .refl
  have hreport (v : Nat) (data : Nat) : AxisShown k (indexKeys k) s
      ((s.wr (K.AX_INDEX_DEVIATION k) v).raiseAt tick (srcAxis k) 0x00C1 3 k data [] false) :=
    (AxisShown.refl.wr (by simp [indexKeys]) v).trans (State.raiseAt_raised ..).axisShown
  split
  · exact (hreport _ _).wr (by simp [indexKeys]) _
  · exact hreport _ _

theorem State.aoFollow_shown : AxisShown k (indexKeys k) s (s.aoFollow k) := by
  unfold State.aoFollow
  extract_lets x target lag n d out z left moved lagged q edged
  split
  · exact .refl
  have hlagged : AxisShown k (indexKeys k) s lagged := (AxisShown.refl.setAxis (by rfl)).wr (by simp [indexKeys]) _
  have hedged : AxisShown k (indexKeys k) s edged := by
    unfold edged
    split
    · exact hlagged
    · exact hlagged.emit _ _
  split
  · exact hedged.emit _ _
  · exact hedged

theorem State.checkIndex_axes (tick : Nat) (latch r : Int) (cleared : Bool) : (s.checkIndex k tick latch r cleared).axes = s.axes := by
  have hraise (u : State) (code cls inst data : Nat) : (u.raiseAt tick (srcAxis k) code cls inst data [] false).axes = u.axes := by
    rw [(State.raiseAt_raised ..).form]
  unfold State.checkIndex
  dsimp only
  split
  · rfl
  · split
    · exact (hraise _ _ _ _ _).trans rfl
    · exact (hraise _ _ _ _ _).trans rfl

/-- The count of a past tick is a matter of the axis and its count (R386). -/
theorem State.countAt_congr {tick : Nat} (haxes : t.axes = s.axes) (hcount : t.rd (K.AX_COUNT k) = s.rd (K.AX_COUNT k)) :
    t.countAt k tick = s.countAt k tick := by
  unfold State.countAt State.axis State.count State.rdS
  rw [haxes, hcount]

/-- The device once an index pulse has latched the count of a tick (R370). -/
def State.indexLatched (s : State) (k tick : Nat) : State :=
  ((s.wrs [(K.AX_INDEX_LATCH k, uns 64 (s.latchAtTick k tick)), (K.AX_INDEX_STAMP k, s.timeAt tick)]).inc (K.AX_INDEX_COUNT k)).raiseAt tick
    (srcAxis k) 0x00C0 4 k (uns 64 (s.latchAtTick k tick)) [] false

theorem State.indexLatched_axes {tick : Nat} : (s.indexLatched k tick).axes = s.axes := by
  unfold State.indexLatched
  rw [(State.raiseAt_raised ..).form]
  rfl

/-- A pulse that is taken latches, checks its latch against the reference, and makes it the reference (R370 to R372). -/
theorem State.indexPulse_latches {delay : Nat} (hen : s.rd (K.AX_ENABLE k) ≠ 0) (hfil : s.rd K.PIN_FILTER_INDEX ≤ delay)
    (htick : delay = 0 ∨ (s.axis k).enabledAt < s.tm.tick - delay) :
    ∃ (x : Axis) (u : State), x.ref = (if (s.jumpsFrom k (s.tm.tick - delay)).any (fun j => j.2.2.2) then none
        else some (u.countAt k (s.tm.tick - delay))) ∧
      AxisShown k (indexKeys k) (s.indexLatched k (s.tm.tick - delay)) u ∧ u.axes = s.axes ∧
        s.indexPulse k delay = (u.setAxis k x).aoFollow k := by
  have htaken : ¬ (s.rd (K.AX_ENABLE k) = 0 ∨ (!s.filtered K.PIN_FILTER_INDEX delay) = true ∨
      (delay ≠ 0 ∧ s.tm.tick - delay ≤ (s.axis k).enabledAt)) := by
    simp only [State.filtered, hen, hfil, decide_true, Bool.not_true, Bool.false_eq_true, false_or]
    omega
  unfold State.indexPulse
  dsimp only
  rw [if_neg htaken]
  refine ⟨_, _, rfl, ?_, ?_, rfl⟩
  · unfold State.indexLatched
    split
    · exact .refl
    · exact State.checkIndex_shown ..
  · split
    · exact State.indexLatched_axes
    · exact (State.checkIndex_axes ..).trans State.indexLatched_axes

/-- An entry of axis `k` that the rest of an index pulse leaves. -/
theorem AxisShown.aoFollow_settle_rd {x : Axis} {i : Nat} (h : AxisShown k (indexKeys k) s u) (hk : k < 4) (hi : i < 0x1000)
    (hkey : 0x780000 + i + k * 0x8000 ∉ indexKeys k) :
    ((u.setAxis k x).aoFollow k).settle.rd (0x780000 + i + k * 0x8000) = s.rd (0x780000 + i + k * 0x8000) := by
  have hev : eventKey (0x780000 + i + k * 0x8000) = false := not_eventKey_of_lt (by omega) (by omega)
  rw [State.settle_rd fun hd => by have := hd.lt; omega, State.aoFollow_shown.rd _ hev hkey]
  exact h.rd _ hev hkey

theorem State.indexLatched_rd {tick : Nat} {i : Nat} (hk : k < 4) (hi : i < 0x1000) :
    (s.indexLatched k tick).rd (0x780000 + i + k * 0x8000) =
      ((s.wrs [(K.AX_INDEX_LATCH k, uns 64 (s.latchAtTick k tick)), (K.AX_INDEX_STAMP k, s.timeAt tick)]).inc (K.AX_INDEX_COUNT k)).rd
        (0x780000 + i + k * 0x8000) :=
  (State.raiseAt_raised ..).rd _ (not_eventKey_of_lt (by omega) (by omega))

theorem State.indexLatched_mem_lat {tick : Nat} : (s.indexLatched k tick).mem = s.mem ∧ (s.indexLatched k tick).lat = s.lat := by
  have h := (State.raiseAt_raised (s := (s.wrs [(K.AX_INDEX_LATCH k, uns 64 (s.latchAtTick k tick)),
    (K.AX_INDEX_STAMP k, s.timeAt tick)]).inc (K.AX_INDEX_COUNT k)) tick (srcAxis k) 0x00C0 4 k (uns 64 (s.latchAtTick k tick)) [] false).form
  unfold State.indexLatched
  rw [h]
  exact ⟨rfl, rfl⟩

/-- Settles O27: a pulse that is taken latches (`indexLatched`); the check against the reference, the output and the delivery leave what
it latched. -/
theorem indexPulseLeavesTheCount : Obligations.IndexPulseLeavesTheCount := by
  unfold Obligations.IndexPulseLeavesTheCount
  intro s k delay hdev hen
  refine ⟨fun hshort => ?_, fun hfil htick => ?_⟩
  · refine live_eq hdev (if_pos (.inr (.inl ?_)))
    simp [State.filtered, hshort]
  obtain ⟨x, u, hx, hu, haxes, hpulse⟩ := State.indexPulse_latches hen hfil htick
  have hk := k.isLt
  have hfollow := State.aoFollow_shown (s := u.setAxis k x) (k := k.val)
  obtain ⟨hmem, hlat⟩ := State.indexLatched_mem_lat (s := s) (k := k.val) (tick := s.tm.tick - delay.toNat)
  have hother {i j : Nat} (hij : i ≠ j) : 0x780000 + i + k.val * 0x8000 ≠ 0x780000 + j + k.val * 0x8000 := by omega
  have hlatched {i : Nat} (hi : i < 0x1000) (hkey : 0x780000 + i + k.val * 0x8000 ∉ indexKeys k) :=
    (hu.aoFollow_settle_rd (x := x) hk hi hkey).trans (State.indexLatched_rd hk hi)
  have hcount : u.rd (K.AX_COUNT k) = s.rd (K.AX_COUNT k) :=
    ((hu.rd _ (not_eventKey_of_lt (by omega) (by omega)) (by simp [indexKeys])).trans
      (State.indexLatched_rd (i := 0x101) hk (by decide))).trans
        ((State.inc_rd (hother (i := 0x101) (j := 0x10B) (by decide))).trans
          (State.wrs_pair_rd_other (hother (i := 0x101) (j := 0x104) (by decide)) (hother (i := 0x101) (j := 0x105) (by decide)) _ _))
  refine ⟨_, live_eq hdev hpulse, ?_, ?_, ?_, ?_, ?_, ?_, ?_⟩
  · exact (hlatched (i := 0x104) (by decide) (by simp [indexKeys])).trans
      ((State.inc_rd (hother (i := 0x104) (j := 0x10B) (by decide))).trans
        (State.wrs_pair_rd (hother (i := 0x104) (j := 0x105) (by decide)) _ _))
  · exact (hlatched (i := 0x105) (by decide) (by simp [indexKeys])).trans
      ((State.inc_rd (hother (i := 0x105) (j := 0x10B) (by decide))).trans (State.rd_wr_same _ _ _))
  · refine (hlatched (i := 0x10B) (by decide) (by simp [indexKeys])).trans ((State.rd_wr_same _ _ _).trans ?_)
    rw [State.wrs_pair_rd_other (hother (i := 0x10B) (j := 0x104) (by decide)) (hother (i := 0x10B) (j := 0x105) (by decide))]
  · exact (hlatched (i := 0x101) (by decide) (by simp [indexKeys])).trans
      ((State.inc_rd (hother (i := 0x101) (j := 0x10B) (by decide))).trans
        (State.wrs_pair_rd_other (hother (i := 0x101) (j := 0x104) (by decide)) (hother (i := 0x101) (j := 0x105) (by decide)) _ _))
  · rw [State.settle_form]
    refine (hfollow.ref.trans (by rw [State.axis_setAxis_same])).trans ?_
    rw [hx, State.countAt_congr haxes hcount]
  · rw [State.settle_form]
    exact (hfollow.mem.trans hu.mem).trans hmem
  · rw [State.settle_form]
    exact (hfollow.lat.trans hu.lat).trans hlat

end Sys2Proof.Machine
end

section
/-! PROOFS. The messages of a host session complete (R72, R91 to R106), and the commands of the kept values, of the digest, of the
journal and of the event sources (R57 to R61, R75 to R86, R527). -/

namespace Sys2Proof.Machine

variable {m : Msg} {ss : Session} {s t u : State}

/-- The effect of a row that is a command of a session which passes R97. -/
theorem hostCmd_gives {kind key : Nat} {fit : Bool} {k : State → Option (Nat × List Byte) × State} {a : Nat × List Byte}
    (h : Taken m ss s t) (hfit : fit = true) (hk : k t = (some a, u)) :
    hostCmd m kind key fit k s = u.answered m ss kind key a.1 a.2 := by
  subst hfit
  exact hostCmd_taken h kind key k hk

/-- A READ of an entry's value (R66, R72). -/
theorem State.readAnswer_value {index sub : Nat} {r : Dict.Row} (hix : Dict.indexExists index = true) (hsub : sub ≠ 0)
    (hrow : Dict.find (index * 256 + sub) = some r) (hgroup : s.groupOk (index * 256 + sub) = true) (hacc : r.acc ≠ Dict.Acc.wo)
    (hkey : keyEntry (index * 256 + sub) = false) : s.readAnswer index sub 0 =
      ((Ans.ok, toLE r.len (s.value (index * 256 + sub))), s.afterRead (index * 256 + sub)) := by
  unfold State.readAnswer
  dsimp only
  rw [hix, if_neg (by decide), if_neg hsub, hrow]
  dsimp only
  rw [hgroup, if_neg (by decide), if_neg (by decide), if_neg (by simp [hacc, hkey])]

theorem State.hostRead_value {index sub : Nat} {r : Dict.Row} (h : Taken m ss s t) (hlen : m.length.toNat = 4)
    (hix : Dict.indexExists index = true) (hsub : sub ≠ 0) (hrow : Dict.find (index * 256 + sub) = some r)
    (hgroup : t.groupOk (index * 256 + sub) = true) (hacc : r.acc ≠ Dict.Acc.wo) (hkey : keyEntry (index * 256 + sub) = false) :
    s.hostRead m index sub 0 = (t.afterRead (index * 256 + sub)).answered m ss 0x10 (index * 256 + sub) Ans.ok
      (toLE r.len (t.value (index * 256 + sub))) := by
  unfold State.hostRead
  refine hostCmd_gives h (by simp [hlen]) (a := (Ans.ok, toLE r.len (t.value (index * 256 + sub)))) ?_
  rw [State.readAnswer_value hix hsub hrow hgroup hacc hkey]

/-- An OPEN of a new host (R97, R99). -/
theorem State.openMsg_new {host credit : Nat} (ht : t = s.inc (K.RX_FRAMES m.port.val)) (hp : m.port.val < 2)
    (hf : s.frameOk m.port.val m.frame = true) (hv : m.version = 1) (hl : m.length = 12) (hfit : msgFits m = true)
    (hcl : msgClean m = true) (hses : m.session = 0) (hq : m.seq = 0) (hrole : t.roleHeld m.role.toNat m.epoch.toNat = true)
    (hfree : ∀ x ∈ t.sessions, x.hostId ≠ host) (hlimit : t.sessions.length < t.rd K.SESSION_LIMIT) :
    s.openMsg m host credit = t.openNew m.port.val 0 host credit := by
  have hnone : t.sessions.find? (fun x => x.hostId == host) = none := by
    rw [List.find?_eq_none]
    exact fun x hx => by simpa using hfree x hx
  subst ht
  unfold State.openMsg
  dsimp only
  rw [if_neg (not_dropped hp hf), if_neg (not_not_intro hv), if_neg (by simp [hl, hfit, hcl, hses, hq]), hrole, if_neg (by decide), hnone]
  exact if_neg (by omega)

theorem State.noticeAck_taken {ack credit : Nat} (hp : m.port.val < 2) (hf : s.frameOk m.port.val m.frame = true) (hv : m.version = 1)
    (hl : m.length = 8) (hfit : msgFits m = true) (hcl : msgClean m = true) (hq : m.seq = 0)
    (hs : s.session m.session.toNat = some ss) :
    s.noticeAck m ack credit = ((s.inc (K.RX_FRAMES m.port.val)).updSession ss.num fun x =>
      { x with
        lastTick := s.tm.tick, lastPort := m.port.val, ackSeq := min ack ss.sentSeq,
        credit := min credit (s.rd K.NOTICE_CREDIT_MAX) }).freeNotices.pump := by
  unfold State.noticeAck
  dsimp only
  rw [if_neg (by simp [hf, hv, hl, hfit, hcl, hq]; omega), hs]

theorem State.noticeResend_due {num number : Nat} {n : Notice} {x : Nat × Nat × Nat} (hs : s.session num = some ss)
    (hack : ss.ackSeq < number) (hn : s.ev.queue.find? (fun n => n.sent.any fun x => x.1 == num && x.2.1 == number) = some n)
    (hx : n.sent.find? (fun x => x.1 == num && x.2.1 == number) = some x) (hdue : x.2.2 + s.rd K.NOTICE_RESEND * 100000 ≤ s.tm.tick) :
    s.noticeResend num number = State.sendNotice { s with ev := { s.ev with queue := s.ev.queue.map fun (k : Notice) => { k with
      sent := k.sent.map fun y => if y.1 == num && y.2.1 == number then (num, number, s.tm.tick) else y } } } ss n number true := by
  unfold State.noticeResend
  rw [hs]
  dsimp only
  rw [if_neg (by omega), hn]
  dsimp only
  rw [hx]
  exact if_neg (by omega)

/-- Settles O34: each message passes the checks of its row. -/
theorem hostMessagesComplete : Obligations.HostMessagesComplete := by
  unfold Obligations.HostMessagesComplete
  intro m ss s t
  refine ⟨fun index sub r h hlen hix hsub hrow hgroup hacc hkey => ?_, fun index sub value u h heff => ?_,
    fun host credit hdev ht hp hf hv hl hfit hcl hses hq hrole hfree hlimit => ?_, fun h hl => ?_, fun h hl => ?_,
    fun ack credit hdev hp hf hv hl hfit hcl hq hs => ?_, fun num number n x hdev hs hack hn hx hdue q hq => ?_,
    fun num hdev hs hdue => ?_, fun kind hdev hp hf hlisted hptp ht hv => ?_, fun kind hdev hptp => ?_⟩
  · exact live_eq h.2.1 (State.hostRead_value h hlen hix hsub hrow hgroup hacc hkey)
  · exact exec_write m index sub value h.1.2.1 (hostWrite_carried h heff)
  · exact live_eq hdev (State.openMsg_new ht hp hf hv hl hfit hcl hses hq hrole hfree hlimit)
  · exact live_eq h.2.1 (hostCmd_gives h (by simp [hl]) (a := (Ans.ok, [])) rfl)
  · exact live_eq h.2.1 (hostCmd_gives h (by simp [hl]) (a := (Ans.ok, [])) rfl)
  · exact live_eq hdev (State.noticeAck_taken hp hf hv hl hfit hcl hq hs)
  · exact live_eq hdev (hq ▸ State.noticeResend_due hs hack hn hx hdue)
  · refine live_eq hdev ?_
    unfold State.sessionTimeout
    dsimp only
    rw [hs]
    exact if_pos hdue
  · refine live_eq hdev ?_
    unfold State.badKind
    dsimp only
    rw [hptp, if_neg (by decide), if_neg (by simp [hf, hlisted]; omega), if_neg (not_not_intro hv), ht]
  · exact live_eq hdev (if_pos hptp)

/-! Kept values, digest, journal and event sources -/

theorem Keep.place_again (k : Keep) (i : Image) : (k.place i).again = k.again := by
  unfold Keep.place
  dsimp only
  split <;> rfl

/-- A store that ends well, and that nothing has asked to repeat (R76). -/
theorem State.storeDone_good {img : Image} (hs : s.kp.storing = some img) (ha : s.kp.again = false)
    (hu : u = { s with kp := ({ s.kp with storing := none } : Keep).place img }) :
    s.storeDone true = u.wrs [(K.KEEP_STATE, if u.kp.changed then 1 else 0), (K.KEEP_GENERATION, img.gen), (K.KEEP_SAVE_TIME, s.now)] := by
  subst hu
  unfold State.storeDone
  rw [hs]
  refine if_neg (fun h => ?_)
  have h' : (({ s.kp with storing := none } : Keep).place img).again = true := h
  rw [Keep.place_again, ha] at h'
  cases h'

/-- A store that fails, and that nothing has asked to repeat (R76). -/
theorem State.storeDone_bad {img : Image} (hs : s.kp.storing = some img) (ha : s.kp.again = false) :
    s.storeDone false = (({ s with kp := { s.kp with storing := none } } : State).wr K.KEEP_STATE 3).raise 0xEF 0x0098 3 0 0 := by
  unfold State.storeDone
  rw [hs]
  refine if_neg (fun h => ?_)
  rw [if_neg (by decide), (State.raise_raised ..).form] at h
  rw [show s.kp.again = true from h] at ha
  cases ha

theorem deviceEffect_evClear {session src v : Nat} (hsrc : src < 256) (hres : Dict.reservedSource src = false) :
    deviceEffect false session (K.EV_CLEAR src) v s =
      (Ans.ok, (List.range 7).foldl (fun (s : State) i => s.clr ((0x9000 + src) * 256 + 2 + i)) s) := by
  have hne {j : Nat} (h : j < 0x900000 ∨ 0x910000 ≤ j) : K.EV_CLEAR src ≠ j := by unfold K.EV_CLEAR; omega
  have hix : K.EV_CLEAR src / 256 = 0x9000 + src := by unfold K.EV_CLEAR; omega
  have hsub : K.EV_CLEAR src % 256 ≠ 1 := by unfold K.EV_CLEAR; omega
  unfold deviceEffect
  dsimp only
  rw [if_neg (hne (by decide)), if_neg (hne (by decide)), if_neg (hne (by decide)), if_neg (hne (by decide)), if_neg (hne (by decide)),
    if_neg (hne (by decide)), if_neg (hne (by decide)), hix, if_neg (by omega), if_neg (hne (by decide)), if_neg (hne (by decide)),
    if_neg (hne (by decide)), if_neg (hne (by decide)), if_pos (by omega), Nat.add_sub_cancel_left, hres, if_neg (by decide), if_neg hsub]

/-- Settles O36: the commands meet the conditions of their rows; the end of a store, EV_CLEAR and a restore have their own equations. -/
theorem keepAndJournalCommandsComplete : Obligations.KeepAndJournalCommandsComplete := by
  unfold Obligations.KeepAndJournalCommandsComplete
  intro m ss s t
  refine ⟨fun h hst => writeCmd_carried h (if_neg hst), fun img u hdev hs ha hu => ?_, fun img hdev hs ha => ?_, fun h hphase hkeys => ?_,
    fun u h hphase hkeys hu => ?_, fun hdev hst => live_eq hdev (if_neg hst), fun buf shed u hdev hbuf hu => ?_,
    fun hdev hdue => ?_, fun src h hres => ?_⟩
  · subst hu
    exact live_eq hdev (State.storeDone_good hs ha rfl)
  · exact live_eq hdev (State.storeDone_bad hs ha)
  · refine writeCmd_carried h ?_
    unfold keepRestoreEff
    dsimp only
    rw [if_neg (not_not_intro hphase), hkeys]
    rfl
  · have hfilled : ¬ ((t.od.map (·.1)).filter restorable).isEmpty = true := fun he => hkeys (List.isEmpty_iff.mp he)
    refine writeCmd_carried h ?_
    unfold keepRestoreEff
    dsimp only
    rw [if_neg (not_not_intro hphase), if_neg hfilled, hu]
  · refine live_eq hdev ?_
    unfold State.writeJournal
    dsimp only
    rw [hbuf, hu]
  · exact live_eq hdev (if_pos hdue)
  · exact writeCmd_carried h (deviceEffect_evClear src.isLt hres)

end Sys2Proof.Machine
end

section
/-! PROOFS. The rows of stream endpoints (R107 to R111) and of the axis cycle (R116 to R118) complete. -/

namespace Sys2Proof.Machine

variable {m : Msg} {ss : Session} {s t u : State}

/-! Streams -/

theorem streamControlEff_abort {session port e : Nat} (h : s.rd (K.STREAM_STATE e) = 1) : streamControlEff session port e 2 s =
    (Ans.ok, if s.parkedOn (s.rd (K.STREAM_TC e)) e then ((s.nextJob (s.rd (K.STREAM_TC e))).endStream e 3 4).streamAck e
      else (s.endStream e 3 0).streamAck e) := by
  unfold streamControlEff
  dsimp only
  rw [if_neg (by decide), if_pos h]
  split <;> rfl

/-- Counting a frame leaves what a command that changes state has to be mirrored for (R416). -/
theorem State.inc_rx_mirrored {p : Nat} (hp : p < 4) : (s.inc (K.RX_FRAMES p)).mirrored = s.mirrored := by
  unfold State.mirrored State.role
  rw [State.inc_rd (by unfold K.TWIN_ROLE K.RX_FRAMES; omega), State.inc_rd (by unfold K.TWIN_PARTNER_ROLE K.RX_FRAMES; omega)]

/-- A STREAM_DATA frame of a session, on a part that mirrors nothing (R109). -/
theorem State.streamData_taken {e off : Nat} {data : List Byte} (he : e < 64) (hp : m.port.val < 2)
    (hf : s.frameOk m.port.val m.frame = true) (hv : m.version = 1) (hl : m.length.toNat = 8 + data.length) (h1 : 1 ≤ data.length)
    (h2 : data.length ≤ 1476) (hfit : msgFits m = true) (hcl : msgClean m = true) (hq : m.seq = 0)
    (hs : s.session m.session.toNat = some ss) (hm : s.mirrored = false) :
    s.streamData m e off data = ((s.updSession ss.num fun x => { x with lastTick := s.tm.tick, lastPort := m.port.val }).inc
      (K.RX_FRAMES m.port.val)).streamFrame ss.num m.port.val e off data := by
  have hm' : ((s.updSession ss.num fun x => { x with lastTick := s.tm.tick, lastPort := m.port.val }).inc
      (K.RX_FRAMES m.port.val)).mirrored = false := (State.inc_rx_mirrored m.port.isLt).trans hm
  unfold State.streamData
  dsimp only
  rw [if_neg (by simp [hf, hv, hl, h1, h2, hfit, hcl, hq]; omega), hs]
  dsimp only
  rw [if_neg (by omega), State.mirrorMemory, hm', if_neg (by decide)]

/-- Settles O37: an open and an abort by their write, a frame by `streamData_taken`, an end and a timeout by their conditions. -/
theorem streamCommandsComplete : Obligations.StreamCommandsComplete := by
  unfold Obligations.StreamCommandsComplete
  intro m ss s t e
  refine ⟨fun h hst hlen => writeCmd_carried h ?_, fun h hst => writeCmd_carried h (streamControlEff_abort hst),
    fun off data hdev hp hf hv hl h1 h2 hfit hcl hq hs hm => ?_, fun hdev hst hmark => ?_, fun since hdev hack hdue => ?_⟩
  · unfold streamControlEff
    dsimp only
    rw [if_pos rfl, if_neg (by simp [hst, hlen])]
  · have hbyte : (BitVec.ofNat 8 e.val).toNat = e.val := by
      rw [BitVec.toNat_ofNat]
      omega
    refine live_eq hdev ?_
    dsimp only
    rw [hbyte]
    exact State.streamData_taken e.isLt hp hf hv hl h1 h2 hfit hcl hq hs hm
  · refine live_eq hdev ?_
    unfold State.streamEnd
    dsimp only
    rw [if_neg (by simp [hst, hmark])]
    split <;> rfl
  · refine live_eq hdev ?_
    unfold State.ackTimeout
    dsimp only
    rw [hack]
    exact if_pos hdue

/-! The axis cycle -/

/-- CYCLIC_SEND of the next cycle, on a part whose drive ports send (R116). -/
theorem State.cyclicSend_sends (hen : s.rd K.CYCLIC_ENABLE ≠ 0) (hdue : s.cyc.nextTick ≤ s.tm.tick + 2500) (hports : s.drivesPorts = true)
    {k : Nat} {b : List Byte} {u v : State} (hk : k = (s.cyc.cycle + 1) % 2 ^ 32)
    (hb : b = s.draw.2.message 0x30 0 0 k (s.draw.2.cyclicBody (Config.unstated s.draw.1).toNat k))
    (hu : u = (s.draw.2.sendFrame 2 (toLE 6 (s.draw.2.rd K.CYCLIC_DEST)) b).txStamp 2 (k % 65536) 1)
    (hv : v = ((u.sendFrame 3 (toLE 6 (s.draw.2.rd K.CYCLIC_DEST)) b).txStamp 3 (k % 65536) 1).inc K.CYCLIC_COUNT) :
    s.cyclicSend = { v with cyc := { v.cyc with cycle := k, nextTick := v.cyc.nextTick + 5000, replied := [] } } := by
  unfold State.cyclicSend
  rw [if_neg (by omega), hports]
  subst hk hb hu hv
  rfl

theorem State.cyclicReply_onTime {cycle node status actual digest : Nat} (hp : 2 ≤ m.port.val) (hf : s.frameOk m.port.val m.frame = true)
    (hv : m.version = 1) (hl : m.length = 24) (hfit : msgFits m = true) (hcl : msgClean m = true) (hst : status % 16 = 0)
    (hslots : s.slotsWith node ≠ []) (ht : t = s.inc (K.RX_FRAMES m.port.val)) (hen : t.rd K.CYCLIC_ENABLE = 1) (hc : t.cyc.cycle ≠ 0)
    (hcycle : cycle = t.cyc.cycle) (hdue : t.tm.tick ≤ t.cycleTick + t.rd K.CYCLIC_REPLY_WINDOW) :
    s.cyclicReply m cycle node status actual digest =
      (s.slotsWith node).foldl (fun (s : State) j => s.slotReply j status actual digest) t := by
  unfold State.cyclicReply
  dsimp only
  rw [if_neg (by simp [hp, hf, hv, hl, hfit, hcl, hst, hslots]), ← ht]
  exact if_pos (by simp [hen, hc, hcycle, hdue])

/-- Settles O38: the writes of CYCLIC_ENABLE by their branches, the frame and the reply by their equations. -/
theorem cyclicCommandsComplete : Obligations.CyclicCommandsComplete := by
  unfold Obligations.CyclicCommandsComplete
  intro m ss s t
  refine ⟨fun h hoff u hu => writeCmd_carried h ?_, fun h hon => writeCmd_carried h ?_,
    fun hdev hen hdue hports k b u v hk hb hu hv => live_eq hdev (State.cyclicSend_sends hen hdue hports hk hb hu hv),
    fun cycle node status error actual digest hdev hp hf hv hl hfit hcl hst hslots ht hen hc hcycle hdue => ?_, fun j hdev hrun => ?_⟩
  · unfold cyclicEnableEff
    rw [hoff, if_neg (by decide), hu]
    exact if_neg (by decide)
  · unfold cyclicEnableEff
    rw [if_neg (fun h => hon (by rw [← h]; rfl))]
    exact if_pos rfl
  · exact live_eq hdev (State.cyclicReply_onTime hp hf hv hl hfit hcl hst hslots ht hen hc hcycle hdue)
  · refine live_eq hdev ?_
    unfold State.driveSilent
    exact if_neg (not_not_intro hrun)

end Sys2Proof.Machine
end

section
/-! PROOFS. The rows of memory translation and transfer complete (R121 to R139). -/

namespace Sys2Proof.Machine

variable {m : Msg} {ss : Session} {s t u v : State} {tc : Nat}

/-- TC_MAP of pages that are free, with tables to spare (R124). -/
theorem tcMapEff_maps {req jp pp count : Nat} (hjp : jp = bits req 23 0) (hpp : pp = bits req 63 32) (hcount : count = bits req 95 64)
    (h0 : count ≠ 0) (hmax : count ≤ 4096) (hj : jp + count ≤ 2 ^ 24) (hp : pp + count ≤ 261120)
    (hfree : ((List.range count).any fun i => (s.page tc (jp + i)).isSome) = false) (htab : s.tablesNeeded tc jp count ≤ s.rd K.TABLE_FREE)
    (hu : u = mapPages tc jp pp (req.testBit 96) count
      (((List.range ((jp + count - 1) / 4096 + 1 - jp / 4096)).map fun i => jp / 4096 + i).foldl (fun (s : State) q => s.takeTable tc q) s))
    (hv : v = (u.wr (K.TC_MAPPED_PAGES tc) (u.rd (K.TC_MAPPED_PAGES tc) + count)).holdTwin tc) :
    tcMapEff tc req s = (Ans.ok, (if tc = 57 then v.startJournal else v).autoResume tc jp count) := by
  unfold tcMapEff
  dsimp only
  rw [← hjp, ← hpp, ← hcount, if_neg (by omega), hfree, if_neg (by simp; omega), ← hu, ← hv]

theorem tcUnmapEff_unmaps {req jp count : Nat} (hjp : jp = bits req 23 0) (hcount : count = bits req 63 32) (h0 : count ≠ 0)
    (hmax : count ≤ 4096) (hj : jp + count ≤ 2 ^ 24)
    (hpages : ∀ i < count, ∃ p : Page, s.page tc (jp + i) = some p ∧ p.unmap = false) :
    tcUnmapEff tc req s = (Ans.ok, unmapPages tc jp count s) := by
  unfold tcUnmapEff
  dsimp only
  rw [← hjp, ← hcount, if_neg (by omega)]
  refine if_neg ?_
  rintro (h | h)
  · omega
  · obtain ⟨i, hi, hmatch⟩ := List.any_eq_true.mp h
    obtain ⟨p, hp, hun⟩ := hpages i (List.mem_range.mp hi)
    rw [hp] at hmatch
    rw [show p.unmap = true from hmatch] at hun
    cases hun

/-- The context that wins a beat (R128). -/
theorem State.dmaBeat_won {waiting : List (Fin 192)} {w : Nat} (hu : u = s.resumeDue)
    (hw : u.arbWinner ((waiting.map (·.val)).filter fun tc => u.rd (K.TC_STATE tc) != 2) = some w) :
    s.dmaBeat waiting = if u.rd (K.TC_STATE w) = 1 then u.jobBeat w else u.countBeats w 1 := by
  subst hu
  unfold State.dmaBeat
  dsimp only
  rw [hw]

/-- A page of the window of a channel that runs is pinned where it is not yet (R133). -/
theorem State.pinChord_pins {n jp : Nat} (hmem : (s.chan n).member = true) (hreach : (s.chan n).reached = false)
    (hrun : s.rd (K.BC_STATE n) = Bc.run) (hjp : (s.window n 1048576).1.find? (fun jp => !(s.tc n).window.contains jp) = some jp) :
    s.pinChord n = (s.setTc n { s.tc n with
      window := ascending ((s.tc n).window ++ [jp]), shortAt := (s.tc n).shortAt.filter (· != jp) }).pin n jp := by
  unfold State.pinChord
  dsimp only
  rw [hmem, hreach, if_neg (by simp [hrun]), hjp]

theorem clearingRead_taken {key len : Nat} (h : Taken m ss s t) (hl : m.length.toNat = 4) :
    clearingRead m key len s = (t.wr key 0).answered m ss 0x10 key Ans.ok (toLE len (t.rd key)) :=
  hostCmd_gives h (by rw [hl]; rfl) (a := (Ans.ok, toLE len (t.rd key))) rfl

/-- Settles O39: the writes by `tcMapEff_maps`, `tcUnmapEff_unmaps` and the branches of TC_RESUME; a beat by the job of its winner
(`dmaBeat_won`). -/
theorem memoryCommandsComplete : Obligations.MemoryCommandsComplete := by
  unfold Obligations.MemoryCommandsComplete
  intro m ss s t tc
  refine ⟨fun req jp pp count u v h hjp hpp hc h0 hmax hj hp hfree htab hu hv =>
      writeCmd_carried h (tcMapEff_maps hjp hpp hc h0 hmax hj hp hfree htab hu hv),
    fun req jp count h hjp hc h0 hmax hj hpages => writeCmd_carried h (tcUnmapEff_unmaps hjp hc h0 hmax hj hpages),
    fun h hst hfault => writeCmd_carried h ?_, fun h hst htc => writeCmd_carried h ?_,
    fun waiting u w hdev hu hw hst => live_eq hdev ((State.dmaBeat_won hu hw).trans (if_neg hst)),
    fun waiting u w addr data hdev hu hw hst hjob hfault hlock =>
      live_eq hdev ((State.dmaBeat_won hu hw).trans ((if_pos hst).trans ?_)),
    fun waiting u w addr kind data hdev hu hw hst hjob hfault =>
      live_eq hdev ((State.dmaBeat_won hu hw).trans ((if_pos hst).trans ?_)),
    fun hdev hwin => live_eq hdev (if_neg (not_not_intro hwin)), fun w hdev => live_eq hdev rfl,
    fun n jp hn hdev hmem hreach hrun hjp => ?_, fun h hl => live_eq h.2.1 (clearingRead_taken h hl)⟩
  · unfold tcResumeWriteEff tcResumeEff
    rw [if_pos rfl, if_neg (not_not_intro hst), hfault]
    rfl
  · unfold tcResumeWriteEff tcAbortEff
    rw [if_neg (by decide), if_neg (not_not_intro hst), if_neg (by simp; omega)]
  · unfold State.jobBeat
    rw [hjob]
    dsimp only
    rw [hfault]
    dsimp only
    rw [hlock]
  · unfold State.jobBeat
    rw [hjob]
    dsimp only
    rw [hfault]
  · have hval : (Fin.ofNat 32 n).val = n := Nat.mod_eq_of_lt (by omega)
    refine live_eq hdev ?_
    unfold State.windowPin
    dsimp only
    rw [hval, if_pos hn]
    exact State.pinChord_pins hmem hreach hrun hjp

end Sys2Proof.Machine
end

section
/-! PROOFS. The rows of the layer's life (R22 to R29) and of sample instants (R30, R145, R183 to R225) complete. -/

namespace Sys2Proof.Machine

variable {m : Msg} {ss : Session} {s t u v : State} {n : Nat}

/-! The layer's life -/

/-- A commit of the next layer whose descriptor is in order (R23, R24). -/
theorem layerCommitEff_commits {bytes : List Byte} (hpend : s.rd K.LAYER_PENDING = 0) (hn : n = successor (s.rd K.LAYER_NUMBER))
    (hfault : s.rd K.PWR_ORDER_FAULT ≠ 1) (hmeas : s.rd K.CAL_MEAS_STATE = 0)
    (hread : s.readMem (s.rd K.LAYER_DESC_TC) (s.rd K.LAYER_DESC_ADDR) 256 = some bytes) (hok : descOk n bytes = true) :
    layerCommitEff n s = (Ans.ok, ({ s with layer :=
      { s.layer with pend := some (descOf (leNat bytes)), startAt := s.tm.tick + 1 } } : State).wr K.LAYER_PENDING n) := by
  unfold layerCommitEff
  rw [if_neg (by simp [hpend, hn, hfault, hmeas]), hread]
  dsimp only
  rw [hok, if_neg (by decide)]

theorem State.layerStart_due {d : Desc} (hd : s.layer.pend = some d) (hdue : s.startDue = true) : s.layerStart =
    if s.startBlocked then (if s.phase = Phase.held then s else s.setPhase Phase.held)
    else (((List.range 16).foldl (fun (s : State) n => s.startChan d n) ((s.setPhase Phase.recoat).startNumbers d)).startBlade.startMove
      d).syncDone := by
  unfold State.layerStart
  rw [hd]
  dsimp only
  rw [hdue, if_neg (by decide)]

/-- The last head table of a change of tables is switched (R467). -/
theorem State.headSwitch_last {e : Nat × Nat × CalRec} (hs : s.cal.switches = [e]) (hn : e.2.1 % 256 = n)
    (hend : s.cal.switchEnd ≤ s.tm.tick) (hu : u = (s.putInForce e.1 e.2.1 e.2.2).headEntries n (e.2.1 / 256) e.2.2.payload)
    (hv : v = u.setChan n { u.chan n with tableHold := none }) :
    s.headSwitch n = State.installRest { v with cal := { v.cal with switches := [] } } := by
  unfold State.headSwitch
  rw [hs]
  dsimp only
  rw [if_neg (by omega), ← hu, ← hv]
  rfl

theorem State.idleCloseRun_due {due : Nat} (hidle : s.layer.idleDue = some due) (hdue : due ≤ s.tm.tick) (hphase : s.phase = Phase.idle)
    (hu : u = ({ s with layer := { s.layer with idleDue := none } } : State).setPhase Phase.close) :
    s.idleCloseRun = State.closeGo 8 { u with layer := { u.layer with closeStep := 1, idleClose := true } } := by
  unfold State.idleCloseRun
  rw [hidle]
  dsimp only
  rw [if_neg (by omega)]
  refine (if_pos hphase).trans ?_
  rw [hu]

/-- Settles O40: each row meets its condition; a start by `layerStart_due`, a switch by `headSwitch_last`. -/
theorem layerCommandsComplete : Obligations.LayerCommandsComplete := by
  unfold Obligations.LayerCommandsComplete
  intro m ss s t n d
  refine ⟨fun bytes h hpend hn hfault hmeas hread hok =>
      writeCmd_carried h (layerCommitEff_commits hpend hn hfault hmeas hread hok),
    fun h hphase hpend => writeCmd_carried h (if_neg (by simp [hphase, hpend])),
    fun hdev hd hdue hfree u hu => live_eq hdev ((State.layerStart_due hd hdue).trans ?_),
    fun hdev hd hdue hblocked hphase => live_eq hdev ((State.layerStart_due hd hdue).trans ?_),
    fun hdev hready u hu => live_eq hdev ?_, fun hdev hphase hover => live_eq hdev (if_pos ⟨hphase, hover⟩),
    fun k e hdev hs hk hend u hu v hv => live_eq hdev (State.headSwitch_last hs hk hend hu hv),
    fun due u hdev hidle hdue hphase hu => live_eq hdev (State.idleCloseRun_due hidle hdue hphase hu)⟩
  · rw [hfree, if_neg (by decide), hu]
  · rw [hblocked, if_pos rfl, if_neg hphase]
  · unfold State.repairStart
    dsimp only
    rw [hready, if_neg (by decide), hu]

/-! Sample instants -/

theorem State.dwellForced_due {d : Cand} {since : Nat} {x : Chord × Option Cursor} (hc : (s.chan n).cand = some d)
    (hx : d.chords.head? = some x) (hd : d.dwellSince = some since) (hf : d.forced = false)
    (hdue : since + x.1.par.dwellTimeout ≤ s.tm.tick) (hrun : s.rd (K.BC_STATE n) = Bc.run) :
    s.dwellForced n = (s.setChan n { s.chan n with cand := some { d with forced := true } }).countForced n x.1.addr := by
  unfold State.dwellForced
  rw [hc]
  dsimp only
  rw [hd, hx]
  dsimp only [Option.map_some, Option.getD_some]
  rw [if_neg (by simp [hf, hrun]; omega)]

theorem State.servoSample_bad {x y z : Int} {sample status fault : Nat} {aux : List Int} (hup : s.laneUp n = true)
    (hst : status % 2048 ≠ 0) : s.servoSample n x y z sample status fault aux = s.badFrame n := by
  unfold State.servoSample
  rw [hup, if_neg (by decide), if_pos hst]

theorem State.servoSample_good {x y z : Int} {sample status fault : Nat} {aux : List Int} (hup : s.laneUp n = true)
    (hst : status % 2048 = 0) : s.servoSample n x y z sample status fault aux =
      (((s.rxFrame n).servoFeed n x y z sample status aux).servoCounts n sample status).servoFault n (s.chan n).headStatus status
        fault := by
  unfold State.servoSample
  rw [hup, if_neg (by decide), if_neg (not_not_intro hst)]

theorem State.lat_rd (l : Lattice) (k : Nat) : ({ s with lat := l } : State).rd k = s.rd k := rfl

theorem State.lat_latOn (l : Lattice) : ({ s with lat := l } : State).latOn = s.latOn := by
  unfold State.latOn State.latReads
  simp only [State.lat_rd]

/-- The deposits that are due, on a lattice that is on (R258 to R260). -/
theorem State.latticeDeposit_due (hin : s.inSample = 380) (hon : s.latOn = true) (hcut : s.rd K.DT_CUTOFF = 0)
    (hu : u = { s with lat :=
      { s.lat with waiting := s.lat.waiting.filter (fun w => !decide (w.inst ≤ s.tm.tick - 380)), applied := s.tm.tick - 380 } }) :
    s.latticeDeposit = ((s.lat.waiting.filter fun w => decide (w.inst ≤ s.tm.tick - 380)).foldl (fun (s : State) w => s.latApply w)
      u).tellDeposits s.lat.cells (s.tm.tick - 380) := by
  have hcond : ¬ ((!u.latOn) = true ∨ u.rd K.DT_CUTOFF = 1) := by
    rw [hu, State.lat_latOn, State.lat_rd, hon, hcut]
    decide
  unfold State.latticeDeposit
  rw [if_neg (not_not_intro hin)]
  dsimp only
  rw [← hu, if_neg hcond, hu]

/-- Settles O41: each row at its sample instant meets its condition. -/
theorem sampleCommandsComplete : Obligations.SampleCommandsComplete := by
  unfold Obligations.SampleCommandsComplete
  intro s n hdev
  refine ⟨fun hin hrole => live_eq hdev (if_neg ?_),
    fun d since x hc hx hd hf hdue hrun => live_eq hdev (State.dwellForced_due hc hx hd hf hdue hrun),
    fun hin => live_eq hdev (if_neg (not_not_intro hin)),
    fun x y z sample status fault aux hup hst => live_eq hdev (State.servoSample_bad hup hst),
    fun x y z sample status fault aux hup hst => live_eq hdev (State.servoSample_good hup hst),
    fun hin => live_eq hdev (if_neg (not_not_intro hin)),
    fun u hin hon hcut hu => ⟨_, rfl, live_eq hdev (State.latticeDeposit_due hin hon hcut hu)⟩,
    fun p rest hrun hb hahead hpass => live_eq hdev ?_, fun w hw hnext => live_eq hdev ?_,
    fun w w' lune items hw hnext => live_eq hdev ?_, fun _ => live_eq hdev rfl⟩
  · rcases hrole with h | h <;> simp [hin, h]
  · unfold State.chordComplete
    dsimp only
    rw [hrun]
    dsimp only
    rw [if_neg (by simp [hahead, hpass]; omega)]
    cases p.chord.shape <;> rfl
  · unfold State.uncoveredWalk
    dsimp only
    rw [hw]
    dsimp only
    rw [hnext]
  · unfold State.uncoveredWalk
    dsimp only
    rw [hw]
    dsimp only
    rw [hnext]

end Sys2Proof.Machine
end

section
/-! PROOFS. The commands of a chord program complete (R143 to R170): one that stands is decoded and has its effect. -/

namespace Sys2Proof.Machine

variable {s t u : State} {n op : Nat} {c : Cmd} {d : Chord}

/-- No breakpoint stops the sequencer at a command that it has already stopped at, or that none is set on (R513). -/
theorem State.breakOn_none {a : Nat} (h : (s.chan n).brokeAt = some a ∨ s.breaksAt n 1 (· == a) = []) : s.breakOn n [a] = s := by
  have hfind : ([a].find? fun a => (s.chan n).brokeAt != some a && !(s.breaksAt n 1 (· == a)).isEmpty) = none := by
    rw [List.find?_singleton]
    refine if_neg ?_
    rcases h with h | h <;> simp [h]
  unfold State.breakOn
  rw [hfind]

/-- A command that stands is decoded, and its effect happens. -/
theorem State.decodeAt_stands {eff : Cmd → Cursor → State → State} (h : Stands s n op c) : s.decodeAt n op eff = eff c (s.cursor n) s := by
  obtain ⟨-, hbreak, w, hw, hop, herr, hdec⟩ := h
  have hstay : (if w % 256 = op ∧ (s.chan n).haltAt.isNone then s.breakOn n [s.rd (K.CS_PC n)] else s) = s := by
    split
    next hc =>
      refine State.breakOn_none (hbreak.resolve_left fun hh => ?_)
      rw [Option.isNone_iff_eq_none.mp hc.2] at hh
      cases hh
    next => rfl
  unfold State.decodeAt
  rw [hw]
  dsimp only
  rw [hstay, hw, if_neg (by simp [hop]), herr]
  dsimp only
  rw [hdec]

theorem State.unlessStep_free {k : State → State} (h : (s.chan n).stepping = false) : s.unlessStep n k = k s := by
  unfold State.unlessStep
  rw [h]
  rfl

/-! Chords -/

/-- MARK, ARC and FACET are chords that are drawn in program order (R147 to R150). -/
theorem Stands.drawn {cur : Cursor} {par : Params} (h : Stands s n op c) (hop : op = Op.mark ∨ op = Op.arc ∨ op = Op.facet)
    (hd : c.chord cur par = some d) : d.isJump = false ∧ d.reorder = false := by
  obtain ⟨-, -, w, -, hw, -, hdec⟩ := h
  unfold decodeCmd at hdec
  rw [hw] at hdec
  rcases hop with rfl | rfl | rfl <;> cases hdec <;> cases hd <;> exact ⟨rfl, rfl⟩

theorem Stands.jump {cur : Cursor} {par : Params} (h : Stands s n Op.jump c) (hd : c.chord cur par = some d) : d.isJump = true := by
  obtain ⟨-, -, w, -, hw, -, hdec⟩ := h
  unfold decodeCmd at hdec
  rw [hw] at hdec
  cases hdec
  cases hd
  rfl

theorem TakesChord.free (h : TakesChord s n) : ¬ ((!(s.chan n).run.isEmpty) = true ∨ (s.chan n).cand.isSome = true ∨
    (s.chan n).offAt.isSome = true ∨ (s.chan n).haltAt.isSome = true) := by
  obtain ⟨hrun, hcand, hoff, hhalt⟩ := h
  simp [hrun, hcand, hoff, hhalt]

/-- A drawn chord becomes the candidate of a channel that may take it up (R145, R210). -/
theorem State.chordUp_drawn {cur : Cursor} (ht : TakesChord s n) (hd : c.chord cur (s.params n) = some d) (hjump : d.isJump = false)
    (hre : d.reorder = false) (hcur : cur = s.cursor n) : s.chordUp n c cur = s.withCandidate n d := by
  unfold State.chordUp State.withCandidate
  dsimp only
  rw [if_neg ht.free, hd]
  dsimp only
  rw [if_neg (by simp [hjump]), if_neg (by simp [hre]), hcur]

theorem State.decodeAt_drawn (h : Stands s n op c) (hop : op = Op.mark ∨ op = Op.arc ∨ op = Op.facet) (ht : TakesChord s n)
    (hd : c.chord (s.cursor n) (s.params n) = some d) : (s.decodeAt n op fun c cur s => s.chordUp n c cur) = s.withCandidate n d := by
  obtain ⟨hjump, hre⟩ := h.drawn hop hd
  rw [State.decodeAt_stands h, State.chordUp_drawn ht hd hjump hre rfl]

/-- A jump in program order is planned at once (R149). -/
theorem State.chordUp_jump {cur : Cursor} (ht : TakesChord s n) (hd : c.chord cur (s.params n) = some d) (hjump : d.isJump = true)
    (hre : d.reorder = false) (hphase : s.phase = Phase.expose) :
    s.chordUp n c cur = s.planJump n (max (s.chan n).notBefore (s.nextSample (s.tm.tick + 320))) (s.planFrom n).2.2 d (cur.skip 1)
      (s.chan n).decodes := by
  unfold State.chordUp
  dsimp only
  rw [if_neg ht.free, hd]
  dsimp only
  rw [if_pos (by simp [hjump, hre]), if_neg (by simp [hphase]), Nat.add_sub_cancel]

theorem State.floatCmd_posts {count lune : Nat} {body : List BodyCmd} {its : List Item} (h : Stands s n Op.float (.float count lune))
    (hb : s.fetchBody n ((s.cursor n).pc + 16) count = some body) (hfit : s.poolFits count = true)
    (hits : its = bodyItems (s.cursor n).ox (s.cursor n).oy n body) (hu : u = (s.post lune its).bump 32 (K.CS_POSTED n) its.length) :
    s.floatCmd n = (u.countBeats n (((s.cursor n).pc % 64 + 16 * count) / 64)).passCmd n ((s.cursor n).skip (count + 1)) := by
  unfold State.floatCmd
  rw [State.decodeAt_stands h]
  dsimp only
  rw [hb]
  dsimp only
  rw [if_pos hfit, hu, hits]

theorem State.postingRelease_later {count lune : Nat} (hwait : (s.chan n).wait = .posting) (hrun : s.rd (K.BC_STATE n) = Bc.run)
    (hcmd : (s.readNum n (s.rd (K.CS_PC n)) 16).bind decodeCmd = some (.float count lune)) (hfit : s.poolFits count = true)
    (hbusy : (s.chan n).run ≠ []) : s.postingRelease n = s.setChan n { s.chan n with released := some s.tm.tick } := by
  unfold State.postingRelease
  dsimp only
  rw [if_neg (by simp [hwait, hrun]), hcmd]
  dsimp only
  rw [hfit, if_neg (by decide), if_neg (by simpa using hbusy)]

/-- Setting a channel, then an entry: the channel reads as set. -/
theorem State.chan_wr_setChan (s : State) (n k v : Nat) (c : Chan) : ((s.setChan n c).wr k v).chan n = c :=
  (State.chan_setChan s n n c).trans (if_pos rfl)

theorem State.claimCmd_waits {limit lune : Nat} {any : Bool} (h : Stands s n Op.claim (.claim limit lune any))
    (hstep : (s.chan n).stepping = false) (hahead : s.aheadOf n = false) (href : (s.chan n).refused = none)
    (hu : u = (s.setChan n { s.chan n with wait := .claiming any lune limit 0 }).wr (K.CS_ACTIVITY n) 3) :
    s.claimCmd n = if (u.chan n).run.isEmpty ∧ !u.anyItem n any lune then u.claimEmpty n else u := by
  have hchan : (u.chan n).refused = none := by rw [hu, State.chan_wr_setChan, href]
  have hdue : u.refusedDue n = false := by
    unfold State.refusedDue
    dsimp only
    rw [hchan]
    simp
  unfold State.claimCmd
  rw [State.decodeAt_stands h]
  dsimp only
  rw [State.unlessStep_free hstep, hahead, if_neg (by decide), ← hu, hdue, if_neg (by decide), hchan]
  simp only [Option.isNone_none, true_and]

/-- Settles O42: a chord that stands is decoded (`decodeAt_stands`) and taken up. -/
theorem chordCommandsComplete : Obligations.ChordCommandsComplete := by
  unfold Obligations.ChordCommandsComplete
  intro s n c d
  refine ⟨fun h ht hd => live_eq h.1 (State.decodeAt_drawn h (.inl rfl) ht hd),
    fun h ht hd => live_eq h.1 (State.decodeAt_drawn h (.inr (.inl rfl)) ht hd),
    fun h ht hd => live_eq h.1 (State.decodeAt_drawn h (.inr (.inr rfl)) ht hd),
    fun h ht hd hre hphase => live_eq h.1 ((State.decodeAt_stands h).trans (State.chordUp_jump ht hd (h.jump hd) hre hphase)),
    fun count lune body its u h hb hfit hits hu => live_eq h.1 (State.floatCmd_posts h hb hfit hits hu),
    fun count lune hdev hwait hrun hcmd hfit hbusy => live_eq hdev (State.postingRelease_later hwait hrun hcmd hfit hbusy),
    fun limit lune any u h hstep hahead href hu => live_eq h.1 (State.claimCmd_waits h hstep hahead href hu)⟩

end Sys2Proof.Machine
end

section
/-! PROOFS. The other commands of a program (R156 to R170) do not all complete as stated: a BARRIER whose number another channel waits at
with another mask does not wait (R159). The statement's condition on the other channels is about `m < 16` in `Fin 16`, where 16 is 0,
so that no channel is meant. -/

namespace Sys2Proof.Machine

variable {s : State}

/-- Trying the barriers wakes sequencers. -/
theorem State.barrierTry_woken : Woken s s.barrierTry := by
  refine Woken.foldl Woken.refl fun t n _ => ?_
  split
  · dsimp only
    split
    · exact Woken.refl.foldl fun u m hm => State.wake_woken (List.mem_range.mp (List.mem_filter.mp hm).1) _
    · exact Woken.refl
  · exact Woken.refl

/-- Channels 0 and 1 of a running device are in RUN; channel 1 waits at barrier 5 with a mask of itself. -/
def barrierWaiting : State :=
  { State.reset with
    od := [(K.BC_STATE 0, Bc.run), (K.BC_STATE 1, Bc.run)]
    dev := .running
    mem := { State.reset.mem with pages := [(pageKey 0 0, some { phys := 0, write := false, pins := 0, unmap := false })] }
    chans := [(0, { Chan.init with member := true }), (1, { Chan.init with wait := .barrier 5 2 false })] }

/-- Channel 0 stands at a BARRIER of the same number, with a mask of itself. -/
def barrierClash : State := barrierWaiting.writeMem 0 0 (toLE 16 (1 <<< 48 ||| 5 <<< 16 ||| 0x12))

theorem barrierClash_stands : Stands barrierClash ((0 : Fin 16) : Nat) Op.barrier (.barrier 1 5 false) :=
  ⟨rfl, .inr (.inr (by decide)), 1 <<< 48 ||| 5 <<< 16 ||| 0x12, by decide⟩

theorem barrierClash_free : (barrierClash.chan ((0 : Fin 16) : Nat)).stepping = false := by decide

/-- The channels that wait at barrier `id` with another mask than a BARRIER of channel `n` (R159). -/
def State.barrierClashes (s : State) (n mask id : Nat) : List Nat :=
  (others n).filter fun m => (s.rd (K.BC_STATE m) == Bc.run || s.rd (K.BC_STATE m) == Bc.hold) && (s.chan m).released.isNone &&
    (match (s.chan m).wait with
     | .barrier i k _ => i == id && k != mask
     | _ => false)

theorem State.setBc_state (n st : Nat) (hn : n < 16) : (s.setBc n st).rd (K.BC_STATE n) = st := by
  unfold State.setBc
  rw [(State.raise_raised ..).rd _ (not_eventKey_of_lt (by unfold K.BC_STATE; omega) (by unfold K.BC_STATE; omega)),
    State.wrs_pair_rd (by unfold K.BC_STATE K.BC_STATE_STAMP; omega)]

/-- A BARRIER that another channel waits at with another mask puts its channel in HOLD (R159). -/
theorem State.barrierCmd_clash {n mask id : Nat} {serve : Bool} (hn : n < 16) (h : Stands s n Op.barrier (.barrier mask id serve))
    (hstep : (s.chan n).stepping = false) (hclash : s.barrierClashes n mask id ≠ []) :
    (s.barrierCmd n).settle.rd (K.BC_STATE n) = Bc.hold := by
  have hcmd : s.barrierCmd n = ((s.barrierClashes n mask id).foldl (fun s m => s.mismatch m) s).holdSeq n 5 := by
    unfold State.barrierCmd
    rw [State.decodeAt_stands h]
    dsimp only
    rw [State.unlessStep_free hstep]
    exact if_neg fun he => hclash (List.isEmpty_iff.mp he)
  rw [State.settle_rd beamState_not_deliveryKey, hcmd]
  exact State.setBc_state _ _ hn

theorem barrierClash_clashes : barrierClash.barrierClashes ((0 : Fin 16) : Nat) 1 5 ≠ [] := by
  have hstate : barrierClash.rd (K.BC_STATE 1) = Bc.run :=
    (State.writeMem_rd ..).trans (by simp [barrierWaiting, State.rd, Tab.get, K.BC_STATE])
  refine List.ne_nil_of_mem (a := 1) (List.mem_filter.mpr ⟨by decide, ?_⟩)
  rw [hstate]
  rfl

theorem barrierWaiting_runs : barrierWaiting.rd (K.BC_STATE ((0 : Fin 16) : Nat)) = Bc.run := by
  simp [barrierWaiting, State.rd, Tab.get, K.BC_STATE]

theorem barrierClash_runs : barrierClash.rd (K.BC_STATE ((0 : Fin 16) : Nat)) = Bc.run := (State.writeMem_rd ..).trans barrierWaiting_runs

/-- A channel that had begun to wait would still run. -/
theorem State.barrierTry_settle_beamState {n : Nat} (c : Chan) :
    ((s.setChan n c).wr (K.CS_ACTIVITY n) 6).barrierTry.settle.rd (K.BC_STATE n) = s.rd (K.BC_STATE n) := by
  rw [State.settle_rd beamState_not_deliveryKey, State.barrierTry_woken.rd _ beamState_not_deliveryKey]
  exact State.rd_wr_other _ _ (by unfold K.BC_STATE K.CS_ACTIVITY; omega)

/-- Refutes O43: at `barrierClash` channel 0 goes to HOLD (R159), where the statement lets it wait in RUN. -/
theorem not_sequencerCommandsComplete : ¬ Obligations.SequencerCommandsComplete := by
  unfold Obligations.SequencerCommandsComplete
  intro h
  obtain ⟨-, -, -, -, hbarrier, -⟩ := h barrierClash 0
  have hwaits := hbarrier 1 5 false barrierClash_stands barrierClash_free fun m hm => absurd hm (Fin.not_lt_zero m)
  have hholds := State.barrierCmd_clash (by decide) barrierClash_stands barrierClash_free barrierClash_clashes
  rw [Host.Outcome.next.inj ((live_eq barrierClash_stands.1 rfl).symm.trans hwaits), State.barrierTry_settle_beamState,
    barrierClash_runs] at hholds
  cases hholds

end Sys2Proof.Machine
end

section
/-! PROOFS. The commands to a channel (R171, R195, R196) and the rows of lunes, of the blade and of facet slots (R203 to R249) complete. -/

namespace Sys2Proof.Machine

variable {m : Msg} {ss : Session} {s t u v w : State} {n : Nat}

/-! Commands to a channel -/

theorem csResumeEff_goes (hst : s.rd (K.BC_STATE n) = Bc.hold) (h2 : 2 ≤ s.rd (K.CS_HOLD_CAUSE n)) (h5 : s.rd (K.CS_HOLD_CAUSE n) ≤ 5) :
    csResumeEff n s = (Ans.ok, State.goOn (if s.rd (K.CS_HOLD_CAUSE n) = 3 then s.moveTo n ((s.cursor n).skip 1) else s) n) := by
  unfold csResumeEff
  exact if_neg (by simp only [hst]; omega)

/-- A skip of a word that no command decodes passes that one word (R171). -/
theorem csSkipEff_passes (hst : s.rd (K.BC_STATE n) = Bc.hold) (hcause : s.rd (K.CS_HOLD_CAUSE n) = 2 ∨ s.rd (K.CS_HOLD_CAUSE n) = 4)
    (hwait : (s.chan n).wait = .none) (hcmd : (s.readNum n (s.rd (K.CS_PC n)) 16).bind decodeCmd = none) :
    csSkipEff n s = (Ans.ok, (s.moveTo n ((s.cursor n).skip 1)).goOn n) := by
  unfold csSkipEff
  dsimp only
  rw [if_neg (by simp only [hst]; omega), if_neg (not_not_intro hwait), hcmd]
  rfl

theorem offEff_idle (h : s.rd (K.BC_STATE n) ≠ Bc.run) : offEff n s = (Ans.ok, s.chanOff n) := if_neg fun hbusy => h hbusy.1

/-- Settles O44: each command meets the condition of its row. -/
theorem channelCommandsComplete : Obligations.ChannelCommandsComplete := by
  unfold Obligations.ChannelCommandsComplete
  intro m ss s t n
  refine ⟨fun h hst h2 h5 => writeCmd_carried h ((if_pos rfl).trans (csResumeEff_goes hst h2 h5)),
    fun h hst hcause hwait hcmd => writeCmd_carried h ((if_neg (by decide)).trans (csSkipEff_passes hst hcause hwait hcmd)),
    fun h hok u hu => writeCmd_carried h ((if_pos rfl).trans ?_),
    fun h hst => writeCmd_carried h ((if_neg (by decide)).trans (offEff_idle hst)),
    fun h hst hany => writeCmd_carried h ((if_neg (by decide)).trans (if_pos ⟨hst, hany⟩))⟩
  unfold armEff
  rw [hok, if_neg (by decide), hu]

/-! Lunes, the blade and facet slots -/

theorem luneEnableEff_enables {l : Nat} (h3 : 3 ≤ s.rd (K.LUNE_VERTICES l)) (h16 : s.rd (K.LUNE_VERTICES l) ≤ 16)
    (hzero : s.rd (K.LUNE_POLYGON l) / 2 ^ (64 * s.rd (K.LUNE_VERTICES l)) = 0) (hconvex : strictlyConvex (s.lunePoly l) = true)
    (hel : s.rd (K.LUNE_ELIGIBLE l) ≠ 0) (hu : u = (s.wr (K.LUNE_ENABLE l) 1).syncMasks) :
    luneEnableEff l 1 s = (Ans.ok, u.wr (K.LUNE_LIVE l) (u.liveMask l)) := by
  unfold luneEnableEff
  rw [if_pos rfl]
  dsimp only
  rw [if_neg (by simp only [hzero, hconvex, hel, ne_eq, not_true_eq_false, Bool.not_true, Bool.false_eq_true, or_false]; omega), hu]

theorem lunePostEff_posts {l v : Nat} {body : List BodyCmd} (hphase : s.phase = Phase.recoat ∨ s.phase = Phase.expose)
    (hlive : s.liveMask l ≠ 0) (hcount : s.rd (K.LUNE_POST_COUNT l) ≠ 0)
    (hread : s.readBody (s.rd (K.LUNE_POST_TC l)) (s.rd (K.LUNE_POST_ADDR l)) (s.rd (K.LUNE_POST_COUNT l)) = some body)
    (herr : s.bodyErrors l 0 0 16 body = []) (hfits : s.poolFits (s.rd (K.LUNE_POST_COUNT l)) = true) :
    lunePostEff l v s = (Ans.ok, s.post l (bodyItems 0 0 16 body)) := by
  have hlate : ¬ (s.phase ≠ Phase.recoat ∧ s.phase ≠ Phase.expose) := fun h => hphase.elim h.1 h.2
  unfold lunePostEff
  dsimp only
  rw [if_neg (by simp only [hlate, hlive, hcount, or_false, not_false_eq_true]), hread]
  dsimp only
  rw [if_neg (by simp [herr, hfits])]

/-- The latch of an axis's RCSYNC entry leaves the layer's phase. -/
theorem State.wrS_latch_phase (k w : Nat) (v : Int) : (s.wrS w (K.AX_RCSYNC_LATCH k) v).phase = s.phase :=
  State.rd_wr_other _ _ (by unfold K.LAYER_PHASE K.AX_RCSYNC_LATCH; omega)

/-- The first RCSYNC of a recoat, within its window and not behind the reference, aligns the blade (R218). -/
theorem State.rcsync_aligns {delay k : Nat} {latch p ref : Int} (hphase : s.phase = Phase.recoat)
    (hstart : s.layer.startAt ≤ s.tm.tick - delay) (hseen : s.layer.rcSeen = false) (hk : k = s.rd K.BED_BLADE_AXIS)
    (hlatch : latch = s.latchAtTick k (s.tm.tick - delay))
    (hfault : (s.wrS 64 (K.AX_RCSYNC_LATCH k) latch).faultAt k (s.tm.tick - delay) = false)
    (hu : u = (s.wrS 64 (K.AX_RCSYNC_LATCH k) latch).raiseAt (s.tm.tick - delay) (srcAxis k) 0x00C7 4 k (uns 64 latch) [] false)
    (hp : p = u.scaled k latch) (href : ref = u.rdS 32 K.BED_BLADE_REF)
    (hwindow : (ref - u.bladeRaw p).natAbs ≤ u.rd K.BED_RCSYNC_WINDOW * 1000) (hahead : 0 ≤ ref - u.bladeRaw p)
    (hv : v = { u with layer := { u.layer with rcSeen := true, ps := p, aligned := true } })
    (hw : w = (v.wrS 32 K.BED_BLADE_POS ref).wrs [(K.BED_BLADE_STATE, 2), (K.BED_RCSYNC_CORR, uns 32 (ref - u.bladeRaw p))]) :
    s.rcsync delay = (w.stallFrom ref).bladeMotion k := by
  have hin : (s.wrS 64 (K.AX_RCSYNC_LATCH k) latch).phase = Phase.recoat := (State.wrS_latch_phase ..).trans hphase
  have hseen' : (s.wrS 64 (K.AX_RCSYNC_LATCH k) latch).layer.rcSeen = false := hseen
  have hmay : (s.wrS 64 (K.AX_RCSYNC_LATCH k) latch).phase = Phase.recoat ∧
      (s.wrS 64 (K.AX_RCSYNC_LATCH k) latch).layer.startAt ≤ s.tm.tick - delay := ⟨hin, hstart⟩
  have hclass : (if ((s.wrS 64 (K.AX_RCSYNC_LATCH k) latch).phase = Phase.recoat ∧
        (s.wrS 64 (K.AX_RCSYNC_LATCH k) latch).layer.startAt ≤ s.tm.tick - delay) ∧
      (s.wrS 64 (K.AX_RCSYNC_LATCH k) latch).layer.rcSeen = true ∧ (!false) = true then 6 else 4) = 4 := if_neg (by simp [hseen'])
  have hulayer : u.layer.rcSeen = false := by rw [hu, (State.raiseAt_raised ..).form]; exact hseen
  unfold State.rcsync
  dsimp only
  rw [← hk, ← hlatch, hfault, if_neg Bool.false_ne_true, hclass, ← hu, if_neg (by simp [hulayer, hmay]), ← hp, ← href]
  refine (if_pos hwindow).trans ((if_neg (by omega)).trans ?_)
  rw [hw, hv]

theorem State.recoatStall_held {d : Desc} (hcur : s.layer.cur = some d) (hphase : s.phase = Phase.recoat) (hst : s.rd K.BED_BLADE_STATE ≠ 3)
    (hloop : s.loopState d.recoatLoop = Lp.hold ∨ s.loopState d.recoatLoop = Lp.tripped) : s.recoatStall =
      (({ s with layer := { s.layer with before := s.rd K.BED_BLADE_STATE } } : State).wr K.BED_BLADE_STATE 3).raise
        (srcAxis (s.rd K.BED_BLADE_AXIS)) 0x00CC 3 (s.rd K.BED_BLADE_AXIS) (uns 32 (s.rdS 32 K.BED_BLADE_POS)) := by
  unfold State.recoatStall
  rw [hcur]
  dsimp only
  refine (if_neg ?_).trans rfl
  rcases hloop with h | h <;> simp [hphase, hst, h]

theorem recoatCommandEff_moves {d : Desc} {c : Nat} (hcur : s.layer.cur = some d) (hphase : s.phase = Phase.recoat)
    (hloop : s.loopState d.recoatLoop ≠ Lp.tripped) (hu : u = s.putSetpoint d.recoatLoop d.recoatTarget)
    (hv : v = if u.rd K.BED_BLADE_STATE = 3 then u.wr K.BED_BLADE_STATE u.layer.before else u) :
    recoatCommandEff c s = (Ans.ok, v.stallFrom (v.rdS 32 K.BED_BLADE_POS)) := by
  unfold recoatCommandEff
  rw [hcur]
  dsimp only
  rw [if_neg (by simp [hphase, hloop]), ← hu, ← hv]

theorem fxCommitEff_commits {slot x : Nat} {c : Commit}
    (hc : c = { num := (s.rd (K.FX_COMMITS n slot) + 1) % 2 ^ 32, tick := s.tm.tick,
                bases := (List.range 4).map (fun k => s.rd (K.FX_BASE n slot k)),
                maps := (List.range 4).map (fun k => s.rd (K.FX_MAP n slot k)), planes := s.rd (K.FX_PLANES n slot), pinned := [],
                state := 0, effectLayer := 0, effectPass := 0 })
    (hplanes : s.rd (K.FX_PLANES n slot) ≠ 0) (hpx : (s.facetGeo n slot).px ≤ 200 * (s.facetGeo n slot).t)
    (hperiod : s.rd (K.FX_HEAD_MIN_PERIOD n) ≤ (s.facetGeo n slot).t)
    (hranges : ((commitRanges (s.facetGeo n slot) c).any fun r => decide (2 ^ 40 < r.1 + r.2)) = false)
    (hpages : (commitPages (s.facetGeo n slot) c).length ≤ 256)
    (hu : u = (s.setCommits n slot (c :: s.commits n slot)).wrs [(K.FX_COMMITS n slot, c.num), (K.FX_STATE n slot,
      max 1 ((s.setCommits n slot (c :: s.commits n slot)).rd (K.FX_STATE n slot)))]) :
    fxCommitEff n slot x s = (Ans.ok, (((s.commits n slot).filter fun c => c.state == 0).foldl (fun (s : State) c =>
      (s.updCommit n slot c.num (fun c => { c with state := 2 })).dropPins n slot c.num) u).retire n slot) := by
  have hnum : c.num = (s.rd (K.FX_COMMITS n slot) + 1) % 2 ^ 32 := by rw [hc]
  unfold fxCommitEff
  dsimp only
  rw [← hc, hranges, if_neg (by simp only [hplanes, Bool.false_eq_true, false_or]; omega), hu, hnum]

theorem State.passBoundary_ends {p : Planned} {rest : List Planned} {q : Pass} (hrun : (s.chan n).run = p :: rest)
    (hpass : (s.chan n).pass = some q) (hb : q.boundary ≤ s.tm.tick) (hf : p.first ≤ s.tm.tick) (hst : s.rd (K.BC_STATE n) = Bc.run)
    (hrep : q.repair = none) : s.passBoundary n =
      if q.left = 0 then ((s.facetTick n).unholdLoop (48 + n) LpCause.underrun).releasePass n q.slot q.commit
      else ((s.facetTick n).unholdLoop (48 + n) LpCause.underrun).nextPass n p q := by
  unfold State.passBoundary
  dsimp only
  rw [hrun, hpass]
  dsimp only
  rw [if_neg (by simp only [hst, ne_eq, not_true_eq_false, or_false]; omega), hrep]
  rfl

theorem State.pinWaitRelease_pinned {d : Cand} {p : Pass} (hc : (s.chan n).cand = some d) (hp : (s.chan n).pass = some p)
    (hwait : d.pinWait = true) (hpin : p.pinned = false) (hall : s.passPinned n p = true) :
    s.pinWaitRelease n = s.setChan n { s.chan n with
      pass := some { p with pinned := true }, cand := some { d with earliest := s.nextSample (s.tm.tick + 320) } } := by
  unfold State.pinWaitRelease
  dsimp only
  rw [hc, hp]
  exact if_pos ⟨hwait, by simp [hpin], hall⟩

theorem State.repairDone_ends {p : Planned} {rest : List Planned} {q : Pass} {i : Nat} (hrun : (s.chan n).run = p :: rest)
    (hpass : (s.chan n).pass = some q) (hrep : q.repair = some i) (hb : p.boundary ≤ s.tm.tick) (hst : s.rd (K.BC_STATE n) = Bc.run)
    (hu : u = s.unholdLoop (48 + n) LpCause.underrun)
    (hv : v = (if q.under.isSome then u.failRepair n i q.passNo
      else ((u.bump 8 (K.RP_DONE n) 1).raise (srcFacet n) 0x0044 4 n q.passNo).endRepair n i).finishHead n)
    (hw : w = v.wr (K.RP_STATE n) (if (v.chan n).repairs.length ≤ i + 1 then 3 else 1)) :
    s.repairDone n = ((w.retire n q.slot).syncSlots n).boundaryStops n p.boundary true := by
  unfold State.repairDone
  dsimp only
  rw [hrun, hpass]
  dsimp only
  rw [hrep]
  dsimp only
  rw [if_neg (by simp only [hst, ne_eq, not_true_eq_false, or_false]; omega), ← hu, ← hv, ← hw]

/-- Settles O45: each row meets its condition; the blade's RCSYNC by `rcsync_aligns`. -/
theorem luneBladeAndFacetCommandsComplete : Obligations.LuneBladeAndFacetCommandsComplete := by
  unfold Obligations.LuneBladeAndFacetCommandsComplete
  intro m ss s t n slot l
  refine ⟨fun h h3 h16 hzero hconvex hel u hu => writeCmd_carried h (luneEnableEff_enables h3 h16 hzero hconvex hel hu),
    fun body h hphase hlive hcount hread herr hfits =>
      writeCmd_carried h (lunePostEff_posts hphase hlive hcount hread herr hfits),
    fun delay k latch u hdev hfil hdelay hphase hstart hseen hk hlatch hfault hu p ref v w hp href hwin hahead hv hw =>
      live_eq hdev ((if_pos hfil).trans ?_),
    fun d hdev hcur hphase hst hloop => live_eq hdev (State.recoatStall_held hcur hphase hst hloop),
    fun d u v h hcur hphase hloop hu hv => writeCmd_carried h (recoatCommandEff_moves hcur hphase hloop hu hv),
    fun c u h hc hplanes hpx hperiod hranges hpages hu =>
      writeCmd_carried h (fxCommitEff_commits hc hplanes hpx hperiod hranges hpages hu),
    fun u h hst hu => writeCmd_carried h ?_,
    fun p rest q hdev hrun hpass hb hf hst hrep => live_eq hdev (State.passBoundary_ends hrun hpass hb hf hst hrep),
    fun d p hdev hc hp hwait hpin hall => live_eq hdev (State.pinWaitRelease_pinned hc hp hwait hpin hall),
    fun p rest q i u v w hdev hrun hpass hrep hb hst hu hv hw =>
      live_eq hdev (State.repairDone_ends hrun hpass hrep hb hst hu hv hw)⟩
  · rw [Nat.min_eq_left hdelay]
    exact State.rcsync_aligns hphase hstart hseen hk hlatch hfault hu hp href hwin hahead hv hw
  · unfold fxClearEff
    rw [if_neg (not_not_intro hst), hu]

end Sys2Proof.Machine
end

section
/-! PROOFS. The rows of the lattice (R266 to R271) complete, and a clear leaves every cell of a mapped lattice cleared. -/

namespace Sys2Proof.Machine

variable {m : Msg} {ss : Session} {s t u v w : State}

/-! What a clear leaves -/

theorem Tab.get_of_no_key {α : Type} {d : Nat → α} {t : Tab α} {k : Nat} (h : ∀ e ∈ t, e.1 ≠ k) : Tab.get d t k = d k := by
  induction t with
  | nil => rfl
  | cons e t ih =>
    exact (if_neg (h e List.mem_cons_self)).trans (ih fun f hf => h f (List.mem_cons_of_mem e hf))

theorem Tab.mem_of_get_some {α : Type} {t : Tab (Option α)} {k : Nat} {v : α} (h : Tab.get (fun _ => none) t k = some v) :
    (k, some v) ∈ t := by
  induction t with
  | nil => cases h
  | cons e t ih =>
    by_cases he : e.1 = k
    · rw [← he, ← (if_pos he).symm.trans h]
      exact List.mem_cons_self
    · exact List.mem_cons_of_mem e (ih ((if_neg he).symm.trans h))

/-- A bit that a fold never clears and that one element sets is set in the end. -/
theorem testBit_foldl {α : Type} {f : Nat → α → Nat} {i : Nat} {e : α} {l : List α} (he : e ∈ l)
    (hkeep : ∀ m x, m.testBit i = true → (f m x).testBit i = true) (hset : ∀ m, (f m e).testBit i = true) (m : Nat) :
    (l.foldl f m).testBit i = true := by
  have hkept : ∀ (l : List α) (m : Nat), m.testBit i = true → (l.foldl f m).testBit i = true := by
    intro l
    induction l with
    | nil => exact fun _ hm => hm
    | cons x l ih => exact fun m hm => ih _ (hkeep m x hm)
  obtain ⟨before, after, rfl⟩ := List.append_of_mem he
  rw [List.foldl_append]
  exact hkept after _ (hset _)

theorem State.latticeSet_testBit {jp : Nat} {p : Page} (hpage : s.page 56 jp = some p) (hjp : jp < 2 ^ 24)
    (hlow : s.rd K.LAT_BASE / 65536 ≤ jp) (hhigh : jp < s.rd K.LAT_BASE / 65536 + 4096) : s.latticeSet.testBit p.phys = true := by
  have hkey : pageKey 56 jp = 56 * 2 ^ 24 + jp := by unfold pageKey; omega
  refine testBit_foldl (Tab.mem_of_get_some hpage) (fun m e hm => ?_) (fun m => ?_) 0
  · obtain ⟨k, _ | q⟩ := e
    · exact hm
    · dsimp only
      split
      · rw [Nat.testBit_or, hm, Bool.true_or]
      · exact hm
  · dsimp only
    rw [hkey, if_pos (by omega), Nat.testBit_or, Nat.testBit_two_pow_self, Bool.or_true]

/-- A cell depends on the lattice's place, its pages and its cells only. -/
theorem State.cell_congr {c : Nat} (hbase : s.rd K.LAT_BASE = t.rd K.LAT_BASE) (hmem : s.mem = t.mem)
    (hpages : s.lat.pages = t.lat.pages) (hcells : s.lat.cells = t.lat.cells) : s.cell c = t.cell c := by
  have hplace : s.cellPlace c = t.cellPlace c := by
    unfold State.cellPlace State.tilePage State.page
    rw [hbase, hmem]
  have hin (q : Nat) : s.cellIn q = t.cellIn q := by unfold State.cellIn; rw [hcells]
  have has (q : Nat) : s.asCells q = t.asCells q := by unfold State.asCells; rw [hpages]
  have hbyte (a : Nat) : s.physByte a = t.physByte a := by
    unfold State.physByte
    rw [has, hin, hmem]
  unfold State.cell
  simp only [hplace, hin, has, hbyte]

theorem State.clearCells_cell {c : Nat} (hc : c < 2 ^ 24) (hbase : s.rd K.LAT_BASE / 65536 + 4096 ≤ 2 ^ 24) :
    s.clearCells.cell c = Cell.cleared := by
  have htile : tileOf c < 4096 := by unfold tileOf; omega
  have hplace : s.clearCells.cellPlace c / 4096 = s.tilePage (tileOf c) := by
    change (s.tilePage (tileOf c) * 4096 + c / 4096 % 64 * 64 + c % 64) / 4096 = _
    omega
  have hpage : 2 ^ 18 ≤ s.tilePage (tileOf c) ∨ s.latticeSet.testBit (s.tilePage (tileOf c)) = true := by
    unfold State.tilePage
    cases hp : s.page 56 (s.rd K.LAT_BASE / 65536 + tileOf c) with
    | none => exact .inl (Nat.le_add_right ..)
    | some p => exact .inr (State.latticeSet_testBit hp (by omega) (by omega) (by omega))
  have hcells : s.clearCells.asCells (s.clearCells.cellPlace c / 4096) = true := by
    rw [hplace]
    change (decide _ || (s.lat.pages ||| s.latticeSet).testBit _) = true
    rcases hpage with h | h
    · rw [decide_eq_true h, Bool.true_or]
    · rw [Nat.testBit_or, h, Bool.or_true, Bool.or_true]
  unfold State.cell
  dsimp only
  rw [hcells, if_pos rfl]
  refine Tab.get_of_no_key fun e he hk => ?_
  obtain ⟨-, hkept⟩ := List.mem_filter.mp he
  rw [hk, hplace] at hkept
  rcases hpage with h | h
  · simp at hkept
    omega
  · simp [h] at hkept

/-! The rows of the lattice -/

theorem latEnableEff_enables {v : Nat} (hv : v = 1) (hen : s.rd K.LAT_ENABLE = 0) (hphase : s.phase = Phase.idle) (hst : s.rd K.LAT_STATE = 2)
    (hmapped : s.latMapped = true) (hfresh : s.mustClear = false) : latEnableEff v s = (Ans.ok, s.enableLat s.latPages) := by
  unfold latEnableEff
  rw [if_pos hv, if_neg (by omega), if_neg (by simp [hphase, hst, hmapped, hfresh])]

theorem latEnableEff_disables {v : Nat} (hv : v ≠ 1) (hen : s.rd K.LAT_ENABLE = 1) (hphase : s.phase = Phase.idle) :
    latEnableEff v s = (Ans.ok, s.disableLat s.latPages) := by
  unfold latEnableEff
  rw [if_neg hv, if_neg (not_not_intro hphase), if_neg (by omega)]

theorem snapControlEff_starts {v : Nat} (hv : v = 1) (hst : s.rd K.LAT_SNAP_STATE ≠ 1) (htiles : snapTiles (s.rd K.LAT_SNAP_AREA) ≠ [])
    (hlat : 2 ≤ s.rd K.LAT_STATE) : snapControlEff v s =
      (Ans.ok, ({ s with lat := { s.lat with snap := snapTiles (s.rd K.LAT_SNAP_AREA) } } : State).wrs
        [(K.LAT_SNAP_STATE, 1), (K.LAT_SNAP_TILES, 0)]) := by
  unfold snapControlEff
  dsimp only
  rw [if_pos hv, if_neg (by simp [hst, htiles]; omega)]

theorem snapControlEff_aborts {v : Nat} (hv : v ≠ 1) (hst : s.rd K.LAT_SNAP_STATE = 1) :
    snapControlEff v s = (Ans.ok, s.snapEnd 3 0x0061) := by
  unfold snapControlEff
  dsimp only
  rw [if_neg hv, if_pos hst]

theorem State.snapshotTile_first {k : Nat} {rest : List Nat} (hst : s.rd K.LAT_SNAP_STATE = 1) (hin : s.inSample = 0)
    (hsnap : s.lat.snap = k :: rest) (htc : s.rd (K.TC_STATE (s.rd K.LAT_SNAP_TC)) ≠ 2)
    (hjob : (s.tc (s.rd K.LAT_SNAP_TC)).job = .none) (hheld : s.lat.snapHeld = false) : s.snapshotTile =
      s.snapTile (s.rd K.LAT_SNAP_TC) (s.rd K.LAT_SNAP_ADDR + 65600 * s.rd K.LAT_SNAP_TILES)
        (s.tileHeader k (s.tileBytes k s.tm.tick) ++ s.tileBytes k s.tm.tick) := by
  unfold State.snapshotTile
  rw [if_neg (by omega), hsnap]
  dsimp only
  rw [if_neg (by simp [htc, hjob]), hheld]
  exact if_neg Bool.false_ne_true

theorem State.refreshes_active (hen : s.rd K.LAT_ENABLE = 1) (hrole : s.role = Role.active) (hstop : s.rd K.DT_STOP_STATE = 0)
    (hcut : s.rd K.DT_CUTOFF = 0) : s.refreshes = true := by
  unfold State.refreshes
  rw [hen, hrole, hstop, hcut]
  decide

/-- A fill of a tile that no held write waits for (R268). -/
theorem State.tileFill_free {k : Nat} (hcache : s.lat.cache.contains k = false) (hmapped : s.latMapped = true)
    (hroom : s.evict.lat.cache.length < 64)
    (hu : u = ((({ s.evict with lat := { s.evict.lat with cache := k :: s.evict.lat.cache } } : State).inc
      K.LAT_TILE_FILLS).countBeats 56 1024).fillErrors k)
    (hfree : ∀ w ∈ u.lat.queue, tileOf w.cell ≠ k) : s.tileFill k = u := by
  have hheld : u.lat.queue.filter (fun w => tileOf w.cell == k) = [] :=
    List.filter_eq_nil_iff.mpr fun w hw => by simpa using hfree w hw
  have hkept : u.lat.queue.filter (fun w => tileOf w.cell != k) = u.lat.queue :=
    List.filter_eq_self.mpr fun w hw => by simpa using hfree w hw
  unfold State.tileFill
  rw [if_neg (by rw [hcache, hmapped]; decide)]
  dsimp only
  rw [if_neg (by omega), ← hu, hheld, hkept]
  rfl

/-- Settles O46: each row meets its condition; the cells after a clear by `clearCells_cell`. -/
theorem latticeCommandsComplete : Obligations.LatticeCommandsComplete := by
  unfold Obligations.LatticeCommandsComplete
  intro m ss s t tile
  refine ⟨fun u h hphase hst hst' hu => writeCmd_carried h ?_, fun u v hdev hst hu hv => ⟨live_eq hdev ?_, fun hbase c hc => ?_⟩,
    fun h hen hphase hst hmapped hfresh => writeCmd_carried h (latEnableEff_enables rfl hen hphase hst hmapped hfresh),
    fun h hen hphase => writeCmd_carried h (latEnableEff_disables (by decide) hen hphase),
    fun h hst htiles hlat => writeCmd_carried h (snapControlEff_starts rfl hst htiles hlat),
    fun h hst => writeCmd_carried h (snapControlEff_aborts (by decide) hst),
    fun k rest hdev hst hin hsnap htc hjob hheld => live_eq hdev (State.snapshotTile_first hst hin hsnap htc hjob hheld),
    fun u v w r last lag hdev hen hrole hstop hcut hr hu hv hlast hlag hw => live_eq hdev ?_,
    fun u hdev hcache hmapped hroom _ hu hfree => live_eq hdev (State.tileFill_free hcache hmapped hroom hu hfree),
    fun hdev hdirty => live_eq hdev (if_pos hdirty)⟩
  · unfold latClearEff
    rw [if_neg (by simp [hphase, hst, hst']), hu]
  · subst hu
    exact (if_neg (not_not_intro hst)).trans hv.symm
  · subst hu
    rw [hv]
    exact (State.cell_congr ((State.rd_wr_other _ _ (by decide)).trans (State.lat_rd ..)) rfl rfl rfl).trans
      (State.clearCells_cell hc hbase)
  · unfold State.refreshVisit
    dsimp only
    rw [State.refreshes_active hen hrole hstop hcut, if_neg (by decide), ← hr, ← hu, ← hv, ← hlast, ← hlag, ← hw]

end Sys2Proof.Machine
end

section
/-! PROOFS. The rows of pipeline contexts (R277 to R309) complete. -/

namespace Sys2Proof.Machine

variable {m : Msg} {ss : Session} {s t u v w : State} {k o : Nat}

/-- Enabling an owner of a link commits its pending set (R285). -/
theorem State.pcOn_owner (hpool : s.pw.poolLoaded = true) (hk : k < 20) (hok : s.commitOk k (some k) = true) (hu : u = s.wr (K.PC_ENABLE k) 1)
    (hv : v = u.setPipe k { u.pipe k with
      frame := none, closing := if (u.pcOwner k).any (fun o => decide (o < 16)) then (u.pipe k).closing else [],
      expected := [], lastFirst := u.tm.tick, lastStart := none, buf := 0 }) :
    s.pcOn k = (Ans.ok, (v.commitSet k).syncPipe k) := by
  unfold State.pcOn
  dsimp only
  rw [if_pos hk, hpool, hok, if_neg (by decide), if_pos hk, ← hu, ← hv]

theorem pcEnableEff_disables (h : s.rd (K.PC_ENABLE k) = 1) : pcEnableEff k 0 s = (Ans.ok, s.pcOff k) := by
  unfold pcEnableEff
  rw [if_neg (by omega), if_neg (by decide)]

theorem setApplyEff_commits {x : Nat} (hk : k < 20) (hok : s.commitOk k none = true) : setApplyEff k x s = (Ans.ok, s.commitSet k) := by
  unfold setApplyEff
  rw [hok, if_neg (by simp; omega)]

/-- A slice of a link whose lane is up reaches the enabled contexts that process it (R277). -/
theorem State.onLink_up {f : Nat → State → State} (ht : t = s.rxFrame (pcLane o)) (hup : t.laneUp (pcLane o) = true) :
    s.onLink o f = (t.pcOf o).foldl (fun s k => if s.rd (K.PC_ENABLE k) = 1 then f k s else s) t := by
  unfold State.onLink
  dsimp only
  rw [← ht, hup]
  exact if_neg (by decide)

theorem State.frameTimeout_due {f : PFrame} (hf : (s.pipe k).frame = some f) (hdue : f.lastTick + s.rd (K.PC_FRAME_TIMEOUT k) ≤ s.tm.tick) :
    s.frameTimeout k = s.endFrame k := by
  unfold State.frameTimeout
  rw [hf]
  exact if_pos hdue

/-- The first expected frame of a context in native mode has not come (R284). -/
theorem State.frameMissing_due {first : Nat} {rest : List Nat} (hen : s.rd (K.PC_ENABLE k) = 1) (htrig : s.rd (K.PC_TRIGGER k) = 0)
    (hexp : (s.pipe k).expected = first :: rest) (hdue : first + s.rd (K.PC_FRAME_TIMEOUT k) ≤ s.tm.tick) :
    s.frameMissing k = (((s.setPipe k { s.pipe k with expected := rest }).inc (K.OUT_MISSING k)).raise (srcPipe k) 0x0071 3 k 0).markLoop
      k 2 0 0 := by
  unfold State.frameMissing
  dsimp only
  rw [if_neg (by omega), if_pos htrig, hexp]
  exact if_pos hdue

theorem State.statsClose_first {f : PFrame} {rest : List PFrame} (hclose : (s.pipe k).closing = f :: rest) (howner : s.pcOwner k = some o)
    (ho : o < 16) (hrun : s.enginesStopped = false) :
    s.statsClose k = (s.setPipe k { s.pipe k with closing := rest }).closeStats k o f := by
  unfold State.statsClose
  dsimp only
  rw [hclose, howner]
  dsimp only
  rw [hrun, if_neg (by simp; omega)]

/-- A stripe of the frame in progress that is in memory and is not its last (R298). -/
theorem State.bedStripe_done {f g : PFrame} (himage : (s.pipe k).image = some (f, false)) (hrun : s.bedRuns k = true)
    (hwhole : (64 * f.stripes + f.stripeLines f.stripes) * f.set.w ≤ f.stored) (hmore : 64 * (f.stripes + 1) < f.set.h)
    (hdo : s.doStripe k f = (some g, u)) : s.bedStripe k = u.setPipe k ((u.pipe k).putImage g) := by
  have hin : 64 * f.stripes < f.set.h := by omega
  unfold State.bedStripe
  dsimp only
  rw [himage]
  dsimp only
  rw [hrun, if_neg (by simp [hwhole, hin, hmore]), hdo]

/-- A bed frame whose stripes are all processed, and whose output goes into memory (R300). -/
theorem State.bedFrameDone_writes {f : PFrame} {rest : List PFrame} {o : List Byte × Nat × Nat × Nat}
    (hclose : (s.pipe k).closing = f :: rest) (hrun : s.bedRuns k = true) (hdone : f.stripeCount ≤ f.stripes) (hpx : f.pixels = [])
    (ho : o = s.bedOutput k f)
    (hwrite : s.tryWrite (32 + k) (s.rd (K.BD_OUT_BASE k) + s.rd (K.BD_OUT_SLOT k) * (s.rd (K.BD_FRAMES_DONE k) % 4)) o.1 = (true, u))
    (hv : v = u.fiducialImage k f)
    (hw : w = ((v.setPipe k { v.pipe k with closing := rest }).inc (K.BD_FRAMES_DONE k)).raise (srcPipe k) 0x0075 4 k 0) :
    s.bedFrameDone k = if o.2.1 = 0 ∧ o.2.2.1 = 0 ∧ o.2.2.2 = 0 then w else w.raise (srcPipe k) 0x0074 6 k
      (o.2.1 % 65536 + o.2.2.1 % 65536 * 2 ^ 16 + o.2.2.2 % 65536 * 2 ^ 32) := by
  have hready : f.stripeCount ≤ f.stripes + 1 := by omega
  unfold State.bedFrameDone
  rw [hclose]
  dsimp only
  rw [hrun, if_neg (by simp [hready, hpx]), if_neg (by omega)]
  dsimp only
  rw [← ho, hwrite]
  dsimp only
  rw [if_neg (by decide), ← hv, ← hw]

/-- Settles O47: each row meets its condition; a slice by `onLink_up`. -/
theorem pipelineCommandsComplete : Obligations.PipelineCommandsComplete := by
  unfold Obligations.PipelineCommandsComplete
  intro m ss s t k n c frame offset start tag w h px
  refine ⟨fun u h hoff hon => writeCmd_carried h ?_, fun u v hpool hk hok hu hv => State.pcOn_owner hpool hk hok hu hv,
    fun h hon => writeCmd_carried h (pcEnableEff_disables hon), fun h hk hok => writeCmd_carried h (setApplyEff_commits hk hok),
    fun hdev ht hup => ⟨live_eq hdev (State.onLink_up ht hup), live_eq hdev (State.onLink_up ht hup), live_eq hdev (State.onLink_up ht hup)⟩,
    fun hdev ht hup => ⟨live_eq hdev (State.onLink_up ht hup), live_eq hdev (State.onLink_up ht hup), live_eq hdev (State.onLink_up ht hup)⟩,
    fun f hdev hf hdue => live_eq hdev (State.frameTimeout_due hf hdue),
    fun first rest hdev hen htrig hexp hdue => live_eq hdev (State.frameMissing_due hen htrig hexp hdue),
    fun f rest o hdev hclose howner ho hrun => live_eq hdev (State.statsClose_first hclose howner ho hrun),
    fun f g u hdev himage hrun hwhole hmore hdo => live_eq hdev (State.bedStripe_done himage hrun hwhole hmore hdo),
    fun f rest u v w o hdev hclose hrun hdone hpx ho hwrite hv hw =>
      live_eq hdev (State.bedFrameDone_writes hclose hrun hdone hpx ho hwrite hv hw)⟩
  unfold pcEnableEff
  rw [if_neg (by omega), if_pos rfl, hon]

end Sys2Proof.Machine
end

section
/-! PROOFS. The rows of loop channels and repetitive slots (R310 to R335) and of the serial lanes (R336 to R361) complete. -/

namespace Sys2Proof.Machine

variable {m : Msg} {ss : Session} {s t u v w : State} {k : Nat}

/-! Loop channels -/

/-- LOOP_CLOSE of a general loop with a feedback source, from IDLE (R314). -/
theorem loopCloseEff_idle (hst : s.loopState k = Lp.idle) (hk : 64 ≤ k) (hsrc : s.rd (K.LOOP_FB_SOURCE k) / 256 ≠ 0) :
    loopCloseEff k s = (Ans.ok, s.closeLoop k) := if_pos ⟨hst, hk, hsrc⟩

/-- LOOP_CLOSE of a loop that the host holds (R314). -/
theorem loopCloseEff_held (hst : s.loopState k = Lp.hold) (hcause : s.rd (K.LOOP_CAUSE k) = LpCause.host) :
    loopCloseEff k s = (Ans.ok, s.closeHeld k) := by
  have hidle : ¬ s.loopState k = Lp.idle := by rw [hst]; decide
  exact (if_neg fun h => hidle h.1).trans (if_pos ⟨hst, .inl hcause⟩)

/-- The flags of a loop leave the count of the pair as it stands. -/
theorem State.wrs_loop_pair (a b n : Nat) : (s.wrs [(K.LOOP_FLAGS k, a), (K.LOOP_DL_CAUSE k, b)]).pair n = s.pair n := by
  unfold State.pair State.rdS
  rw [State.wrs_pair_rd_other (by unfold K.TWIN_PAIR_OFFSET K.LOOP_FLAGS; omega) (by unfold K.TWIN_PAIR_OFFSET K.LOOP_DL_CAUSE; omega)]

theorem State.loopDeadline_missed {overrun : Bool} (hst : s.loopState k = Lp.closed)
    (hk : overrun = true ∧ 64 ≤ k ∨ overrun = false ∧ k < 48) : s.loopDeadline k overrun =
      ((s.wrs [(K.LOOP_FLAGS k, setBit (s.rd (K.LOOP_FLAGS k)) 3 true),
        (K.LOOP_DL_CAUSE k, if overrun then 2 else 1)]).inc (K.LOOP_DL_MISSED k)).loopEvent k 0x0080 3 (if overrun then 2 else 1)
          ((s.pair (if overrun then s.tm.tick else s.tm.tick - 80) / 400 % 2 ^ 32 : Nat) : Int) := by
  have hdue : ¬ (s.loopState k ≠ Lp.closed ∨ overrun = true ∧ k < 64 ∨ (!overrun) = true ∧ 48 ≤ k) := by
    rcases hk with ⟨rfl, hk⟩ | ⟨rfl, hk⟩ <;> simp [hst] <;> omega
  unfold State.loopDeadline
  rw [if_neg hdue]
  dsimp only
  rw [State.wrs_loop_pair]

/-- Settles O48: each command of a loop meets the condition of its row. -/
theorem loopCommandsComplete : Obligations.LoopCommandsComplete := by
  unfold Obligations.LoopCommandsComplete
  intro m ss s t l i
  refine ⟨fun h hst hl hsrc => writeCmd_carried h (loopCloseEff_idle hst hl hsrc),
    fun h hst hcause => writeCmd_carried h (loopCloseEff_held hst hcause),
    fun h hl hst => writeCmd_carried h (if_pos ⟨hl, hst⟩), fun h hl hst => writeCmd_carried h (if_pos ⟨hl, hst⟩),
    fun h hst hout => writeCmd_carried h (if_pos ⟨hst, hout⟩), fun h hst => writeCmd_carried h (if_pos hst),
    fun u hdev hu => live_eq hdev ?_, fun overrun hdev hst hk => live_eq hdev (State.loopDeadline_missed hst hk),
    fun h hst => writeCmd_carried h (if_neg hst)⟩
  rw [hu]
  rfl

/-! Serial lanes -/

theorem State.frameSlot_due (h : s.pair s.tm.tick % 16 = 8) : s.frameSlot = (List.range 44).foldl (fun (x : State) l =>
    (x.announce l).downFrame l ((x.inSample - 8) / 16) s.nextGroup.1) s.nextGroup.2 := if_neg (not_not_intro h)

/-- A frame that arrives once eight tokens have been seen (R343). -/
theorem State.idleFrame_locked {f : UpFrame} (hst : 3 ≤ s.rd (K.LANE_STATE f.lane.val)) (htok : f.token = true) : s.idleFrame f =
    if f.crcOk && headerOk f.lane.val f.header.toNat then s.goodFrame f.lane.val f.header.toNat else s.badFrame f.lane.val := by
  unfold State.idleFrame
  dsimp only
  rw [if_neg (by omega), htok, if_neg (by simp; omega)]

theorem State.identRequest_due (hst : s.rd (K.LANE_STATE k) = 3)
    (hdue : (s.lane k).askedAt < (s.lane k).since ∨ (s.lane k).askedAt + 1000 ≤ s.tm.tick) :
    s.identRequest k = (s.setLane k { s.lane k with askedAt := s.tm.tick }).queueMsg k 0x04 [] := by
  unfold State.identRequest
  dsimp only
  rw [if_neg (by omega)]

/-- An IDENT of a node of the lane's kind, or on a lane for any kind (R352). -/
theorem State.identIn_known {i : Ident} (hst : s.rd (K.LANE_STATE k) = 3) (hzero : zeroTail i = true)
    (hkind : 3 ≤ Dict.laneUse k ∨ i.kind.toNat = Dict.laneUse k + 1)
    (hu : u = ((s.rxFrame k).wrs [(K.LANE_NODE_KIND k, i.kind.toNat), (K.LANE_NODE_SERIAL k, i.serial.toNat),
      (K.LANE_DELAY k, i.delay.toNat)]).identReport k i) :
    s.identIn k i = if k < 16 ∧ 12 * 128 < i.delay.toNat then u.identFailed k 1 i.delay.toNat
      else u.queueMsg k 0x05 (toLE 4 i.delay.toNat) := by
  unfold State.identIn
  dsimp only
  rw [if_neg (not_not_intro hst), hzero, if_neg (by decide), if_neg (by omega), ← hu]

theorem State.laneUpDue_due {due : Nat} (hup : (s.lane k).upAt = some due) (hdue : due ≤ s.tm.tick) (hst : s.rd (K.LANE_STATE k) = 3) :
    s.laneUpDue k = s.laneEnterUp k := by
  unfold State.laneUpDue
  rw [hup]
  exact if_pos ⟨hdue, hst⟩

theorem State.identFail_due (hst : s.rd (K.LANE_STATE k) = 3) (hdue : (s.lane k).since + 10000 ≤ s.tm.tick) (hup : (s.lane k).upAt = none)
    (hq : (s.lane k).holds 5 = false) : s.identFail k = s.identFailed k 0 0 := by
  unfold State.identFail
  dsimp only
  rw [hup, hq]
  exact if_pos ⟨hst, hdue, rfl, rfl⟩

/-- A loss of a lane that is UP, in the direction's state that the detail is about (R354). -/
theorem State.linkLoss_due {d : Nat} (hup : s.laneUp k = true) (hdue : d = 1 ∧ (s.lane k).rxNow = 0 ∨
      d = 2 ∧ (s.lane k).rxNow = 0 ∧ 8 ≤ (s.lane k).badRun ∨ d = 3 ∧ (s.lane k).rxNow = 1) :
    s.linkLoss k d = ((s.inc (K.LANE_LOSSES k)).laneEvent k 0x00A1 3 d ((s.lane k).last.getD 0)).laneDrop k 1 := by
  unfold State.linkLoss
  dsimp only
  refine if_neg ?_
  rcases hdue with ⟨rfl, hrx⟩ | ⟨rfl, hrx, hbad⟩ | ⟨rfl, hrx⟩
  · simp [hup, hrx]
  · simp [hup, hrx, hbad]
  · simp [hup, hrx]

theorem eyeControlEff_starts (hup : s.laneUp k = true) (htx : s.rd (K.LANE_TX_STATE k) = 0) (hrx : s.rd (K.LANE_RX_STATE k) = 0)
    (hst : s.rd (K.EYE_STATE k) ≠ 1) (hu : u = s.wrs [(K.EYE_STATE k, 1), (K.EYE_POINTS_DONE k, 0)]) :
    eyeControlEff k 1 s = (Ans.ok, if u.eyePoints k = 0 then u.eyeEnd k 2 else u) := by
  unfold eyeControlEff
  dsimp only
  rw [if_pos rfl, if_neg (by simp [hup, htx, hrx, hst]), ← hu]

theorem eyeControlEff_aborts (hst : s.rd (K.EYE_STATE k) = 1) : eyeControlEff k 2 s = (Ans.ok, s.eyeEnd k 3) := by
  unfold eyeControlEff
  dsimp only
  rw [if_neg (by decide), if_pos hst]

theorem State.eyePoint_written {count : Nat} (hst : s.rd (K.EYE_STATE k) = 1)
    (hwrite : s.tryWrite (s.rd (K.EYE_TC k)) (s.rd (K.EYE_ADDR k) + 4 * s.rd (K.EYE_POINTS_DONE k)) (toLE 4 count) = (true, u))
    (hw : w = u.wr (K.EYE_POINTS_DONE k) (s.rd (K.EYE_POINTS_DONE k) + 1)) :
    s.eyePoint k count = if w.eyePoints k ≤ s.rd (K.EYE_POINTS_DONE k) + 1 then w.eyeEnd k 2 else w := by
  unfold State.eyePoint
  rw [if_neg (not_not_intro hst)]
  dsimp only
  rw [hwrite]
  dsimp only
  rw [if_neg (by decide), ← hw]

/-- Settles O49: each row of a lane meets its condition. -/
theorem laneCommandsComplete : Obligations.LaneCommandsComplete := by
  unfold Obligations.LaneCommandsComplete
  intro m ss s t l v
  refine ⟨fun hdev h => live_eq hdev (State.frameSlot_due h), fun f hdev hst htok => live_eq hdev (State.idleFrame_locked hst htok),
    fun l h u hu => writeCmd_carried h (by rw [hu]; rfl), fun hdev hst => live_eq hdev (if_neg (not_not_intro hst)),
    fun hdev hst hdue => live_eq hdev (State.identRequest_due hst hdue),
    fun i u hdev hst hzero hkind hu => live_eq hdev (State.identIn_known hst hzero hkind hu),
    fun due hdev hup hdue hst => live_eq hdev (State.laneUpDue_due hup hdue hst),
    fun hdev hst hdue hup hq => live_eq hdev (State.identFail_due hst hdue hup hq),
    fun detail hdev hup hdue => live_eq hdev (State.linkLoss_due hup hdue),
    fun d digest hdev hup u hu => live_eq hdev ?_, fun d code data hdev hup => live_eq hdev (if_neg (by simp [hup])),
    fun l h hmay => writeCmd_carried h (if_neg ?_), fun l h hmay => writeCmd_carried h (if_neg ?_),
    fun l h hup htx hrx hst u hu => writeCmd_carried h (eyeControlEff_starts hup htx hrx hst hu),
    fun l h hst => writeCmd_carried h (eyeControlEff_aborts hst),
    fun l count u w hdev hst hwrite hw => live_eq hdev (State.eyePoint_written hst hwrite hw),
    fun hdev hen hst => live_eq hdev ((if_neg hen).trans (if_pos hst))⟩
  · dsimp only
    rw [hup, if_neg (by decide), hu]
  · rintro ⟨hold, hv, hno⟩
    rcases hmay with hmay | hmay | hmay
    · exact hmay hold
    · exact hv hmay
    · simp [hmay] at hno
  · rintro ⟨hold, hv, hno⟩
    rcases hmay with hmay | hmay | hmay
    · exact hmay hold
    · exact hv hmay
    · simp [hmay] at hno

end Sys2Proof.Machine
end

section
/-! PROOFS. Axis commands (R362 to R378) complete. -/

namespace Sys2Proof.Machine

variable {m : Msg} {ss : Session} {s t u v w : State} {k : Nat}

theorem axEnableEff_off {x : Nat} (hx : x = 0) (hon : s.rd (K.AX_ENABLE k) ≠ 0) : axEnableEff k x s =
    (Ans.ok, (s.wr (K.AX_ENABLE k) 0).wrs [(K.AX_STATUS k, 0), (K.AX_FAULT k, 0)]) := by
  subst hx
  unfold axEnableEff
  dsimp only
  rw [if_neg (Ne.symm hon), if_pos rfl]

theorem axEnableEff_on {x : Nat} (hx : x ≠ 0) (hoff : s.rd (K.AX_ENABLE k) = 0)
    (hu : u = ((s.wr (K.AX_ENABLE k) x).wrs [(K.AX_STATUS k, 0), (K.AX_FAULT k, 0)]).setAxis k { Axis.init with
      hist := [(s.tm.tick, 0)],
      enabledAt := s.tm.tick, cleanAt := s.tm.tick, out := (s.axis k).out, edges := (s.axis k).edges, moved := (s.axis k).moved,
      outTick := (s.axis k).outTick }) :
    axEnableEff k x s = (Ans.ok, (((u.wrs [(K.AX_COUNT k, 0), (K.AX_CORR_PENDING k, 0)]).formPos k).judgeAll k).bladeMotion k) := by
  unfold axEnableEff
  dsimp only
  rw [if_neg (hoff ▸ hx), if_neg hx, hu]
  rfl

/-- The fault entry of an axis is not its status. -/
theorem State.wr_fault_status (n : Nat) : (s.wr (K.AX_FAULT k) n).rd (K.AX_STATUS k) = s.rd (K.AX_STATUS k) :=
  State.rd_wr_other _ _ (by unfold K.AX_STATUS K.AX_FAULT; omega)

theorem State.axisFault_valid {bits new : Nat} (hnew : new = s.rd (K.AX_FAULT k) ||| (bits &&& s.modeFaults k))
    (hen : s.rd (K.AX_ENABLE k) ≠ 0) (hne : new ≠ s.rd (K.AX_FAULT k)) (hst : s.rd (K.AX_STATUS k) = 1)
    (hu : u = (s.wr (K.AX_FAULT k) new).setAxis k { s.axis k with
      worst := bits &&& s.modeFaults k,
      brokeAt := some s.tm.tick, zAt := none }) :
    s.axisFault k bits = (u.wr (K.AX_STATUS k) 2).raise (srcAxis k) 0x00C3 3 k new := by
  have hst' : (s.wr (K.AX_FAULT k) new).rd (K.AX_STATUS k) = 1 := (State.wr_fault_status _).trans hst
  unfold State.axisFault
  dsimp only
  rw [← hnew, if_neg (not_or.mpr ⟨hen, hne⟩), hst', if_neg (by decide), if_pos (by decide), if_pos (by decide), Nat.zero_or, hu]
  rfl

/-- The signals of an axis that is OFF become free of faults (R367). -/
theorem State.signalRecovered_off (hen : s.rd (K.AX_ENABLE k) ≠ 0) (hst : s.rd (K.AX_STATUS k) = 0) (hf : s.rd (K.AX_FAULT k) ≠ 0)
    (hlow : s.rd (K.AX_FAULT k) < 16) :
    s.signalRecovered k = ((s.wr (K.AX_FAULT k) 0).setAxis k { s.axis k with cleanAt := s.tm.tick }).axisReady k := by
  have hall : s.rd (K.AX_FAULT k) &&& 15 = s.rd (K.AX_FAULT k) :=
    (Nat.and_two_pow_sub_one_eq_mod _ 4).trans (Nat.mod_eq_of_lt hlow)
  unfold State.signalRecovered
  rw [if_neg hen]
  unfold State.axisClear
  dsimp only
  rw [hall, Nat.sub_self, if_neg (by omega), State.wr_fault_status, if_pos (by omega)]
  rfl

/-- An enabled axis has been free of faults for its time (R367). -/
theorem State.signalRecovered_ready (hen : s.rd (K.AX_ENABLE k) = 1) (hst : s.rd (K.AX_STATUS k) = 0) (hf : s.rd (K.AX_FAULT k) = 0)
    (hclean : (s.axis k).cleanAt + 100 ≤ s.tm.tick) :
    s.signalRecovered k = (s.wr (K.AX_FAULT k) 0).wr (K.AX_STATUS k) 1 := by
  have hen' : (s.wr (K.AX_FAULT k) 0).rd (K.AX_ENABLE k) = 1 :=
    (State.rd_wr_other _ _ (by unfold K.AX_ENABLE K.AX_FAULT; omega)).trans hen
  unfold State.signalRecovered
  rw [if_neg (by omega)]
  unfold State.axisClear
  dsimp only
  rw [hf, Nat.zero_and, Nat.sub_self, if_pos (.inr rfl)]
  exact if_pos ⟨hen', (State.wr_fault_status _).trans hst, State.rd_wr_same _ _ _, hclean⟩

theorem State.latchAtTick_steady {n : Nat} (h : s.jumpsFrom k n = []) : s.latchAtTick k n = s.countAt k n := by
  unfold State.latchAtTick
  rw [h]
  rfl

/-- The first index pulse of an axis without jumps since, with no output to follow it (R370). -/
theorem State.indexPulse_first {delay at' : Nat} (hk : k < 4) (hen : s.rd (K.AX_ENABLE k) ≠ 0) (href : (s.axis k).ref = none)
    (hao : s.rd (K.AO_ENABLE k) = 0) (hat : at' = s.tm.tick - delay) (hfil : s.rd K.PIN_FILTER_INDEX ≤ delay)
    (htick : delay = 0 ∨ (s.axis k).enabledAt < at') (hjumps : s.jumpsFrom k at' = [])
    (hu : u = ((s.wrs [(K.AX_INDEX_LATCH k, uns 64 (s.countAt k at')), (K.AX_INDEX_STAMP k, s.timeAt at')]).inc
      (K.AX_INDEX_COUNT k)).raiseAt at' (srcAxis k) 0x00C0 4 k (uns 64 (s.countAt k at')) [] false) :
    s.indexPulse k delay = (u.setAxis k { s.axis k with ref := some (s.countAt k at') }).aoFollow k := by
  have htaken : ¬ (s.rd (K.AX_ENABLE k) = 0 ∨ (!s.filtered K.PIN_FILTER_INDEX delay) = true ∨
      (delay ≠ 0 ∧ at' ≤ (s.axis k).enabledAt)) := by
    simp only [State.filtered, hen, hfil, decide_true, Bool.not_true, Bool.false_eq_true, false_or]
    omega
  have hu' : u = s.indexLatched k at' := by
    unfold State.indexLatched
    rw [State.latchAtTick_steady hjumps]
    exact hu
  have hkept {i : Nat} (hi : i < 0x1000) (h4 : i ≠ 0x104) (h5 : i ≠ 0x105) (hb : i ≠ 0x10B) :
      u.rd (0x780000 + i + k * 0x8000) = s.rd (0x780000 + i + k * 0x8000) := by
    rw [hu', State.indexLatched_rd hk hi]
    refine (State.inc_rd ?_).trans (State.wrs_pair_rd_other ?_ ?_ _ _)
    · unfold K.AX_INDEX_COUNT; omega
    · unfold K.AX_INDEX_LATCH; omega
    · unfold K.AX_INDEX_STAMP; omega
  have hcount : u.countAt k at' = s.countAt k at' :=
    State.countAt_congr (hu' ▸ State.indexLatched_axes) (hkept (i := 0x101) (by decide) (by decide) (by decide) (by decide))
  have hao' : u.rd (K.AO_ENABLE k) = 0 := (hkept (i := 0x201) (by decide) (by decide) (by decide) (by decide)).trans hao
  have hz : ¬ (u.rd (K.AO_ENABLE k) = 1 ∧ u.rd (K.AO_Z_MODE k) = 0 ∧ u.rd (K.AX_STATUS k) ≠ 2) := by omega
  unfold State.indexPulse
  dsimp only
  rw [← hat, if_neg htaken, State.latchAtTick_steady hjumps, hjumps]
  dsimp only [List.getLast?_nil, List.any_nil]
  rw [href]
  dsimp only
  rw [← hu, hcount]
  simp only [hz, if_false, Bool.false_eq_true]

theorem State.axCorrected_shifts {d : Int} (hd : d = s.rdS 32 (K.AX_CORR_PENDING k)) (hne : d ≠ 0) (hrest : s.atRest k = true)
    (hen : s.rd (K.AX_ENABLE k) ≠ 0) (hf : s.rd (K.AX_FAULT k) % 16 = 0) (hu : u = s.shiftCount k d false) :
    s.axCorrected k = ((((u.setAxis k { u.axis k with ref := (u.axis k).ref.map (· + d) }).wr
      (K.AX_CORR_PENDING k) 0).raise (srcAxis k) 0x00C2 4 k (uns 32 d)).formPos k).judgeAll k := by
  unfold State.axCorrected
  dsimp only
  rw [← hd, if_neg (by simp [hne, hrest, hen, hf]), ← hu]

theorem cmpArmEff_arms {c : Nat} (harm : s.rd (K.CMP_ARM k c) ≠ 1) (hact : s.rd (K.CMP_ACTION k c) = 0) : cmpArmEff k c 1 s =
    (Ans.ok, (s.wrs [(K.CMP_ARM k c, 1), (K.CMP_FIRED k c, 0), (K.CMP_SKIPPED k c, 0)]).judge k c) := by
  unfold cmpArmEff
  dsimp only
  rw [if_pos rfl, if_neg harm, if_neg fun h => h.1 hact]

theorem cmpArmEff_disarms {c : Nat} (harm : s.rd (K.CMP_ARM k c) = 1) : cmpArmEff k c 0 s =
    (Ans.ok, (s.wr (K.CMP_ARM k c) 0).setAxis k { s.axis k with
      ahead := setBit (s.axis k).ahead c false, behind := (s.axis k).behind.filter fun b => b.1 != c }) := by
  unfold cmpArmEff
  dsimp only
  rw [if_neg (by decide), if_pos harm]

theorem aoEnableEff_changes {x : Nat} (hne : x ≠ s.rd (K.AO_ENABLE k))
    (hu : u = (s.wrs [(K.AO_ENABLE k, x), (K.AO_LAG k, 0)]).setAxis k { s.axis k with
      moved := 0,
      out := 0, edges := 0, outTick := s.tm.tick, overspeed := false, zAt := none }) :
    aoEnableEff k x s = (Ans.ok, if x = 1 then u.emit (.pin "AO" k) [0, 0] else u) := by
  unfold aoEnableEff
  rw [if_neg hne, hu]
  rfl

theorem State.aoOverspeed_lags (hu : u = s.aoFollow k) (hen : u.rd (K.AO_ENABLE k) ≠ 0) (hlag : 16 < u.rd (K.AO_LAG k))
    (hover : (u.axis k).overspeed = false) :
    s.aoOverspeed k = ((u.setAxis k { u.axis k with overspeed := true }).inc (K.AO_OVERSPEED_COUNT k)).raise
      (srcAxis k) 0x00C8 3 k (u.rd (K.AO_LAG k) % 2 ^ 32 * 2 ^ 32) := by
  unfold State.aoOverspeed
  dsimp only
  rw [← hu, if_neg (by simp [hen, hover]; omega)]

/-- Motion of an axis whose count stands for a position, with no output to follow it (R365). -/
theorem State.axisMove_counts {d : Int} (hd : d ≠ 0) (hao : s.rd (K.AO_ENABLE k) = 0) (hu : u = s.putCount k (s.count k + d)) :
    s.axisMove k d = (((u.formPos k).markAhead k).bladeMotion k).aoFollow k := by
  have hao' : u.rd (K.AO_ENABLE k) = 0 := by
    rw [hu]
    exact (State.rd_wr_other _ _ (by unfold K.AO_ENABLE K.AX_COUNT; omega)).trans hao
  unfold State.axisMove
  rw [if_neg hd, ← hu]
  dsimp only
  rw [if_neg (by omega)]

theorem State.axisMotion_edges {d : BitVec 32} (hen : s.rd (K.AX_ENABLE k) ≠ 0) (hf : s.rd (K.AX_FAULT k) % 16 = 0)
    (hmode : s.rd (K.AX_MODE k) = 0) : s.axisMotion k (.edges d) = s.axisMove k d.toInt := by
  unfold State.axisMotion
  rw [if_neg (by omega)]
  exact if_pos hmode

theorem State.axisMotion_pair {a b : BitVec 20} (hen : s.rd (K.AX_ENABLE k) ≠ 0) (hf : s.rd (K.AX_FAULT k) % 16 = 0)
    (hmode : s.rd (K.AX_MODE k) = 1) : s.axisMotion k (.pair a b) = s.axisPair k a.toInt b.toInt := by
  unfold State.axisMotion
  rw [if_neg (by omega)]
  exact if_pos hmode

/-- Settles O50: each row of an axis meets its condition. -/
theorem axisCommandsComplete : Obligations.AxisCommandsComplete := by
  unfold Obligations.AxisCommandsComplete
  intro m ss s t u k c v
  refine ⟨fun h hv hon => writeCmd_carried h (axEnableEff_off hv hon), fun h hv hoff hu => writeCmd_carried h (axEnableEff_on hv hoff hu),
    fun bits new hdev hnew hen hne hst hu => live_eq hdev (State.axisFault_valid hnew hen hne hst hu),
    fun hdev hen hst hf hlow => live_eq hdev (State.signalRecovered_off hen hst hf hlow),
    fun hdev hen hst hf hclean => live_eq hdev (State.signalRecovered_ready hen hst hf hclean),
    fun h hst => writeCmd_carried h (if_pos hst), fun p h hrest hst hu => writeCmd_carried h ?_,
    fun delay at' hdev hen href hao hat hfil htick hjumps hu =>
      live_eq hdev (State.indexPulse_first k.isLt hen href hao hat hfil htick hjumps hu),
    fun d hdev hd hne hrest hen hf hu => live_eq hdev (State.axCorrected_shifts hd hne hrest hen hf hu),
    fun h harm hact => writeCmd_carried h (cmpArmEff_arms harm hact), fun h harm => writeCmd_carried h (cmpArmEff_disarms harm),
    fun hdev hdue => live_eq hdev (if_pos hdue), fun h hne _ hu => writeCmd_carried h (aoEnableEff_changes hne hu),
    fun hdev hu hen hlag hover => live_eq hdev (State.aoOverspeed_lags hu hen hlag hover),
    fun d hdev hen hf hmode hd hao hu =>
      live_eq hdev ((State.axisMotion_edges hen hf hmode).trans (State.axisMove_counts hd hao hu)),
    fun a b hdev hen hf hmode => live_eq hdev (State.axisMotion_pair hen hf hmode)⟩
  rw [hu]
  exact axPresetEff_accepted hrest hst

end Sys2Proof.Machine
end

section
/-! PROOFS. Lamp, row-scan and marker-lamp commands (R387 to R397) complete. -/

namespace Sys2Proof.Machine

variable {m : Msg} {ss : Session} {s t u v w : State} {k : Nat} {f : Flash}

/-- What each step of a fold leaves, the fold leaves. -/
theorem State.foldl_keeps {β γ : Type} {g : State → β → State} (p : State → γ) (hg : ∀ s b, p (g s b) = p s)
    (l : List β) (s : State) :
    p (l.foldl g s) = p s := by
  induction l generalizing s with
  | nil => rfl
  | cons b l ih => exact (ih _).trans (hg s b)

theorem State.undiagnose_tm (seg : Nat) : (s.undiagnose seg).tm = s.tm := by
  unfold State.undiagnose
  dsimp only
  split
  · rfl
  · split
    · rw [State.lightEvent, (State.raiseAt_raised ..).form]
      rfl
    · rfl

theorem State.countSlot_tm (r : Nat) : (s.countSlot r).tm = s.tm := by
  refine State.foldl_keeps State.tm (fun s seg => ?_) _ _
  dsimp only
  split
  · exact State.undiagnose_tm seg
  · rfl

/-- The light of a row is a matter of the lamps and of what is sent. -/
theorem State.lightRow_keeps {γ : Type} (p : State → γ) (hp : ∀ (s : State) l e, p { s with light := l, sent := e } = p s)
    (n r : Nat) (on : Nat → Nat) : p (s.lightRow n r on) = p s := by
  unfold State.lightRow
  dsimp only
  refine (State.foldl_keeps p (fun s seg => hp s _ s.sent) _ _).trans ?_
  exact hp s _ _

/-- The next slot of the steady scan (R387 to R391). -/
theorem State.rowSlot_steady (hen : s.rd K.LM_ENABLE ≠ 0) (hdue : s.light.nextSlot ≤ s.tm.tick) (hflash : s.light.flash = none) :
    (s.rowSlot).light.row = (s.light.row + 1) % 8 ∧ (s.rowSlot).od = (s.countSlot s.light.row).od ∧
      (s.rowSlot).ev = (s.countSlot s.light.row).ev ∧ (s.rowSlot).tm = s.tm := by
  unfold State.rowSlot
  dsimp only
  rw [if_neg (by omega), hflash]
  dsimp only
  refine ⟨rfl, State.lightRow_keeps State.od (fun _ _ _ => rfl) .., State.lightRow_keeps State.ev (fun _ _ _ => rfl) .., ?_⟩
  exact (State.lightRow_keeps State.tm (fun _ _ _ => rfl) ..).trans (State.countSlot_tm _)

theorem lmEnableEff_on {x : Nat} (hx : x = 1) (hoff : s.rd K.LM_ENABLE = 0) : lmEnableEff x s = (Ans.ok, (s.wr K.LM_ENABLE 1).startScan) := by
  subst hx
  unfold lmEnableEff
  dsimp only
  rw [if_neg (by omega), if_pos rfl]

theorem lmEnableEff_off {x : Nat} (hx : x = 0) (hon : s.rd K.LM_ENABLE = 1) (hflash : s.light.flash = none) : lmEnableEff x s =
    (Ans.ok, ((s.wr K.LM_ENABLE 0).wr K.LM_STATE 0).cutLight) := by
  have hflash' : (s.wr K.LM_ENABLE 0).light.flash = none := hflash
  subst hx
  unfold lmEnableEff
  dsimp only
  rw [if_neg (by omega), if_neg (by decide), hflash']

theorem State.flashDone_over (hflash : s.light.flash = some f) (hrows : f.rows = []) (hdue : s.light.nextSlot ≤ s.tm.tick) :
    s.flashDone = s.flashOver f.set s.light.nextSlot := by
  unfold State.flashDone
  rw [hflash]
  exact if_pos ⟨by rw [hrows]; rfl, hdue⟩

/-- A diagnosis of a segment whose on-period has ended (R393, R394). -/
theorem State.diagnoseSegment_due {result due before : Nat} (hdue : due = Tab.get (fun _ => 0) s.light.due k) (hset : due ≠ 0)
    (hpast : due ≤ s.tm.tick) (hresult : result ≠ 0) (hbefore : before = Tab.get (fun _ => 0) s.light.failed k)
    (hu : u = { s with
      light := { s.light with
        due := Tab.set (fun _ => 0) s.light.due k 0,
        quiet := Tab.set (fun _ => 0) s.light.quiet k 0,
        failed := Tab.set (fun _ => 0) s.light.failed k (if result = 1 then 0 else result) } }) :
    s.diagnoseSegment k result = if result = 1 then u.setSegStatus k 1
      else if before = result ∧ u.segStatus k ≠ result then
        ((u.setSegStatus k result).inc K.LM_SEG_FAULTS).lightEvent due 0xD8 0x00D0 3 k result
      else u := by
  unfold State.diagnoseSegment
  dsimp only
  rw [← hdue, if_neg (by omega), ← hbefore, ← hu]

/-- A failing diagnosis of a lamp that had none (R396). -/
theorem State.diagnoseLamp_fails {result : Nat} (hmode : s.rd (K.WL_MODE k) ≠ 0) (hresult : 2 ≤ result) (hst : s.rd (K.WL_STATUS k) ≤ 1)
    (hu : u = (s.setLamp k { s.lamp k with since := s.tm.tick }).wr (K.WL_DIAG_STAMP k) s.now) :
    s.diagnoseLamp k result = ((u.setLamp k { u.lamp k with ack := none }).wr (K.WL_STATUS k) result).lampFail k := by
  unfold State.diagnoseLamp
  dsimp only
  rw [if_neg (by omega), if_neg (by omega), if_neg (by omega), ← hu]

theorem wlModeEff_on {x : Nat} (hx : x ≠ 0) (hu : u = (s.wr (K.WL_MODE k) x).driveLamp k) : wlModeEff k x s =
    (Ans.ok, if s.rd (K.WL_MODE k) = 0 then u.setLamp k { since := u.tm.tick, ack := none } else u) := by
  unfold wlModeEff
  dsimp only
  rw [if_neg hx, ← hu]

theorem wlModeEff_off {x : Nat} (hx : x = 0)
    (hu : u = (((s.wr (K.WL_MODE k) 0).driveLamp k).wr (K.WL_STATUS k) 0).setLamp k Lamp.init) : wlModeEff k x s =
    (Ans.ok, if u.inPolicy k then u.lampFail k else u) := by
  subst hx
  unfold wlModeEff
  dsimp only
  rw [if_pos rfl, ← hu]

/-- Settles O51: each row of the lamps meets its condition; a slot by `rowSlot_steady`. -/
theorem lightCommandsComplete : Obligations.LightCommandsComplete := by
  unfold Obligations.LightCommandsComplete
  intro m ss s t u w v f
  refine ⟨fun h hv hoff => writeCmd_carried h (lmEnableEff_on hv hoff),
    fun h hv hon hflash => writeCmd_carried h (lmEnableEff_off hv hon hflash),
    fun hdev hen hdue hflash hu => ⟨s.rowSlot, live_eq hdev rfl, ?_⟩,
    fun hdev hflash hrows hdue => live_eq hdev (State.flashDone_over hflash hrows hdue),
    fun g result due before hdev hdue hset hpast hresult hbefore hu =>
      live_eq hdev (State.diagnoseSegment_due hdue hset hpast hresult hbefore hu),
    fun result hdev hmode hresult hst hu => live_eq hdev (State.diagnoseLamp_fails hmode hresult hst hu),
    fun hdev hmode hst hdue => live_eq hdev (if_neg (by omega)), fun h hst => writeCmd_carried h (if_neg (by omega)),
    fun h hv hu => writeCmd_carried h (wlModeEff_on hv hu), fun h hv hu => writeCmd_carried h (wlModeEff_off hv hu)⟩
  rw [hu]
  exact State.rowSlot_steady hen hdue hflash

end Sys2Proof.Machine
end

section
/-! PROOFS. The commands and steps of the twin pair (R406 to R424), the messages of a partner, and the mirrored messages complete. -/

namespace Sys2Proof.Machine

variable {m : Msg} {ss : Session} {s t u v : State} {p : PMsg} {q : BitVec 32}

/-! What a failed partner leaves -/

/-- Neither a takeover that is due nor the last heartbeat heard is touched. -/
structure SameWatch (s t : State) : Prop where
  takeover : t.tw.takeoverAt = s.tw.takeoverAt
  heard : t.tw.heardAt = s.tw.heardAt

theorem SameWatch.trans (h : SameWatch s t) (h' : SameWatch t u) : SameWatch s u :=
  ⟨h'.takeover.trans h.takeover, h'.heard.trans h.heard⟩

theorem SameWatch.of_tw (h : t.tw = s.tw) : SameWatch s t := ⟨congrArg Twin.takeoverAt h, congrArg Twin.heardAt h⟩

theorem SameWatch.raise (src code cls inst data : Nat) : SameWatch s (s.raise src code cls inst data) :=
  .of_tw (by rw [(State.raise_raised ..).form])

theorem State.ownDigest_sameWatch : SameWatch s s.ownDigest := by
  unfold State.ownDigest
  split
  · exact ⟨rfl, rfl⟩
  · exact ⟨rfl, rfl⟩

theorem State.sendDigest_sameWatch : SameWatch s s.sendDigest := by
  unfold State.sendDigest
  split
  · exact ⟨rfl, rfl⟩
  · exact ⟨rfl, rfl⟩

theorem State.setDigestHold_sameWatch (n : Nat) : SameWatch s (s.setDigestHold n) := by
  unfold State.setDigestHold
  dsimp only
  split
  · exact ⟨rfl, rfl⟩
  · split
    · exact ⟨rfl, rfl⟩
    · exact ⟨rfl, rfl⟩

theorem State.compareFleet_sameWatch (atClose : Bool) : SameWatch s (s.compareFleet atClose) := by
  unfold State.compareFleet
  split
  · exact ⟨rfl, rfl⟩
  · extract_lets own view cause was shown cleared mismatch
    have hshown : SameWatch s shown := State.ownDigest_sameWatch.trans ⟨rfl, rfl⟩
    split
    · refine SameWatch.trans ?_ (State.setDigestHold_sameWatch 0)
      unfold cleared
      split
      · exact hshown.trans (SameWatch.raise ..)
      · exact hshown
    · have hmismatch : SameWatch s mismatch := hshown.trans (SameWatch.raise ..)
      split
      · exact hmismatch.trans (State.setDigestHold_sameWatch 1)
      · exact hmismatch

theorem State.nodeGone_sameWatch (k : Nat) : SameWatch s (s.nodeGone k) := by
  unfold State.nodeGone
  split
  · exact ⟨rfl, rfl⟩
  · exact ⟨rfl, rfl⟩

theorem State.fleetChanged_sameWatch : SameWatch s s.fleetChanged :=
  (State.ownDigest_sameWatch.trans State.sendDigest_sameWatch).trans (State.compareFleet_sameWatch false)

/-- A standby whose partner has failed takes over on the next tick (R412). -/
theorem State.partnerFailed_standby (hrole : s.role = Role.standby) :
    s.partnerFailed.tw.takeoverAt = some (s.tm.tick + 1) ∧ s.partnerFailed.tw.heardAt = none := by
  unfold State.partnerFailed
  extract_lets role bare watch quiet told watch' acted
  have hquiet : told.tw.heardAt = none ∧ told.tm.tick = s.tm.tick := by
    unfold told
    split
    · exact ⟨rfl, rfl⟩
    · rw [(State.raise_raised ..).form]
      exact ⟨rfl, rfl⟩
  have hacted : acted = { told with tw := { told.tw with takeoverAt := some (told.tm.tick + 1) } } := if_pos hrole
  obtain ⟨htake, hheard⟩ := (State.nodeGone_sameWatch (s := acted) acted.partnerNode).trans State.fleetChanged_sameWatch
  rw [htake, hheard, hacted, ← hquiet.2]
  exact ⟨rfl, hquiet.1⟩

/-! Commands and steps of the pair -/

/-- Settles O52: each row meets its condition; a failed partner by `partnerFailed_standby`. -/
theorem pairCommandsComplete : Obligations.PairCommandsComplete := by
  unfold Obligations.PairCommandsComplete
  intro m ss s t u at' l
  refine ⟨fun h hrole hpartner => writeCmd_carried h (if_neg (by simp [hrole, hpartner])), fun h hrole hidle => writeCmd_carried h ?_,
    fun h hrole hpartner => writeCmd_carried h (if_neg (by simp [hrole, hpartner])),
    fun hdev hrole hstart hstrap hheard hstamp hready =>
      live_eq hdev (if_pos ⟨hrole, hstart, hstrap, by simp [hheard], hstamp, hready⟩),
    fun hdev hpair hlinks => live_eq hdev (if_neg (by simp [hpair, hlinks])),
    fun hdev hat hdue hrole => ⟨s.partnerFailed, live_eq hdev ?_, State.partnerFailed_standby hrole⟩,
    fun hdev hat hdue hrole => live_eq hdev ?_, fun hdev hat hdue hrole => live_eq hdev ?_, fun hdev hat hdue hrole => live_eq hdev ?_,
    fun hdev hst hrole => live_eq hdev ((if_neg (not_not_intro hst)).trans (if_pos hrole)),
    fun hdev hu => live_eq hdev (by rw [hu]; rfl), fun hdev hat hup hdue => live_eq hdev ?_, fun h hhold => writeCmd_carried h (if_neg hhold)⟩
  · exact (if_neg fun hno => hno.2 (hidle hno.1)).trans (if_neg hrole)
  · dsimp only
    rw [hat]
    exact if_pos hdue
  · dsimp only
    rw [hat]
    exact if_pos ⟨hdue, hrole⟩
  · unfold State.handoverEffect
    dsimp only
    rw [hat]
    exact (if_neg (by omega)).trans (if_pos hrole)
  · unfold State.handoverEffect
    dsimp only
    rw [hat]
    refine (if_neg (by omega)).trans ((if_neg ?_).trans (if_pos hrole))
    rw [hrole]
    decide
  · unfold State.digestTimeout
    dsimp only
    rw [hat]
    exact if_pos ⟨hup, hdue⟩

/-! Messages of a partner -/

/-- A message that a link in use brings, with an epoch not behind, is taken (R407, R410). -/
theorem State.partnerIn_heard {type : Nat} {k : State → State} (h : Heard p s t) : s.partnerIn p type k = k t := by
  obtain ⟨-, hlink, hepoch, ht⟩ := h
  unfold State.partnerIn
  dsimp only
  rw [hlink, if_neg (by decide), if_neg (by omega), ht]
  rfl

theorem exec_heard {type : Nat} {k : State → State} (h : Heard p s t) (hk : k t = u) :
    live (fun s => s.partnerIn p type k) s = .next u.settle := live_eq h.1 ((State.partnerIn_heard h).trans hk)

theorem State.heartbeat_calm {b : Beat} (hcalm : b.failing = false) (hu : u = (s.beatHeard p.epoch.toNat).partnerRole b.role.toNat)
    (hv : v = (u.beatRole (b.role.toNat == Role.active) p.epoch.toNat).beatStep (s.beatTick p.link.val b) b.mirrorSeq.toNat) :
    s.heartbeat p b = if v.role = Role.standby ∨ v.role = Role.syncing then v.timeFrom b (s.beatTick p.link.val b) else v := by
  unfold State.heartbeat
  dsimp only
  rw [← hu, ← hv, hcalm]
  exact if_neg fun h => Bool.false_ne_true h.1

/-- Settles O53: `exec_heard` takes each message; what it does then is its row's. -/
theorem partnerMessagesComplete : Obligations.PartnerMessagesComplete := by
  unfold Obligations.PartnerMessagesComplete
  intro p s t u v hh
  refine ⟨fun b hcalm hu hv => exec_heard hh (State.heartbeat_calm hcalm hu hv), fun n crc c hc => exec_heard hh ?_,
    fun role rejected hrole hpartner hepoch => exec_heard hh (if_pos ⟨hrole, hpartner, hepoch⟩),
    fun i hrole => exec_heard hh (if_pos hrole), fun digest b hrole hst hu => exec_heard hh ?_,
    fun digest view nodes hrole hnone hu hv hvrole => exec_heard hh ?_,
    fun effect hrole hstrap => exec_heard hh (if_pos ⟨hrole, hstrap⟩), fun b hrole => exec_heard hh (if_neg hrole)⟩
  · rw [hc]
  · unfold State.syncState
    rw [if_neg (by simp [hrole, hst]), hu]
  · dsimp only
    rw [← hu, ← hv, hnone, if_neg (by simp), if_neg fun h => h.1 hvrole]

/-! Mirrored messages -/

/-- The next message in sequence, on a part that follows (R411). -/
theorem State.mirrorIn_next {k : State → State} (h : NextMirror q t u) : t.mirrorIn q k = k u := by
  obtain ⟨hrole, hseq, hu⟩ := h
  unfold State.mirrorIn
  dsimp only
  rw [hseq, if_neg (by rcases hrole with h | h <;> simp [h]), if_pos (.inl rfl), hu]

theorem exec_mirrored {type : Nat} {k : State → State} (h : Heard p s t) (hn : NextMirror q t u) (hk : k u = v) :
    live (fun s => s.partnerIn p type fun s => s.mirrorIn q k) s = .next v.settle :=
  exec_heard h ((State.mirrorIn_next hn).trans hk)

/-- Settles O54: `exec_mirrored` takes each message. -/
theorem mirroredMessagesComplete : Obligations.MirroredMessagesComplete := by
  unfold Obligations.MirroredMessagesComplete
  intro p q s t u hh hn
  exact ⟨fun effect c v hv => exec_mirrored hh hn (by rw [hv]), fun tc a data => exec_mirrored hh hn rfl,
    fun effect tc unmap request => exec_mirrored hh hn rfl, fun decided l => exec_mirrored hh hn rfl,
    fun apply cells v hv => exec_mirrored hh hn (by rw [hv]), fun sample l => exec_mirrored hh hn rfl⟩

end Sys2Proof.Machine
end

section
/-! PROOFS. Interlock and permit commands (R441 to R444) and calibration commands (R456 to R476) complete. -/

namespace Sys2Proof.Machine

variable {m : Msg} {ss : Session} {s t u v w : State} {n : Nat}

/-! Interlocks and permits -/

theorem State.interlockChange_changed {i delay : Nat} {closed : Bool} (hin : (s.rd K.IL_INPUTS).testBit i ≠ closed)
    (hu : u = s.wr K.IL_INPUTS (if closed then s.rd K.IL_INPUTS + 2 ^ i else s.rd K.IL_INPUTS - 2 ^ i))
    (hw : w = { u with
      isl := { u.isl with
        disagree := Tab.set (fun _ => 0) u.isl.disagree (i / 2)
          (if !u.pairClosed (i / 2) && !u.pairOpen (i / 2) then s.tm.tick - delay + 1 else 0) } }) :
    s.interlockChange i closed delay = w.setPair (s.tm.tick - delay) (i / 2) (w.pairNext (i / 2)) := by
  unfold State.interlockChange
  dsimp only
  rw [if_neg hin, ← hu, ← hw]

/-- Pins that read other than their permit drives them, of a permit whose fault is not yet shown (R441). -/
theorem State.readback_faults {a b : Bool} {pins : Nat} (hpins : pins = s.wrongPins n a b) (hne : pins ≠ 0)
    (hnew : (s.rd K.BP_READBACK_FAULT).testBit n = false)
    (hu : u = { s with isl := { s.isl with bad := Tab.set (fun _ => 0) s.isl.bad n pins } }) :
    s.readback n a b = ((u.wr K.BP_READBACK_FAULT (u.rd K.BP_READBACK_FAULT + 2 ^ n)).raise 0x00 0x0003 1 n
      (n + pins * 2 ^ 8)).withdraw (2 ^ n) Bp.readback := by
  have hnew' : (u.rd K.BP_READBACK_FAULT).testBit n = false := by rw [hu]; exact hnew
  unfold State.readback
  dsimp only
  rw [← hpins, if_neg hne, ← hu, hnew', if_neg (by decide)]

/-- Settles O55: each row meets its condition. -/
theorem permitCommandsComplete : Obligations.PermitCommandsComplete := by
  unfold Obligations.PermitCommandsComplete
  intro m ss s t u i p n a b closed v delay
  refine ⟨fun w hdev hdelay hin hu hw => awake_eq hdev (by subst hdelay; exact State.interlockChange_changed hin hu hw),
    fun hdev hset hdue hst => awake_eq hdev (if_neg (by omega)),
    fun pins hdev hpins hne hnew hu => awake_eq hdev (State.readback_faults hpins hne hnew hu),
    fun h hall => writeCmd_carried h (if_pos hall), fun h hall => writeCmd_carried h (if_neg (by simp [hall]))⟩

/-! Calibration -/

theorem calLoadEff_loads {x : Nat} (hfree : s.cal.load = none) : calLoadEff x s = (Ans.ok, s.loadGo (s.rd K.CAL_LOAD_ADDR)) := by
  unfold calLoadEff
  rw [hfree]
  exact if_neg Bool.false_ne_true

/-- A measurement whose precondition holds begins on the active part (R462). -/
theorem calMeasureEff_begins {kind inst : Nat} (hkind : kind ∈ [0x12, 0x20, 0x31, 0x33]) (hinst : inst < 65536) (hrole : s.role = Role.active)
    (hidle : s.rd K.CAL_MEAS_STATE = 0) (hok : s.measOk kind inst = true)
    (hu : u = { s.wr K.CAL_MEAS_STATE 1 with
      cal := { s.cal with
        meas := { kind := kind, inst := inst, chan := 0, aims := [], points := [], capture := none, shot := 0, waits := [],
                  found := [], first := [], second := [], lost := [], frames := 0, sums := [], start := s.count inst } } }) :
    calMeasureEff (kind * 2 ^ 24 + inst) s =
      (Ans.ok, if kind = 0x12 then u.startCrosses ((maskList 16 inst).headD 0) 1 else u) := by
  have hk : (kind * 2 ^ 24 + inst) / 2 ^ 24 = kind := by omega
  have hi : (kind * 2 ^ 24 + inst) % 65536 = inst := by omega
  have hlisted : ([0x12, 0x20, 0x31, 0x33] : List Nat).contains kind = true := List.contains_iff_mem.mpr hkind
  unfold calMeasureEff
  dsimp only
  rw [hk, hi, hlisted, if_neg (by decide), if_neg (not_not_intro hrole), if_neg (by simp [hidle, hok]), ← hu]

theorem State.fiducialCapture_due {tick : Nat} {on : List Nat} (hcap : s.cal.meas.capture = some tick) (hdue : tick ≤ s.tm.tick)
    (hkind : s.cal.meas.kind = 0x12) (hst : s.rd K.CAL_MEAS_STATE = 1 ∨ s.rd K.CAL_MEAS_STATE = 2)
    (hv : v = s.fireFlash (s.rd K.CAL_FID_FLASH)) (hon : on = [16, 17, 18, 19].filter (fun k => v.rd (K.PC_ENABLE k) == 1))
    (hw : w = on.foldl (fun s k => s.expose k) v) :
    s.fiducialCapture = { w with cal := { w.cal with meas := { s.cal.meas with
      capture := none, shot := w.tm.tick, waits := on.filter fun k => v.rd (K.PC_TRIGGER k) == 0 } } } := by
  unfold State.fiducialCapture
  dsimp only
  rw [hcap]
  dsimp only
  rw [if_neg (by simp only [hkind]; omega), ← hv, ← hon, ← hw]

/-- The runs of an axis trim enter a slot, and the measurement ends (R462). -/
theorem State.calMeasured_axis {a b : List Byte} (hst : s.rd K.CAL_MEAS_STATE = 3) (hkind : s.cal.meas.kind = 0x33)
    (hlost : s.cal.meas.lost = []) (ha : a.length = 8) (hb : b.length = 8) (htc : s.rd (K.TC_STATE 63) ≠ 2)
    (henter : s.enterPair (0x3300 + s.cal.meas.inst, a, b) = some u) :
    ∃ slot detail : Nat, s.calMeasured [a, b] = (u.calEvent 0x0092 4 slot (0x3300 + s.cal.meas.inst) detail).measIdle := by
  have hruns : s.measRuns [a, b] = [(0x3300 + s.cal.meas.inst, a, b)] := by
    unfold State.measRuns
    dsimp only
    rw [hkind]
    exact if_pos ⟨hst, ha, hb⟩
  have hended : decide (s.rd K.CAL_MEAS_STATE ≠ 0 ∧ ((!(s.measRuns [a, b]).isEmpty) = true ∨
      (s.cal.meas.kind = 0x12 ∧ s.rd K.CAL_MEAS_STATE = 3))) = true := by
    rw [hruns, hst]
    exact decide_eq_true ⟨by decide, .inl rfl⟩
  unfold State.calMeasured
  dsimp only
  rw [hended, if_neg (by decide), if_neg htc, hruns]
  dsimp only [List.foldl_cons, List.foldl_nil, Option.bind_some]
  rw [henter, hlost]
  exact ⟨_, _, rfl⟩

theorem calMeasAbortEff_dark {x : Nat} (hst : s.rd K.CAL_MEAS_STATE ≠ 0) (hdark : s.exposing s.cal.meas.chan = false) :
    calMeasAbortEff x s = (Ans.ok, s.measIdle) := by
  unfold calMeasAbortEff
  dsimp only
  rw [if_neg hst, hdark]
  rfl

theorem candDiscardEff_discards {x : Nat} (hfree : s.slotNamed n = false) :
    candDiscardEff n x s = (Ans.ok, if s.rd (K.CAND_STATE n) = 0 then s else s.setSlot n 0 0 0) := by
  unfold candDiscardEff
  rw [hfree, if_neg (by decide)]
  rfl

theorem State.trimApply_one {d : TrimDue} (hd : s.cal.trims = [d]) (hu : u = { s with cal := { s.cal with trims := [] } }) :
    s.trimApply false = (u.trimGo false d).installOver := by
  unfold State.trimApply
  dsimp only
  rw [hd, hu]
  rfl

theorem State.calStored_places {type : Nat} {rest : List Nat} {r : CalRec} {good : Bool} {none2 : Option CalRec × Option CalRec}
    (hwrites : s.cal.writes = type :: rest) (hr : s.record type = some r) (hnone : none2 = (none, none))
    (hu : u = { s with
      cal := { s.cal with
        writes := rest,
        store := Tab.set (fun _ => none2) s.cal.store type (placeCopy (Tab.get (fun _ => none2) s.cal.store type) r good) } }) :
    s.calStored good = if good then (u.wr K.CAL_STORE_STATE (if rest.isEmpty then 0 else 1)).calEvent 0x0095 6 0xFF type r.gen
      else (u.wr K.CAL_STORE_STATE 2).calEvent 0x0096 3 0xFF type r.gen := by
  subst hnone
  unfold State.calStored
  rw [hwrites]
  dsimp only
  rw [hr, hu]

/-- Settles O56: each row meets its condition; a measurement begins by `calMeasureEff_begins`. -/
theorem calibrationCommandsComplete : Obligations.CalibrationCommandsComplete := by
  unfold Obligations.CalibrationCommandsComplete
  intro m ss s t u i inst
  refine ⟨fun h hfree => writeCmd_carried h (calLoadEff_loads hfree), fun kind hkind h hidle hok hu => ?_,
    fun tick on v w hdev hcap hdue hkind hst hv hon hw => live_eq hdev (State.fiducialCapture_due hcap hdue hkind hst hv hon hw),
    fun a b hdev hst hkind hlost ha hb htc henter => ?_, fun h hst hdark => writeCmd_carried h (calMeasAbortEff_dark hst hdark),
    fun h hfree => writeCmd_carried h (candDiscardEff_discards hfree), fun d hdev hd hu => live_eq hdev (State.trimApply_one hd hu),
    fun type rest r good none2 hdev hwrites hr hnone hu => live_eq hdev (State.calStored_places hwrites hr hnone hu)⟩
  · have hrole : t.role = Role.active := by
      obtain ⟨-, -, -, -, -, -, hrole | hlocal, -⟩ := h
      · exact hrole
      · cases hlocal
    have hbegins := calMeasureEff_begins hkind inst.isLt hrole hidle hok hu
    refine ⟨?_, ?_, ?_, ?_⟩
    all_goals
      rintro rfl
      exact writeCmd_carried h hbegins
  · obtain ⟨slot, detail, hend⟩ := State.calMeasured_axis hst hkind hlost ha hb htc henter
    exact ⟨slot, detail, live_eq hdev hend⟩

end Sys2Proof.Machine
end

section
/-! PROOFS. Temperature and supply commands complete (R477 to R502). -/

namespace Sys2Proof.Machine

variable {m : Msg} {ss : Session} {s t u v w x y z : State}

/-- A sample that no sensor fails on and none returns on (R477 to R486). -/
theorem State.thermalSample_calm {raws : List Nat} {r : List Int} {apex : Int} (hu : u = s.trimApply true)
    (hr : r = (List.range 14).map (fun i => u.reading i (raws.getD i 0))) (hcheck : u.checkSensors r raws = ([], [], v))
    (hapex : v.apexOf r = (apex, w))
    (hx : x = w.wrs [(K.DT_APEX, uns 16 apex), (K.DT_SENSOR_VALUE, leNat (r.flatMap fun v => toLE 2 (uns 16 v)))])
    (hy : y = if x.rdS 16 K.DT_PEAK < apex then x.wr K.DT_PEAK (uns 16 apex) else x)
    (hz : z = { y with die := { y.die.cross apex with apexes := ((y.tm.tick, apex) :: y.die.apexes).take 64 } }) :
    s.thermalSample raws = (((z.wr K.DT_THRESH_LEVEL z.thresholdLevel).setCutoff).setLevel).setFast := by
  unfold State.thermalSample
  dsimp only
  rw [← hu, ← hr, hcheck]
  dsimp only
  rw [hapex]
  dsimp only
  rw [← hx, ← hy, ← hz]
  rfl

theorem State.stopDone_off (hst : s.rd K.DT_STOP_STATE = 1) (hoff : ∀ n < 16, s.rd (K.BC_STATE n) = Bc.off) :
    s.stopDone = (s.askSeal.endScans.wr K.DT_STOP_STATE 2).dieEvent 0x0015 4 0 0 0 := by
  have hquiet : ((List.range 16).any fun n => s.rd (K.BC_STATE n) != Bc.off) = false := by
    simpa using hoff
  unfold State.stopDone
  dsimp only
  rw [hquiet, if_neg (by simp [hst])]

theorem sensorAckEff_acks {a : Nat} (hnamed : ∀ i ∈ maskList 16 a, i < 14 ∧ s.sensorState i = 1)
    (hu : u = (maskList 16 a).foldl (fun s i => (s.setSensorState i 2 (octByte (s.rd K.DT_SENSOR_CAUSE) i)).setSensor i
      { s.sensor i with goodSince := none }) s) :
    sensorAckEff a s = (Ans.ok, if (List.range 14).any (fun i => u.sensorState i == 1) then u else (u.wr K.DT_FLOOR 0).setLevel) := by
  have hwrong : ((maskList 16 a).any fun i => decide (14 ≤ i) || s.sensorState i != 1) = false := by
    rw [List.any_eq_false]
    intro i hi
    obtain ⟨hlt, hst⟩ := hnamed i hi
    simp [hst, hlt]
  unfold sensorAckEff
  dsimp only
  rw [hwrong, if_neg (by decide), ← hu]

/-- The end of a start-up whose rails came up in order (R502). -/
theorem State.startDone_inOrder (hdev : s.dev = .starting) (htrain : s.pw.trainFailed = false)
    (hu : u = State.loadStore { s with dev := .running })
    (hv : v = u.loadTypes.showLoaded.intoForce.takeRing.startUnits.digestPending.digestCurrent.wr K.PWR_RESET_CAUSE s.pw.cause)
    (horder : s.rd K.PWR_ORDER_FAULT = 0)
    (hw : w = { v with
      tw := { v.tw with readyTick := v.tm.tick, heard := false },
      pw := { v.pw with valid := true, warm := false, nextCause := 0 } }) :
    s.startDone = w.openPorts.raise 0x03 0x0024 4 0 (s.pw.cause + (s.tm.tick - s.pw.startTick) / 100000 * 2 ^ 32) := by
  unfold State.startDone
  dsimp only
  rw [if_neg (by simp [hdev, htrain]), ← hu, ← hv, horder, if_neg (by simp), hw]

/-- A warm reset asked for by a session when every channel is OFF and nothing is being stored (R500). -/
theorem warmResetEff_resets {session x : Nat} (hoff : ∀ n < 16, s.rd (K.BC_STATE n) = Bc.off) (hkeep : s.rd K.KEEP_STATE ≠ 2)
    (hstore : s.rd K.CAL_STORE_STATE ≠ 1) (hu : u = (s.raise 0x03 0x0025 5 0 session).withdraw 0xFFFF Bp.reset) :
    warmResetEff false session x s = (Ans.ok, { u with pw := { u.pw with warm := true } }) := by
  have hquiet : ((List.range 16).any fun n => s.rd (K.BC_STATE n) != Bc.off) = false := by
    simpa using hoff
  unfold warmResetEff
  rw [if_neg (by decide), hquiet, if_neg (by simp [hkeep, hstore]), hu]

/-- Settles O57: each row meets its condition. -/
theorem dieAndSupplyCommandsComplete : Obligations.DieAndSupplyCommandsComplete := by
  unfold Obligations.DieAndSupplyCommandsComplete
  intro m ss s t u v w
  refine ⟨fun raw r apex x hdev hlen hu hr hcheck hapex hx y hy z hz =>
      live_eq hdev ((if_pos hlen).trans (State.thermalSample_calm hu hr hcheck hapex hx hy hz)),
    fun hdev hst hoff => live_eq hdev (State.stopDone_off hst hoff),
    fun a h hnamed hu => writeCmd_carried h (sensorAckEff_acks hnamed hu), fun h hlen => live_eq h.2.1 (clearingRead_taken h hlen),
    fun p hdev => congrArg Host.Outcome.next (if_neg hdev),
    fun hdev htrain hu hv horder hw => awake_eq (by rw [hdev]; decide) (State.startDone_inOrder hdev htrain hu hv horder hw),
    fun hdev hload hu hv => live_eq hdev ?_, fun rails hdev hrails hu => awake_eq hdev ?_, fun hdev hu hv => awake_eq hdev ?_,
    fun hdev hlost => congrArg Host.Outcome.next (if_neg (by simp [hdev, hlost])),
    fun h hoff hkeep hstore hu =>
      live_eq h.1.2.1 (congrArg State.afterReset (hostWrite_carried h (warmResetEff_resets hoff hkeep hstore hu))),
    fun h => writeCmd_carried h rfl, fun hdev hlow => live_eq hdev (if_neg hlow),
    fun hdev => live_eq hdev rfl, fun hu => by rw [hu]; rfl, fun p up hdev hlink => awake_eq hdev (if_neg hlink)⟩
  · unfold State.poolRecords
    dsimp only
    rw [hload, if_neg (by decide), ← hu, ← hv]
  · unfold State.powerFail
    dsimp only
    rw [if_neg (by simp [hdev, hrails]), ← hu]
  · unfold State.clockLoss
    dsimp only
    rw [if_neg hdev, ← hu, ← hv]

end Sys2Proof.Machine
end

section
/-! PROOFS. The debug port (R507 to R520): its requests carried out, and the control entry of a debugged sequencer. -/

namespace Sys2Proof.Machine

variable {r : DbgReq} {s t u : State} {n : Nat}

/-- A write that passes its checks shows what the entry's effect left, noted as a keep entry where it changed one. -/
theorem State.applyWrite_passes {debug : Bool} {key len v : Nat} {eff : Nat → State → Nat × State}
    (hcheck : s.writeCheck debug key len v = none) (hrole : s.role = Role.active ∨ partLocal key = true)
    (heff : eff v s = (Ans.ok, u)) : s.applyWrite debug false key len v eff = (Ans.ok, s.noted u key) := by
  unfold State.applyWrite State.noted
  rw [hcheck]
  dsimp only
  rw [if_neg (by rw [State.mayWrite_of hrole]; decide), heff]
  cases Dict.find key with
  | none => rfl
  | some d => exact (apply_ite (fun w => (Ans.ok, w)) _ _ _).symm

/-- A debug write of an entry, carried out on this part alone (R509, R510). -/
theorem debugWrite_carried {key : Nat} {value : List Byte} (h : DebugTaken r s (4 + value.length)) (hpos : 1 ≤ value.length)
    (hmax : value.length ≤ 1024) (hmirror : s.mirrored = false ∨ partLocal key = true)
    (hrole : s.role = Role.active ∨ partLocal key = true) (hcheck : s.writeCheck true key value.length (leNat value) = none)
    (heff : writeEffect true 0 0 key (leNat value) s = (Ans.ok, u)) :
    debugWrite r key value s = ((s.noted u key).debugDone r.tag.toNat Ans.ok []).debugEvent key Ans.ok := by
  have ⟨_, _, _, hlen, _⟩ := h
  have hfit : (r.length.toNat == 4 + value.length && decide (1 ≤ value.length) && decide (value.length ≤ 1024)) = true := by
    simp only [hlen, hpos, hmax, beq_self_eq_true, decide_true, Bool.and_self]
  refine (debugReq_taken h hfit).trans ?_
  rw [if_neg (by rcases hmirror with hm | hm <;> simp [hm]), State.applyWrite_passes hcheck hrole heff]

/-- A request of a known form but a bad opcode is answered MALFORMED whatever its length (R508). -/
theorem debugReq_misfit {ident : Bool} {k : Nat → State → State} (hcrc : r.crcOk = true) :
    debugReq r ident false k s = s.debugFault Dbg.malformed := by
  unfold debugReq
  dsimp only
  rw [if_neg (by rw [hcrc]; decide), if_pos (by simp)]

/-! The control entry of a debugged sequencer (R517 to R519) -/

/-- The line of the sequencers' control entries. -/
def seqControlRow : Dict.Row := ⟨0x3100, 16, 0x10, 1, 0x0, 0x1, 1, .u8, 1, .wo, false, false, false, 1, 3, 1, [], none, 0⟩

theorem seqControl_find : ∀ n < 16, Dict.find (K.DBG_SEQ_CONTROL n) = some seqControlRow := by decide

theorem seqControl_indexExists : ∀ n < 16, Dict.indexExists (K.DBG_SEQ_CONTROL n / 256) = true := by decide

/-- The debug port may write 1 to 3 to a sequencer's control entry. -/
theorem State.writeCheck_seqControl {c : Byte} (hn : n < 16) (hc : c = 1 ∨ c = 2 ∨ c = 3) :
    s.writeCheck true (K.DBG_SEQ_CONTROL n) [c].length (leNat [c]) = none := by
  have hvalue : seqControlRow.bitsOk (leNat [c]) = true ∧ seqControlRow.rangeOk (leNat [c]) = true := by
    rcases hc with rfl | rfl | rfl <;> decide
  unfold State.writeCheck
  rw [seqControl_find n hn, seqControl_indexExists n hn]
  rw [if_neg (by decide), if_neg (by unfold K.DBG_SEQ_CONTROL; omega)]
  dsimp only
  rw [hvalue.1, hvalue.2, if_neg (by decide), if_neg ?_, if_neg (by simp [seqControlRow]), if_neg (by decide), if_neg (by decide),
    if_neg (by simp [seqControlRow])]
  have hrow : ¬ seqControlRow.acc = .rwg := by decide
  have hkeys : K.DBG_SEQ_CONTROL n ≠ K.PERMIT_RESTART ∧ K.DBG_SEQ_CONTROL n ≠ K.BP_READBACK_CLEAR := by
    unfold K.DBG_SEQ_CONTROL K.PERMIT_RESTART K.BP_READBACK_CLEAR
    omega
  simp [hrow, hkeys]

theorem writeEffect_seqControl (debug : Bool) (session port v : Nat) (hn : n < 16) :
    writeEffect debug session port (K.DBG_SEQ_CONTROL n) v s = seqControlEff n debug v s := by
  have hix : K.DBG_SEQ_CONTROL n / 256 = 0x3100 + n * 16 := by unfold K.DBG_SEQ_CONTROL; omega
  have hsub : K.DBG_SEQ_CONTROL n % 256 = 1 := by unfold K.DBG_SEQ_CONTROL; omega
  have hseq : (0x3100 + n * 16 - 0x3100) / 16 = n := by omega
  unfold writeEffect
  rw [if_neg (by unfold K.DBG_SEQ_CONTROL K.KEEP_RESTORE; omega)]
  unfold entryEffect
  dsimp only
  rw [hix, hsub, if_neg (by omega), if_pos (by omega)]
  unfold beamEffect
  dsimp only
  rw [hix, hsub, if_neg (by omega), if_pos (by omega), if_pos (by omega), hseq]

/-- A control command of the debug port on the ACTIVE part, carried out at once. -/
theorem debugWrite_seqControl {c : Byte} (h : DebugTaken r s 5) (hmirror : s.mirrored = false) (hrole : s.role = Role.active)
    (hn : n < 16) (hc : c = 1 ∨ c = 2 ∨ c = 3) (heff : seqControlEff n true (leNat [c]) s = (Ans.ok, u)) :
    debugWrite r (K.DBG_SEQ_CONTROL n) [c] s =
      ((s.noted u (K.DBG_SEQ_CONTROL n)).debugDone r.tag.toNat Ans.ok []).debugEvent (K.DBG_SEQ_CONTROL n) Ans.ok :=
  debugWrite_carried h (by simp) (by simp) (.inl hmirror) (.inl hrole) (State.writeCheck_seqControl hn hc)
    ((writeEffect_seqControl _ _ _ _ hn).trans heff)

/-- HALT of an armed channel waits for its start (R517). -/
theorem debugHaltEff_armed (h : s.rd (K.BC_STATE n) = Bc.armed) :
    debugHaltEff n s = (Ans.ok,
      (s.setChan n { s.chan n with haltAt := some ((s.chan n).haltAt.getD s.tm.tick) }).wr (K.DBG_SEQ_STATE n) 1) := by
  unfold debugHaltEff
  dsimp only
  rw [h, if_neg (by decide), if_neg (by decide)]

/-- STEP and RESUME of a channel that the debug port holds (R518, R519). -/
theorem debugGoEff_held (step : Bool) (h : s.rd (K.BC_STATE n) = Bc.hold) (hcause : s.rd (K.CS_HOLD_CAUSE n) = 6) :
    debugGoEff n step s = (Ans.ok,
      ((s.setChan n { s.chan n with stepping := step }).wr (K.DBG_SEQ_STATE n) (if step then 3 else 0)).goOn n) :=
  if_neg (by simp [h, hcause])

theorem State.debugLocked_due {tick : Nat} (hdev : s.dev = .running) (hend : s.dbg.unlockEnd = some tick) (hdue : tick ≤ s.tm.tick) :
    exec .debugLocked s = .next s.debugLock.settle := by
  refine live_eq hdev ?_
  dsimp only
  rw [hend]
  exact if_pos hdue

/-- Settles O58: the requests by `debugReq_taken`, the writes by `debugWrite_carried`, the control of a sequencer by its effect. -/
theorem debugCommandsComplete : Obligations.DebugCommandsComplete := by
  unfold Obligations.DebugCommandsComplete
  intro r m ss s t u n
  refine ⟨fun h => ?_, fun index sub form code data h hform hans => ?_,
    fun index sub value key hkey h hpos hmax hmirror hrole hcheck heff => ?_, fun tc a count h ha htc hpos hmax hrange => ?_,
    fun tc a data h ha htc hpos hmax hrole hmirror hrange => ?_, fun q blocks d b h hpos hmax hd hlow hhigh hb => ?_,
    fun op hdev hcrc => live_eq hdev (debugReq_misfit hcrc), fun h => writeCmd_carried h rfl,
    fun tick hdev hend hdue => State.debugLocked_due hdev hend hdue, fun h hmirror hrole hst hu => ?_,
    fun h hmirror hrole hst hcause hu => ?_, fun h hmirror hrole hst hcause hu => ?_⟩
  case refine_1 =>
    have ⟨hdev, _, _, hlen, _⟩ := h
    exact live_eq hdev (debugReq_taken h (beq_iff_eq.mpr (BitVec.eq_of_toNat_eq hlen)))
  case refine_2 =>
    have ⟨hdev, _, _, hlen, _⟩ := h
    have hfit : (r.length == 4 && decide (form.toNat ≤ 1)) = true := by
      simp only [BitVec.eq_of_toNat_eq (y := 4) hlen, hform, beq_self_eq_true, decide_true, Bool.and_self]
    refine live_eq hdev ((debugReq_taken h hfit).trans ?_)
    dsimp only
    rw [hans]
  case refine_3 =>
    subst hkey
    exact live_eq h.1 (debugWrite_carried h hpos hmax hmirror hrole hcheck heff)
  case refine_4 =>
    have ⟨hdev, _, _, hlen, _⟩ := h
    have hfit : (r.length == 14 && decide (a.toNat < 2 ^ 40)) = true := by
      simp only [BitVec.eq_of_toNat_eq (y := 14) hlen, ha, beq_self_eq_true, decide_true, Bool.and_self]
    refine live_eq hdev ((debugReq_taken h hfit).trans ?_)
    dsimp only
    rw [if_neg (by omega), hrange]
    rfl
  case refine_5 =>
    have ⟨hdev, _, _, hlen, _⟩ := h
    have hfit : (r.length.toNat == 12 + data.length && decide (1 ≤ data.length) && decide (data.length ≤ 1024) &&
        decide (a.toNat < 2 ^ 40)) = true := by simp only [hlen, hpos, hmax, ha, beq_self_eq_true, decide_true, Bool.and_self]
    exact live_eq hdev ((debugReq_taken h hfit).trans (State.debugStore_writes htc hrole hmirror hrange))
  case refine_6 =>
    have hin : ¬ s.PeekOutside q.toNat blocks.toNat := by
      unfold State.PeekOutside State.ringDistance
      omega
    rw [exec_journalPeek_taken h, State.peekAnswer_inside hin hb]
  case refine_7 =>
    exact live_eq h.1 (debugWrite_seqControl h hmirror hrole n.isLt (.inl rfl) (hu ▸ debugHaltEff_armed hst))
  case refine_8 =>
    exact live_eq h.1 (debugWrite_seqControl h hmirror hrole n.isLt (.inr (.inl rfl)) (hu ▸ debugGoEff_held true hst hcause))
  case refine_9 =>
    exact live_eq h.1 (debugWrite_seqControl h hmirror hrole n.isLt (.inr (.inr rfl)) (hu ▸ debugGoEff_held false hst hcause))

end Sys2Proof.Machine
end
